-- ==== Sys2Proof/Word.lean ====
section
/-! DEFINITION. Word.lean: the word types and the units of time. -/

namespace Sys2Proof

/-- A 32-bit register word (R523). -/
abbrev Word := BitVec 32
/-- A byte of host memory. -/
abbrev Byte := BitVec 8
/-- A 64-bit word: a record word (R250), an event-queue entry (R408). -/
abbrev DWord := BitVec 64

/-- A device time as one number of ticks: SECONDS × 512,000,000,000 + SUBSEC (R2, R76). -/
abbrev Label := Nat

/-- Ticks per second (R2). -/
def ticksPerSecond : Nat := 512000000000
/-- Ticks per frame (R2). -/
def ticksPerFrame : Nat := 16000000
/-- Ticks per core cycle (R2). -/
def ticksPerCore : Nat := 640
/-- Ticks per microsecond (R2: 512 ticks per ns). -/
def ticksPerUs : Nat := 512000
/-- Ticks per millisecond. -/
def ticksPerMs : Nat := 512000000

/-- Function numbers f = port × 0x80 + number (R402). -/
abbrev FnId := Fin 256
/-- Ports: 0 is port A, 1 is port B (R355). -/
abbrev PortId := Fin 2
/-- Front-end banks (R15). -/
abbrev BankId := Fin 8
/-- Channel positions within a bank (R110). -/
abbrev ChanId := Fin 64
/-- Partitions and their sequencers (R22). -/
abbrev PartId := Fin 8
/-- Ring pairs of a function (R314). -/
abbrev PairId := Fin 8
/-- Detectors: 0 to 127 per bank, 128 to 135 global pattern detectors (R144). -/
abbrev DetId := Fin 136
/-- Pseudo-channels (R15). -/
abbrev PcId := Fin 64
/-- Mailbox channels (R411). -/
abbrev MbxId := Fin 16
/-- Power domains by number; 0 names none (R33). -/
abbrev DomId := Fin 31

end Sys2Proof
end

