-- ==== Sys2Proof/Syntax.lean ====
section
/-! DEFINITION. Syntax.lean: the commands of the block, one constructor per row of the table of operations and
events, with the operands the row's rule names. A command happens at an instant; where its rule depends on that
instant or on a label, the operand `t` is the label (R76). -/

namespace Sys2Proof

/-- The header every command descriptor carries (R321), with the place it came from: the function, its ring pair and
the ring position of the descriptor, which the completion names (R322). -/
structure Cmd where
  fn : FnId
  pair : PairId
  index : Nat
  tag : Nat
  interrupt : Bool
  deriving DecidableEq, Repr

/-- What an access to BAR0 or BAR2 is (R364): its width in bytes. -/
inductive Access.Width where
  | w8 | w16 | w32 | w64
  deriving DecidableEq, Repr

/-- The two comparators of a channel (R110). -/
inductive Cmp where
  | u | l
  deriving DecidableEq, Repr

/-- The causes of a loss of lock (R58, R492 code 0x0A). -/
inductive LossCause where
  | phase | input | lockFilt
  deriving DecidableEq, Repr

/-- The result of the LOCK_FILT pin test (R57). -/
inductive PinTest where
  | ok | open | short
  deriving DecidableEq, Repr

/-- The failing completions of R367. -/
inductive CplError where
  | ur | ca | poisoned
  deriving DecidableEq, Repr

/-- The tags of a port (R356, R362): 14-bit in FLIT mode, else 10-bit or 8-bit as configuration software enables. -/
inductive TagWidth where
  | bits14 | bits10 | bits8
  deriving DecidableEq, Repr

/-- The causes of a Scarab or Firefly restart (R451, R492). -/
inductive CoreFault where
  | watchdog | lockStep | memory
  deriving DecidableEq, Repr

/-- A crossing of R30 by its number, 23 for staging SRAM (R492). -/
abbrev CrossingId := Fin 24

/-- Errors that the reads for a delivery meet: pseudo-channels of the errors the ECC corrected (R298), words it could not
correct (R299), words that fail parity in a queue or in staging SRAM (R30, R250). Words are counted from the first one
that the command reads. -/
structure ReadErrors where
  ce : List PcId := []
  ue : List (PcId × Nat) := []
  parity : List (CrossingId × Nat) := []
  deriving DecidableEq, Repr

/-- Where the scrubber finds a word that it cannot correct (R299): a byte position of a partition's stream, a word of a
segment, by the segment's number and the word's, or a reserved region. -/
inductive MemPlace where
  | stream (p : PartId) (pos : Nat)
  | segment (p : PartId) (key word : Nat)
  | reserved
  deriving DecidableEq, Repr

/-- A section entry of an image header (R436); `pad` holds its bytes that must be 0. -/
structure Section where
  type : Nat := 0
  offset : Nat := 0
  length : Nat := 0
  pad : Nat := 0
  deriving DecidableEq, Repr

/-- What Firefly finds in one image copy (R434 to R437): whether the reads of its header and of its payload succeed, the
header's fields with its 8 section entries (an entry not listed is all 0), whether the hash of its public keys is the fused
one, its two signatures verify and its payload digest matches (R439), and what its BOARD_CONFIG section holds. -/
structure ImageCopy where
  headerRead : Bool
  payloadRead : Bool
  magic : Word
  format : Nat
  sectionCount : Nat
  imageLength : Nat
  version : Word
  epoch : Nat
  keySlot : Nat
  sections : List Section
  keyHashOk : Bool
  edSigOk : Bool
  mldsaSigOk : Bool
  digestOk : Bool
  boardId : Nat
  deviceId : Nat
  bootCalRestore : Bool
  chrysalisEn : Bool
  deriving DecidableEq, Repr

/-- What Firefly finds in the certificate area of the flash (R438): its header's fields, whether its CRC matches, and
whether each identity certificate names the public key that Firefly derives. -/
structure CertArea where
  magic : Word
  length : Nat
  count : Nat
  crcOk : Bool
  keysOk : Bool
  deriving DecidableEq, Repr

/-- The commands of the block, in the order of the table. An operand with a default is what is measured or found along
with the event (a phase error, a word that fails its parity, bytes read): a sender that has nothing of it leaves it out. -/
inductive Instr where
  -- register and event-queue accesses
  | registerWrite (f : FnId) (bar2 : Bool) (off : Nat) (w : Access.Width) (v : DWord)
  | evqPop (f : FnId) (wide : Bool)
  -- time
  | secondBoundary
  | frameStart (t : Label)
  | blockBoundary (p : PartId) (t : Label) (parity : List (CrossingId × Nat) := [])
  -- clock synthesis
  | sysPllLockLoss
  | sysPllRelockDone
  | refclkQualified (phaseErr : Int)
  | refclkLost
  | refFreqAutoMeasure (nominal : Option (Fin 3)) (offset : Int)
  | lockFiltPinTest (r : PinTest)
  | spllLockDeclared (analog : Bool) (mv phaseErr cycles : Nat := 0)
  | spllLockLoss (cause : LossCause) (phaseErr mv : Nat := 0)
  | relockComplete (xoCycles : Nat)
  | relockFailed
  | relockRetryTimeout
  | relock (f : FnId)
  | trimWrite (f : FnId) (v : Word)
  | refSelWrite (f : FnId) (refSel refFreq : Fin 4)
  | syncInEdge (t : Label := 0)
  | syncRestart (moved : BitVec 6) (coreMove : Int)
  | soFire (f : FnId)
  | syncOutPulse (t : Label)
  | ppsEdge (t : Label) (rising : Bool)
  | ppsIntervalEnd
  | setReq (f : FnId)
  | ppsEnWrite (f : FnId) (en : Bool)
  | ktcFrame (t : Label) (frame : List Byte) (delimiterOk : Bool)
  -- front end and inputs
  | channelCrossing (b : BankId) (c : ChanId) (cmp : Cmp) (rising : Bool) (tPin : Label)
  | stclkEdge (b : BankId) (rising : Bool) (tPin : Label)
  | triginEdge (n : Fin 4) (rising : Bool) (tPin : Label)
  | calStart (f : FnId) (b : BankId) (v : Word)
  | calStepDone (b : BankId) (tileTemp : Int) (means : List Nat)
  | calExtTimeout (b : BankId)
  | autoThresholdDone (p : PartId) (swings : List (Nat × Option Nat × Option Nat))
  | bankFault (b : BankId) (code : Fin 256) (chan : ChanId)
  | softReset (f : FnId) (b : BankId)
  | softResetDone (b : BankId)
  | bankResume (b : BankId) (t : Label)
  -- detectors
  | detectorEvent (d : DetId)
  | timeoutExpiry (d : DetId)
  | skewExpiry (d : DetId)
  | patternLongerExpiry (d : DetId)
  -- sequencers
  | sequencerSample (p : PartId) (s : Label)
  | tmrExpiry (p : PartId) (k : Fin 4)
  | xfStateWrite (f : FnId) (v : Word)
  -- segments
  | firstSampleFixed (p : PartId)
  | fillComplete (p : PartId)
  | rearmIntervalEnd (p : PartId)
  | continuousSegmentEnd (p : PartId) (t : Label)
  | earlyShipWrite (f : FnId) (pair : PairId) (words : Nat) (e : ReadErrors := ⟨[], [], []⟩)
  | earlyThrottleChange (p : PartId)
  | segmentDeliveryWrite (f : FnId) (pair : PairId) (words : Nat) (e : ReadErrors := ⟨[], [], []⟩)
  | segmentDeliveryDone (f : FnId) (pair : PairId)
  | modTimeExpiry (f : FnId) (pair : PairId)
  | orphanTimeout (p : PartId)
  -- capture memory
  | rebalanceTick
  | scrubPass (ce : List PcId) (ue : List (PcId × MemPlace))
  | pcRetireDetect (n : PcId) (cause : Fin 3)
  | memRetireCmd (f : FnId) (v : Word)
  | remapDone
  | captureResume (p : PartId) (t : Label)
  | mirrorRebuildDone
  -- commands of the rings
  | descriptorFetchDone (f : FnId) (pair : PairId) (tag : Nat) (bytes : List Byte := [])
  | partitionCreate (c : Cmd) (p : Nat) (banks : BitVec 8) (ring : Nat) (mode : BitVec 8) (contFrames : Nat) (pretrig posttrig : Nat)
  | partitionDestroy (c : Cmd) (p : Nat)
  | bankConfig (c : Cmd) (bank : Nat) (flags : BitVec 8) (mask : BitVec 64) (image : List Word)
  | detectorLoad (c : Cmd) (p : Nat) (flags : BitVec 8) (entries : List (Nat × List Word)) (bad : Option Nat)
  | sequencerLoad (c : Cmd) (p : Nat) (flags : BitVec 8) (levels : BitVec 16) (image : List Word)
  | arm (c : Cmd) (p : Nat)
  | disarm (c : Cmd) (p : Nat)
  | forceTrigger (c : Cmd) (p : Nat)
  | subscribe (c : Cmd) (p : Nat) (ring : Nat) (mode : Nat) (token : Nat)
  | partitionClaim (c : Cmd) (p : Nat) (ring : Nat) (token : Nat)
  | unsubscribe (c : Cmd) (p : Nat) (ring : Nat)
  | grantIssue (c : Cmd) (p : Nat) (modes : BitVec 8) (target : BitVec 16)
  | grantRevoke (c : Cmd) (p : Nat) (token : Nat)
  | grantRevokeAll (c : Cmd) (p : Nat)
  | readBackSegment (c : Cmd) (p : Nat) (ring : Nat) (segId epoch : Nat)
  | readBackRange (c : Cmd) (p : Nat) (ring : Nat) (start len : Nat)
  | timeSet (c : Cmd) (seconds : Nat)
  | calibrate (c : Cmd) (banks : BitVec 8) (steps : BitVec 8) (extEdge : Bool) (extTimeout : Nat)
  | policySet (c : Cmd) (p : Nat) (select : BitVec 8) (block : List Word)
  | queryFunction (c : Cmd) (addr : Nat)
  | queryPartition (c : Cmd) (addr : Nat) (p : Nat)
  | queryCounter (c : Cmd) (addr : Nat) (item : Nat)
  | powerPinRelease (c : Cmd) (d : Nat)
  | powerPinOn (c : Cmd) (d : Nat)
  | powerForbidOff (c : Cmd) (d : Nat)
  -- ring registers and doorbells
  | dbSqTail (f : FnId) (pair : PairId) (v : DWord)
  | dbCqHead (f : FnId) (pair : PairId) (v : DWord)
  | ringEnable (f : FnId) (pair : PairId) (v : Word)
  | ringDisable (f : FnId) (pair : PairId) (v : Word)
  -- endpoint
  | epErrPop (f : FnId) (wide : Bool)
  | completionTimeout (f : FnId) (tag : Nat)
  | unexpectedCompletion (f : FnId) (tag : Nat)
  | tagQuarantineEnd (f : FnId) (tag : Nat)
  | completionError (f : FnId) (tag : Nat) (e : CplError)
  | poisonedRequest (f : FnId) (bar2 : Bool) (off : Nat)
  | malformedRequest (port : PortId) (f : Option FnId)
  | atsFault (f : FnId) (tag : Nat)
  | atsInvalidation (f : FnId)
  | epContained (f : FnId)
  | containRelease (f : FnId) (v : Word)
  | containReleaseDone (f : FnId)
  | bmeClear (f : FnId)
  | bmeSet (f : FnId)
  | devctl2CtoWrite (f : FnId) (v : Fin 16)
  | flr (f : FnId)
  | vfEnableClear (port : PortId)
  | d3hotEntry (f : FnId)
  | d0Return (f : FnId)
  | d3coldEntry
  | wakeTriginEdge (n : Fin 4) (rising : Bool)
  | portLinkDown (port : PortId)
  | portLinkUp (port : PortId) (speed : Fin 8) (width : Nat) (tags : TagWidth)
  | linkRecovery (port : PortId)
  -- register services
  | snapRead (f : FnId) (item : BitVec 16)
  | snapReadClear (f : FnId) (item : BitVec 16)
  | snapLoad (f : FnId) (item : BitVec 16)
  | snapshotCaptureDone (port : PortId)
  | voteScrub (off : Nat) (lsb : Fin 32)
  | slowWindowWrite (f : FnId) (off : Nat) (v : Word)
  | slowDataWrite (f : FnId) (v : Word)
  | slowDataRead (f : FnId)
  | slowWriteLanded
  -- mailboxes
  | mbxDoorbell (f : FnId) (ch : MbxId) (seq : BitVec 16)
  | mbxTake (ch : MbxId) (block : List Byte)
  | mbxDone (ch : MbxId)
  | mbxHostEnable (f : FnId) (v : Word)
  | noticeWrite (f : FnId)
  | mbxHostAck (f : FnId) (v : BitVec 16)
  -- messages to Firefly and Scarab
  | fwUpdate (f : FnId) (ch : MbxId) (img : ImageCopy)
  | epochAdvance (f : FnId) (ch : MbxId)
  | keyRevoke (f : FnId) (ch : MbxId) (slot : Byte)
  | secInfo (f : FnId) (ch : MbxId)
  | getInfo (f : FnId) (ch : MbxId)
  | telemetryRead (f : FnId) (ch : MbxId)
  -- attestation over DOE
  | getVersion (port : PortId)
  | getCapabilities (port : PortId)
  | negotiateAlgorithms (port : PortId) (offersEd25519 offersSha384 : Bool)
  | getDigests (port : PortId)
  | getCertificate (port : PortId) (slot : Fin 8) (offset length : Nat)
  | challenge (port : PortId) (slot : Fin 8) (nonce : List Byte)
  | getMeasurements (port : PortId) (index : Fin 256) (signed : Bool) (nonce : List Byte)
  | spdmUnsupportedRequest (port : PortId) (code : Byte)
  | recoveryImageObject (offset : Nat) (data : List Byte)
  | recoveryImageEnd (img : ImageCopy)
  -- reset, boot and management
  | perstAssert
  | perstRelease (a b : ImageCopy)
  | hotReset
  | bootImageVerified (copyB : Bool)
  | certAreaReadDone (area : CertArea)
  | reducedServiceDeclared (badCal : BitVec 8 := 0)
  | hbmTrainingDone (stack : Fin 2) (ok : Bool) (attempts : Nat)
  | eclosion (t : Label)
  | scarabWatchdogExpiry (cause : CoreFault)
  | scarabRestarted
  | fireflyRestart (cause : CoreFault)
  | telemetrySample (temps : List Int) (volts : List Nat)
  | thermGate
  | thermWarn
  | thermStop
  | thermTrip
  -- power
  | domainIdleTimeout (d : DomId)
  | domainWake (d : DomId)
  | domainPowerOff (d : DomId)
  | domainPowerOn (d : DomId)
  | pwrBankEnWrite (f : FnId) (v : Word)
  | vauxPowerOn
  | mainRailsValid (portMode devidSrc : Bool)
  | railFault (rail : Fin 8)
  -- faults
  | cfgPatrol (upsets : List (Nat × Bool))
  | fltPop (port : PortId) (wide : Bool)
  | fltPinCauseClear (f : FnId) (v : Word)
  | faultTest (f : FnId) (on : Bool)
  | clearCounts (f : FnId)
  | smbusReadByte (code : Byte)
  -- configuration space and remaining events
  | memorySpaceEnableWrite (f : FnId) (on : Bool)
  | msixVectorUnmask (f : FnId) (vec : Option (Fin 256))
  | vauxLoss
  | railFaultRestart
  | refReturnComplete (err : Int)
  | aspmL1Entry (port : PortId)
  | hbmPhyRetrain (n : PcId) (us : Nat)
  deriving DecidableEq, Repr

end Sys2Proof
end

