-- ==== Sys2Proof/Decode.lean ====
section
/-! DEFINITION. Decode.lean: the command that a word spells by the table's bits. The table gives no row any bits: the
block has no instruction words, its commands come as accesses, ring commands, messages and events. -/

namespace Sys2Proof

/-- The rows of the table that give bits, as (bits of the row, mask, value, command): none of the 185 does. -/
def decodeRows : List (Nat × Nat × Nat × Instr) := []

/-- The command that a word of `nbits` bits spells by the table's rows. -/
def decodeTableWord (nbits w : Nat) : Option Instr :=
  (decodeRows.find? fun r => r.1 == nbits && decide (Nat.land w r.2.1 = r.2.2.1)).map fun r => r.2.2.2

end Sys2Proof
end

