-- ==== Sys2Proof/Config.lean ====
section
/-! DEFINITION. Config.lean: what the spec leaves to the part or leaves open. The opaque constants have no body: no proof can
see a value of them. -/

namespace Sys2Proof.Config

/-- Whether the part was ordered as DG-A512-B1-CK (R14). -/
opaque orderedCk : Bool
/-- VARIANT, fused at manufacture: no shipped device carries a value but these two (R14). -/
def variant : BitVec 8 := if orderedCk then 2 else 1
/-- What a keep bit holds after a write that changed it (R394: undocumented test controls), for the n-th such write. -/
opaque keepBits : Nat → Word
/-- The token that a GRANT ISSUE draws (R338), for the n-th draw; the device maps it to a free non-zero token. -/
opaque grantToken : Nat → BitVec 16
/-- A word of data whose content the spec does not give, for the n-th such word. -/
opaque freeWord : Nat → DWord
/-- A number the spec does not give, for the n-th such number. -/
opaque freeNat : Nat → Nat
/-- The last unit of the live offset that dithering adds in a core cycle (R86), by the cycle's number. -/
opaque dither : Nat → Bool
/-- Which of the surviving stripes of the dissolved pages replaces the stripe of a retired pseudo-channel (R302): by
partition, page of its stream and retirement. -/
opaque spareStripe : Nat → Nat → Nat → Nat
/-- SHA-384 (R444), as an uninterpreted function of the bytes. -/
opaque sha384 : List Byte → List Byte
/-- The Ed25519 alias signature of a message (R445). -/
opaque edSign : List Byte → List Byte
/-- The ML-DSA-65 alias signature of a message (R446). -/
opaque mldsaSign : List Byte → List Byte
/-- The byte string of slot 0's Ed25519 certificate chain, by the booted image's FW_VERSION word (R445). -/
opaque certChain : Word → List Byte
/-- The ML-DSA-65 alias public key and its chain, by the booted image's FW_VERSION word (R446). -/
opaque mldsaChain : Word → List Byte
/-- Digest of the Firefly boot ROM, and SHA-384 of the booted image's signed message and BOARD_CONFIG section
(R446, measurements 1 to 3), by measurement and FW_VERSION word. -/
opaque measurement : Nat → Word → List Byte

end Sys2Proof.Config
end

