-- ==== Sys2Proof/Machine/State.lean ====
section
/-! DEFINITION. Machine/State.lean: the state of the block as plain data, its outcomes, and the state after reset.
A table indexed by a number (a bank, a detector, a function) is a sparse map: the entries that differ from the reset
entry, in rising key order. -/

namespace Sys2Proof.Machine

/-- Why a command stops with a fault: none does, since the spec gives every command an effect. -/
inductive Fault where
  deriving DecidableEq, Repr

/-- Why a command is refused. -/
inductive Refusal where
  /-- Raised by the arms of `exec` for a command that has no meaning yet. Safe: the model stops. -/
  | notModelled (mnemonic : String)
  deriving DecidableEq, Repr

/-- A sparse map from numbers: its entries in rising key order, none of them the default entry. -/
abbrev Sp (α : Type) := List (Nat × α)

/-- What leaves the block: messages, host writes, completions of reads, pins. The newest is first in `State.out`. -/
inductive Out where
  /-- An MSI-X message of a function on a vector (R361). -/
  | msix (f vec : Nat)
  /-- The data of a BAR read. -/
  | readData (f : Nat) (v : DWord)
  /-- A completion with Unsupported Request status (R364), or an Unsupported Request reported for a write. -/
  | unsupported (f : Nat)
  /-- A completion with Completer Abort status (R398). -/
  | completerAbort (f : Nat)
  /-- A write to host memory: address, bytes, and whether the TLP carries the EP bit (R251). -/
  | hostWrite (f : Nat) (addr : Nat) (data : List Byte) (poisoned : Bool)
  /-- A read request to host memory, with its tag (R362). -/
  | hostRead (f : Nat) (tag : Nat)
  /-- An error reported through AER, by error-log code (R364, R366). -/
  | aer (f : Nat) (code : Nat)
  /-- FAULT# pulled low or released (R493). -/
  | faultPin (low : Bool)
  /-- THTRIP# asserted (R453). -/
  | thtrip
  /-- WAKE# asserted or released (R379). -/
  | wake (low : Bool)
  /-- A PME message of a port (R379). -/
  | pme (port : Nat)
  /-- A TRIGOUT pulse: output, leading-edge time, end time; an extension of an active pulse makes no new edge (R197). -/
  | trigout (n : Nat) (lead : Label) (until_ : Label) (newEdge activeLow : Bool)
  /-- The pin of a TRIGOUT output goes to a level outside a pulse's edges: the output is disabled, or its polarity changes
  (R214). -/
  | trigoutPin (n : Nat) (high : Bool)
  /-- A SYNC_OUT pulse: instant of the rising edge's SYNC cycle, width in SYNC cycles (R52), and the output delay in
  effect, in ticks (R45). -/
  | syncOut (t : Label) (width delay : Nat)
  /-- The byte an SMBus Read Byte returns, or none for a NACK (R521). -/
  | smbus (v : Option Byte)
  /-- A DOE response of a port (R444): an SPDM response code and its bytes. -/
  | doe (port : Nat) (code : Byte) (data : List Byte)
  /-- A port enters ASPM L1 (R380). -/
  | aspmL1 (port : Nat)
  /-- A completed ATS invalidation (R358). -/
  | atsInvalidationDone (f : Nat)
  deriving DecidableEq, Repr

/-- A crossing of the crossing stream (R115): its label, channel position, comparator and direction. -/
structure Crossing where
  label : Label
  chan : Nat
  cmp : Cmp
  rising : Bool
  deriving DecidableEq, Repr

/-- A piece of an interruption of storing (R277, R485): reason, detail, where it begins. -/
structure Gap where
  reason : Nat
  detail : Nat
  from_ : Label
  deriving DecidableEq, Repr

/-- A record of the stream (R254 to R280): its words, the bank it belongs to if one, and what of it the packer indexes. -/
structure Rec where
  bank : Option Nat
  /-- First and last instant the record stands for. -/
  first : Label
  last : Label
  words : List DWord
  /-- Word indexes that fail parity (R250). -/
  bad : List Nat := []
  /-- Those of them whose content is lost with a retired pseudo-channel: they read as all ones (R301, R302). -/
  gone : List Nat := []
  /-- Blocks of the record forced by the limit rule (R263). -/
  lim : Nat := 0
  deriving DecidableEq, Repr

/-- A state sample of a state-mode bank (R119, R271). `u` and `l` are read from the crossing stream when it is packed. -/
structure StateSample where
  label : Label
  rising : Bool
  u : DWord := 0
  l : DWord := 0
  /-- State-sample count since ARM (R166). -/
  index : Nat := 0
  /-- STORE at this sample, once the sequencer has evaluated it (R272). -/
  store : Bool := true
  /-- Used edges removed between the sample before it and this one (R120). -/
  lost : Option Nat := none
  deriving DecidableEq, Repr

/-- A crossing on its way to the detectors, or a narrow-pulse notice when `width` is not 0 (R116, R151). -/
structure Feed where
  x : Crossing
  width : Nat := 0
  deriving DecidableEq, Repr

/-- A front-end bank with its packer: what is not in a register. -/
structure Bank where
  /-- Comparator states set by the crossings still in the stream; the same at the start of the block being taken. -/
  lvlU : DWord := 0
  lvlL : DWord := 0
  startU : DWord := 0
  startL : DWord := 0
  /-- Crossings not yet packed, in label order (R115, R267). -/
  cross : List Crossing := []
  /-- Label + 1 of the last crossing in the stream, by 2 × channel + comparator (R116). -/
  lastX : Sp Nat := []
  /-- Crossings and notices the detectors have yet to take, in label order, and the comparator states they have seen
  (R151, R163). -/
  feed : List Feed := []
  fedU : DWord := 0
  fedL : DWord := 0
  /-- Pairs removed (R116, R266), by the frame that holds the first crossing: the frame that starts at `countFrom`, the
  one before it, and later ones. -/
  merged : Nat := 0
  mergedPrev : Nat := 0
  mergedNext : Nat := 0
  countFrom : Label := 0
  /-- Armed in reduced service, or since reduced service began: 0.8 GS/s in single mode with the TDCs off (R132). -/
  slow : Bool := false
  /-- The ARM that last changed thresholds or hysteresis: its instant + 1, and the channels it changed (R113). -/
  thrAt : Nat := 0
  thrChans : List Nat := []
  /-- State clock: label + 1 of the last edge still in the stream, state samples since ARM, those not yet packed, the
  last one packed and kept, and the run of which a STATE_BLOCK is being built (R119, R120, R271). -/
  stEdge : Nat := 0
  stCount : Nat := 0
  stSamples : List StateSample := []
  stPassed : Option Label := none
  stRun : List StateSample := []
  /-- State mode (R5): the boundary from which on the bank resumes with its first state sample, and that sample. -/
  stResume : Option Label := none
  stBack : Option Label := none
  /-- Used edges removed since the last state sample taken, once a pair has been removed (R120). -/
  stLost : Option Nat := none
  /-- Frame start + 1 of the last FRAME record; the records of the frame that wait for its first block (R275). -/
  frameAt : Nat := 0
  due : List Rec := []
  /-- Pieces of this bank's own interruption, oldest first (R485). -/
  gaps : List Gap := []
  /-- The stop was caused by a fault (R133); a soft reset runs; a soft reset has completed and the bank waits to
  resume; no recovery follows. -/
  faulted : Bool := false
  softRun : Bool := false
  softDone : Bool := false
  stuck : Bool := false
  /-- Elapsed time + 1 at which the last soft reset ended (R133 step 4). -/
  softAt : Nat := 0
  /-- Elapsed time + 1 of the last recovery (R133). -/
  recovered : Nat := 0
  /-- Calibration: steps still to run after the running one (R125). -/
  calSteps : List Nat := []
  /-- Encoding (R273, R274): transition words and blocks of this frame; frames counted toward HOLD with their words and
  blocks; a decision that waits: frames to go, new PREF, MODE counts. -/
  forced : Bool := false
  frameWords : Nat := 0
  frameBlocks : Nat := 0
  holdCount : Nat := 0
  holdWords : Nat := 0
  holdBlocks : Nat := 0
  prefDue : Option (Nat × Nat × Nat × Nat) := none
  /-- Scarab restarted in this frame: it is not evaluated (R282). -/
  evalOff : Bool := false
  /-- The run of transition words being built (R269): first block, last block, start of the first. -/
  runFirst : Option Nat := none
  runLast : Nat := 0
  runFrom : Label := 0
  runWords : List Word := []
  /-- State samples discarded in this interruption (DETAIL of OVERFLOW). -/
  lost : Nat := 0
  /-- 64-bit words in X04 while it cannot drain (R31, R40). -/
  x04 : Nat := 0
  deriving DecidableEq, Repr

/-- A detector event on its way to the sequencer (R147). -/
structure Ev where
  /-- Term selector that the event raises (R177); a TRIGIN edge also raises the "either" selector. -/
  sel : Nat
  time : Label
  exact : Bool
  sample : Label
  aux : Nat
  deriving DecidableEq, Repr

/-- The running state of a detector (R163): open measurement and pending events. -/
structure Det where
  /-- Opening label of a pulse, runt, transit or pattern interval, with its direction. -/
  openAt : Option (Label × Bool) := none
  /-- SLEW: opening label of a falling transit (R157). -/
  openDown : Option Label := none
  /-- TIMEOUT: r, while it is running (R156). -/
  base : Option Label := none
  /-- SKEW: unresolved crossings of CHAN_A and, with REPEAT, of CHAN_B; recent crossings of each side (R158, R159). -/
  skewA : List (Label × Nat) := []
  skewB : List (Label × Nat) := []
  recentA : List Label := []
  recentB : List Label := []
  /-- PATTERN_DURATION: the pattern held at the last label; LONGER already fired in this interval. -/
  held : Bool := false
  fired : Bool := false
  /-- Global pattern detector: match at the last sample (R161). -/
  matched : Bool := false
  /-- Events fired and not yet presented, oldest first, one for each sample; SAMPLE of the event presented last
  (R150). -/
  events : List Ev := []
  shown : Option Nat := none
  /-- Latest event (R150). -/
  lastTime : Label := 0
  lastAux : Nat := 0
  /-- Disabled by an uncorrectable configuration word until the next ARM (R484). -/
  ue : Bool := false
  deriving DecidableEq, Repr

/-- A sequencer timer (R189): value, running or stopped, and the label up to which the value is counted. -/
structure Tmr where
  value : Nat := 0
  running : Bool := false
  at_ : Label := 0
  deriving DecidableEq, Repr

/-- A trigger sequencer (R176). -/
structure Seq where
  level : Nat := 0
  occ : Nat := 0
  entryT : Label := 0
  cnts : Sp Nat := []
  /-- Counter values at the start of the core cycle `cycle` (R188). -/
  cntsCycle : Sp Nat := []
  cycle : Nat := 0
  tmrs : Sp Tmr := []
  store : Bool := false
  running : Bool := false
  /-- Stopped by an uncorrectable configuration word (R484); branches disabled the same way, as 4 × level + branch. -/
  stopped : Bool := false
  deadBranches : List Nat := []
  /-- Events presented and not yet evaluated (R149, R191); expiries waiting for the next sample (R190). -/
  inbox : List Ev := []
  expiries : List (Nat × Label) := []
  /-- The previous sample's label, and whether there is one. -/
  prev : Option Label := none
  /-- First sample of the armed interval, moved with every time step (R199). -/
  first : Label := 0
  /-- State samples evaluated since ARM. -/
  stateCount : Nat := 0
  /-- Timers started in the sample being evaluated (R190); a branch has performed TRIGGER in it (R200). -/
  fresh : List Nat := []
  trigNow : Bool := false
  /-- FORCE_TRIGGERs that wait for the next sample (R200). -/
  force : List Cmd := []
  /-- Last change made to each flag in the current core cycle: flag, set (R196). -/
  xfChange : List (Nat × Bool) := []
  deriving DecidableEq, Repr

/-- A segment (R217 to R227). `key` orders the partition's segments by opening. -/
structure Seg where
  key : Nat
  cand : Nat
  /-- OPEN's sample, PRETRIG and POSTTRIG at the opening (R219, R8). -/
  openT : Label
  pretrig : Nat
  posttrig : Nat
  /-- First stored sample, once fixed (R220), and the stream position of the first record of the segment. -/
  start : Option Label := none
  /-- The first stored sample as the header states it: in the timeline in force when it was fixed. -/
  startW : Label := 0
  startPos : Nat := 0
  preShort : Bool := false
  earlyTrig : Bool := false
  empty : Bool := false
  /-- Bit Q of the SEGMENT_HEADER as written at the opening (R254, R261). -/
  q : Bool := false
  /-- Words of its SEGMENT_HEADER that fail parity (R250), and those of them that are lost (R301). -/
  headBad : List Nat := []
  headGone : List Nat := []
  /-- SEGMENT_ID and EPOCH, once committed (R222), with the fill end E. -/
  id : Option Nat := none
  epoch : Nat := 0
  fillEnd : Label := 0
  /-- Once committed: the segment that gave F, and its last stored sample (R219, R227). -/
  prevKey : Option Nat := none
  prevEnd : Option Label := none
  /-- Dead time, configuration digest, TIMELINE and quality of the header's later stages (R261). -/
  dead : Nat := 0xFFFFFFFFFFFF
  digest : DWord := 0
  timeline : Nat := 0
  quality : Nat := 0
  /-- The header's word 3 without PRE_SHORT, as written at the opening. -/
  word3 : DWord := 0
  /-- TRIGGER records with the stream position at which each was placed (R259). -/
  trigs : List (Nat × Rec) := []
  /-- Sequencer counters at the last stored sample, once the sequencer has passed E (R263). -/
  cnts : Option (List Nat) := none
  /-- Imago: last stored sample, end position of its records in the stream, TRAILER with the PAD before it. -/
  imago : Bool := false
  /-- State mode: its last stored sample is known though it is not imago yet; number of its commit; words of it, once
  imago. -/
  endKnown : Bool := false
  ord : Nat := 0
  len : Nat := 0
  last : Option Label := none
  endPos : Nat := 0
  truncated : Bool := false
  tail : List Rec := []
  /-- Deliveries (function × 8 + pair) that hold it, each with the words of it consumed (R337). -/
  needed : List (Nat × Nat) := []
  deriving DecidableEq, Repr

/-- A grant token (R338): value, allowed modes, target. -/
structure Token where
  value : Nat
  modes : Nat
  target : Nat
  deriving DecidableEq, Repr

/-- An entry of the list of open segments (R221): a placeholder or a larval segment by key. -/
inductive Entry where
  | phantom
  | larval (key : Nat)
  deriving DecidableEq, Repr

/-- A partition (R22, R217): what is not in a register. -/
structure Part where
  armed : Bool := false
  /-- The armed interval has begun: its first sample instant (R259). -/
  begun : Option Label := none
  /-- Start of the block now being taken; the last stored sample instant plus P. -/
  blockAt : Label := 0
  storedTo : Label := 0
  /-- Storing goes on; a sample of the block now being taken has STORE 1 (R272). -/
  storing : Bool := false
  storeAny : Bool := false
  /-- STORE became 0 in the block now being taken (R270); the MODE records of STORE changes in it (R272, R282). -/
  storeCut : Bool := false
  storeModes : List Rec := []
  /-- First labels of the pairs removed by R116 in the armed interval (R263). -/
  pairs : List Label := []
  /-- Pieces of the partition-wide interruption, oldest first (R485), and blocks discarded by it. -/
  gaps : List Gap := []
  /-- Gaps of the armed interval that have ended: END and RESUME. -/
  pastGaps : List (Label × Label) := []
  /-- Stops of storing that wait for the next block boundary: reason and detail. -/
  stopDue : List (Nat × Nat) := []
  /-- The list of open segments (R221), the segments held, and the next numbers. -/
  entries : List Entry := []
  segs : List Seg := []
  nextKey : Nat := 0
  nextId : Nat := 0
  nextCand : Nat := 0
  /-- The most recent committed segment that stored any sample, and its last stored sample (R219). -/
  lastKey : Option Nat := none
  lastEnd : Option Label := none
  /-- Commits so far; the end of the current continuous-stream segment (R226); label + 1 of the last state sample of the
  armed interval that has left memory (R219). -/
  commits : Nat := 0
  contE : Option Label := none
  stGone : Nat := 0
  /-- The COMMITTED re-arm interval runs (R217). -/
  rearm : Bool := false
  /-- The stream: records with their byte positions in order, the position at which the present armed interval began
  and the write position (R292). -/
  recs : List (Nat × Rec) := []
  base : Nat := 0
  writePos : Nat := 0
  /-- Stream pages in the ring list that hold data, oldest first; held pages; pages of the ring (R291). -/
  unheld : List Nat := []
  held : List Nat := []
  ringNow : Nat := 0
  /-- AT_LIMIT (R295, R296), and UNDELIV_PAGES when last counted (R297). -/
  atLimit : Bool := false
  undeliv : Nat := 0
  /-- Grant tokens, newest first (R338). -/
  tokens : List Token := []
  /-- The owner's delivery and the subscriptions: function × 8 + pair (R314, R340). -/
  ownerPair : Option Nat := none
  subs : List Nat := []
  /-- ORPHAN is set by R240 at this elapsed time + 1. -/
  orphanAt : Nat := 0
  /-- Pages pinned by READ_BACKs in progress, one list each (R304). -/
  pins : List (List Nat) := []
  /-- Segments that OVERWRITE_OLDEST releases once no READ_BACK pins a page of theirs (R307). -/
  releases : List Nat := []
  /-- Armed in reduced service: the ring is in staging SRAM (R306). -/
  reduced : Bool := false
  /-- An ARM waits for auto-threshold (R130): its command, the length of the ring it has taken, and what a failure
  restores (R218): the ring's earlier length and the earlier live words, by `Reg.key`. -/
  arming : Option Cmd := none
  armRing : Nat := 0
  oldRing : Nat := 0
  oldLive : List (Nat × Word) := []
  deriving DecidableEq, Repr

/-- A capture buffer (R333, R335): ring index, address, size, bytes written, poison seen. -/
structure Buf where
  index : Nat
  addr : Nat
  size : Nat
  used : Nat := 0
  poison : Bool := false
  deriving DecidableEq, Repr

/-- A completion entry before its PHASE is known (R322, R334): 16 bytes, whether it signals at once, whether it is a
capture completion with LAST, and what it lets a delivery consume (R337): partition, segment key, delivery, words. -/
structure Cpl where
  words : List Byte
  urgent : Bool := false
  last : Bool := false
  consumes : Option (Nat × Nat × Nat × Nat) := none
  /-- Pins of a READ_BACK that are released when the entry is written (R305): partition and pages. -/
  unpins : Option (Nat × List Nat) := none
  /-- Writes to host memory that the entry reports and that are still to be made (R320): address and bytes. -/
  pre : List (Nat × List Byte) := []
  /-- A progress record that follows the entry (R235): address and bytes. -/
  post : List (Nat × List Byte) := []
  deriving DecidableEq, Repr

/-- A delivery bound to a capture pair (R228, R237). -/
structure Delivery where
  part : Nat
  lossy : Bool := false
  subscriber : Bool := false
  /-- Keys of the committed segments waiting, in commit order; the key being delivered, the words of it delivered and
  how many of those carried L. -/
  queue : List Nat := []
  now : Option Nat := none
  words : Nat := 0
  early : Nat := 0
  /-- Words in X07: read whole with their record, and not yet written, each with whether it fails parity (R252). -/
  x07 : List (DWord × Bool) := []
  /-- The SEGMENT_HEADER was delivered before the TRIGGER (R228). -/
  larvalHead : Bool := false
  /-- Skipped segments not yet reported: first ID, EPOCH, count (R343). -/
  skip : Option (Nat × Nat × Nat) := none
  /-- An UNSUBSCRIBE waits for the end of the segment being delivered (R342). -/
  ending : Option Cmd := none
  poisonPosted : Bool := false
  deriving DecidableEq, Repr

/-- A READ_BACK in progress on a capture pair (R304, R305): its command, the records it delivers with their places in the
stream, the segment they make up if one, how many words are delivered, and the words in X07. -/
structure ReadBack where
  cmd : Cmd
  part : Nat
  recs : List (Nat × Rec)
  key : Option Nat := none
  done : Nat := 0
  x07 : List (DWord × Bool) := []
  pages : List Nat := []
  range : Bool := false
  segId : Nat := 0xFFFFFFFF
  epoch : Nat := 0
  trunc : Bool := false
  deriving DecidableEq, Repr

/-- A ring pair of a function: what is not in a register (R314 to R320). -/
structure Pair where
  /-- Submission tail and completion head, as last accepted from the doorbells (R318). -/
  sqTail : Nat := 0
  cqHead : Nat := 0
  /-- What a read of the two doorbells returns: the last values accepted (R317). -/
  dbTail : Nat := 0
  dbHead : Nat := 0
  /-- Capture: descriptors fetched and not taken; buffers taken and not completed, oldest first (R335). -/
  fetched : List Buf := []
  taken : List Buf := []
  /-- Command: ring positions of descriptors fetched and not completed, those of long commands among them; the
  descriptor whose parameter block is to be read, and the tag of that read once it is issued; the fetch waits at a
  descriptor with FENCE until every earlier command has completed (R321), or at a long command until one of the
  function's 16 completes (R323). -/
  started : List Nat := []
  longs : List Nat := []
  await : Option (List Byte) := none
  paramTag : Option Nat := none
  fence : Bool := false
  excess : Bool := false
  /-- Tag of the read in progress for the ring. -/
  fetchTag : Option Nat := none
  /-- Completions held back (R319, R369), oldest first. -/
  heldCpl : List Cpl := []
  /-- Completions written and not yet signalled (R344). -/
  unsignalled : Nat := 0
  /-- SEQ of the last progress record and bytes of the buffer in use when it was written (R235). -/
  progSeq : Nat := 0
  progBytes : Nat := 0
  delivery : Option Delivery := none
  readBacks : List ReadBack := []
  deriving DecidableEq, Repr

/-- A non-posted request or a quarantined tag of a function (R362, R363, R366). -/
structure Tag where
  num : Nat
  source : Nat
  detail : Nat
  timeout : Nat
  quarantined : Bool := false
  silent : Bool := false
  deriving DecidableEq, Repr

/-- A notice to a host mailbox (R422): type and payload bytes. -/
structure Notice where
  type : Nat
  payload : List Byte
  deriving DecidableEq, Repr

/-- A function (R359): what is not in a register. -/
structure Fn where
  bme : Bool := false
  mse : Bool := false
  d3 : Bool := false
  pmeEn : Bool := false
  pmeStatus : Bool := false
  /-- Event queue, oldest first (R407), the held upper word, entries lost before the next one, watermark re-armed. -/
  evq : List DWord := []
  evqHold : Word := 0
  evqLost : Bool := false
  /-- Error log (R384) and its held word. -/
  err : List DWord := []
  errHold : Word := 0
  /-- MSI-X: vectors unmasked, function mask, pending bits (R361). -/
  unmasked : List Nat := []
  fnMask : Bool := false
  pendVec : List Nat := []
  pairs : Sp Pair := []
  tags : List Tag := []
  nextTag : Nat := 0
  /-- Held notices (R423), and whether the next carries LOST. -/
  notices : List Notice := []
  noticeLost : Bool := false
  /-- Mailbox posts removed after a failed block read, posted again at release (R420): channel, pointer, SEQ. -/
  reposts : List (Nat × Nat × Nat) := []
  /-- BAD_GRANT results in the present second, and the elapsed time at which counting began (R339). -/
  badGrants : Nat := 0
  badGrantAt : Nat := 0
  containEventDue : Bool := false
  deriving DecidableEq, Repr

/-- A post on a mailbox channel: sender, pointer, SEQ, whether no reply is to be written (R412, R420), whether the
receiver has answered it; type and reply place of its block, status and reply. -/
structure Post where
  fn : Nat
  ptr : Nat
  seq : Nat
  mute : Bool := false
  answered : Bool := false
  type : Nat := 0
  replyAddr : Nat := 0
  replyMax : Nat := 0
  status : Nat := 0
  reply : List Byte := []
  deriving DecidableEq, Repr

/-- A mailbox channel (R411). -/
structure Chan where
  untaken : Option Post := none
  taken : Option Post := none
  deriving DecidableEq, Repr

/-- A snapshot capture in progress (R399): item, action, value at the instant, result. -/
structure Snap where
  result : Nat
  words : List Word
  deriving DecidableEq, Repr

/-- Cicada: what is not in a register (R76 to R97). -/
structure Cicada where
  /-- Keep-alive time at the last handover (R32). -/
  keepAlive : Label := 0
  /-- What the last 64 seconds of lock to REFCLK measured of XO_IN, newest first, in units of 2^−32 (R79). -/
  xoMeas : List Int := []
  /-- Label + 1 of the last second boundary that has passed. -/
  boundaryAt : Nat := 0
  /-- Pending step of R84, in ticks, with the least elapsed time at which it may apply. -/
  step : Option (Int × Nat) := none
  /-- The residual of the pending step, until an edge has been steered on since (R84, R86). -/
  residual : Option Int := none
  /-- Pending seconds: TIME_SET value with its least elapsed time; Karing value (R88, R91). -/
  setAt : Option (Nat × Nat) := none
  setCmd : Option Cmd := none
  karing : Option Nat := none
  /-- A second frame is awaited that announces this value (R91); seconds since the first one. -/
  karingWait : Option Nat := none
  karingAge : Nat := 0
  /-- The last frame confirmed local time; a good frame arrived in the present second, and in the one before. -/
  karingOk : Bool := false
  ktcNow : Bool := false
  ktcPrev : Bool := false
  everPps : Bool := false
  /-- Edges of the present PPS interval: an edge was accepted; outliers; a measured edge (R82). -/
  accepted : Bool := false
  measured : Bool := false
  outliers : List Int := []
  lastErr : Int := 0
  /-- Elapsed time at entry into holdover (R80). -/
  holdoverAt : Option Nat := none
  /-- Steering: integral and phase terms in ticks per second (R86), learned values by input. -/
  freqInt : Int := 0
  phaseTerm : Int := 0
  learnedXo : Int := 0
  learnedRef : Int := 0
  /-- Last PPS edge, and the times before and after the last step (R78). -/
  lastPps : Label := 0
  stepOld : Label := 0
  stepNew : Label := 0
  /-- Phase change that a REF_RETURN step is to record at the next boundary (R96). -/
  refStep : Option Int := none
  returning : Bool := false
  slewing : Bool := false
  /-- The phase error that a hitless or slewed return removes (R65, R96). -/
  retErr : Int := 0
  /-- t_f of a PPS step in progress (R85). -/
  resumeAt : Option Label := none
  saturationPosted : Bool := false
  deriving DecidableEq, Repr

/-- Clock synthesis: what is not in a register (R39 to R66). -/
structure Clocks where
  /-- The relock in progress was caused by the host (R60); TRIM, where its change caused it, which applies at lock (R55). -/
  hostRelock : Bool := false
  trimJump : Option Int := none
  /-- A full relock is owed: the PLL has not locked yet, or the nominal has changed (R62). -/
  needFull : Bool := true
  /-- Attempts since the loss; a retry is due in 100 ms (R63). -/
  attempts : Nat := 0
  retryDue : Bool := false
  /-- AUTO has moved lock declaration to the digital path for this attempt (R57); LOCK_FILT has declared lock since
  LOCK_SOURCE was written (R58). -/
  fallback : Bool := false
  analogUsed : Bool := false
  /-- The analogue and the digital path have declared lock in this attempt (R56). -/
  declaredA : Bool := false
  declaredD : Bool := false
  /-- Live offset (R53 to R55, R86): target and start of the ramp in units of 2^−48, elapsed time at its start. -/
  trimTarget : Int := 0
  rampFrom : Int := 0
  rampAt : Nat := 0
  clamped : Bool := false
  /-- SO_FIRE waits for its pulse since this elapsed time + 1; elapsed time + 1 of the last pulse, and of the last
  restart of the SYNC divider (R52). -/
  soFire : Nat := 0
  soAt : Nat := 0
  soBase : Nat := 0
  /-- Elapsed times of the restarts that SYNC_IN edges have caused and that are still to come (R48). -/
  syncDue : List Nat := []
  /-- The recorded phase of each output, and the phase its divider runs at: elapsed time + 1 of the restart that gave
  it; not listed: the phase at the first lock (R51). -/
  phases : Sp Nat := []
  phaseNow : Sp Nat := []
  /-- Elapsed time + 1 of the last ungating (R59 step 6). -/
  ungatedAt : Nat := 0
  /-- Output delays that move (R45): by output, the delay at the write and elapsed time + 1 of the write. -/
  delayFrom : Sp Nat := []
  delayAt : Sp Nat := []
  /-- The system PLL relocks: X04 cannot drain; the BAR0 requests that arrived meanwhile, oldest first (R40). -/
  sysHeld : Bool := false
  held : List Instr := []
  /-- PARTITION_CREATE commands that wait for the fast relock of a powered-off sample PLL, oldest first (R64). -/
  creating : List Instr := []
  deriving DecidableEq, Repr

/-- Cross-trigger flags (R196): F of the core cycle before the one being collected and of the one before that. -/
structure Flags where
  cur : BitVec 8 := 0
  prev : BitVec 8 := 0
  /-- Changes of the last core cycle by sequencers whose SEQ_LATENCY is 11 (flag, set), and by the host. -/
  late : List (Nat × Bool) := []
  lateHost : List (Nat × Bool) := []
  /-- The core cycle whose changes are being collected; host values with the cycle that accepted them. -/
  cycle : Nat := 0
  host : List (Nat × Nat × Bool) := []
  /-- TRIGIN levels at the pins, the labelled edges of the last frame, oldest first: label, input, level after it (R178);
  end and leading edge of the last TRIGOUT pulses (R197). -/
  triginLevel : BitVec 4 := 0
  triginEdges : List (Label × Nat × Bool) := []
  trigoutEnd : Sp Nat := []
  trigoutLead : Sp Nat := []
  deriving DecidableEq, Repr

/-- Management, security, boot and thermal state that is not in a register. -/
structure Mgmt where
  /-- Fuse array (R440): blown epoch fuses, revoke fuses. -/
  fusedEpoch : Nat := 0
  revoked : BitVec 4 := 0
  /-- The two image copies in the flash, as Firefly finds them (R434, R441). -/
  flashA : Option ImageCopy := none
  flashB : Option ImageCopy := none
  /-- The copy whose payload is being read, and whether that is copy B; the other copy when its header passed. -/
  booting : Option ImageCopy := none
  bootCopyB : Bool := false
  other : Option ImageCopy := none
  running : Option ImageCopy := none
  /-- Certificate area read (R438); objects of an image transfer in recovery (R442), oldest first. -/
  certsRead : Bool := false
  received : List (Nat × List Byte) := []
  /-- Bring-up: stacks trained; the calibration of bring-up waits for the sample PLL; eclosion has been declared and
  waits for a partition to move to HBM (R448 to R450). -/
  trained : List Nat := []
  calDue : Bool := false
  eclosing : Bool := false
  eclosed : Bool := false
  /-- Elapsed time at PERST# release; elapsed times of Scarab's restarts in the last 60 s (R452). -/
  releasedAt : Nat := 0
  restartTimes : List Nat := []
  scarabDown : Bool := true
  fireflyDown : Bool := true
  /-- The event and the notice of the restart in progress are due: its cause. -/
  restartCause : Option Nat := none
  /-- Straps sampled (R353, R509). -/
  dualPort : Bool := false
  devidSrc : Bool := false
  /-- Power: VAUX applied, main rails valid, PERST# asserted, a rail fault holds the device, D3cold, TRIP, low-power mode, WAKE#,
  FAULT#. -/
  vaux : Bool := false
  rails : Bool := false
  perst : Bool := false
  railFault : Bool := false
  d3cold : Bool := false
  tripped : Bool := false
  lowPower : Bool := false
  wakePin : Bool := false
  faultPin : Bool := false
  /-- Partitions to rebuild at eclosion (R241), with their PART_OWNER and PART_EPOCH words: their segments stay in
  `parts`. -/
  orphans : List (Nat × Word × Word) := []
  /-- Retirements in progress (R301): pseudo-channel and cause; a rebuild of the mirror is due. -/
  retiring : List (Nat × Nat) := []
  /-- Pseudo-channels retired since PERST#, in order (R302), and uncorrectable words of the last second: pseudo-channel
  and elapsed time (R300). -/
  retired : List Nat := []
  ueTimes : List (Nat × Nat) := []
  /-- The read path (R290): by priority level, 1 + the port served last; by level and port, 1 + the delivery served last. -/
  portTurn : Sp Nat := []
  turn : Sp Nat := []
  mirrorDue : Bool := false
  /-- Width of the tags of a port since its link came up (R362). -/
  tagWidth : Sp TagWidth := []
  /-- Ports in port reduced service (R382). -/
  portLow : List Nat := []
  deriving DecidableEq, Repr

/-- The slow-access unit (R406): writes in flight and behind it, oldest first: offset, value, and the BANK_CONFIG whose
last write this is. -/
structure Slow where
  writes : List (Nat × Word × Option Cmd) := []
  deriving DecidableEq, Repr

/-- A CALIBRATE in progress (R328): its command, banks still running and done, as masks, and aborted, with reasons. -/
structure Calib where
  cmd : Cmd
  left : Nat
  ok : Nat := 0
  aborted : List (Nat × Nat) := []
  deriving DecidableEq, Repr

/-- The state of the block. Every register's word is in `regs`, `live` holds the live copies of staged registers (R8);
the rest is what the registers do not show. -/
structure State where
  /-- Commands that wait, first in, first out. -/
  pending : List Instr := []
  /-- Register words, by `Reg.key`; a register not listed holds its reset word. -/
  regs : Sp Word := []
  /-- Live words of registers with staged fields, by `Reg.key`. -/
  live : Sp Word := []
  /-- Statistics counters (R98) by snapshot item code (R402). -/
  ctrs : Sp Nat := []
  /-- Device time (R76): the main counter's label. -/
  now : Label := 0
  /-- Ticks since VAUX was applied, which no step changes (elapsed time of the rate rules). -/
  elapsed : Nat := 0
  cic : Cicada := {}
  clk : Clocks := {}
  banks : Sp Bank := []
  dets : Sp Det := []
  seqs : Sp Seq := []
  flags : Flags := {}
  parts : Sp Part := []
  fns : Sp Fn := []
  chans : Sp Chan := []
  snaps : Sp (Option Snap) := []
  slow : Slow := {}
  mgmt : Mgmt := {}
  /-- CALIBRATE commands in progress, and commands that wait for Scarab (R328, R332). -/
  cals : List Calib := []
  waiting : List Instr := []
  /-- Functions with a request to host memory that waits for a place or a tag (R362), in turn. -/
  readWait : List Nat := []
  /-- Fault logs of the two PFs (R489): words A and B, oldest first; held words; LOST due; suppression by code and
  index: elapsed time of the last entry and count since. -/
  fltLog : Sp (List (DWord × DWord)) := []
  fltHold : Sp (DWord × DWord) := []
  fltLost : List Nat := []
  fltSeen : Sp (Nat × Nat) := []
  /-- Elapsed time + 1 of the last report under a rate rule, by code and unit. -/
  stamps : Sp Nat := []
  /-- Elapsed time + 1 at which a running interval item (HOLDOVER_TICKS, SPLL_GATED_TICKS, the residency items,
  THERM_STOP_TICKS) began to run, by item code; what ran before is in `ctrs`, in ticks. -/
  since : Sp Nat := []
  /-- The model's own: what has left the block, newest first. -/
  out : List Out := []
  /-- The model's own: the number of free values drawn so far. -/
  free : Nat := 0
  deriving DecidableEq, Repr

/-- The state after reset: every register at its reset value (nothing is listed), nothing waits. -/
def State.reset : State := {}

end Sys2Proof.Machine
end

