-- ==== Sys2Proof/Machine/Registers.lean ====
section
/-! DEFINITION. Machine/Registers.lean: the register map. Every register of the register index (R523 to R540) as
a constructor of `Reg`, its place in BAR0, its fields with their access code (R7), apply boundary (R8) and reset value,
and the decoder from a BAR0 offset to the register. A register of a scope F block (R524) carries the function `f`
that it belongs to; a register of a scope D block is one for the device. Fields are listed as the spec's tables list them. -/

namespace Sys2Proof.Machine

/-- Access codes of R7. -/
inductive Access where
  | rw | ro | w1c | wo | mr | kp
  deriving DecidableEq, Repr

/-- Apply boundaries of R8; `dash` marks a field that software cannot write. -/
inductive Apply where
  | dash | now | frame | segment | second | arm
  deriving DecidableEq, Repr

/-- One field of a register: lowest bit, width, access, apply boundary and reset value. -/
structure FieldSpec where
  lo : Nat
  width : Nat
  access : Access
  apply : Apply
  reset : Nat
  deriving DecidableEq, Repr

/-- Every register of R527 to R538. `f` is the function of a scope F register (R359), the other arguments are the
indexes of the register index. `reserved` is a word inside a block that no table names (R525); its argument `f` is 256
in a scope D block. -/
inductive Reg where
  | identPart (f : Nat)
  | identStepping (f : Nat)
  | identCap (f : Nat)
  | snapSelect (f : Nat)
  | snapStatus (f : Nat)
  | snapData (f k : Nat)
  | snapLoadLo (f : Nat)
  | snapLoadHi (f : Nat)
  | slowCtrl (f : Nat)
  | slowStatus (f : Nat)
  | slowAddr (f : Nat)
  | slowData (f : Nat)
  | regDownLog (f : Nat)
  | voteLast
  | regEvents (f : Nat)
  | evqPopLo (f : Nat)
  | evqPopHi (f : Nat)
  | evqCfg (f : Nat)
  | evqStatus (f : Nat)
  | mbxPtrLo (f c : Nat)
  | mbxPtrHi (f c : Nat)
  | mbxDoorbell (f c : Nat)
  | mbxAck (f c : Nat)
  | mbxAckState (f c : Nat)
  | mbxChan (c : Nat)
  | mbxHostBaseLo (f : Nat)
  | mbxHostBaseHi (f : Nat)
  | mbxHostCfg (f : Nat)
  | mbxHostAck (f : Nat)
  | mbxHostStatus (f : Nat)
  | containStatus (f : Nat)
  | containEpoch (f : Nat)
  | containRelease (f : Nat)
  | epCto (f : Nat)
  | epErrPopLo (f : Nat)
  | epErrPopHi (f : Nat)
  | epErrCfg (f : Nat)
  | epEvents (f : Nat)
  | epTagStatus (f : Nat)
  | epLinkStatus (f : Nat)
  | epWakeCfg (f : Nat)
  | fltPopLo (f : Nat)
  | fltPopHi (f : Nat)
  | fltTimeLo (f : Nat)
  | fltTimeHi (f : Nat)
  | fltCfg (f : Nat)
  | fltStatus (f : Nat)
  | fltPinCause
  | fltPinMask
  | fltCtrl
  | fltCount (c : Nat)
  | timeCtrl
  | timeStatus
  | timeEvents
  | timeCableDelay
  | timePpsCfg
  | timeSteerCfg
  | timeLastErr
  | timeHoEst
  | timeHoModel
  | timeXoLearned
  | timeSetLo
  | timeSetHi
  | timeKtcStatus
  | timeDevid
  | csCtrl
  | csStatus
  | csEvents
  | csLockDet
  | csTrim
  | csSteerLive
  | csRefMeas
  | csLockFilt
  | csSyncCtrl
  | csSyncStatus
  | csSyncoutCtrl
  | csSyncoutPeriod
  | csOutCtrl (n : Nat)
  | csOutDelay (n : Nat)
  | feBankCtrl (b : Nat)
  | feBankStatus (b : Nat)
  | feBankEvents (b : Nat)
  | feStclkCfg (b : Nat)
  | feCalCtrl (b : Nat)
  | feCalStatus (b : Nat)
  | feAtCfg (b : Nat)
  | feAtNoswingLo (b : Nat)
  | feAtNoswingHi (b : Nat)
  | feFaultInfo (b : Nat)
  | chThr (b c : Nat)
  | chCfg (b c : Nat)
  | chStatus (b c : Nat)
  | detCfg (n : Nat)
  | detStatus (n : Nat)
  | detLim1Lo (n : Nat)
  | detLim1Hi (n : Nat)
  | detLim2Lo (n : Nat)
  | detLim2Hi (n : Nat)
  | detPatMask (n k : Nat)
  | detPatValue (n k : Nat)
  | gpMask (g k : Nat)
  | gpValue (g k : Nat)
  | gpCfg (g : Nat)
  | gpRange (g : Nat)
  | gpStatus (g : Nat)
  | triginCfg
  | triginDeskew (n : Nat)
  | trigoutCfg (n : Nat)
  | xfState
  | xfPermit (p : Nat)
  | seqCtrl (p : Nat)
  | seqStatus (p : Nat)
  | seqEvents (p : Nat)
  | seqCntCfg (p k : Nat)
  | seqCntTcLo (p k : Nat)
  | seqCntTcHi (p k : Nat)
  | seqTmrCfg (p k : Nat)
  | seqTmrLimLo (p k : Nat)
  | seqTmrLimHi (p k : Nat)
  | lvlCfg (p l : Nat)
  | lvlDwellLo (p l : Nat)
  | lvlDwellHi (p l : Nat)
  | brTt (p l br k : Nat)
  | brTerm (p l br j : Nat)
  | brAct0 (p l br : Nat)
  | brAct1 (p l br : Nat)
  | brAct2 (p l br : Nat)
  | partOwner (p : Nat)
  | partMode (p : Nat)
  | partPretrigLo (p : Nat)
  | partPretrigHi (p : Nat)
  | partPosttrigLo (p : Nat)
  | partPosttrigHi (p : Nat)
  | partEarlyCfg (p : Nat)
  | partStatus (p : Nat)
  | partEvents (p : Nat)
  | partSegId (p : Nat)
  | partEpoch (p : Nat)
  | encCtrl (b : Nat)
  | encStatus (b : Nat)
  | encEvents (b : Nat)
  | memCap
  | memStatus
  | memEvents
  | memRetiredLo
  | memRetiredHi
  | memCtrl
  | memRetireCmd
  | memPartLimits (p : Nat)
  | memPartRing (p : Nat)
  | memPartPolicy (p : Nat)
  | memPartStatus (p : Nat)
  | memPartHeld (p : Nat)
  | hbmStackStatus (st : Nat)
  | hbmPcStatus (st q : Nat)
  | hbmPcTrain (st q : Nat)
  | rcSqBaseLo (f n : Nat)
  | rcSqBaseHi (f n : Nat)
  | rcCqBaseLo (f n : Nat)
  | rcCqBaseHi (f n : Nat)
  | rcCfg (f n : Nat)
  | rcMod (f n : Nat)
  | rcWm (f n : Nat)
  | rcStatus (f n : Nat)
  | rcSqHead (f n : Nat)
  | rcCqTail (f n : Nat)
  | rcEvents (f n : Nat)
  | rcProgLo (f n : Nat)
  | rcProgHi (f n : Nat)
  | pwrStat (d : Nat)
  | pwrCtl (d : Nat)
  | pwrBankEn
  | pwrEvents
  | pwrMode
  | rstStatus
  | thermCtrl
  | thermStatus
  | telTemp (k : Nat)
  | telVolt (r : Nat)
  | secStatus
  | bootStatus
  | fwVersion
  | secEvents
  | mgmtStatus
  | reserved (f off : Nat)
  deriving DecidableEq, Repr

/-- The BAR0 offset of a register in a physical function (R527 to R538). -/
def Reg.off : Reg → Nat
  | .identPart _ => 0x0
  | .identStepping _ => 0x4
  | .identCap _ => 0x8
  | .snapSelect _ => 0x1000
  | .snapStatus _ => 0x1004
  | .snapData _ k => 0x1010 + k * 0x4
  | .snapLoadLo _ => 0x1020
  | .snapLoadHi _ => 0x1024
  | .slowCtrl _ => 0x1040
  | .slowStatus _ => 0x1044
  | .slowAddr _ => 0x1048
  | .slowData _ => 0x104C
  | .regDownLog _ => 0x1060
  | .voteLast => 0x1064
  | .regEvents _ => 0x1068
  | .evqPopLo _ => 0x2000
  | .evqPopHi _ => 0x2004
  | .evqCfg _ => 0x2008
  | .evqStatus _ => 0x200C
  | .mbxPtrLo _ c => 0x3000 + c * 0x20
  | .mbxPtrHi _ c => 0x3004 + c * 0x20
  | .mbxDoorbell _ c => 0x3008 + c * 0x20
  | .mbxAck _ c => 0x300C + c * 0x20
  | .mbxAckState _ c => 0x3010 + c * 0x20
  | .mbxChan c => 0x3014 + c * 0x20
  | .mbxHostBaseLo _ => 0x3200
  | .mbxHostBaseHi _ => 0x3204
  | .mbxHostCfg _ => 0x3208
  | .mbxHostAck _ => 0x320C
  | .mbxHostStatus _ => 0x3210
  | .containStatus _ => 0x4000
  | .containEpoch _ => 0x4004
  | .containRelease _ => 0x4008
  | .epCto _ => 0x400C
  | .epErrPopLo _ => 0x4010
  | .epErrPopHi _ => 0x4014
  | .epErrCfg _ => 0x4018
  | .epEvents _ => 0x401C
  | .epTagStatus _ => 0x4020
  | .epLinkStatus _ => 0x4024
  | .epWakeCfg _ => 0x4028
  | .fltPopLo _ => 0x4800
  | .fltPopHi _ => 0x4804
  | .fltTimeLo _ => 0x4808
  | .fltTimeHi _ => 0x480C
  | .fltCfg _ => 0x4810
  | .fltStatus _ => 0x4814
  | .fltPinCause => 0x4818
  | .fltPinMask => 0x481C
  | .fltCtrl => 0x4820
  | .fltCount c => 0x4840 + c * 0x4
  | .timeCtrl => 0x8000
  | .timeStatus => 0x8004
  | .timeEvents => 0x8008
  | .timeCableDelay => 0x800C
  | .timePpsCfg => 0x8010
  | .timeSteerCfg => 0x8014
  | .timeLastErr => 0x8018
  | .timeHoEst => 0x801C
  | .timeHoModel => 0x8020
  | .timeXoLearned => 0x8024
  | .timeSetLo => 0x8028
  | .timeSetHi => 0x802C
  | .timeKtcStatus => 0x8030
  | .timeDevid => 0x8034
  | .csCtrl => 0x9000
  | .csStatus => 0x9004
  | .csEvents => 0x9008
  | .csLockDet => 0x900C
  | .csTrim => 0x9010
  | .csSteerLive => 0x9014
  | .csRefMeas => 0x9018
  | .csLockFilt => 0x901C
  | .csSyncCtrl => 0x9020
  | .csSyncStatus => 0x9024
  | .csSyncoutCtrl => 0x9028
  | .csSyncoutPeriod => 0x902C
  | .csOutCtrl n => 0x9040 + n * 0x8
  | .csOutDelay n => 0x9044 + n * 0x8
  | .feBankCtrl b => 0x10000 + b * 0x2000
  | .feBankStatus b => 0x10004 + b * 0x2000
  | .feBankEvents b => 0x10008 + b * 0x2000
  | .feStclkCfg b => 0x1000C + b * 0x2000
  | .feCalCtrl b => 0x10010 + b * 0x2000
  | .feCalStatus b => 0x10014 + b * 0x2000
  | .feAtCfg b => 0x10018 + b * 0x2000
  | .feAtNoswingLo b => 0x10020 + b * 0x2000
  | .feAtNoswingHi b => 0x10024 + b * 0x2000
  | .feFaultInfo b => 0x10028 + b * 0x2000
  | .chThr b c => 0x10100 + b * 0x2000 + c * 0x10
  | .chCfg b c => 0x10104 + b * 0x2000 + c * 0x10
  | .chStatus b c => 0x10108 + b * 0x2000 + c * 0x10
  | .detCfg n => 0x20000 + n * 0x100
  | .detStatus n => 0x20004 + n * 0x100
  | .detLim1Lo n => 0x20010 + n * 0x100
  | .detLim1Hi n => 0x20014 + n * 0x100
  | .detLim2Lo n => 0x20018 + n * 0x100
  | .detLim2Hi n => 0x2001C + n * 0x100
  | .detPatMask n k => 0x20020 + n * 0x100 + k * 0x4
  | .detPatValue n k => 0x20030 + n * 0x100 + k * 0x4
  | .gpMask g k => 0x28000 + g * 0x100 + k * 0x4
  | .gpValue g k => 0x28040 + g * 0x100 + k * 0x4
  | .gpCfg g => 0x28080 + g * 0x100
  | .gpRange g => 0x28084 + g * 0x100
  | .gpStatus g => 0x28088 + g * 0x100
  | .triginCfg => 0x2C000
  | .triginDeskew n => 0x2C010 + n * 0x4
  | .trigoutCfg n => 0x2C020 + n * 0x4
  | .xfState => 0x2C040
  | .xfPermit p => 0x2C050 + p * 0x4
  | .seqCtrl p => 0x30000 + p * 0x2000
  | .seqStatus p => 0x30004 + p * 0x2000
  | .seqEvents p => 0x30008 + p * 0x2000
  | .seqCntCfg p k => 0x30010 + p * 0x2000 + k * 0x10
  | .seqCntTcLo p k => 0x30014 + p * 0x2000 + k * 0x10
  | .seqCntTcHi p k => 0x30018 + p * 0x2000 + k * 0x10
  | .seqTmrCfg p k => 0x30050 + p * 0x2000 + k * 0x10
  | .seqTmrLimLo p k => 0x30054 + p * 0x2000 + k * 0x10
  | .seqTmrLimHi p k => 0x30058 + p * 0x2000 + k * 0x10
  | .lvlCfg p l => 0x30200 + p * 0x2000 + l * 0x10
  | .lvlDwellLo p l => 0x30204 + p * 0x2000 + l * 0x10
  | .lvlDwellHi p l => 0x30208 + p * 0x2000 + l * 0x10
  | .brTt p l br k => 0x31000 + p * 0x2000 + l * 0x100 + br * 0x40 + k * 0x4
  | .brTerm p l br j => 0x31020 + p * 0x2000 + l * 0x100 + br * 0x40 + j * 0x4
  | .brAct0 p l br => 0x31030 + p * 0x2000 + l * 0x100 + br * 0x40
  | .brAct1 p l br => 0x31034 + p * 0x2000 + l * 0x100 + br * 0x40
  | .brAct2 p l br => 0x31038 + p * 0x2000 + l * 0x100 + br * 0x40
  | .partOwner p => 0x40000 + p * 0x400
  | .partMode p => 0x40004 + p * 0x400
  | .partPretrigLo p => 0x40008 + p * 0x400
  | .partPretrigHi p => 0x4000C + p * 0x400
  | .partPosttrigLo p => 0x40010 + p * 0x400
  | .partPosttrigHi p => 0x40014 + p * 0x400
  | .partEarlyCfg p => 0x40018 + p * 0x400
  | .partStatus p => 0x40020 + p * 0x400
  | .partEvents p => 0x40024 + p * 0x400
  | .partSegId p => 0x40028 + p * 0x400
  | .partEpoch p => 0x4002C + p * 0x400
  | .encCtrl b => 0x44000 + b * 0x20
  | .encStatus b => 0x44004 + b * 0x20
  | .encEvents b => 0x44008 + b * 0x20
  | .memCap => 0x50000
  | .memStatus => 0x50004
  | .memEvents => 0x50008
  | .memRetiredLo => 0x5000C
  | .memRetiredHi => 0x50010
  | .memCtrl => 0x50014
  | .memRetireCmd => 0x50018
  | .memPartLimits p => 0x50100 + p * 0x20
  | .memPartRing p => 0x50104 + p * 0x20
  | .memPartPolicy p => 0x50108 + p * 0x20
  | .memPartStatus p => 0x5010C + p * 0x20
  | .memPartHeld p => 0x50110 + p * 0x20
  | .hbmStackStatus st => 0x58000 + st * 0x4000
  | .hbmPcStatus st q => 0x58100 + st * 0x4000 + q * 0x8
  | .hbmPcTrain st q => 0x58104 + st * 0x4000 + q * 0x8
  | .rcSqBaseLo _ n => 0x60000 + n * 0x40
  | .rcSqBaseHi _ n => 0x60004 + n * 0x40
  | .rcCqBaseLo _ n => 0x60008 + n * 0x40
  | .rcCqBaseHi _ n => 0x6000C + n * 0x40
  | .rcCfg _ n => 0x60010 + n * 0x40
  | .rcMod _ n => 0x60014 + n * 0x40
  | .rcWm _ n => 0x60018 + n * 0x40
  | .rcStatus _ n => 0x6001C + n * 0x40
  | .rcSqHead _ n => 0x60020 + n * 0x40
  | .rcCqTail _ n => 0x60024 + n * 0x40
  | .rcEvents _ n => 0x60028 + n * 0x40
  | .rcProgLo _ n => 0x60030 + n * 0x40
  | .rcProgHi _ n => 0x60034 + n * 0x40
  | .pwrStat d => 0x70000 + d * 0x4
  | .pwrCtl d => 0x70080 + d * 0x4
  | .pwrBankEn => 0x70100
  | .pwrEvents => 0x70104
  | .pwrMode => 0x70108
  | .rstStatus => 0x70300
  | .thermCtrl => 0x70400
  | .thermStatus => 0x70404
  | .telTemp k => 0x74000 + k * 0x4
  | .telVolt r => 0x74040 + r * 0x4
  | .secStatus => 0x78000
  | .bootStatus => 0x78004
  | .fwVersion => 0x78008
  | .secEvents => 0x7800C
  | .mgmtStatus => 0x78010
  | .reserved _ o => o

/-- The space a register lives in: the function of a scope F register, 256 for a device-wide one (R524). -/
def Reg.space : Reg → Nat
  | .identPart f => f
  | .identStepping f => f
  | .identCap f => f
  | .snapSelect f => f
  | .snapStatus f => f
  | .snapData f _ => f
  | .snapLoadLo f => f
  | .snapLoadHi f => f
  | .slowCtrl f => f
  | .slowStatus f => f
  | .slowAddr f => f
  | .slowData f => f
  | .regDownLog f => f
  | .regEvents f => f
  | .evqPopLo f => f
  | .evqPopHi f => f
  | .evqCfg f => f
  | .evqStatus f => f
  | .mbxPtrLo f _ => f
  | .mbxPtrHi f _ => f
  | .mbxDoorbell f _ => f
  | .mbxAck f _ => f
  | .mbxAckState f _ => f
  | .mbxHostBaseLo f => f
  | .mbxHostBaseHi f => f
  | .mbxHostCfg f => f
  | .mbxHostAck f => f
  | .mbxHostStatus f => f
  | .containStatus f => f
  | .containEpoch f => f
  | .containRelease f => f
  | .epCto f => f
  | .epErrPopLo f => f
  | .epErrPopHi f => f
  | .epErrCfg f => f
  | .epEvents f => f
  | .epTagStatus f => f
  | .epLinkStatus f => f
  | .epWakeCfg f => f
  | .fltPopLo f => f
  | .fltPopHi f => f
  | .fltTimeLo f => f
  | .fltTimeHi f => f
  | .fltCfg f => f
  | .fltStatus f => f
  | .rcSqBaseLo f _ => f
  | .rcSqBaseHi f _ => f
  | .rcCqBaseLo f _ => f
  | .rcCqBaseHi f _ => f
  | .rcCfg f _ => f
  | .rcMod f _ => f
  | .rcWm f _ => f
  | .rcStatus f _ => f
  | .rcSqHead f _ => f
  | .rcCqTail f _ => f
  | .rcEvents f _ => f
  | .rcProgLo f _ => f
  | .rcProgHi f _ => f
  | .reserved f _ => f
  | _ => 256

/-- The key under which a register's word is stored. -/
def Reg.key (r : Reg) : Nat := r.space * 0x100000 + r.off

/-- The fields of a register, as its register table gives them, highest bit first. -/
def Reg.fields : Reg → List FieldSpec
  | .identPart _ => [⟨24, 8, .ro, .dash, 76⟩, ⟨16, 8, .ro, .dash, 1⟩, ⟨0, 16, .ro, .dash, 42258⟩]
  | .identStepping _ => [⟨16, 16, .kp, .dash, 0⟩, ⟨8, 8, .ro, .dash, Config.variant.toNat⟩, ⟨4, 4, .ro, .dash, 2⟩, ⟨0, 4, .ro, .dash, 1⟩]
  | .identCap _ => [⟨9, 23, .kp, .dash, 0⟩, ⟨8, 1, .ro, .dash, 0⟩, ⟨4, 4, .kp, .dash, 0⟩, ⟨3, 1, .ro, .dash, 0⟩, ⟨2, 1, .ro, .dash, 1⟩, ⟨1, 1, .ro, .dash, 0⟩, ⟨0, 1, .ro, .dash, 0⟩]
  | .snapSelect _ => [⟨30, 2, .rw, .now, 0⟩, ⟨16, 14, .kp, .dash, 0⟩, ⟨0, 16, .rw, .now, 0⟩]
  | .snapStatus _ => [⟨16, 16, .ro, .dash, 0⟩, ⟨4, 12, .kp, .dash, 0⟩, ⟨2, 2, .ro, .dash, 0⟩, ⟨1, 1, .ro, .dash, 0⟩, ⟨0, 1, .ro, .dash, 0⟩]
  | .snapData _ _ => [⟨0, 32, .ro, .dash, 0⟩]
  | .snapLoadLo _ => [⟨0, 32, .rw, .now, 0⟩]
  | .snapLoadHi _ => [⟨16, 16, .kp, .dash, 0⟩, ⟨0, 16, .rw, .now, 0⟩]
  | .slowCtrl _ => [⟨2, 30, .kp, .dash, 0⟩, ⟨1, 1, .rw, .now, 1⟩, ⟨0, 1, .rw, .now, 0⟩]
  | .slowStatus _ => [⟨9, 23, .kp, .dash, 0⟩, ⟨8, 1, .ro, .dash, 0⟩, ⟨4, 4, .ro, .dash, 0⟩, ⟨2, 2, .kp, .dash, 0⟩, ⟨1, 1, .w1c, .dash, 0⟩, ⟨0, 1, .ro, .dash, 0⟩]
  | .slowAddr _ => [⟨20, 12, .kp, .dash, 0⟩, ⟨2, 18, .rw, .now, 16384⟩, ⟨0, 2, .kp, .dash, 0⟩]
  | .slowData _ => [⟨0, 32, .rw, .now, 0⟩]
  | .regDownLog _ => [⟨31, 1, .w1c, .dash, 0⟩, ⟨30, 1, .ro, .dash, 0⟩, ⟨25, 5, .ro, .dash, 0⟩, ⟨20, 5, .kp, .dash, 0⟩, ⟨2, 18, .ro, .dash, 0⟩, ⟨0, 2, .kp, .dash, 0⟩]
  | .voteLast => [⟨29, 3, .kp, .dash, 0⟩, ⟨24, 5, .ro, .dash, 0⟩, ⟨20, 4, .kp, .dash, 0⟩, ⟨2, 18, .ro, .dash, 0⟩, ⟨0, 2, .kp, .dash, 0⟩]
  | .regEvents _ => [⟨3, 29, .kp, .dash, 0⟩, ⟨2, 1, .w1c, .dash, 0⟩, ⟨1, 1, .w1c, .dash, 0⟩, ⟨0, 1, .w1c, .dash, 0⟩]
  | .evqPopLo _ => [⟨0, 32, .ro, .dash, 0⟩]
  | .evqPopHi _ => [⟨0, 32, .ro, .dash, 0⟩]
  | .evqCfg _ => [⟨10, 22, .kp, .dash, 0⟩, ⟨9, 1, .rw, .now, 1⟩, ⟨0, 9, .rw, .now, 0⟩]
  | .evqStatus _ => [⟨11, 21, .kp, .dash, 0⟩, ⟨10, 1, .w1c, .dash, 0⟩, ⟨9, 1, .w1c, .dash, 0⟩, ⟨0, 9, .ro, .dash, 0⟩]
  | .mbxPtrLo _ _ => [⟨6, 26, .rw, .now, 0⟩, ⟨0, 6, .kp, .dash, 0⟩]
  | .mbxPtrHi _ _ => [⟨0, 32, .rw, .now, 0⟩]
  | .mbxDoorbell _ _ => [⟨16, 16, .kp, .dash, 0⟩, ⟨0, 16, .wo, .now, 0⟩]
  | .mbxAck _ _ => [⟨16, 16, .ro, .dash, 0⟩, ⟨0, 16, .ro, .dash, 0⟩]
  | .mbxAckState _ _ => [⟨16, 16, .ro, .dash, 0⟩, ⟨2, 14, .kp, .dash, 0⟩, ⟨0, 2, .ro, .dash, 0⟩]
  | .mbxChan c => [⟨31, 1, .rw, .now, (if c ≤ 11 then 0 else 1)⟩, ⟨3, 28, .kp, .dash, 0⟩, ⟨2, 1, .w1c, .dash, 0⟩, ⟨1, 1, .ro, .dash, 0⟩, ⟨0, 1, .ro, .dash, 0⟩]
  | .mbxHostBaseLo _ => [⟨12, 20, .rw, .now, 0⟩, ⟨0, 12, .kp, .dash, 0⟩]
  | .mbxHostBaseHi _ => [⟨0, 32, .rw, .now, 0⟩]
  | .mbxHostCfg _ => [⟨31, 1, .rw, .now, 0⟩, ⟨20, 11, .kp, .dash, 0⟩, ⟨16, 4, .rw, .now, 0⟩, ⟨8, 8, .rw, .now, 0⟩, ⟨0, 8, .kp, .dash, 0⟩]
  | .mbxHostAck _ => [⟨16, 16, .kp, .dash, 0⟩, ⟨0, 16, .rw, .now, 0⟩]
  | .mbxHostStatus _ => [⟨16, 16, .ro, .dash, 0⟩, ⟨9, 7, .kp, .dash, 0⟩, ⟨0, 9, .ro, .dash, 0⟩]
  | .containStatus _ => [⟨24, 8, .kp, .dash, 0⟩, ⟨16, 8, .ro, .dash, 0⟩, ⟨2, 14, .kp, .dash, 0⟩, ⟨1, 1, .ro, .dash, 0⟩, ⟨0, 1, .ro, .dash, 0⟩]
  | .containEpoch _ => [⟨16, 16, .kp, .dash, 0⟩, ⟨0, 16, .ro, .dash, 0⟩]
  | .containRelease _ => [⟨16, 16, .kp, .dash, 0⟩, ⟨0, 16, .wo, .now, 0⟩]
  | .epCto _ => [⟨23, 9, .kp, .dash, 0⟩, ⟨0, 23, .rw, .now, 1600⟩]
  | .epErrPopLo _ => [⟨0, 32, .ro, .dash, 0⟩]
  | .epErrPopHi _ => [⟨0, 32, .ro, .dash, 0⟩]
  | .epErrCfg _ => [⟨8, 24, .kp, .dash, 0⟩, ⟨0, 8, .rw, .now, 0⟩]
  | .epEvents _ => [⟨7, 25, .kp, .dash, 0⟩, ⟨6, 1, .w1c, .dash, 0⟩, ⟨5, 1, .w1c, .dash, 0⟩, ⟨4, 1, .w1c, .dash, 0⟩, ⟨3, 1, .w1c, .dash, 0⟩, ⟨2, 1, .w1c, .dash, 0⟩, ⟨1, 1, .w1c, .dash, 0⟩, ⟨0, 1, .w1c, .dash, 0⟩]
  | .epTagStatus _ => [⟨16, 16, .ro, .dash, 0⟩, ⟨11, 5, .kp, .dash, 0⟩, ⟨0, 11, .ro, .dash, 0⟩]
  | .epLinkStatus _ => [⟨31, 1, .ro, .dash, 0⟩, ⟨30, 1, .ro, .dash, 0⟩, ⟨29, 1, .ro, .dash, 0⟩, ⟨28, 1, .ro, .dash, 0⟩, ⟨27, 1, .ro, .dash, 0⟩, ⟨24, 3, .ro, .dash, 0⟩, ⟨21, 3, .kp, .dash, 0⟩, ⟨16, 5, .ro, .dash, 0⟩, ⟨5, 11, .kp, .dash, 0⟩, ⟨0, 5, .ro, .dash, 0⟩]
  | .epWakeCfg _ => [⟨24, 8, .rw, .now, 16⟩, ⟨8, 16, .kp, .dash, 0⟩, ⟨4, 4, .rw, .now, 0⟩, ⟨0, 4, .rw, .now, 0⟩]
  | .fltPopLo _ => [⟨0, 32, .ro, .dash, 0⟩]
  | .fltPopHi _ => [⟨0, 32, .ro, .dash, 0⟩]
  | .fltTimeLo _ => [⟨0, 32, .ro, .dash, 0⟩]
  | .fltTimeHi _ => [⟨0, 32, .ro, .dash, 0⟩]
  | .fltCfg _ => [⟨7, 25, .kp, .dash, 0⟩, ⟨0, 7, .rw, .now, 0⟩]
  | .fltStatus _ => [⟨31, 1, .ro, .dash, 0⟩, ⟨10, 21, .kp, .dash, 0⟩, ⟨9, 1, .w1c, .dash, 0⟩, ⟨8, 1, .w1c, .dash, 0⟩, ⟨7, 1, .w1c, .dash, 0⟩, ⟨0, 7, .ro, .dash, 0⟩]
  | .fltPinCause => [⟨6, 26, .kp, .dash, 0⟩, ⟨0, 6, .w1c, .dash, 0⟩]
  | .fltPinMask => [⟨6, 26, .kp, .dash, 0⟩, ⟨0, 6, .rw, .now, 63⟩]
  | .fltCtrl => [⟨2, 30, .kp, .dash, 0⟩, ⟨1, 1, .rw, .now, 0⟩, ⟨0, 1, .wo, .now, 0⟩]
  | .fltCount _ => [⟨0, 32, .ro, .dash, 0⟩]
  | .timeCtrl => [⟨9, 23, .kp, .dash, 0⟩, ⟨8, 1, .rw, .now, 1⟩, ⟨7, 1, .rw, .now, 0⟩, ⟨6, 1, .rw, .now, 0⟩, ⟨5, 1, .rw, .now, 0⟩, ⟨4, 1, .rw, .now, 0⟩, ⟨2, 2, .kp, .dash, 0⟩, ⟨0, 2, .rw, .now, 2⟩]
  | .timeStatus => [⟨16, 16, .ro, .dash, 0⟩, ⟨13, 3, .kp, .dash, 0⟩, ⟨12, 1, .ro, .dash, 0⟩, ⟨11, 1, .ro, .dash, 0⟩, ⟨10, 1, .ro, .dash, 0⟩, ⟨9, 1, .ro, .dash, 0⟩, ⟨8, 1, .ro, .dash, 0⟩, ⟨7, 1, .ro, .dash, 0⟩, ⟨6, 1, .ro, .dash, 0⟩, ⟨4, 2, .kp, .dash, 0⟩, ⟨0, 4, .ro, .dash, 7⟩]
  | .timeEvents => [⟨12, 20, .kp, .dash, 0⟩, ⟨11, 1, .w1c, .dash, 0⟩, ⟨10, 1, .w1c, .dash, 0⟩, ⟨9, 1, .w1c, .dash, 0⟩, ⟨8, 1, .w1c, .dash, 0⟩, ⟨7, 1, .w1c, .dash, 0⟩, ⟨6, 1, .w1c, .dash, 0⟩, ⟨5, 1, .w1c, .dash, 0⟩, ⟨4, 1, .w1c, .dash, 0⟩, ⟨3, 1, .w1c, .dash, 0⟩, ⟨2, 1, .w1c, .dash, 0⟩, ⟨1, 1, .w1c, .dash, 0⟩, ⟨0, 1, .w1c, .dash, 0⟩]
  | .timeCableDelay => [⟨24, 8, .kp, .dash, 0⟩, ⟨0, 24, .rw, .second, 0⟩]
  | .timePpsCfg => [⟨28, 4, .kp, .dash, 0⟩, ⟨24, 4, .rw, .now, 3⟩, ⟨0, 24, .rw, .now, 512000⟩]
  | .timeSteerCfg => [⟨24, 8, .rw, .now, 10⟩, ⟨16, 8, .rw, .now, 20⟩, ⟨10, 6, .kp, .dash, 0⟩, ⟨0, 10, .rw, .now, 16⟩]
  | .timeLastErr => [⟨0, 32, .ro, .dash, 0⟩]
  | .timeHoEst => [⟨0, 32, .ro, .dash, 0⟩]
  | .timeHoModel => [⟨16, 16, .rw, .now, 20000⟩, ⟨0, 16, .rw, .now, 100⟩]
  | .timeXoLearned => [⟨24, 8, .kp, .dash, 0⟩, ⟨0, 24, .ro, .dash, 0⟩]
  | .timeSetLo => [⟨0, 32, .rw, .now, 0⟩]
  | .timeSetHi => [⟨31, 1, .wo, .now, 0⟩, ⟨8, 23, .kp, .dash, 0⟩, ⟨0, 8, .rw, .now, 0⟩]
  | .timeKtcStatus => [⟨28, 4, .kp, .dash, 0⟩, ⟨24, 4, .ro, .dash, 0⟩, ⟨23, 1, .kp, .dash, 0⟩, ⟨22, 1, .ro, .dash, 0⟩, ⟨18, 4, .ro, .dash, 0⟩, ⟨16, 2, .ro, .dash, 0⟩, ⟨0, 16, .ro, .dash, 0⟩]
  | .timeDevid => [⟨17, 15, .kp, .dash, 0⟩, ⟨16, 1, .ro, .dash, 0⟩, ⟨14, 2, .kp, .dash, 0⟩, ⟨0, 14, .rw, .now, 0⟩]
  | .csCtrl => [⟨8, 24, .kp, .dash, 0⟩, ⟨7, 1, .wo, .now, 0⟩, ⟨6, 1, .rw, .now, 0⟩, ⟨4, 2, .rw, .now, 3⟩, ⟨2, 2, .rw, .now, 3⟩, ⟨0, 2, .rw, .now, 2⟩]
  | .csStatus => [⟨14, 18, .kp, .dash, 0⟩, ⟨13, 1, .ro, .dash, 0⟩, ⟨12, 1, .ro, .dash, 0⟩, ⟨11, 1, .ro, .dash, 1⟩, ⟨8, 3, .ro, .dash, 2⟩, ⟨6, 2, .ro, .dash, 0⟩, ⟨5, 1, .ro, .dash, 0⟩, ⟨3, 2, .ro, .dash, 3⟩, ⟨2, 1, .ro, .dash, 0⟩, ⟨1, 1, .ro, .dash, 0⟩, ⟨0, 1, .ro, .dash, 0⟩]
  | .csEvents => [⟨9, 23, .kp, .dash, 0⟩, ⟨8, 1, .w1c, .dash, 0⟩, ⟨7, 1, .w1c, .dash, 0⟩, ⟨6, 1, .w1c, .dash, 0⟩, ⟨5, 1, .w1c, .dash, 0⟩, ⟨4, 1, .w1c, .dash, 0⟩, ⟨3, 1, .w1c, .dash, 0⟩, ⟨2, 1, .w1c, .dash, 0⟩, ⟨1, 1, .w1c, .dash, 0⟩, ⟨0, 1, .w1c, .dash, 0⟩]
  | .csLockDet => [⟨16, 16, .rw, .now, 1024⟩, ⟨8, 8, .rw, .now, 64⟩, ⟨0, 8, .rw, .now, 16⟩]
  | .csTrim => [⟨24, 8, .kp, .dash, 0⟩, ⟨0, 24, .rw, .now, 0⟩]
  | .csSteerLive => [⟨24, 8, .kp, .dash, 0⟩, ⟨0, 24, .ro, .dash, 0⟩]
  | .csRefMeas => [⟨16, 16, .kp, .dash, 0⟩, ⟨0, 16, .ro, .dash, 0⟩]
  | .csLockFilt => [⟨12, 20, .kp, .dash, 0⟩, ⟨0, 12, .ro, .dash, 0⟩]
  | .csSyncCtrl => [⟨16, 16, .rw, .now, 0⟩, ⟨2, 14, .kp, .dash, 0⟩, ⟨1, 1, .rw, .now, 0⟩, ⟨0, 1, .rw, .now, 0⟩]
  | .csSyncStatus => [⟨23, 9, .kp, .dash, 0⟩, ⟨22, 1, .ro, .dash, 0⟩, ⟨16, 6, .ro, .dash, 0⟩, ⟨0, 16, .ro, .dash, 0⟩]
  | .csSyncoutCtrl => [⟨16, 16, .kp, .dash, 0⟩, ⟨8, 8, .rw, .now, 1⟩, ⟨3, 5, .kp, .dash, 0⟩, ⟨2, 1, .wo, .now, 0⟩, ⟨0, 2, .rw, .now, 0⟩]
  | .csSyncoutPeriod => [⟨0, 32, .rw, .now, 100000⟩]
  | .csOutCtrl n => [⟨19, 13, .kp, .dash, 0⟩, ⟨16, 3, (if n = 4 then .rw else .ro), .now, 0⟩, ⟨8, 8, (if n = 4 ∨ n = 5 then .rw else .ro), .now, (match n with | 0 => 2 | 1 => 4 | 2 => 16 | 3 => 8 | _ => 128)⟩, ⟨2, 6, .kp, .dash, 0⟩, ⟨1, 1, .rw, .now, 1⟩, ⟨0, 1, .rw, .now, (if n ≤ 3 then 1 else 0)⟩]
  | .csOutDelay _ => [⟨25, 7, .kp, .dash, 0⟩, ⟨16, 9, .rw, .now, 0⟩, ⟨8, 8, .kp, .dash, 0⟩, ⟨0, 8, .rw, .now, 0⟩]
  | .feBankCtrl _ => [⟨8, 24, .kp, .dash, 0⟩, ⟨7, 1, .wo, .now, 0⟩, ⟨6, 1, .rw, .now, 1⟩, ⟨1, 5, .kp, .dash, 0⟩, ⟨0, 1, .rw, .arm, 0⟩]
  | .feBankStatus _ => [⟨24, 8, .kp, .dash, 0⟩, ⟨16, 8, .ro, .dash, 0⟩, ⟨13, 3, .kp, .dash, 0⟩, ⟨12, 1, .ro, .dash, 0⟩, ⟨11, 1, .ro, .dash, 0⟩, ⟨10, 1, .ro, .dash, 0⟩, ⟨9, 1, .ro, .dash, 0⟩, ⟨8, 1, .ro, .dash, 1⟩, ⟨5, 3, .kp, .dash, 0⟩, ⟨0, 5, .ro, .dash, 0⟩]
  | .feBankEvents _ => [⟨8, 24, .kp, .dash, 0⟩, ⟨7, 1, .w1c, .dash, 0⟩, ⟨6, 1, .w1c, .dash, 0⟩, ⟨5, 1, .w1c, .dash, 0⟩, ⟨4, 1, .w1c, .dash, 0⟩, ⟨3, 1, .w1c, .dash, 0⟩, ⟨2, 1, .w1c, .dash, 0⟩, ⟨1, 1, .w1c, .dash, 0⟩, ⟨0, 1, .w1c, .dash, 0⟩]
  | .feStclkCfg _ => [⟨27, 5, .kp, .dash, 0⟩, ⟨16, 11, .rw, .arm, 0⟩, ⟨4, 12, .kp, .dash, 0⟩, ⟨3, 1, .rw, .arm, 0⟩, ⟨2, 1, .kp, .dash, 0⟩, ⟨0, 2, .rw, .arm, 0⟩]
  | .feCalCtrl _ => [⟨17, 15, .kp, .dash, 0⟩, ⟨16, 1, .rw, .now, 0⟩, ⟨8, 8, .rw, .now, 100⟩, ⟨6, 2, .kp, .dash, 0⟩, ⟨5, 1, .wo, .now, 0⟩, ⟨0, 5, .rw, .now, 0⟩]
  | .feCalStatus _ => [⟨24, 8, .kp, .dash, 0⟩, ⟨16, 8, .ro, .dash, 0⟩, ⟨13, 3, .kp, .dash, 0⟩, ⟨8, 5, .ro, .dash, 0⟩, ⟨5, 3, .kp, .dash, 0⟩, ⟨0, 5, .ro, .dash, 0⟩]
  | .feAtCfg _ => [⟨24, 8, .rw, .arm, 192⟩, ⟨16, 8, .rw, .arm, 64⟩, ⟨8, 8, .rw, .arm, 1⟩, ⟨1, 7, .kp, .dash, 0⟩, ⟨0, 1, .rw, .arm, 0⟩]
  | .feAtNoswingLo _ => [⟨0, 32, .ro, .dash, 0⟩]
  | .feAtNoswingHi _ => [⟨0, 32, .ro, .dash, 0⟩]
  | .feFaultInfo _ => [⟨24, 8, .kp, .dash, 0⟩, ⟨16, 8, .ro, .dash, 0⟩, ⟨6, 10, .kp, .dash, 0⟩, ⟨0, 6, .ro, .dash, 0⟩]
  | .chThr _ _ => [⟨28, 4, .kp, .dash, 0⟩, ⟨16, 12, .rw, .arm, 1024⟩, ⟨12, 4, .kp, .dash, 0⟩, ⟨0, 12, .rw, .arm, 1024⟩]
  | .chCfg _ _ => [⟨27, 5, .kp, .dash, 0⟩, ⟨16, 11, .rw, .arm, 0⟩, ⟨10, 6, .kp, .dash, 0⟩, ⟨8, 2, .rw, .arm, 0⟩, ⟨4, 4, .rw, .arm, 4⟩, ⟨0, 4, .rw, .arm, 4⟩]
  | .chStatus _ _ => [⟨5, 27, .kp, .dash, 0⟩, ⟨4, 1, .ro, .dash, 0⟩, ⟨3, 1, .ro, .dash, 0⟩, ⟨2, 1, .ro, .dash, 0⟩, ⟨1, 1, .ro, .dash, 0⟩, ⟨0, 1, .ro, .dash, 0⟩]
  | .detCfg _ => [⟨28, 4, .kp, .dash, 0⟩, ⟨24, 4, .rw, .arm, 0⟩, ⟨22, 2, .kp, .dash, 0⟩, ⟨16, 6, .rw, .arm, 0⟩, ⟨14, 2, .kp, .dash, 0⟩, ⟨8, 6, .rw, .arm, 0⟩, ⟨7, 1, .rw, .arm, 0⟩, ⟨6, 1, .rw, .arm, 0⟩, ⟨4, 2, .rw, .arm, 0⟩, ⟨3, 1, .rw, .arm, 0⟩, ⟨2, 1, .rw, .arm, 0⟩, ⟨1, 1, .kp, .dash, 0⟩, ⟨0, 1, .rw, .arm, 0⟩]
  | .detStatus _ => [⟨3, 29, .kp, .dash, 0⟩, ⟨2, 1, .w1c, .dash, 0⟩, ⟨1, 1, .w1c, .dash, 0⟩, ⟨0, 1, .ro, .dash, 0⟩]
  | .detLim1Lo _ => [⟨0, 32, .rw, .arm, 0⟩]
  | .detLim1Hi _ => [⟨16, 16, .kp, .dash, 0⟩, ⟨0, 16, .rw, .arm, 0⟩]
  | .detLim2Lo _ => [⟨0, 32, .rw, .arm, 0⟩]
  | .detLim2Hi _ => [⟨16, 16, .kp, .dash, 0⟩, ⟨0, 16, .rw, .arm, 0⟩]
  | .detPatMask _ _ => [⟨0, 32, .rw, .arm, 0⟩]
  | .detPatValue _ _ => [⟨0, 32, .rw, .arm, 0⟩]
  | .gpMask _ _ => [⟨0, 32, .rw, .arm, 0⟩]
  | .gpValue _ _ => [⟨0, 32, .rw, .arm, 0⟩]
  | .gpCfg _ => [⟨31, 1, .rw, .arm, 0⟩, ⟨28, 3, .rw, .arm, 0⟩, ⟨18, 10, .kp, .dash, 0⟩, ⟨16, 2, .rw, .arm, 0⟩, ⟨2, 14, .kp, .dash, 0⟩, ⟨1, 1, .rw, .arm, 0⟩, ⟨0, 1, .rw, .arm, 0⟩]
  | .gpRange _ => [⟨25, 7, .kp, .dash, 0⟩, ⟨16, 9, .rw, .arm, 511⟩, ⟨9, 7, .kp, .dash, 0⟩, ⟨0, 9, .rw, .arm, 0⟩]
  | .gpStatus _ => [⟨3, 29, .kp, .dash, 0⟩, ⟨2, 1, .w1c, .dash, 0⟩, ⟨1, 1, .ro, .dash, 0⟩, ⟨0, 1, .ro, .dash, 0⟩]
  | .triginCfg => [⟨8, 24, .kp, .dash, 0⟩, ⟨4, 4, .rw, .now, 0⟩, ⟨0, 4, .rw, .now, 15⟩]
  | .triginDeskew _ => [⟨11, 21, .kp, .dash, 0⟩, ⟨0, 11, .rw, .now, 0⟩]
  | .trigoutCfg _ => [⟨24, 8, .rw, .now, 16⟩, ⟨16, 8, .rw, .now, 0⟩, ⟨2, 14, .kp, .dash, 0⟩, ⟨1, 1, .rw, .now, 0⟩, ⟨0, 1, .rw, .now, 0⟩]
  | .xfState => [⟨16, 16, .mr, .now, 0⟩, ⟨8, 8, .mr, .dash, 0⟩, ⟨0, 8, .mr, .now, 0⟩]
  | .xfPermit _ => [⟨8, 24, .kp, .dash, 0⟩, ⟨0, 8, .rw, .arm, 255⟩]
  | .seqCtrl _ => [⟨20, 12, .kp, .dash, 0⟩, ⟨16, 4, .rw, .arm, 0⟩, ⟨9, 7, .kp, .dash, 0⟩, ⟨8, 1, .rw, .arm, 1⟩, ⟨5, 3, .kp, .dash, 0⟩, ⟨4, 1, .rw, .arm, 1⟩, ⟨0, 4, .kp, .dash, 0⟩]
  | .seqStatus _ => [⟨21, 11, .kp, .dash, 0⟩, ⟨16, 5, .ro, .dash, 11⟩, ⟨14, 2, .kp, .dash, 0⟩, ⟨13, 1, .ro, .dash, 0⟩, ⟨12, 1, .ro, .dash, 0⟩, ⟨10, 2, .kp, .dash, 0⟩, ⟨8, 2, .ro, .dash, 0⟩, ⟨4, 4, .kp, .dash, 0⟩, ⟨0, 4, .ro, .dash, 0⟩]
  | .seqEvents _ => [⟨3, 29, .kp, .dash, 0⟩, ⟨2, 1, .w1c, .dash, 0⟩, ⟨1, 1, .w1c, .dash, 0⟩, ⟨0, 1, .w1c, .dash, 0⟩]
  | .seqCntCfg _ _ => [⟨1, 31, .kp, .dash, 0⟩, ⟨0, 1, .rw, .arm, 0⟩]
  | .seqCntTcLo _ _ => [⟨0, 32, .rw, .arm, 0⟩]
  | .seqCntTcHi _ _ => [⟨16, 16, .kp, .dash, 0⟩, ⟨0, 16, .rw, .arm, 0⟩]
  | .seqTmrCfg _ _ => [⟨1, 31, .kp, .dash, 0⟩, ⟨0, 1, .rw, .arm, 0⟩]
  | .seqTmrLimLo _ _ => [⟨0, 32, .rw, .arm, 0⟩]
  | .seqTmrLimHi _ _ => [⟨16, 16, .kp, .dash, 0⟩, ⟨0, 16, .rw, .arm, 0⟩]
  | .lvlCfg _ _ => [⟨16, 16, .rw, .arm, 1⟩, ⟨2, 14, .kp, .dash, 0⟩, ⟨1, 1, .rw, .arm, 0⟩, ⟨0, 1, .kp, .dash, 0⟩]
  | .lvlDwellLo _ _ => [⟨0, 32, .rw, .arm, 0⟩]
  | .lvlDwellHi _ _ => [⟨16, 16, .kp, .dash, 0⟩, ⟨0, 16, .rw, .arm, 0⟩]
  | .brTt _ _ _ _ => [⟨0, 32, .rw, .arm, 0⟩]
  | .brTerm _ _ _ _ => [⟨16, 16, .rw, .arm, 0⟩, ⟨0, 16, .rw, .arm, 0⟩]
  | .brAct0 _ _ _ => [⟨31, 1, .rw, .arm, 0⟩, ⟨20, 11, .kp, .dash, 0⟩, ⟨16, 4, .rw, .arm, 0⟩, ⟨8, 8, .rw, .arm, 0⟩, ⟨7, 1, .rw, .arm, 0⟩, ⟨6, 1, .rw, .arm, 0⟩, ⟨5, 1, .rw, .arm, 0⟩, ⟨4, 1, .rw, .arm, 0⟩, ⟨3, 1, .rw, .arm, 0⟩, ⟨2, 1, .rw, .arm, 0⟩, ⟨1, 1, .rw, .arm, 0⟩, ⟨0, 1, .rw, .arm, 0⟩]
  | .brAct1 _ _ _ => [⟨20, 12, .kp, .dash, 0⟩, ⟨8, 12, .rw, .arm, 0⟩, ⟨0, 8, .rw, .arm, 0⟩]
  | .brAct2 _ _ _ => [⟨20, 12, .kp, .dash, 0⟩, ⟨16, 4, .rw, .arm, 0⟩, ⟨8, 8, .rw, .arm, 0⟩, ⟨0, 8, .rw, .arm, 0⟩]
  | .partOwner _ => [⟨31, 1, .ro, .dash, 0⟩, ⟨24, 7, .kp, .dash, 0⟩, ⟨16, 8, .ro, .dash, 0⟩, ⟨8, 8, .kp, .dash, 0⟩, ⟨7, 1, .ro, .dash, 0⟩, ⟨0, 7, .ro, .dash, 0⟩]
  | .partMode _ => [⟨31, 1, .kp, .dash, 0⟩, ⟨16, 15, .rw, .arm, 1⟩, ⟨6, 10, .kp, .dash, 0⟩, ⟨5, 1, .rw, .arm, 1⟩, ⟨4, 1, .rw, .arm, 0⟩, ⟨3, 1, .rw, .arm, 0⟩, ⟨2, 1, .rw, .arm, 0⟩, ⟨0, 2, .rw, .arm, 0⟩]
  | .partPretrigLo _ => [⟨0, 32, .rw, .segment, 0⟩]
  | .partPretrigHi _ => [⟨16, 16, .kp, .dash, 0⟩, ⟨0, 16, .rw, .segment, 0⟩]
  | .partPosttrigLo _ => [⟨0, 32, .rw, .segment, 0⟩]
  | .partPosttrigHi _ => [⟨16, 16, .kp, .dash, 0⟩, ⟨0, 16, .rw, .segment, 0⟩]
  | .partEarlyCfg _ => [⟨31, 1, .rw, .now, 0⟩, ⟨16, 15, .kp, .dash, 0⟩, ⟨0, 16, .rw, .now, 256⟩]
  | .partStatus _ => [⟨16, 16, .ro, .dash, 0⟩, ⟨15, 1, .ro, .dash, 0⟩, ⟨14, 1, .ro, .dash, 0⟩, ⟨13, 1, .ro, .dash, 0⟩, ⟨12, 1, .ro, .dash, 0⟩, ⟨8, 4, .ro, .dash, 0⟩, ⟨7, 1, .kp, .dash, 0⟩, ⟨4, 3, .ro, .dash, 0⟩, ⟨3, 1, .kp, .dash, 0⟩, ⟨0, 3, .ro, .dash, 0⟩]
  | .partEvents _ => [⟨9, 23, .kp, .dash, 0⟩, ⟨8, 1, .w1c, .dash, 0⟩, ⟨7, 1, .w1c, .dash, 0⟩, ⟨6, 1, .w1c, .dash, 0⟩, ⟨5, 1, .w1c, .dash, 0⟩, ⟨4, 1, .w1c, .dash, 0⟩, ⟨3, 1, .w1c, .dash, 0⟩, ⟨2, 1, .w1c, .dash, 0⟩, ⟨1, 1, .w1c, .dash, 0⟩, ⟨0, 1, .w1c, .dash, 0⟩]
  | .partSegId _ => [⟨0, 32, .ro, .dash, 4294967295⟩]
  | .partEpoch _ => [⟨16, 16, .kp, .dash, 0⟩, ⟨0, 16, .ro, .dash, 0⟩]
  | .encCtrl _ => [⟨24, 8, .rw, .frame, 128⟩, ⟨16, 8, .rw, .frame, 96⟩, ⟨8, 8, .rw, .frame, 4⟩, ⟨2, 6, .kp, .dash, 0⟩, ⟨0, 2, .rw, .frame, 0⟩]
  | .encStatus _ => [⟨16, 16, .ro, .dash, 0⟩, ⟨5, 11, .kp, .dash, 0⟩, ⟨4, 1, .ro, .dash, 0⟩, ⟨3, 1, .ro, .dash, 0⟩, ⟨2, 1, .ro, .dash, 1⟩, ⟨0, 2, .ro, .dash, 1⟩]
  | .encEvents _ => [⟨3, 29, .kp, .dash, 0⟩, ⟨2, 1, .w1c, .dash, 0⟩, ⟨1, 1, .w1c, .dash, 0⟩, ⟨0, 1, .w1c, .dash, 0⟩]
  | .memCap => [⟨31, 1, .kp, .dash, 0⟩, ⟨16, 15, .ro, .dash, 24064⟩, ⟨7, 9, .kp, .dash, 0⟩, ⟨0, 7, .ro, .dash, 64⟩]
  | .memStatus => [⟨31, 1, .kp, .dash, 0⟩, ⟨16, 15, .ro, .dash, 24064⟩, ⟨8, 8, .ro, .dash, 0⟩, ⟨3, 5, .kp, .dash, 0⟩, ⟨2, 1, .ro, .dash, 0⟩, ⟨1, 1, .ro, .dash, 0⟩, ⟨0, 1, .ro, .dash, 0⟩]
  | .memEvents => [⟨6, 26, .kp, .dash, 0⟩, ⟨5, 1, .w1c, .dash, 0⟩, ⟨4, 1, .w1c, .dash, 0⟩, ⟨3, 1, .w1c, .dash, 0⟩, ⟨2, 1, .w1c, .dash, 0⟩, ⟨1, 1, .w1c, .dash, 0⟩, ⟨0, 1, .w1c, .dash, 0⟩]
  | .memRetiredLo => [⟨0, 32, .ro, .dash, 0⟩]
  | .memRetiredHi => [⟨0, 32, .ro, .dash, 0⟩]
  | .memCtrl => [⟨25, 7, .kp, .dash, 0⟩, ⟨24, 1, .rw, .now, 1⟩, ⟨16, 8, .rw, .now, 16⟩, ⟨8, 8, .rw, .now, 24⟩, ⟨0, 8, .kp, .dash, 0⟩]
  | .memRetireCmd => [⟨31, 1, .wo, .now, 0⟩, ⟨6, 25, .kp, .dash, 0⟩, ⟨0, 6, .wo, .now, 0⟩]
  | .memPartLimits _ => [⟨31, 1, .kp, .dash, 0⟩, ⟨16, 15, .rw, .now, 24064⟩, ⟨15, 1, .kp, .dash, 0⟩, ⟨0, 15, .rw, .now, 0⟩]
  | .memPartRing _ => [⟨31, 1, .kp, .dash, 0⟩, ⟨16, 15, .rw, .arm, 1024⟩, ⟨15, 1, .kp, .dash, 0⟩, ⟨0, 15, .rw, .arm, 64⟩]
  | .memPartPolicy _ => [⟨31, 1, .kp, .dash, 0⟩, ⟨16, 15, .rw, .now, 0⟩, ⟨2, 14, .kp, .dash, 0⟩, ⟨0, 2, .rw, .arm, 0⟩]
  | .memPartStatus _ => [⟨31, 1, .ro, .dash, 0⟩, ⟨16, 15, .ro, .dash, 0⟩, ⟨15, 1, .kp, .dash, 0⟩, ⟨0, 15, .ro, .dash, 0⟩]
  | .memPartHeld _ => [⟨31, 1, .kp, .dash, 0⟩, ⟨16, 15, .ro, .dash, 0⟩, ⟨15, 1, .kp, .dash, 0⟩, ⟨0, 15, .ro, .dash, 0⟩]
  | .hbmStackStatus _ => [⟨24, 8, .kp, .dash, 0⟩, ⟨16, 8, .ro, .dash, 0⟩, ⟨8, 8, .ro, .dash, 0⟩, ⟨2, 6, .kp, .dash, 0⟩, ⟨1, 1, .ro, .dash, 0⟩, ⟨0, 1, .ro, .dash, 0⟩]
  | .hbmPcStatus _ _ => [⟨24, 8, .kp, .dash, 0⟩, ⟨16, 8, .ro, .dash, 0⟩, ⟨8, 8, .ro, .dash, 0⟩, ⟨3, 5, .kp, .dash, 0⟩, ⟨2, 1, .ro, .dash, 0⟩, ⟨1, 1, .ro, .dash, 0⟩, ⟨0, 1, .ro, .dash, 0⟩]
  | .hbmPcTrain _ _ => [⟨16, 16, .ro, .dash, 0⟩, ⟨0, 16, .ro, .dash, 0⟩]
  | .rcSqBaseLo _ _ => [⟨12, 20, .rw, .now, 0⟩, ⟨0, 12, .kp, .dash, 0⟩]
  | .rcSqBaseHi _ _ => [⟨0, 32, .rw, .now, 0⟩]
  | .rcCqBaseLo _ _ => [⟨12, 20, .rw, .now, 0⟩, ⟨0, 12, .kp, .dash, 0⟩]
  | .rcCqBaseHi _ _ => [⟨0, 32, .rw, .now, 0⟩]
  | .rcCfg _ _ => [⟨31, 1, .rw, .now, 0⟩, ⟨29, 2, .rw, .now, 0⟩, ⟨28, 1, .rw, .now, 0⟩, ⟨24, 4, .kp, .dash, 0⟩, ⟨20, 4, .rw, .now, 0⟩, ⟨16, 4, .rw, .now, 0⟩, ⟨8, 8, .rw, .now, 0⟩, ⟨0, 8, .kp, .dash, 0⟩]
  | .rcMod _ _ => [⟨31, 1, .rw, .now, 0⟩, ⟨26, 5, .kp, .dash, 0⟩, ⟨16, 10, .rw, .now, 0⟩, ⟨8, 8, .kp, .dash, 0⟩, ⟨0, 8, .rw, .now, 0⟩]
  | .rcWm _ _ => [⟨17, 15, .kp, .dash, 0⟩, ⟨0, 17, .rw, .now, 0⟩]
  | .rcStatus _ _ => [⟨12, 20, .kp, .dash, 0⟩, ⟨11, 1, .ro, .dash, 0⟩, ⟨10, 1, .ro, .dash, 0⟩, ⟨9, 1, .ro, .dash, 0⟩, ⟨6, 3, .ro, .dash, 0⟩, ⟨4, 2, .kp, .dash, 0⟩, ⟨3, 1, .ro, .dash, 0⟩, ⟨0, 3, .ro, .dash, 0⟩]
  | .rcSqHead _ _ => [⟨17, 15, .kp, .dash, 0⟩, ⟨0, 17, .ro, .dash, 0⟩]
  | .rcCqTail _ _ => [⟨17, 15, .kp, .dash, 0⟩, ⟨0, 17, .ro, .dash, 0⟩]
  | .rcEvents _ _ => [⟨4, 28, .kp, .dash, 0⟩, ⟨3, 1, .w1c, .dash, 0⟩, ⟨2, 1, .w1c, .dash, 0⟩, ⟨1, 1, .w1c, .dash, 0⟩, ⟨0, 1, .w1c, .dash, 0⟩]
  | .rcProgLo _ _ => [⟨4, 28, .rw, .now, 0⟩, ⟨0, 4, .kp, .dash, 0⟩]
  | .rcProgHi _ _ => [⟨0, 32, .rw, .now, 0⟩]
  | .pwrStat _ => [⟨7, 25, .kp, .dash, 0⟩, ⟨6, 1, .ro, .dash, 0⟩, ⟨5, 1, .ro, .dash, 0⟩, ⟨4, 1, .ro, .dash, 0⟩, ⟨2, 2, .kp, .dash, 0⟩, ⟨0, 2, .ro, .dash, 0⟩]
  | .pwrCtl _ => [⟨24, 8, .kp, .dash, 0⟩, ⟨8, 16, .rw, .now, 10⟩, ⟨3, 5, .kp, .dash, 0⟩, ⟨2, 1, .rw, .now, 1⟩, ⟨1, 1, .rw, .now, 0⟩, ⟨0, 1, .rw, .now, 0⟩]
  | .pwrBankEn => [⟨8, 24, .kp, .dash, 0⟩, ⟨0, 8, .rw, .now, 255⟩]
  | .pwrEvents => [⟨4, 28, .kp, .dash, 0⟩, ⟨3, 1, .w1c, .dash, 0⟩, ⟨2, 1, .w1c, .dash, 0⟩, ⟨1, 1, .w1c, .dash, 0⟩, ⟨0, 1, .w1c, .dash, 0⟩]
  | .pwrMode => [⟨2, 30, .kp, .dash, 0⟩, ⟨0, 2, .ro, .dash, 1⟩]
  | .rstStatus => [⟨24, 8, .kp, .dash, 0⟩, ⟨16, 8, .ro, .dash, 0⟩, ⟨11, 5, .kp, .dash, 0⟩, ⟨10, 1, .ro, .dash, 0⟩, ⟨9, 1, .ro, .dash, 0⟩, ⟨8, 1, .ro, .dash, 0⟩, ⟨4, 4, .kp, .dash, 0⟩, ⟨0, 4, .ro, .dash, 1⟩]
  | .thermCtrl => [⟨2, 30, .kp, .dash, 0⟩, ⟨1, 1, .rw, .now, 0⟩, ⟨0, 1, .rw, .now, 0⟩]
  | .thermStatus => [⟨16, 16, .ro, .dash, 0⟩, ⟨4, 12, .kp, .dash, 0⟩, ⟨0, 4, .ro, .dash, 0⟩]
  | .telTemp _ => [⟨16, 16, .kp, .dash, 0⟩, ⟨0, 16, .ro, .dash, 0⟩]
  | .telVolt _ => [⟨16, 16, .kp, .dash, 0⟩, ⟨0, 16, .ro, .dash, 0⟩]
  | .secStatus => [⟨25, 7, .kp, .dash, 0⟩, ⟨16, 9, .ro, .dash, 0⟩, ⟨12, 4, .ro, .dash, 0⟩, ⟨10, 2, .ro, .dash, 0⟩, ⟨8, 2, .ro, .dash, 0⟩, ⟨2, 6, .kp, .dash, 0⟩, ⟨0, 2, .ro, .dash, 0⟩]
  | .bootStatus => [⟨24, 8, .ro, .dash, 0⟩, ⟨20, 4, .kp, .dash, 0⟩, ⟨16, 4, .ro, .dash, 0⟩, ⟨12, 4, .ro, .dash, 0⟩, ⟨8, 4, .ro, .dash, 0⟩, ⟨5, 3, .kp, .dash, 0⟩, ⟨4, 1, .ro, .dash, 0⟩, ⟨0, 4, .ro, .dash, 0⟩]
  | .fwVersion => [⟨0, 32, .ro, .dash, 0⟩]
  | .secEvents => [⟨5, 27, .kp, .dash, 0⟩, ⟨4, 1, .w1c, .dash, 0⟩, ⟨3, 1, .w1c, .dash, 0⟩, ⟨2, 1, .w1c, .dash, 0⟩, ⟨1, 1, .w1c, .dash, 0⟩, ⟨0, 1, .w1c, .dash, 0⟩]
  | .mgmtStatus => [⟨16, 16, .ro, .dash, 0⟩, ⟨2, 14, .kp, .dash, 0⟩, ⟨1, 1, .ro, .dash, 0⟩, ⟨0, 1, .ro, .dash, 0⟩]
  | .reserved _ _ => [⟨0, 32, .kp, .dash, 0⟩]

/-- The register at byte `o` of the Ident block (per function). -/
def Reg.ofIdent (f o : Nat) : Reg :=
  match o with
  | 0x0 => .identPart f
  | 0x4 => .identStepping f
  | 0x8 => .identCap f
  | _ => .reserved f (0x0 + o)

/-- The register at byte `o` of the Access block (per function). -/
def Reg.ofAccess (f o : Nat) : Reg :=
  if 0x10 ≤ o ∧ o < 0x20 then
      if (o - 0x10) % 4 = 0 then .snapData f ((o - 0x10) / 4) else .reserved f (0x1000 + o)
  else match o with
  | 0x0 => .snapSelect f
  | 0x4 => .snapStatus f
  | 0x20 => .snapLoadLo f
  | 0x24 => .snapLoadHi f
  | 0x40 => .slowCtrl f
  | 0x44 => .slowStatus f
  | 0x48 => .slowAddr f
  | 0x4C => .slowData f
  | 0x60 => .regDownLog f
  | 0x64 => .voteLast
  | 0x68 => .regEvents f
  | _ => .reserved f (0x1000 + o)

/-- The register at byte `o` of the Evq block (per function). -/
def Reg.ofEvq (f o : Nat) : Reg :=
  match o with
  | 0x0 => .evqPopLo f
  | 0x4 => .evqPopHi f
  | 0x8 => .evqCfg f
  | 0xC => .evqStatus f
  | _ => .reserved f (0x2000 + o)

/-- The register at byte `o` of the Mbx block (per function). -/
def Reg.ofMbx (f o : Nat) : Reg :=
  if 0x0 ≤ o ∧ o < 0x200 then
      match (o - 0x0) % 0x20 with
      | 0x0 => .mbxPtrLo f ((o - 0x0) / 0x20)
      | 0x4 => .mbxPtrHi f ((o - 0x0) / 0x20)
      | 0x8 => .mbxDoorbell f ((o - 0x0) / 0x20)
      | 0xC => .mbxAck f ((o - 0x0) / 0x20)
      | 0x10 => .mbxAckState f ((o - 0x0) / 0x20)
      | 0x14 => .mbxChan ((o - 0x0) / 0x20)
      | _ => .reserved f (0x3000 + o)
  else match o with
  | 0x200 => .mbxHostBaseLo f
  | 0x204 => .mbxHostBaseHi f
  | 0x208 => .mbxHostCfg f
  | 0x20C => .mbxHostAck f
  | 0x210 => .mbxHostStatus f
  | _ => .reserved f (0x3000 + o)

/-- The register at byte `o` of the Ep block (per function). -/
def Reg.ofEp (f o : Nat) : Reg :=
  match o with
  | 0x0 => .containStatus f
  | 0x4 => .containEpoch f
  | 0x8 => .containRelease f
  | 0xC => .epCto f
  | 0x10 => .epErrPopLo f
  | 0x14 => .epErrPopHi f
  | 0x18 => .epErrCfg f
  | 0x1C => .epEvents f
  | 0x20 => .epTagStatus f
  | 0x24 => .epLinkStatus f
  | 0x28 => .epWakeCfg f
  | _ => .reserved f (0x4000 + o)

/-- The register at byte `o` of the Flt block (per function). -/
def Reg.ofFlt (f o : Nat) : Reg :=
  if 0x44 ≤ o ∧ o < 0x8C then
      if (o - 0x40) % 4 = 0 then .fltCount ((o - 0x40) / 4) else .reserved f (0x4800 + o)
  else match o with
  | 0x0 => .fltPopLo f
  | 0x4 => .fltPopHi f
  | 0x8 => .fltTimeLo f
  | 0xC => .fltTimeHi f
  | 0x10 => .fltCfg f
  | 0x14 => .fltStatus f
  | 0x18 => .fltPinCause
  | 0x1C => .fltPinMask
  | 0x20 => .fltCtrl
  | _ => .reserved f (0x4800 + o)

/-- The register at byte `o` of the Time block (device-wide). -/
def Reg.ofTime (o : Nat) : Reg :=
  match o with
  | 0x0 => .timeCtrl
  | 0x4 => .timeStatus
  | 0x8 => .timeEvents
  | 0xC => .timeCableDelay
  | 0x10 => .timePpsCfg
  | 0x14 => .timeSteerCfg
  | 0x18 => .timeLastErr
  | 0x1C => .timeHoEst
  | 0x20 => .timeHoModel
  | 0x24 => .timeXoLearned
  | 0x28 => .timeSetLo
  | 0x2C => .timeSetHi
  | 0x30 => .timeKtcStatus
  | 0x34 => .timeDevid
  | _ => .reserved 256 (0x8000 + o)

/-- The register at byte `o` of the Cs block (device-wide). -/
def Reg.ofCs (o : Nat) : Reg :=
  if 0x40 ≤ o ∧ o < 0x70 then
      match (o - 0x40) % 0x8 with
      | 0x0 => .csOutCtrl ((o - 0x40) / 0x8)
      | 0x4 => .csOutDelay ((o - 0x40) / 0x8)
      | _ => .reserved 256 (0x9000 + o)
  else match o with
  | 0x0 => .csCtrl
  | 0x4 => .csStatus
  | 0x8 => .csEvents
  | 0xC => .csLockDet
  | 0x10 => .csTrim
  | 0x14 => .csSteerLive
  | 0x18 => .csRefMeas
  | 0x1C => .csLockFilt
  | 0x20 => .csSyncCtrl
  | 0x24 => .csSyncStatus
  | 0x28 => .csSyncoutCtrl
  | 0x2C => .csSyncoutPeriod
  | _ => .reserved 256 (0x9000 + o)

/-- The register at byte `o` of the Fe block (device-wide). -/
def Reg.ofFe (b o : Nat) : Reg :=
  if 0x100 ≤ o ∧ o < 0x500 then
      match (o - 0x100) % 0x10 with
      | 0x0 => .chThr b ((o - 0x100) / 0x10)
      | 0x4 => .chCfg b ((o - 0x100) / 0x10)
      | 0x8 => .chStatus b ((o - 0x100) / 0x10)
      | _ => .reserved 256 (0x10000 + b * 0x2000 + o)
  else match o with
  | 0x0 => .feBankCtrl b
  | 0x4 => .feBankStatus b
  | 0x8 => .feBankEvents b
  | 0xC => .feStclkCfg b
  | 0x10 => .feCalCtrl b
  | 0x14 => .feCalStatus b
  | 0x18 => .feAtCfg b
  | 0x20 => .feAtNoswingLo b
  | 0x24 => .feAtNoswingHi b
  | 0x28 => .feFaultInfo b
  | _ => .reserved 256 (0x10000 + b * 0x2000 + o)

/-- The register at byte `o` of the Det block (device-wide). -/
def Reg.ofDet (n o : Nat) : Reg :=
  if 0x20 ≤ o ∧ o < 0x30 then
      if (o - 0x20) % 4 = 0 then .detPatMask n ((o - 0x20) / 4) else .reserved 256 (0x20000 + n * 0x100 + o)
  else if 0x30 ≤ o ∧ o < 0x40 then
      if (o - 0x30) % 4 = 0 then .detPatValue n ((o - 0x30) / 4) else .reserved 256 (0x20000 + n * 0x100 + o)
  else match o with
  | 0x0 => .detCfg n
  | 0x4 => .detStatus n
  | 0x10 => .detLim1Lo n
  | 0x14 => .detLim1Hi n
  | 0x18 => .detLim2Lo n
  | 0x1C => .detLim2Hi n
  | _ => .reserved 256 (0x20000 + n * 0x100 + o)

/-- The register at byte `o` of the Gp block (device-wide). -/
def Reg.ofGp (g o : Nat) : Reg :=
  if 0x0 ≤ o ∧ o < 0x40 then
      if (o - 0x0) % 4 = 0 then .gpMask g ((o - 0x0) / 4) else .reserved 256 (0x28000 + g * 0x100 + o)
  else if 0x40 ≤ o ∧ o < 0x80 then
      if (o - 0x40) % 4 = 0 then .gpValue g ((o - 0x40) / 4) else .reserved 256 (0x28000 + g * 0x100 + o)
  else match o with
  | 0x80 => .gpCfg g
  | 0x84 => .gpRange g
  | 0x88 => .gpStatus g
  | _ => .reserved 256 (0x28000 + g * 0x100 + o)

/-- The register at byte `o` of the Trig block (device-wide). -/
def Reg.ofTrig (o : Nat) : Reg :=
  if 0x10 ≤ o ∧ o < 0x20 then
      if (o - 0x10) % 4 = 0 then .triginDeskew ((o - 0x10) / 4) else .reserved 256 (0x2C000 + o)
  else if 0x20 ≤ o ∧ o < 0x30 then
      if (o - 0x20) % 4 = 0 then .trigoutCfg ((o - 0x20) / 4) else .reserved 256 (0x2C000 + o)
  else if 0x50 ≤ o ∧ o < 0x70 then
      if (o - 0x50) % 4 = 0 then .xfPermit ((o - 0x50) / 4) else .reserved 256 (0x2C000 + o)
  else match o with
  | 0x0 => .triginCfg
  | 0x40 => .xfState
  | _ => .reserved 256 (0x2C000 + o)

/-- The register at byte `o` of the Seq block (device-wide). -/
def Reg.ofSeq (p o : Nat) : Reg :=
  if 0x10 ≤ o ∧ o < 0x50 then
      match (o - 0x10) % 0x10 with
      | 0x0 => .seqCntCfg p ((o - 0x10) / 0x10)
      | 0x4 => .seqCntTcLo p ((o - 0x10) / 0x10)
      | 0x8 => .seqCntTcHi p ((o - 0x10) / 0x10)
      | _ => .reserved 256 (0x30000 + p * 0x2000 + o)
  else if 0x50 ≤ o ∧ o < 0x90 then
      match (o - 0x50) % 0x10 with
      | 0x0 => .seqTmrCfg p ((o - 0x50) / 0x10)
      | 0x4 => .seqTmrLimLo p ((o - 0x50) / 0x10)
      | 0x8 => .seqTmrLimHi p ((o - 0x50) / 0x10)
      | _ => .reserved 256 (0x30000 + p * 0x2000 + o)
  else if 0x200 ≤ o ∧ o < 0x300 then
      match (o - 0x200) % 0x10 with
      | 0x0 => .lvlCfg p ((o - 0x200) / 0x10)
      | 0x4 => .lvlDwellLo p ((o - 0x200) / 0x10)
      | 0x8 => .lvlDwellHi p ((o - 0x200) / 0x10)
      | _ => .reserved 256 (0x30000 + p * 0x2000 + o)
  else if 0x1000 ≤ o then
      let w := (o - 0x1000) % 0x40
      if 0x0 ≤ w ∧ w < 0x20 then (if w % 4 = 0 then .brTt p ((o - 0x1000) / 0x100) ((o - 0x1000) / 0x40 % 4) ((w - 0x0) / 4) else .reserved 256 (0x30000 + p * 0x2000 + o)) else
      if 0x20 ≤ w ∧ w < 0x30 then (if w % 4 = 0 then .brTerm p ((o - 0x1000) / 0x100) ((o - 0x1000) / 0x40 % 4) ((w - 0x20) / 4) else .reserved 256 (0x30000 + p * 0x2000 + o)) else
      match w with
      | 0x30 => .brAct0 p ((o - 0x1000) / 0x100) ((o - 0x1000) / 0x40 % 4)
      | 0x34 => .brAct1 p ((o - 0x1000) / 0x100) ((o - 0x1000) / 0x40 % 4)
      | 0x38 => .brAct2 p ((o - 0x1000) / 0x100) ((o - 0x1000) / 0x40 % 4)
      | _ => .reserved 256 (0x30000 + p * 0x2000 + o)
  else match o with
  | 0x0 => .seqCtrl p
  | 0x4 => .seqStatus p
  | 0x8 => .seqEvents p
  | _ => .reserved 256 (0x30000 + p * 0x2000 + o)

/-- The register at byte `o` of the Part block (device-wide). -/
def Reg.ofPart (p o : Nat) : Reg :=
  match o with
  | 0x0 => .partOwner p
  | 0x4 => .partMode p
  | 0x8 => .partPretrigLo p
  | 0xC => .partPretrigHi p
  | 0x10 => .partPosttrigLo p
  | 0x14 => .partPosttrigHi p
  | 0x18 => .partEarlyCfg p
  | 0x20 => .partStatus p
  | 0x24 => .partEvents p
  | 0x28 => .partSegId p
  | 0x2C => .partEpoch p
  | _ => .reserved 256 (0x40000 + p * 0x400 + o)

/-- The register at byte `o` of the Enc block (device-wide). -/
def Reg.ofEnc (b o : Nat) : Reg :=
  match o with
  | 0x0 => .encCtrl b
  | 0x4 => .encStatus b
  | 0x8 => .encEvents b
  | _ => .reserved 256 (0x44000 + b * 0x20 + o)

/-- The register at byte `o` of the Mem block (device-wide). -/
def Reg.ofMem (o : Nat) : Reg :=
  if 0x100 ≤ o ∧ o < 0x200 then
      match (o - 0x100) % 0x20 with
      | 0x0 => .memPartLimits ((o - 0x100) / 0x20)
      | 0x4 => .memPartRing ((o - 0x100) / 0x20)
      | 0x8 => .memPartPolicy ((o - 0x100) / 0x20)
      | 0xC => .memPartStatus ((o - 0x100) / 0x20)
      | 0x10 => .memPartHeld ((o - 0x100) / 0x20)
      | _ => .reserved 256 (0x50000 + o)
  else match o with
  | 0x0 => .memCap
  | 0x4 => .memStatus
  | 0x8 => .memEvents
  | 0xC => .memRetiredLo
  | 0x10 => .memRetiredHi
  | 0x14 => .memCtrl
  | 0x18 => .memRetireCmd
  | _ => .reserved 256 (0x50000 + o)

/-- The register at byte `o` of the Hbm block (device-wide). -/
def Reg.ofHbm (st o : Nat) : Reg :=
  if 0x100 ≤ o ∧ o < 0x200 then
      match (o - 0x100) % 0x8 with
      | 0x0 => .hbmPcStatus st ((o - 0x100) / 0x8)
      | 0x4 => .hbmPcTrain st ((o - 0x100) / 0x8)
      | _ => .reserved 256 (0x58000 + st * 0x4000 + o)
  else match o with
  | 0x0 => .hbmStackStatus st
  | _ => .reserved 256 (0x58000 + st * 0x4000 + o)

/-- The register at byte `o` of the Rc block (per function). -/
def Reg.ofRc (f n o : Nat) : Reg :=
  match o with
  | 0x0 => .rcSqBaseLo f n
  | 0x4 => .rcSqBaseHi f n
  | 0x8 => .rcCqBaseLo f n
  | 0xC => .rcCqBaseHi f n
  | 0x10 => .rcCfg f n
  | 0x14 => .rcMod f n
  | 0x18 => .rcWm f n
  | 0x1C => .rcStatus f n
  | 0x20 => .rcSqHead f n
  | 0x24 => .rcCqTail f n
  | 0x28 => .rcEvents f n
  | 0x30 => .rcProgLo f n
  | 0x34 => .rcProgHi f n
  | _ => .reserved f (0x60000 + n * 0x40 + o)

/-- The register at byte `o` of the Pwr block (device-wide). -/
def Reg.ofPwr (o : Nat) : Reg :=
  if 0x4 ≤ o ∧ o < 0x7C then
      if (o - 0x0) % 4 = 0 then .pwrStat ((o - 0x0) / 4) else .reserved 256 (0x70000 + o)
  else if 0x84 ≤ o ∧ o < 0xFC then
      if (o - 0x80) % 4 = 0 then .pwrCtl ((o - 0x80) / 4) else .reserved 256 (0x70000 + o)
  else match o with
  | 0x100 => .pwrBankEn
  | 0x104 => .pwrEvents
  | 0x108 => .pwrMode
  | 0x300 => .rstStatus
  | 0x400 => .thermCtrl
  | 0x404 => .thermStatus
  | _ => .reserved 256 (0x70000 + o)

/-- The register at byte `o` of the Tel block (device-wide). -/
def Reg.ofTel (o : Nat) : Reg :=
  if 0x0 ≤ o ∧ o < 0x34 then
      if (o - 0x0) % 4 = 0 then .telTemp ((o - 0x0) / 4) else .reserved 256 (0x74000 + o)
  else if 0x40 ≤ o ∧ o < 0x60 then
      if (o - 0x40) % 4 = 0 then .telVolt ((o - 0x40) / 4) else .reserved 256 (0x74000 + o)
  else .reserved 256 (0x74000 + o)

/-- The register at byte `o` of the Sec block (device-wide). -/
def Reg.ofSec (o : Nat) : Reg :=
  match o with
  | 0x0 => .secStatus
  | 0x4 => .bootStatus
  | 0x8 => .fwVersion
  | 0xC => .secEvents
  | 0x10 => .mgmtStatus
  | _ => .reserved 256 (0x78000 + o)

/-- The register at a BAR0 offset of physical function `f`: `none` for an offset outside every block of R524, a
`reserved` word for a place that no table names (R525). The offset is that of a word: a multiple of 4. -/
def Reg.ofOff (f o : Nat) : Option Reg :=
  if 0x0 ≤ o ∧ o < 0x1000 then some (Reg.ofIdent f o) else
  if 0x1000 ≤ o ∧ o < 0x2000 then some (Reg.ofAccess f (o - 0x1000)) else
  if 0x2000 ≤ o ∧ o < 0x3000 then some (Reg.ofEvq f (o - 0x2000)) else
  if 0x3000 ≤ o ∧ o < 0x4000 then some (Reg.ofMbx f (o - 0x3000)) else
  if 0x4000 ≤ o ∧ o < 0x4800 then some (Reg.ofEp f (o - 0x4000)) else
  if 0x4800 ≤ o ∧ o < 0x5000 then some (Reg.ofFlt f (o - 0x4800)) else
  if 0x8000 ≤ o ∧ o < 0x9000 then some (Reg.ofTime (o - 0x8000)) else
  if 0x9000 ≤ o ∧ o < 0xA000 then some (Reg.ofCs (o - 0x9000)) else
  if 0x10000 ≤ o ∧ o < 0x20000 then some (Reg.ofFe ((o - 0x10000) / 0x2000) ((o - 0x10000) % 0x2000)) else
  if 0x20000 ≤ o ∧ o < 0x28000 then some (Reg.ofDet ((o - 0x20000) / 0x100) ((o - 0x20000) % 0x100)) else
  if 0x28000 ≤ o ∧ o < 0x28800 then some (Reg.ofGp ((o - 0x28000) / 0x100) ((o - 0x28000) % 0x100)) else
  if 0x2C000 ≤ o ∧ o < 0x2C080 then some (Reg.ofTrig (o - 0x2C000)) else
  if 0x30000 ≤ o ∧ o < 0x40000 then some (Reg.ofSeq ((o - 0x30000) / 0x2000) ((o - 0x30000) % 0x2000)) else
  if 0x40000 ≤ o ∧ o < 0x42000 then some (Reg.ofPart ((o - 0x40000) / 0x400) ((o - 0x40000) % 0x400)) else
  if 0x44000 ≤ o ∧ o < 0x44100 then some (Reg.ofEnc ((o - 0x44000) / 0x20) ((o - 0x44000) % 0x20)) else
  if 0x50000 ≤ o ∧ o < 0x51000 then some (Reg.ofMem (o - 0x50000)) else
  if 0x58000 ≤ o ∧ o < 0x60000 then some (Reg.ofHbm ((o - 0x58000) / 0x4000) ((o - 0x58000) % 0x4000)) else
  if 0x60000 ≤ o ∧ o < 0x60200 then some (Reg.ofRc f ((o - 0x60000) / 0x40) ((o - 0x60000) % 0x40)) else
  if 0x70000 ≤ o ∧ o < 0x71000 then some (Reg.ofPwr (o - 0x70000)) else
  if 0x74000 ≤ o ∧ o < 0x78000 then some (Reg.ofTel (o - 0x74000)) else
  if 0x78000 ≤ o ∧ o < 0x79000 then some (Reg.ofSec (o - 0x78000)) else
  none

/-- A register that exists: its function and indexes lie within the ranges of R527 to R538. -/
def Reg.valid : Reg → Bool
  | .identPart f => decide (f < 256)
  | .identStepping f => decide (f < 256)
  | .identCap f => decide (f < 256)
  | .snapSelect f => decide (f < 256)
  | .snapStatus f => decide (f < 256)
  | .snapData f k => decide (f < 256 ∧ k < 4)
  | .snapLoadLo f => decide (f < 256)
  | .snapLoadHi f => decide (f < 256)
  | .slowCtrl f => decide (f < 256)
  | .slowStatus f => decide (f < 256)
  | .slowAddr f => decide (f < 256)
  | .slowData f => decide (f < 256)
  | .regDownLog f => decide (f < 256)
  | .regEvents f => decide (f < 256)
  | .evqPopLo f => decide (f < 256)
  | .evqPopHi f => decide (f < 256)
  | .evqCfg f => decide (f < 256)
  | .evqStatus f => decide (f < 256)
  | .mbxPtrLo f c => decide (f < 256 ∧ c < 16)
  | .mbxPtrHi f c => decide (f < 256 ∧ c < 16)
  | .mbxDoorbell f c => decide (f < 256 ∧ c < 16)
  | .mbxAck f c => decide (f < 256 ∧ c < 16)
  | .mbxAckState f c => decide (f < 256 ∧ c < 16)
  | .mbxChan c => decide (c < 16)
  | .mbxHostBaseLo f => decide (f < 256)
  | .mbxHostBaseHi f => decide (f < 256)
  | .mbxHostCfg f => decide (f < 256)
  | .mbxHostAck f => decide (f < 256)
  | .mbxHostStatus f => decide (f < 256)
  | .containStatus f => decide (f < 256)
  | .containEpoch f => decide (f < 256)
  | .containRelease f => decide (f < 256)
  | .epCto f => decide (f < 256)
  | .epErrPopLo f => decide (f < 256)
  | .epErrPopHi f => decide (f < 256)
  | .epErrCfg f => decide (f < 256)
  | .epEvents f => decide (f < 256)
  | .epTagStatus f => decide (f < 256)
  | .epLinkStatus f => decide (f < 256)
  | .epWakeCfg f => decide (f < 256)
  | .fltPopLo f => decide (f < 256)
  | .fltPopHi f => decide (f < 256)
  | .fltTimeLo f => decide (f < 256)
  | .fltTimeHi f => decide (f < 256)
  | .fltCfg f => decide (f < 256)
  | .fltStatus f => decide (f < 256)
  | .fltCount c => decide (1 ≤ c ∧ c < 19)
  | .csOutCtrl n => decide (n < 6)
  | .csOutDelay n => decide (n < 6)
  | .feBankCtrl b => decide (b < 8)
  | .feBankStatus b => decide (b < 8)
  | .feBankEvents b => decide (b < 8)
  | .feStclkCfg b => decide (b < 8)
  | .feCalCtrl b => decide (b < 8)
  | .feCalStatus b => decide (b < 8)
  | .feAtCfg b => decide (b < 8)
  | .feAtNoswingLo b => decide (b < 8)
  | .feAtNoswingHi b => decide (b < 8)
  | .feFaultInfo b => decide (b < 8)
  | .chThr b c => decide (b < 8 ∧ c < 64)
  | .chCfg b c => decide (b < 8 ∧ c < 64)
  | .chStatus b c => decide (b < 8 ∧ c < 64)
  | .detCfg n => decide (n < 128)
  | .detStatus n => decide (n < 128)
  | .detLim1Lo n => decide (n < 128)
  | .detLim1Hi n => decide (n < 128)
  | .detLim2Lo n => decide (n < 128)
  | .detLim2Hi n => decide (n < 128)
  | .detPatMask n k => decide (n < 128 ∧ k < 4)
  | .detPatValue n k => decide (n < 128 ∧ k < 4)
  | .gpMask g k => decide (g < 8 ∧ k < 16)
  | .gpValue g k => decide (g < 8 ∧ k < 16)
  | .gpCfg g => decide (g < 8)
  | .gpRange g => decide (g < 8)
  | .gpStatus g => decide (g < 8)
  | .triginDeskew n => decide (n < 4)
  | .trigoutCfg n => decide (n < 4)
  | .xfPermit p => decide (p < 8)
  | .seqCtrl p => decide (p < 8)
  | .seqStatus p => decide (p < 8)
  | .seqEvents p => decide (p < 8)
  | .seqCntCfg p k => decide (p < 8 ∧ k < 4)
  | .seqCntTcLo p k => decide (p < 8 ∧ k < 4)
  | .seqCntTcHi p k => decide (p < 8 ∧ k < 4)
  | .seqTmrCfg p k => decide (p < 8 ∧ k < 4)
  | .seqTmrLimLo p k => decide (p < 8 ∧ k < 4)
  | .seqTmrLimHi p k => decide (p < 8 ∧ k < 4)
  | .lvlCfg p l => decide (p < 8 ∧ l < 16)
  | .lvlDwellLo p l => decide (p < 8 ∧ l < 16)
  | .lvlDwellHi p l => decide (p < 8 ∧ l < 16)
  | .brTt p l br k => decide (p < 8 ∧ l < 16 ∧ br < 4 ∧ k < 8)
  | .brTerm p l br j => decide (p < 8 ∧ l < 16 ∧ br < 4 ∧ j < 4)
  | .brAct0 p l br => decide (p < 8 ∧ l < 16 ∧ br < 4)
  | .brAct1 p l br => decide (p < 8 ∧ l < 16 ∧ br < 4)
  | .brAct2 p l br => decide (p < 8 ∧ l < 16 ∧ br < 4)
  | .partOwner p => decide (p < 8)
  | .partMode p => decide (p < 8)
  | .partPretrigLo p => decide (p < 8)
  | .partPretrigHi p => decide (p < 8)
  | .partPosttrigLo p => decide (p < 8)
  | .partPosttrigHi p => decide (p < 8)
  | .partEarlyCfg p => decide (p < 8)
  | .partStatus p => decide (p < 8)
  | .partEvents p => decide (p < 8)
  | .partSegId p => decide (p < 8)
  | .partEpoch p => decide (p < 8)
  | .encCtrl b => decide (b < 8)
  | .encStatus b => decide (b < 8)
  | .encEvents b => decide (b < 8)
  | .memPartLimits p => decide (p < 8)
  | .memPartRing p => decide (p < 8)
  | .memPartPolicy p => decide (p < 8)
  | .memPartStatus p => decide (p < 8)
  | .memPartHeld p => decide (p < 8)
  | .hbmStackStatus st => decide (st < 2)
  | .hbmPcStatus st q => decide (st < 2 ∧ q < 32)
  | .hbmPcTrain st q => decide (st < 2 ∧ q < 32)
  | .rcSqBaseLo f n => decide (f < 256 ∧ n < 8)
  | .rcSqBaseHi f n => decide (f < 256 ∧ n < 8)
  | .rcCqBaseLo f n => decide (f < 256 ∧ n < 8)
  | .rcCqBaseHi f n => decide (f < 256 ∧ n < 8)
  | .rcCfg f n => decide (f < 256 ∧ n < 8)
  | .rcMod f n => decide (f < 256 ∧ n < 8)
  | .rcWm f n => decide (f < 256 ∧ n < 8)
  | .rcStatus f n => decide (f < 256 ∧ n < 8)
  | .rcSqHead f n => decide (f < 256 ∧ n < 8)
  | .rcCqTail f n => decide (f < 256 ∧ n < 8)
  | .rcEvents f n => decide (f < 256 ∧ n < 8)
  | .rcProgLo f n => decide (f < 256 ∧ n < 8)
  | .rcProgHi f n => decide (f < 256 ∧ n < 8)
  | .pwrStat d => decide (1 ≤ d ∧ d < 31)
  | .pwrCtl d => decide (1 ≤ d ∧ d < 31)
  | .telTemp k => decide (k < 13)
  | .telVolt r => decide (r < 8)
  | .reserved _ _ => false
  | _ => true

/-- A field of a register: the register, its lowest bit and its width. -/
structure Fld where
  reg : Reg
  lo : Nat
  width : Nat
  deriving DecidableEq, Repr

/-- The word a register holds at reset: every field at its reset value. -/
def Reg.reset (r : Reg) : Word :=
  BitVec.ofNat 32 ((r.fields.map fun x => x.reset * 2 ^ x.lo).sum)

end Sys2Proof.Machine
end

