-- ==== Sys2Proof/Machine/Fields.lean ====
section
/-! DEFINITION. Machine/Fields.lean: a name for every field of every register table, built from the register's name and
the field's (the tables are those of the chapters; `Reg.fields` lists them with access, apply boundary and reset). -/

namespace Sys2Proof.Machine.F

/-- IDENT_PART.VENDOR_CODE (R13). -/
abbrev identPartVendorCode (f : Nat) : Fld := ⟨.identPart f, 24, 8⟩
/-- IDENT_PART.FAMILY (R13). -/
abbrev identPartFamily (f : Nat) : Fld := ⟨.identPart f, 16, 8⟩
/-- IDENT_PART.PART (R13). -/
abbrev identPartPart (f : Nat) : Fld := ⟨.identPart f, 0, 16⟩
/-- IDENT_STEPPING.VARIANT (R14). -/
abbrev identSteppingVariant (f : Nat) : Fld := ⟨.identStepping f, 8, 8⟩
/-- IDENT_STEPPING.STEP_MAJOR (R14). -/
abbrev identSteppingStepMajor (f : Nat) : Fld := ⟨.identStepping f, 4, 4⟩
/-- IDENT_STEPPING.STEP_MINOR (R14). -/
abbrev identSteppingStepMinor (f : Nat) : Fld := ⟨.identStepping f, 0, 4⟩
/-- IDENT_CAP.RECOVERY (R460). -/
abbrev identCapRecovery (f : Nat) : Fld := ⟨.identCap f, 8, 1⟩
/-- IDENT_CAP.ALL_BANKS (R460). -/
abbrev identCapAllBanks (f : Nat) : Fld := ⟨.identCap f, 3, 1⟩
/-- IDENT_CAP.TDC (R460). -/
abbrev identCapTdc (f : Nat) : Fld := ⟨.identCap f, 2, 1⟩
/-- IDENT_CAP.CAPTURE_MEM (R460). -/
abbrev identCapCaptureMem (f : Nat) : Fld := ⟨.identCap f, 1, 1⟩
/-- IDENT_CAP.FULL_SERVICE (R460). -/
abbrev identCapFullService (f : Nat) : Fld := ⟨.identCap f, 0, 1⟩
/-- SNAP_SELECT.ACTION (R426). -/
abbrev snapSelectAction (f : Nat) : Fld := ⟨.snapSelect f, 30, 2⟩
/-- SNAP_SELECT.ITEM (R426). -/
abbrev snapSelectItem (f : Nat) : Fld := ⟨.snapSelect f, 0, 16⟩
/-- SNAP_STATUS.SNAP_SEQ (R426). -/
abbrev snapStatusSnapSeq (f : Nat) : Fld := ⟨.snapStatus f, 16, 16⟩
/-- SNAP_STATUS.RESULT (R426). -/
abbrev snapStatusResult (f : Nat) : Fld := ⟨.snapStatus f, 2, 2⟩
/-- SNAP_STATUS.BUSY (R426). -/
abbrev snapStatusBusy (f : Nat) : Fld := ⟨.snapStatus f, 1, 1⟩
/-- SNAP_STATUS.SNAP_VALID (R426). -/
abbrev snapStatusSnapValid (f : Nat) : Fld := ⟨.snapStatus f, 0, 1⟩
/-- SNAP_DATA0–3.DATA (R426). -/
abbrev snapDataData (f k : Nat) : Fld := ⟨.snapData f k, 0, 32⟩
/-- SNAP_LOAD_LO.LOAD[31:0] (R426). -/
abbrev snapLoadLoLoad (f : Nat) : Fld := ⟨.snapLoadLo f, 0, 32⟩
/-- SNAP_LOAD_HI.LOAD[47:32] (R426). -/
abbrev snapLoadHiLoad (f : Nat) : Fld := ⟨.snapLoadHi f, 0, 16⟩
/-- SLOW_CTRL.AUTO_INC (R427). -/
abbrev slowCtrlAutoInc (f : Nat) : Fld := ⟨.slowCtrl f, 1, 1⟩
/-- SLOW_CTRL.SLOW_ACCESS_MODE (R427). -/
abbrev slowCtrlSlowAccessMode (f : Nat) : Fld := ⟨.slowCtrl f, 0, 1⟩
/-- SLOW_STATUS.OVERRUN_CAUSE (R427). -/
abbrev slowStatusOverrunCause (f : Nat) : Fld := ⟨.slowStatus f, 8, 1⟩
/-- SLOW_STATUS.BUSY_TARGETS (R427). -/
abbrev slowStatusBusyTargets (f : Nat) : Fld := ⟨.slowStatus f, 4, 4⟩
/-- SLOW_STATUS.SLOW_OVERRUN (R427). -/
abbrev slowStatusSlowOverrun (f : Nat) : Fld := ⟨.slowStatus f, 1, 1⟩
/-- SLOW_STATUS.SLOW_BUSY (R427). -/
abbrev slowStatusSlowBusy (f : Nat) : Fld := ⟨.slowStatus f, 0, 1⟩
/-- SLOW_ADDR.ADDR (R427). -/
abbrev slowAddrAddr (f : Nat) : Fld := ⟨.slowAddr f, 2, 18⟩
/-- SLOW_DATA.DATA (R427). -/
abbrev slowDataData (f : Nat) : Fld := ⟨.slowData f, 0, 32⟩
/-- REG_DOWN_LOG.VALID (R428). -/
abbrev regDownLogValid (f : Nat) : Fld := ⟨.regDownLog f, 31, 1⟩
/-- REG_DOWN_LOG.WRITE (R428). -/
abbrev regDownLogWrite (f : Nat) : Fld := ⟨.regDownLog f, 30, 1⟩
/-- REG_DOWN_LOG.DOMAIN (R428). -/
abbrev regDownLogDomain (f : Nat) : Fld := ⟨.regDownLog f, 25, 5⟩
/-- REG_DOWN_LOG.OFFSET (R428). -/
abbrev regDownLogOffset (f : Nat) : Fld := ⟨.regDownLog f, 2, 18⟩
/-- VOTE_LAST.LSB (R428). -/
abbrev voteLastLsb : Fld := ⟨.voteLast, 24, 5⟩
/-- VOTE_LAST.OFFSET (R428). -/
abbrev voteLastOffset : Fld := ⟨.voteLast, 2, 18⟩
/-- REG_EVENTS.CFG_REFUSED (R428). -/
abbrev regEventsCfgRefused (f : Nat) : Fld := ⟨.regEvents f, 2, 1⟩
/-- REG_EVENTS.DOMAIN_DOWN (R428). -/
abbrev regEventsDomainDown (f : Nat) : Fld := ⟨.regEvents f, 1, 1⟩
/-- REG_EVENTS.VOTE_SCRUB (R428). -/
abbrev regEventsVoteScrub (f : Nat) : Fld := ⟨.regEvents f, 0, 1⟩
/-- EVQ_POP_LO.ENTRY_LO (R430). -/
abbrev evqPopLoEntryLo (f : Nat) : Fld := ⟨.evqPopLo f, 0, 32⟩
/-- EVQ_POP_HI.ENTRY_HI (R430). -/
abbrev evqPopHiEntryHi (f : Nat) : Fld := ⟨.evqPopHi f, 0, 32⟩
/-- EVQ_CFG.IRQ_EDGE (R430). -/
abbrev evqCfgIrqEdge (f : Nat) : Fld := ⟨.evqCfg f, 9, 1⟩
/-- EVQ_CFG.EVQ_WM (R430). -/
abbrev evqCfgEvqWm (f : Nat) : Fld := ⟨.evqCfg f, 0, 9⟩
/-- EVQ_STATUS.OVERRUN (R430). -/
abbrev evqStatusOverrun (f : Nat) : Fld := ⟨.evqStatus f, 10, 1⟩
/-- EVQ_STATUS.WM (R430). -/
abbrev evqStatusWm (f : Nat) : Fld := ⟨.evqStatus f, 9, 1⟩
/-- EVQ_STATUS.FILL (R430). -/
abbrev evqStatusFill (f : Nat) : Fld := ⟨.evqStatus f, 0, 9⟩
/-- MBX_PTR_LO.PTR[31:6] (R431). -/
abbrev mbxPtrLoPtr (f c : Nat) : Fld := ⟨.mbxPtrLo f c, 6, 26⟩
/-- MBX_PTR_HI.PTR[63:32] (R431). -/
abbrev mbxPtrHiPtr (f c : Nat) : Fld := ⟨.mbxPtrHi f c, 0, 32⟩
/-- MBX_DOORBELL.SEQ (R431). -/
abbrev mbxDoorbellSeq (f c : Nat) : Fld := ⟨.mbxDoorbell f c, 0, 16⟩
/-- MBX_ACK.STATUS (R431). -/
abbrev mbxAckStatus (f c : Nat) : Fld := ⟨.mbxAck f c, 16, 16⟩
/-- MBX_ACK.SEQ (R431). -/
abbrev mbxAckSeq (f c : Nat) : Fld := ⟨.mbxAck f c, 0, 16⟩
/-- MBX_ACK_STATE.SEQ (R431). -/
abbrev mbxAckStateSeq (f c : Nat) : Fld := ⟨.mbxAckState f c, 16, 16⟩
/-- MBX_ACK_STATE.STATE (R431). -/
abbrev mbxAckStateState (f c : Nat) : Fld := ⟨.mbxAckState f c, 0, 2⟩
/-- MBX_CHAN.TARGET (R431). -/
abbrev mbxChanTarget (c : Nat) : Fld := ⟨.mbxChan c, 31, 1⟩
/-- MBX_CHAN.MBX_COLLISION (R431). -/
abbrev mbxChanMbxCollision (c : Nat) : Fld := ⟨.mbxChan c, 2, 1⟩
/-- MBX_CHAN.IN_PROGRESS (R431). -/
abbrev mbxChanInProgress (c : Nat) : Fld := ⟨.mbxChan c, 1, 1⟩
/-- MBX_CHAN.OCCUPIED (R431). -/
abbrev mbxChanOccupied (c : Nat) : Fld := ⟨.mbxChan c, 0, 1⟩
/-- MBX_HOST_BASE_LO.BASE[31:12] (R432). -/
abbrev mbxHostBaseLoBase (f : Nat) : Fld := ⟨.mbxHostBaseLo f, 12, 20⟩
/-- MBX_HOST_BASE_HI.BASE[63:32] (R432). -/
abbrev mbxHostBaseHiBase (f : Nat) : Fld := ⟨.mbxHostBaseHi f, 0, 32⟩
/-- MBX_HOST_CFG.EN (R432). -/
abbrev mbxHostCfgEn (f : Nat) : Fld := ⟨.mbxHostCfg f, 31, 1⟩
/-- MBX_HOST_CFG.SIZE (R432). -/
abbrev mbxHostCfgSize (f : Nat) : Fld := ⟨.mbxHostCfg f, 16, 4⟩
/-- MBX_HOST_CFG.VEC (R432). -/
abbrev mbxHostCfgVec (f : Nat) : Fld := ⟨.mbxHostCfg f, 8, 8⟩
/-- MBX_HOST_ACK.ACK_SEQ (R432). -/
abbrev mbxHostAckAckSeq (f : Nat) : Fld := ⟨.mbxHostAck f, 0, 16⟩
/-- MBX_HOST_STATUS.LAST_SEQ (R432). -/
abbrev mbxHostStatusLastSeq (f : Nat) : Fld := ⟨.mbxHostStatus f, 16, 16⟩
/-- MBX_HOST_STATUS.HELD (R432). -/
abbrev mbxHostStatusHeld (f : Nat) : Fld := ⟨.mbxHostStatus f, 0, 9⟩
/-- CONTAIN_STATUS.CAUSE (R386). -/
abbrev containStatusCause (f : Nat) : Fld := ⟨.containStatus f, 16, 8⟩
/-- CONTAIN_STATUS.RELEASE_PENDING (R386). -/
abbrev containStatusReleasePending (f : Nat) : Fld := ⟨.containStatus f, 1, 1⟩
/-- CONTAIN_STATUS.CONTAINED (R386). -/
abbrev containStatusContained (f : Nat) : Fld := ⟨.containStatus f, 0, 1⟩
/-- CONTAIN_EPOCH.EPOCH (R386). -/
abbrev containEpochEpoch (f : Nat) : Fld := ⟨.containEpoch f, 0, 16⟩
/-- CONTAIN_RELEASE.RELEASE_EPOCH (R386). -/
abbrev containReleaseReleaseEpoch (f : Nat) : Fld := ⟨.containRelease f, 0, 16⟩
/-- EP_CTO.CTO (R387). -/
abbrev epCtoCto (f : Nat) : Fld := ⟨.epCto f, 0, 23⟩
/-- EP_ERR_POP_LO.ENTRY_LO (R387). -/
abbrev epErrPopLoEntryLo (f : Nat) : Fld := ⟨.epErrPopLo f, 0, 32⟩
/-- EP_ERR_POP_HI.ENTRY_HI (R387). -/
abbrev epErrPopHiEntryHi (f : Nat) : Fld := ⟨.epErrPopHi f, 0, 32⟩
/-- EP_ERR_CFG.ERR_WM (R387). -/
abbrev epErrCfgErrWm (f : Nat) : Fld := ⟨.epErrCfg f, 0, 8⟩
/-- EP_EVENTS.CFG_REFUSED (R388). -/
abbrev epEventsCfgRefused (f : Nat) : Fld := ⟨.epEvents f, 6, 1⟩
/-- EP_EVENTS.LINK_DEGRADED (R388). -/
abbrev epEventsLinkDegraded (f : Nat) : Fld := ⟨.epEvents f, 5, 1⟩
/-- EP_EVENTS.ERR_OVERRUN (R388). -/
abbrev epEventsErrOverrun (f : Nat) : Fld := ⟨.epEvents f, 4, 1⟩
/-- EP_EVENTS.ERR_WM (R388). -/
abbrev epEventsErrWm (f : Nat) : Fld := ⟨.epEvents f, 3, 1⟩
/-- EP_EVENTS.STALE_RELEASE (R388). -/
abbrev epEventsStaleRelease (f : Nat) : Fld := ⟨.epEvents f, 2, 1⟩
/-- EP_EVENTS.UNEXPECTED_CPL (R388). -/
abbrev epEventsUnexpectedCpl (f : Nat) : Fld := ⟨.epEvents f, 1, 1⟩
/-- EP_EVENTS.CONTAINED (R388). -/
abbrev epEventsContained (f : Nat) : Fld := ⟨.epEvents f, 0, 1⟩
/-- EP_TAG_STATUS.QUARANTINED (R389). -/
abbrev epTagStatusQuarantined (f : Nat) : Fld := ⟨.epTagStatus f, 16, 16⟩
/-- EP_TAG_STATUS.OUTSTANDING (R389). -/
abbrev epTagStatusOutstanding (f : Nat) : Fld := ⟨.epTagStatus f, 0, 11⟩
/-- EP_LINK_STATUS.PORT_MODE (R389). -/
abbrev epLinkStatusPortMode (f : Nat) : Fld := ⟨.epLinkStatus f, 31, 1⟩
/-- EP_LINK_STATUS.PORT (R389). -/
abbrev epLinkStatusPort (f : Nat) : Fld := ⟨.epLinkStatus f, 30, 1⟩
/-- EP_LINK_STATUS.PORT_READY (R389). -/
abbrev epLinkStatusPortReady (f : Nat) : Fld := ⟨.epLinkStatus f, 29, 1⟩
/-- EP_LINK_STATUS.DEGRADED (R389). -/
abbrev epLinkStatusDegraded (f : Nat) : Fld := ⟨.epLinkStatus f, 28, 1⟩
/-- EP_LINK_STATUS.FLIT (R389). -/
abbrev epLinkStatusFlit (f : Nat) : Fld := ⟨.epLinkStatus f, 27, 1⟩
/-- EP_LINK_STATUS.SPEED (R389). -/
abbrev epLinkStatusSpeed (f : Nat) : Fld := ⟨.epLinkStatus f, 24, 3⟩
/-- EP_LINK_STATUS.WIDTH (R389). -/
abbrev epLinkStatusWidth (f : Nat) : Fld := ⟨.epLinkStatus f, 16, 5⟩
/-- EP_LINK_STATUS.L0P_WIDTH (R389). -/
abbrev epLinkStatusL0pWidth (f : Nat) : Fld := ⟨.epLinkStatus f, 0, 5⟩
/-- EP_WAKE_CFG.L1_IDLE (R389). -/
abbrev epWakeCfgL1Idle (f : Nat) : Fld := ⟨.epWakeCfg f, 24, 8⟩
/-- EP_WAKE_CFG.WAKE_EDGE (R389). -/
abbrev epWakeCfgWakeEdge (f : Nat) : Fld := ⟨.epWakeCfg f, 4, 4⟩
/-- EP_WAKE_CFG.WAKE_TRIGIN (R389). -/
abbrev epWakeCfgWakeTrigin (f : Nat) : Fld := ⟨.epWakeCfg f, 0, 4⟩
/-- FLT_POP_LO.ENTRY_LO (R500). -/
abbrev fltPopLoEntryLo (f : Nat) : Fld := ⟨.fltPopLo f, 0, 32⟩
/-- FLT_POP_HI.ENTRY_HI (R500). -/
abbrev fltPopHiEntryHi (f : Nat) : Fld := ⟨.fltPopHi f, 0, 32⟩
/-- FLT_TIME_LO.TIME_LO (R500). -/
abbrev fltTimeLoTimeLo (f : Nat) : Fld := ⟨.fltTimeLo f, 0, 32⟩
/-- FLT_TIME_HI.TIME_HI (R500). -/
abbrev fltTimeHiTimeHi (f : Nat) : Fld := ⟨.fltTimeHi f, 0, 32⟩
/-- FLT_CFG.LOG_WM (R501). -/
abbrev fltCfgLogWm (f : Nat) : Fld := ⟨.fltCfg f, 0, 7⟩
/-- FLT_STATUS.FAULT_PIN (R501). -/
abbrev fltStatusFaultPin (f : Nat) : Fld := ⟨.fltStatus f, 31, 1⟩
/-- FLT_STATUS.CFG_REFUSED (R501). -/
abbrev fltStatusCfgRefused (f : Nat) : Fld := ⟨.fltStatus f, 9, 1⟩
/-- FLT_STATUS.OVERRUN (R501). -/
abbrev fltStatusOverrun (f : Nat) : Fld := ⟨.fltStatus f, 8, 1⟩
/-- FLT_STATUS.WM (R501). -/
abbrev fltStatusWm (f : Nat) : Fld := ⟨.fltStatus f, 7, 1⟩
/-- FLT_STATUS.FILL (R501). -/
abbrev fltStatusFill (f : Nat) : Fld := ⟨.fltStatus f, 0, 7⟩
/-- FLT_PIN_CAUSE.CAUSE (R502). -/
abbrev fltPinCauseCause : Fld := ⟨.fltPinCause, 0, 6⟩
/-- FLT_PIN_MASK.MASK (R502). -/
abbrev fltPinMaskMask : Fld := ⟨.fltPinMask, 0, 6⟩
/-- FLT_CTRL.FAULT_TEST (R501). -/
abbrev fltCtrlFaultTest : Fld := ⟨.fltCtrl, 1, 1⟩
/-- FLT_CTRL.CLEAR_COUNTS (R501). -/
abbrev fltCtrlClearCounts : Fld := ⟨.fltCtrl, 0, 1⟩
/-- FLT_COUNTc.COUNT (R503). -/
abbrev fltCountCount (c : Nat) : Fld := ⟨.fltCount c, 0, 32⟩
/-- TIME_CTRL.KTC_CONFIRM (R103). -/
abbrev timeCtrlKtcConfirm : Fld := ⟨.timeCtrl, 8, 1⟩
/-- TIME_CTRL.KTC_EN (R103). -/
abbrev timeCtrlKtcEn : Fld := ⟨.timeCtrl, 7, 1⟩
/-- TIME_CTRL.PPS_EDGE (R103). -/
abbrev timeCtrlPpsEdge : Fld := ⟨.timeCtrl, 6, 1⟩
/-- TIME_CTRL.PPS_EN (R103). -/
abbrev timeCtrlPpsEn : Fld := ⟨.timeCtrl, 5, 1⟩
/-- TIME_CTRL.REF_RETURN (R103). -/
abbrev timeCtrlRefReturn : Fld := ⟨.timeCtrl, 4, 1⟩
/-- TIME_CTRL.TIME_POLICY (R103). -/
abbrev timeCtrlTimePolicy : Fld := ⟨.timeCtrl, 0, 2⟩
/-- TIME_STATUS.TIMELINE (R104). -/
abbrev timeStatusTimeline : Fld := ⟨.timeStatus, 16, 16⟩
/-- TIME_STATUS.SET_PENDING (R104). -/
abbrev timeStatusSetPending : Fld := ⟨.timeStatus, 12, 1⟩
/-- TIME_STATUS.STEP_PENDING (R104). -/
abbrev timeStatusStepPending : Fld := ⟨.timeStatus, 11, 1⟩
/-- TIME_STATUS.SATURATED (R104). -/
abbrev timeStatusSaturated : Fld := ⟨.timeStatus, 10, 1⟩
/-- TIME_STATUS.KTC_VALID (R104). -/
abbrev timeStatusKtcValid : Fld := ⟨.timeStatus, 9, 1⟩
/-- TIME_STATUS.PPS_ALIGNED (R104). -/
abbrev timeStatusPpsAligned : Fld := ⟨.timeStatus, 8, 1⟩
/-- TIME_STATUS.HOLDOVER (R104). -/
abbrev timeStatusHoldover : Fld := ⟨.timeStatus, 7, 1⟩
/-- TIME_STATUS.RECONVERGING (R104). -/
abbrev timeStatusReconverging : Fld := ⟨.timeStatus, 6, 1⟩
/-- TIME_STATUS.QUALITY (R104). -/
abbrev timeStatusQuality : Fld := ⟨.timeStatus, 0, 4⟩
/-- TIME_EVENTS.CFG_REFUSED (R105). -/
abbrev timeEventsCfgRefused : Fld := ⟨.timeEvents, 11, 1⟩
/-- TIME_EVENTS.COUNTER_SAT (R105). -/
abbrev timeEventsCounterSat : Fld := ⟨.timeEvents, 10, 1⟩
/-- TIME_EVENTS.PHASE_ADJ (R105). -/
abbrev timeEventsPhaseAdj : Fld := ⟨.timeEvents, 9, 1⟩
/-- TIME_EVENTS.SATURATED (R105). -/
abbrev timeEventsSaturated : Fld := ⟨.timeEvents, 8, 1⟩
/-- TIME_EVENTS.KTC_MISMATCH (R105). -/
abbrev timeEventsKtcMismatch : Fld := ⟨.timeEvents, 7, 1⟩
/-- TIME_EVENTS.KTC_BAD (R105). -/
abbrev timeEventsKtcBad : Fld := ⟨.timeEvents, 6, 1⟩
/-- TIME_EVENTS.HOLDOVER_ENTERED (R105). -/
abbrev timeEventsHoldoverEntered : Fld := ⟨.timeEvents, 5, 1⟩
/-- TIME_EVENTS.STEPPED (R105). -/
abbrev timeEventsStepped : Fld := ⟨.timeEvents, 4, 1⟩
/-- TIME_EVENTS.PPS_OUTLIER (R105). -/
abbrev timeEventsPpsOutlier : Fld := ⟨.timeEvents, 3, 1⟩
/-- TIME_EVENTS.PPS_MISSING (R105). -/
abbrev timeEventsPpsMissing : Fld := ⟨.timeEvents, 2, 1⟩
/-- TIME_EVENTS.RECONVERGED (R105). -/
abbrev timeEventsReconverged : Fld := ⟨.timeEvents, 1, 1⟩
/-- TIME_EVENTS.PPS_ACQUIRED (R105). -/
abbrev timeEventsPpsAcquired : Fld := ⟨.timeEvents, 0, 1⟩
/-- TIME_CABLE_DELAY.CABLE_DELAY (R106). -/
abbrev timeCableDelayCableDelay : Fld := ⟨.timeCableDelay, 0, 24⟩
/-- TIME_PPS_CFG.OUTLIER_LIMIT (R106). -/
abbrev timePpsCfgOutlierLimit : Fld := ⟨.timePpsCfg, 24, 4⟩
/-- TIME_PPS_CFG.PPS_WINDOW (R106). -/
abbrev timePpsCfgPpsWindow : Fld := ⟨.timePpsCfg, 0, 24⟩
/-- TIME_STEER_CFG.REF_SLEW (R106). -/
abbrev timeSteerCfgRefSlew : Fld := ⟨.timeSteerCfg, 24, 8⟩
/-- TIME_STEER_CFG.STEER_MAX (R106). -/
abbrev timeSteerCfgSteerMax : Fld := ⟨.timeSteerCfg, 16, 8⟩
/-- TIME_STEER_CFG.STEER_TC (R106). -/
abbrev timeSteerCfgSteerTc : Fld := ⟨.timeSteerCfg, 0, 10⟩
/-- TIME_LAST_ERR.LAST_ERR (R107). -/
abbrev timeLastErrLastErr : Fld := ⟨.timeLastErr, 0, 32⟩
/-- TIME_HO_EST.HO_EST (R107). -/
abbrev timeHoEstHoEst : Fld := ⟨.timeHoEst, 0, 32⟩
/-- TIME_HO_MODEL.HO_RATE_XO (R107). -/
abbrev timeHoModelHoRateXo : Fld := ⟨.timeHoModel, 16, 16⟩
/-- TIME_HO_MODEL.HO_RATE_REF (R107). -/
abbrev timeHoModelHoRateRef : Fld := ⟨.timeHoModel, 0, 16⟩
/-- TIME_XO_LEARNED.XO_LEARNED (R107). -/
abbrev timeXoLearnedXoLearned : Fld := ⟨.timeXoLearned, 0, 24⟩
/-- TIME_SET_LO.SET_SECONDS_LO (R108). -/
abbrev timeSetLoSetSecondsLo : Fld := ⟨.timeSetLo, 0, 32⟩
/-- TIME_SET_HI.SET_REQ (R108). -/
abbrev timeSetHiSetReq : Fld := ⟨.timeSetHi, 31, 1⟩
/-- TIME_SET_HI.SET_SECONDS_HI (R108). -/
abbrev timeSetHiSetSecondsHi : Fld := ⟨.timeSetHi, 0, 8⟩
/-- TIME_KTC_STATUS.KTC_VERSION (R109). -/
abbrev timeKtcStatusKtcVersion : Fld := ⟨.timeKtcStatus, 24, 4⟩
/-- TIME_KTC_STATUS.KTC_HOLDOVER (R109). -/
abbrev timeKtcStatusKtcHoldover : Fld := ⟨.timeKtcStatus, 22, 1⟩
/-- TIME_KTC_STATUS.KTC_QUALITY (R109). -/
abbrev timeKtcStatusKtcQuality : Fld := ⟨.timeKtcStatus, 18, 4⟩
/-- TIME_KTC_STATUS.LEAP (R109). -/
abbrev timeKtcStatusLeap : Fld := ⟨.timeKtcStatus, 16, 2⟩
/-- TIME_KTC_STATUS.EPOCH (R109). -/
abbrev timeKtcStatusEpoch : Fld := ⟨.timeKtcStatus, 0, 16⟩
/-- TIME_DEVID.DEVID_SRC (R109). -/
abbrev timeDevidDevidSrc : Fld := ⟨.timeDevid, 16, 1⟩
/-- TIME_DEVID.DEVICE_ID (R109). -/
abbrev timeDevidDeviceId : Fld := ⟨.timeDevid, 0, 14⟩
/-- CS_CTRL.RELOCK (R68). -/
abbrev csCtrlRelock : Fld := ⟨.csCtrl, 7, 1⟩
/-- CS_CTRL.TRIM_RELOCK (R68). -/
abbrev csCtrlTrimRelock : Fld := ⟨.csCtrl, 6, 1⟩
/-- CS_CTRL.LOCK_SOURCE (R68). -/
abbrev csCtrlLockSource : Fld := ⟨.csCtrl, 4, 2⟩
/-- CS_CTRL.REF_FREQ (R68). -/
abbrev csCtrlRefFreq : Fld := ⟨.csCtrl, 2, 2⟩
/-- CS_CTRL.REF_SEL (R68). -/
abbrev csCtrlRefSel : Fld := ⟨.csCtrl, 0, 2⟩
/-- CS_STATUS.CAPTURE_OUT_HELD (R69). -/
abbrev csStatusCaptureOutHeld : Fld := ⟨.csStatus, 13, 1⟩
/-- CS_STATUS.SYSPLL_LOCKED (R69). -/
abbrev csStatusSyspllLocked : Fld := ⟨.csStatus, 12, 1⟩
/-- CS_STATUS.OUTPUTS_GATED (R69). -/
abbrev csStatusOutputsGated : Fld := ⟨.csStatus, 11, 1⟩
/-- CS_STATUS.RELOCK_STATE (R69). -/
abbrev csStatusRelockState : Fld := ⟨.csStatus, 8, 3⟩
/-- CS_STATUS.LOCK_FILT_STATE (R69). -/
abbrev csStatusLockFiltState : Fld := ⟨.csStatus, 6, 2⟩
/-- CS_STATUS.LOCK_PATH (R69). -/
abbrev csStatusLockPath : Fld := ⟨.csStatus, 5, 1⟩
/-- CS_STATUS.REF_FREQ_ACTIVE (R69). -/
abbrev csStatusRefFreqActive : Fld := ⟨.csStatus, 3, 2⟩
/-- CS_STATUS.REF_QUALIFIED (R69). -/
abbrev csStatusRefQualified : Fld := ⟨.csStatus, 2, 1⟩
/-- CS_STATUS.SPLL_INPUT (R69). -/
abbrev csStatusSpllInput : Fld := ⟨.csStatus, 1, 1⟩
/-- CS_STATUS.SPLL_LOCKED (R69). -/
abbrev csStatusSpllLocked : Fld := ⟨.csStatus, 0, 1⟩
/-- CS_EVENTS.SYSPLL_LOSS (R70). -/
abbrev csEventsSyspllLoss : Fld := ⟨.csEvents, 8, 1⟩
/-- CS_EVENTS.RELOCK_FAILED (R70). -/
abbrev csEventsRelockFailed : Fld := ⟨.csEvents, 7, 1⟩
/-- CS_EVENTS.CFG_REFUSED (R70). -/
abbrev csEventsCfgRefused : Fld := ⟨.csEvents, 6, 1⟩
/-- CS_EVENTS.SYNC_REFUSED (R70). -/
abbrev csEventsSyncRefused : Fld := ⟨.csEvents, 5, 1⟩
/-- CS_EVENTS.SYNC_APPLIED (R70). -/
abbrev csEventsSyncApplied : Fld := ⟨.csEvents, 4, 1⟩
/-- CS_EVENTS.STEER_CLAMPED (R70). -/
abbrev csEventsSteerClamped : Fld := ⟨.csEvents, 3, 1⟩
/-- CS_EVENTS.LOCK_FALLBACK (R70). -/
abbrev csEventsLockFallback : Fld := ⟨.csEvents, 2, 1⟩
/-- CS_EVENTS.LOSS_OF_REF (R70). -/
abbrev csEventsLossOfRef : Fld := ⟨.csEvents, 1, 1⟩
/-- CS_EVENTS.LOSS_OF_LOCK (R70). -/
abbrev csEventsLossOfLock : Fld := ⟨.csEvents, 0, 1⟩
/-- CS_LOCK_DET.LOCK_COUNT (R71). -/
abbrev csLockDetLockCount : Fld := ⟨.csLockDet, 16, 16⟩
/-- CS_LOCK_DET.LOSS_WIN (R71). -/
abbrev csLockDetLossWin : Fld := ⟨.csLockDet, 8, 8⟩
/-- CS_LOCK_DET.LOCK_WIN (R71). -/
abbrev csLockDetLockWin : Fld := ⟨.csLockDet, 0, 8⟩
/-- CS_TRIM.TRIM (R72). -/
abbrev csTrimTrim : Fld := ⟨.csTrim, 0, 24⟩
/-- CS_STEER_LIVE.STEER_LIVE (R72). -/
abbrev csSteerLiveSteerLive : Fld := ⟨.csSteerLive, 0, 24⟩
/-- CS_REF_MEAS.REF_OFFSET (R72). -/
abbrev csRefMeasRefOffset : Fld := ⟨.csRefMeas, 0, 16⟩
/-- CS_LOCK_FILT.LF_MV (R72). -/
abbrev csLockFiltLfMv : Fld := ⟨.csLockFilt, 0, 12⟩
/-- CS_SYNC_CTRL.SYNC_LATENCY (R73). -/
abbrev csSyncCtrlSyncLatency : Fld := ⟨.csSyncCtrl, 16, 16⟩
/-- CS_SYNC_CTRL.SYNC_MODE (R73). -/
abbrev csSyncCtrlSyncMode : Fld := ⟨.csSyncCtrl, 1, 1⟩
/-- CS_SYNC_CTRL.SYNC_ARM (R73). -/
abbrev csSyncCtrlSyncArm : Fld := ⟨.csSyncCtrl, 0, 1⟩
/-- CS_SYNC_STATUS.LAST_REFUSED (R73). -/
abbrev csSyncStatusLastRefused : Fld := ⟨.csSyncStatus, 22, 1⟩
/-- CS_SYNC_STATUS.LAST_MOVED (R73). -/
abbrev csSyncStatusLastMoved : Fld := ⟨.csSyncStatus, 16, 6⟩
/-- CS_SYNC_STATUS.SYNC_APPLIED_COUNT (R73). -/
abbrev csSyncStatusSyncAppliedCount : Fld := ⟨.csSyncStatus, 0, 16⟩
/-- CS_SYNCOUT_CTRL.SO_WIDTH (R74). -/
abbrev csSyncoutCtrlSoWidth : Fld := ⟨.csSyncoutCtrl, 8, 8⟩
/-- CS_SYNCOUT_CTRL.SO_FIRE (R74). -/
abbrev csSyncoutCtrlSoFire : Fld := ⟨.csSyncoutCtrl, 2, 1⟩
/-- CS_SYNCOUT_CTRL.SO_MODE (R74). -/
abbrev csSyncoutCtrlSoMode : Fld := ⟨.csSyncoutCtrl, 0, 2⟩
/-- CS_SYNCOUT_PERIOD.SO_PERIOD (R74). -/
abbrev csSyncoutPeriodSoPeriod : Fld := ⟨.csSyncoutPeriod, 0, 32⟩
/-- CS_OUT_CTRLn.POSTDIV (R75). -/
abbrev csOutCtrlPostdiv (n : Nat) : Fld := ⟨.csOutCtrl n, 16, 3⟩
/-- CS_OUT_CTRLn.DIV (R75). -/
abbrev csOutCtrlDiv (n : Nat) : Fld := ⟨.csOutCtrl n, 8, 8⟩
/-- CS_OUT_CTRLn.SYNC_EN (R75). -/
abbrev csOutCtrlSyncEn (n : Nat) : Fld := ⟨.csOutCtrl n, 1, 1⟩
/-- CS_OUT_CTRLn.EN (R75). -/
abbrev csOutCtrlEn (n : Nat) : Fld := ⟨.csOutCtrl n, 0, 1⟩
/-- CS_OUT_DELAYn.FINE (R75). -/
abbrev csOutDelayFine (n : Nat) : Fld := ⟨.csOutDelay n, 16, 9⟩
/-- CS_OUT_DELAYn.COARSE (R75). -/
abbrev csOutDelayCoarse (n : Nat) : Fld := ⟨.csOutDelay n, 0, 8⟩
/-- FE_BANK_CTRL.SOFT_RESET (R137). -/
abbrev feBankCtrlSoftReset (b : Nat) : Fld := ⟨.feBankCtrl b, 7, 1⟩
/-- FE_BANK_CTRL.AUTO_RECOVER (R137). -/
abbrev feBankCtrlAutoRecover (b : Nat) : Fld := ⟨.feBankCtrl b, 6, 1⟩
/-- FE_BANK_CTRL.CMP_MODE (R137). -/
abbrev feBankCtrlCmpMode (b : Nat) : Fld := ⟨.feBankCtrl b, 0, 1⟩
/-- FE_BANK_STATUS.TEMP_AT_CAL (R138). -/
abbrev feBankStatusTempAtCal (b : Nat) : Fld := ⟨.feBankStatus b, 16, 8⟩
/-- FE_BANK_STATUS.TEMP_DRIFT (R138). -/
abbrev feBankStatusTempDrift (b : Nat) : Fld := ⟨.feBankStatus b, 12, 1⟩
/-- FE_BANK_STATUS.FAULT (R138). -/
abbrev feBankStatusFault (b : Nat) : Fld := ⟨.feBankStatus b, 11, 1⟩
/-- FE_BANK_STATUS.STOPPED (R138). -/
abbrev feBankStatusStopped (b : Nat) : Fld := ⟨.feBankStatus b, 10, 1⟩
/-- FE_BANK_STATUS.CAL_RUNNING (R138). -/
abbrev feBankStatusCalRunning (b : Nat) : Fld := ⟨.feBankStatus b, 9, 1⟩
/-- FE_BANK_STATUS.UNCALIBRATED (R138). -/
abbrev feBankStatusUncalibrated (b : Nat) : Fld := ⟨.feBankStatus b, 8, 1⟩
/-- FE_BANK_STATUS.STEPS_VALID (R138). -/
abbrev feBankStatusStepsValid (b : Nat) : Fld := ⟨.feBankStatus b, 0, 5⟩
/-- FE_BANK_EVENTS.CFG_REFUSED (R139). -/
abbrev feBankEventsCfgRefused (b : Nat) : Fld := ⟨.feBankEvents b, 7, 1⟩
/-- FE_BANK_EVENTS.STCLK_MERGE (R139). -/
abbrev feBankEventsStclkMerge (b : Nat) : Fld := ⟨.feBankEvents b, 6, 1⟩
/-- FE_BANK_EVENTS.TDC_MERGE (R139). -/
abbrev feBankEventsTdcMerge (b : Nat) : Fld := ⟨.feBankEvents b, 5, 1⟩
/-- FE_BANK_EVENTS.AT_NO_SWING (R139). -/
abbrev feBankEventsAtNoSwing (b : Nat) : Fld := ⟨.feBankEvents b, 4, 1⟩
/-- FE_BANK_EVENTS.CAL_ABORTED (R139). -/
abbrev feBankEventsCalAborted (b : Nat) : Fld := ⟨.feBankEvents b, 3, 1⟩
/-- FE_BANK_EVENTS.CAL_DONE (R139). -/
abbrev feBankEventsCalDone (b : Nat) : Fld := ⟨.feBankEvents b, 2, 1⟩
/-- FE_BANK_EVENTS.TEMP_DRIFT (R139). -/
abbrev feBankEventsTempDrift (b : Nat) : Fld := ⟨.feBankEvents b, 1, 1⟩
/-- FE_BANK_EVENTS.FAULT (R139). -/
abbrev feBankEventsFault (b : Nat) : Fld := ⟨.feBankEvents b, 0, 1⟩
/-- FE_STCLK_CFG.STCLK_DESKEW (R140). -/
abbrev feStclkCfgStclkDeskew (b : Nat) : Fld := ⟨.feStclkCfg b, 16, 11⟩
/-- FE_STCLK_CFG.STCLK_TERM (R140). -/
abbrev feStclkCfgStclkTerm (b : Nat) : Fld := ⟨.feStclkCfg b, 3, 1⟩
/-- FE_STCLK_CFG.STCLK_EDGE (R140). -/
abbrev feStclkCfgStclkEdge (b : Nat) : Fld := ⟨.feStclkCfg b, 0, 2⟩
/-- FE_CAL_CTRL.EXT_EDGE (R141). -/
abbrev feCalCtrlExtEdge (b : Nat) : Fld := ⟨.feCalCtrl b, 16, 1⟩
/-- FE_CAL_CTRL.EXT_TIMEOUT (R141). -/
abbrev feCalCtrlExtTimeout (b : Nat) : Fld := ⟨.feCalCtrl b, 8, 8⟩
/-- FE_CAL_CTRL.START (R141). -/
abbrev feCalCtrlStart (b : Nat) : Fld := ⟨.feCalCtrl b, 5, 1⟩
/-- FE_CAL_CTRL.STEPS (R141). -/
abbrev feCalCtrlSteps (b : Nat) : Fld := ⟨.feCalCtrl b, 0, 5⟩
/-- FE_CAL_STATUS.ABORT_REASON (R141). -/
abbrev feCalStatusAbortReason (b : Nat) : Fld := ⟨.feCalStatus b, 16, 8⟩
/-- FE_CAL_STATUS.STEPS_DONE (R141). -/
abbrev feCalStatusStepsDone (b : Nat) : Fld := ⟨.feCalStatus b, 8, 5⟩
/-- FE_CAL_STATUS.STEP_RUNNING (R141). -/
abbrev feCalStatusStepRunning (b : Nat) : Fld := ⟨.feCalStatus b, 0, 5⟩
/-- FE_AT_CFG.AT_U_FRAC (R142). -/
abbrev feAtCfgAtUFrac (b : Nat) : Fld := ⟨.feAtCfg b, 24, 8⟩
/-- FE_AT_CFG.AT_L_FRAC (R142). -/
abbrev feAtCfgAtLFrac (b : Nat) : Fld := ⟨.feAtCfg b, 16, 8⟩
/-- FE_AT_CFG.AT_DWELL (R142). -/
abbrev feAtCfgAtDwell (b : Nat) : Fld := ⟨.feAtCfg b, 8, 8⟩
/-- FE_AT_CFG.AT_EN (R142). -/
abbrev feAtCfgAtEn (b : Nat) : Fld := ⟨.feAtCfg b, 0, 1⟩
/-- FE_AT_NOSWING_LO.NOSWING_LO (R142). -/
abbrev feAtNoswingLoNoswingLo (b : Nat) : Fld := ⟨.feAtNoswingLo b, 0, 32⟩
/-- FE_AT_NOSWING_HI.NOSWING_HI (R142). -/
abbrev feAtNoswingHiNoswingHi (b : Nat) : Fld := ⟨.feAtNoswingHi b, 0, 32⟩
/-- FE_FAULT_INFO.FAULT_CODE (R142). -/
abbrev feFaultInfoFaultCode (b : Nat) : Fld := ⟨.feFaultInfo b, 16, 8⟩
/-- FE_FAULT_INFO.FAULT_CHANNEL (R142). -/
abbrev feFaultInfoFaultChannel (b : Nat) : Fld := ⟨.feFaultInfo b, 0, 6⟩
/-- CH_THRc.THR_L (R143). -/
abbrev chThrThrL (b c : Nat) : Fld := ⟨.chThr b c, 16, 12⟩
/-- CH_THRc.THR_U (R143). -/
abbrev chThrThrU (b c : Nat) : Fld := ⟨.chThr b c, 0, 12⟩
/-- CH_CFGc.DESKEW (R143). -/
abbrev chCfgDeskew (b c : Nat) : Fld := ⟨.chCfg b c, 16, 11⟩
/-- CH_CFGc.INPUT_MODE (R143). -/
abbrev chCfgInputMode (b c : Nat) : Fld := ⟨.chCfg b c, 8, 2⟩
/-- CH_CFGc.HYST_L (R143). -/
abbrev chCfgHystL (b c : Nat) : Fld := ⟨.chCfg b c, 4, 4⟩
/-- CH_CFGc.HYST_U (R143). -/
abbrev chCfgHystU (b c : Nat) : Fld := ⟨.chCfg b c, 0, 4⟩
/-- CH_STATUSc.LEVEL_U (R143). -/
abbrev chStatusLevelU (b c : Nat) : Fld := ⟨.chStatus b c, 4, 1⟩
/-- CH_STATUSc.LEVEL_L (R143). -/
abbrev chStatusLevelL (b c : Nat) : Fld := ⟨.chStatus b c, 3, 1⟩
/-- CH_STATUSc.THR_RANGE (R143). -/
abbrev chStatusThrRange (b c : Nat) : Fld := ⟨.chStatus b c, 2, 1⟩
/-- CH_STATUSc.AT_SET (R143). -/
abbrev chStatusAtSet (b c : Nat) : Fld := ⟨.chStatus b c, 1, 1⟩
/-- CH_STATUSc.AT_NO_SWING (R143). -/
abbrev chStatusAtNoSwing (b c : Nat) : Fld := ⟨.chStatus b c, 0, 1⟩
/-- DET_CFG.TYPE (R171). -/
abbrev detCfgType (n : Nat) : Fld := ⟨.detCfg n, 24, 4⟩
/-- DET_CFG.CHAN_B (R171). -/
abbrev detCfgChanB (n : Nat) : Fld := ⟨.detCfg n, 16, 6⟩
/-- DET_CFG.CHAN_A (R171). -/
abbrev detCfgChanA (n : Nat) : Fld := ⟨.detCfg n, 8, 6⟩
/-- DET_CFG.CMP_B (R171). -/
abbrev detCfgCmpB (n : Nat) : Fld := ⟨.detCfg n, 7, 1⟩
/-- DET_CFG.CMP (R171). -/
abbrev detCfgCmp (n : Nat) : Fld := ⟨.detCfg n, 6, 1⟩
/-- DET_CFG.DIR (R171). -/
abbrev detCfgDir (n : Nat) : Fld := ⟨.detCfg n, 4, 2⟩
/-- DET_CFG.WINDOW (R171). -/
abbrev detCfgWindow (n : Nat) : Fld := ⟨.detCfg n, 3, 1⟩
/-- DET_CFG.REPEAT (R171). -/
abbrev detCfgRepeat (n : Nat) : Fld := ⟨.detCfg n, 2, 1⟩
/-- DET_CFG.EN (R171). -/
abbrev detCfgEn (n : Nat) : Fld := ⟨.detCfg n, 0, 1⟩
/-- DET_STATUS.CFG_REFUSED (R172). -/
abbrev detStatusCfgRefused (n : Nat) : Fld := ⟨.detStatus n, 2, 1⟩
/-- DET_STATUS.OVERRUN (R172). -/
abbrev detStatusOverrun (n : Nat) : Fld := ⟨.detStatus n, 1, 1⟩
/-- DET_STATUS.ACTIVE (R172). -/
abbrev detStatusActive (n : Nat) : Fld := ⟨.detStatus n, 0, 1⟩
/-- DET_LIM1_LO.LIM1[31:0] (R173). -/
abbrev detLim1LoLim1 (n : Nat) : Fld := ⟨.detLim1Lo n, 0, 32⟩
/-- DET_LIM1_HI.LIM1[47:32] (R173). -/
abbrev detLim1HiLim1 (n : Nat) : Fld := ⟨.detLim1Hi n, 0, 16⟩
/-- DET_LIM2_LO.LIM2[31:0] (R173). -/
abbrev detLim2LoLim2 (n : Nat) : Fld := ⟨.detLim2Lo n, 0, 32⟩
/-- DET_LIM2_HI.LIM2[47:32] (R173). -/
abbrev detLim2HiLim2 (n : Nat) : Fld := ⟨.detLim2Hi n, 0, 16⟩
/-- DET_PAT_MASKk.PAT_MASK (R174). -/
abbrev detPatMaskPatMask (n k : Nat) : Fld := ⟨.detPatMask n k, 0, 32⟩
/-- DET_PAT_VALUEk.PAT_VALUE (R174). -/
abbrev detPatValuePatValue (n k : Nat) : Fld := ⟨.detPatValue n k, 0, 32⟩
/-- GP_MASKk.GP_MASK (R175). -/
abbrev gpMaskGpMask (g k : Nat) : Fld := ⟨.gpMask g k, 0, 32⟩
/-- GP_VALUEk.GP_VALUE (R175). -/
abbrev gpValueGpValue (g k : Nat) : Fld := ⟨.gpValue g k, 0, 32⟩
/-- GP_CFG.ASSIGNED (R175). -/
abbrev gpCfgAssigned (g : Nat) : Fld := ⟨.gpCfg g, 31, 1⟩
/-- GP_CFG.PARTITION (R175). -/
abbrev gpCfgPartition (g : Nat) : Fld := ⟨.gpCfg g, 28, 3⟩
/-- GP_CFG.OUTPUT (R175). -/
abbrev gpCfgOutput (g : Nat) : Fld := ⟨.gpCfg g, 16, 2⟩
/-- GP_CFG.CMP (R175). -/
abbrev gpCfgCmp (g : Nat) : Fld := ⟨.gpCfg g, 1, 1⟩
/-- GP_CFG.EN (R175). -/
abbrev gpCfgEn (g : Nat) : Fld := ⟨.gpCfg g, 0, 1⟩
/-- GP_RANGE.HI_CH (R175). -/
abbrev gpRangeHiCh (g : Nat) : Fld := ⟨.gpRange g, 16, 9⟩
/-- GP_RANGE.LO_CH (R175). -/
abbrev gpRangeLoCh (g : Nat) : Fld := ⟨.gpRange g, 0, 9⟩
/-- GP_STATUS.CFG_REFUSED (R175). -/
abbrev gpStatusCfgRefused (g : Nat) : Fld := ⟨.gpStatus g, 2, 1⟩
/-- GP_STATUS.MATCH (R175). -/
abbrev gpStatusMatch (g : Nat) : Fld := ⟨.gpStatus g, 1, 1⟩
/-- GP_STATUS.ACTIVE (R175). -/
abbrev gpStatusActive (g : Nat) : Fld := ⟨.gpStatus g, 0, 1⟩
/-- TRIGIN_CFG.TRIGIN_POL (R214). -/
abbrev triginCfgTriginPol : Fld := ⟨.triginCfg, 4, 4⟩
/-- TRIGIN_CFG.TRIGIN_TERM (R214). -/
abbrev triginCfgTriginTerm : Fld := ⟨.triginCfg, 0, 4⟩
/-- TRIGIN_DESKEWn.DESKEW (R214). -/
abbrev triginDeskewDeskew (n : Nat) : Fld := ⟨.triginDeskew n, 0, 11⟩
/-- TRIGOUT_CFGn.WIDTH (R214). -/
abbrev trigoutCfgWidth (n : Nat) : Fld := ⟨.trigoutCfg n, 24, 8⟩
/-- TRIGOUT_CFGn.SRC_MASK (R214). -/
abbrev trigoutCfgSrcMask (n : Nat) : Fld := ⟨.trigoutCfg n, 16, 8⟩
/-- TRIGOUT_CFGn.POLARITY (R214). -/
abbrev trigoutCfgPolarity (n : Nat) : Fld := ⟨.trigoutCfg n, 1, 1⟩
/-- TRIGOUT_CFGn.EN (R214). -/
abbrev trigoutCfgEn (n : Nat) : Fld := ⟨.trigoutCfg n, 0, 1⟩
/-- XF_STATE.XF (R214). -/
abbrev xfStateXf : Fld := ⟨.xfState, 0, 8⟩
/-- XF_PERMITp.PERMIT (R214). -/
abbrev xfPermitPermit (p : Nat) : Fld := ⟨.xfPermit p, 0, 8⟩
/-- SEQ_CTRL.EXACT_CNT (R209). -/
abbrev seqCtrlExactCnt (p : Nat) : Fld := ⟨.seqCtrl p, 16, 4⟩
/-- SEQ_CTRL.GAP_RESTART (R209). -/
abbrev seqCtrlGapRestart (p : Nat) : Fld := ⟨.seqCtrl p, 8, 1⟩
/-- SEQ_CTRL.STORE_INIT (R209). -/
abbrev seqCtrlStoreInit (p : Nat) : Fld := ⟨.seqCtrl p, 4, 1⟩
/-- SEQ_STATUS.SEQ_LATENCY (R210). -/
abbrev seqStatusSeqLatency (p : Nat) : Fld := ⟨.seqStatus p, 16, 5⟩
/-- SEQ_STATUS.RUNNING (R210). -/
abbrev seqStatusRunning (p : Nat) : Fld := ⟨.seqStatus p, 13, 1⟩
/-- SEQ_STATUS.STORE (R210). -/
abbrev seqStatusStore (p : Nat) : Fld := ⟨.seqStatus p, 12, 1⟩
/-- SEQ_STATUS.LAST_BRANCH (R210). -/
abbrev seqStatusLastBranch (p : Nat) : Fld := ⟨.seqStatus p, 8, 2⟩
/-- SEQ_STATUS.LEVEL (R210). -/
abbrev seqStatusLevel (p : Nat) : Fld := ⟨.seqStatus p, 0, 4⟩
/-- SEQ_EVENTS.TRIGGERED (R210). -/
abbrev seqEventsTriggered (p : Nat) : Fld := ⟨.seqEvents p, 2, 1⟩
/-- SEQ_EVENTS.GAP_RESTART (R210). -/
abbrev seqEventsGapRestart (p : Nat) : Fld := ⟨.seqEvents p, 1, 1⟩
/-- SEQ_EVENTS.CFG_REFUSED (R210). -/
abbrev seqEventsCfgRefused (p : Nat) : Fld := ⟨.seqEvents p, 0, 1⟩
/-- SEQ_CNT_CFGk.CNT_MODE (R211). -/
abbrev seqCntCfgCntMode (p k : Nat) : Fld := ⟨.seqCntCfg p k, 0, 1⟩
/-- SEQ_CNT_TC_LOk.TC[31:0] (R211). -/
abbrev seqCntTcLoTc (p k : Nat) : Fld := ⟨.seqCntTcLo p k, 0, 32⟩
/-- SEQ_CNT_TC_HIk.TC[47:32] (R211). -/
abbrev seqCntTcHiTc (p k : Nat) : Fld := ⟨.seqCntTcHi p k, 0, 16⟩
/-- SEQ_TMR_CFGk.TMR_MODE (R211). -/
abbrev seqTmrCfgTmrMode (p k : Nat) : Fld := ⟨.seqTmrCfg p k, 0, 1⟩
/-- SEQ_TMR_LIM_LOk.LIMIT[31:0] (R211). -/
abbrev seqTmrLimLoLimit (p k : Nat) : Fld := ⟨.seqTmrLimLo p k, 0, 32⟩
/-- SEQ_TMR_LIM_HIk.LIMIT[47:32] (R211). -/
abbrev seqTmrLimHiLimit (p k : Nat) : Fld := ⟨.seqTmrLimHi p k, 0, 16⟩
/-- LVL_CFGL.OCCUR (R212). -/
abbrev lvlCfgOccur (p l : Nat) : Fld := ⟨.lvlCfg p l, 16, 16⟩
/-- LVL_CFGL.CANDIDATE (R212). -/
abbrev lvlCfgCandidate (p l : Nat) : Fld := ⟨.lvlCfg p l, 1, 1⟩
/-- LVL_DWELL_LOL.DWELL[31:0] (R212). -/
abbrev lvlDwellLoDwell (p l : Nat) : Fld := ⟨.lvlDwellLo p l, 0, 32⟩
/-- LVL_DWELL_HIL.DWELL[47:32] (R212). -/
abbrev lvlDwellHiDwell (p l : Nat) : Fld := ⟨.lvlDwellHi p l, 0, 16⟩
/-- BR_TTk.TT (R213). -/
abbrev brTtTt (p l br k : Nat) : Fld := ⟨.brTt p l br k, 0, 32⟩
/-- BR_TERMj.SEL_HI (R213). -/
abbrev brTermSelHi (p l br j : Nat) : Fld := ⟨.brTerm p l br j, 16, 16⟩
/-- BR_TERMj.SEL_LO (R213). -/
abbrev brTermSelLo (p l br j : Nat) : Fld := ⟨.brTerm p l br j, 0, 16⟩
/-- BR_ACT0.EN (R213). -/
abbrev brAct0En (p l br : Nat) : Fld := ⟨.brAct0 p l br, 31, 1⟩
/-- BR_ACT0.NEXT_LEVEL (R213). -/
abbrev brAct0NextLevel (p l br : Nat) : Fld := ⟨.brAct0 p l br, 16, 4⟩
/-- BR_ACT0.MARK_CODE (R213). -/
abbrev brAct0MarkCode (p l br : Nat) : Fld := ⟨.brAct0 p l br, 8, 8⟩
/-- BR_ACT0.IGNORE_DWELL (R213). -/
abbrev brAct0IgnoreDwell (p l br : Nat) : Fld := ⟨.brAct0 p l br, 7, 1⟩
/-- BR_ACT0.GOTO (R213). -/
abbrev brAct0Goto (p l br : Nat) : Fld := ⟨.brAct0 p l br, 6, 1⟩
/-- BR_ACT0.MARK (R213). -/
abbrev brAct0Mark (p l br : Nat) : Fld := ⟨.brAct0 p l br, 5, 1⟩
/-- BR_ACT0.STORE_OFF (R213). -/
abbrev brAct0StoreOff (p l br : Nat) : Fld := ⟨.brAct0 p l br, 4, 1⟩
/-- BR_ACT0.STORE_ON (R213). -/
abbrev brAct0StoreOn (p l br : Nat) : Fld := ⟨.brAct0 p l br, 3, 1⟩
/-- BR_ACT0.ABANDON (R213). -/
abbrev brAct0Abandon (p l br : Nat) : Fld := ⟨.brAct0 p l br, 2, 1⟩
/-- BR_ACT0.OPEN (R213). -/
abbrev brAct0Open (p l br : Nat) : Fld := ⟨.brAct0 p l br, 1, 1⟩
/-- BR_ACT0.TRIGGER (R213). -/
abbrev brAct0Trigger (p l br : Nat) : Fld := ⟨.brAct0 p l br, 0, 1⟩
/-- BR_ACT1.TMR_OPS (R213). -/
abbrev brAct1TmrOps (p l br : Nat) : Fld := ⟨.brAct1 p l br, 8, 12⟩
/-- BR_ACT1.CNT_OPS (R213). -/
abbrev brAct1CntOps (p l br : Nat) : Fld := ⟨.brAct1 p l br, 0, 8⟩
/-- BR_ACT2.TRIGOUT (R213). -/
abbrev brAct2Trigout (p l br : Nat) : Fld := ⟨.brAct2 p l br, 16, 4⟩
/-- BR_ACT2.XF_CLR (R213). -/
abbrev brAct2XfClr (p l br : Nat) : Fld := ⟨.brAct2 p l br, 8, 8⟩
/-- BR_ACT2.XF_SET (R213). -/
abbrev brAct2XfSet (p l br : Nat) : Fld := ⟨.brAct2 p l br, 0, 8⟩
/-- PART_OWNER.EXISTS (R244). -/
abbrev partOwnerExists (p : Nat) : Fld := ⟨.partOwner p, 31, 1⟩
/-- PART_OWNER.BANKS (R244). -/
abbrev partOwnerBanks (p : Nat) : Fld := ⟨.partOwner p, 16, 8⟩
/-- PART_OWNER.PORT (R244). -/
abbrev partOwnerPort (p : Nat) : Fld := ⟨.partOwner p, 7, 1⟩
/-- PART_OWNER.FUNCTION (R244). -/
abbrev partOwnerFunction (p : Nat) : Fld := ⟨.partOwner p, 0, 7⟩
/-- PART_MODE.CONT_FRAMES (R245). -/
abbrev partModeContFrames (p : Nat) : Fld := ⟨.partMode p, 16, 15⟩
/-- PART_MODE.EARLY_EN (R245). -/
abbrev partModeEarlyEn (p : Nat) : Fld := ⟨.partMode p, 5, 1⟩
/-- PART_MODE.OVERLAP_DROP (R245). -/
abbrev partModeOverlapDrop (p : Nat) : Fld := ⟨.partMode p, 4, 1⟩
/-- PART_MODE.CONTINUOUS (R245). -/
abbrev partModeContinuous (p : Nat) : Fld := ⟨.partMode p, 3, 1⟩
/-- PART_MODE.STATE_MODE (R245). -/
abbrev partModeStateMode (p : Nat) : Fld := ⟨.partMode p, 2, 1⟩
/-- PART_MODE.RATE (R245). -/
abbrev partModeRate (p : Nat) : Fld := ⟨.partMode p, 0, 2⟩
/-- PART_PRETRIG_LO.PRETRIG[31:0] (R246). -/
abbrev partPretrigLoPretrig (p : Nat) : Fld := ⟨.partPretrigLo p, 0, 32⟩
/-- PART_PRETRIG_HI.PRETRIG[47:32] (R246). -/
abbrev partPretrigHiPretrig (p : Nat) : Fld := ⟨.partPretrigHi p, 0, 16⟩
/-- PART_POSTTRIG_LO.POSTTRIG[31:0] (R246). -/
abbrev partPosttrigLoPosttrig (p : Nat) : Fld := ⟨.partPosttrigLo p, 0, 32⟩
/-- PART_POSTTRIG_HI.POSTTRIG[47:32] (R246). -/
abbrev partPosttrigHiPosttrig (p : Nat) : Fld := ⟨.partPosttrigHi p, 0, 16⟩
/-- PART_EARLY_CFG.THROTTLE_OVERRIDE (R247). -/
abbrev partEarlyCfgThrottleOverride (p : Nat) : Fld := ⟨.partEarlyCfg p, 31, 1⟩
/-- PART_EARLY_CFG.EARLY_BACKLOG (R247). -/
abbrev partEarlyCfgEarlyBacklog (p : Nat) : Fld := ⟨.partEarlyCfg p, 0, 16⟩
/-- PART_STATUS.PHANTOMS (R248). -/
abbrev partStatusPhantoms (p : Nat) : Fld := ⟨.partStatus p, 16, 16⟩
/-- PART_STATUS.ORPHAN (R248). -/
abbrev partStatusOrphan (p : Nat) : Fld := ⟨.partStatus p, 15, 1⟩
/-- PART_STATUS.STOPPED (R248). -/
abbrev partStatusStopped (p : Nat) : Fld := ⟨.partStatus p, 14, 1⟩
/-- PART_STATUS.EARLY_THROTTLED (R248). -/
abbrev partStatusEarlyThrottled (p : Nat) : Fld := ⟨.partStatus p, 13, 1⟩
/-- PART_STATUS.EARLY_ACTIVE (R248). -/
abbrev partStatusEarlyActive (p : Nat) : Fld := ⟨.partStatus p, 12, 1⟩
/-- PART_STATUS.POST_COUNT (R248). -/
abbrev partStatusPostCount (p : Nat) : Fld := ⟨.partStatus p, 8, 4⟩
/-- PART_STATUS.LARVAL_COUNT (R248). -/
abbrev partStatusLarvalCount (p : Nat) : Fld := ⟨.partStatus p, 4, 3⟩
/-- PART_STATUS.STATE (R248). -/
abbrev partStatusState (p : Nat) : Fld := ⟨.partStatus p, 0, 3⟩
/-- PART_EVENTS.CFG_REFUSED (R248). -/
abbrev partEventsCfgRefused (p : Nat) : Fld := ⟨.partEvents p, 8, 1⟩
/-- PART_EVENTS.STOPPED (R248). -/
abbrev partEventsStopped (p : Nat) : Fld := ⟨.partEvents p, 7, 1⟩
/-- PART_EVENTS.ORPHANED (R248). -/
abbrev partEventsOrphaned (p : Nat) : Fld := ⟨.partEvents p, 6, 1⟩
/-- PART_EVENTS.THROTTLE (R248). -/
abbrev partEventsThrottle (p : Nat) : Fld := ⟨.partEvents p, 5, 1⟩
/-- PART_EVENTS.EARLY_TRIGGER (R248). -/
abbrev partEventsEarlyTrigger (p : Nat) : Fld := ⟨.partEvents p, 4, 1⟩
/-- PART_EVENTS.TRIG_DROPPED (R248). -/
abbrev partEventsTrigDropped (p : Nat) : Fld := ⟨.partEvents p, 3, 1⟩
/-- PART_EVENTS.OPEN_REFUSED (R248). -/
abbrev partEventsOpenRefused (p : Nat) : Fld := ⟨.partEvents p, 2, 1⟩
/-- PART_EVENTS.ABANDONED (R248). -/
abbrev partEventsAbandoned (p : Nat) : Fld := ⟨.partEvents p, 1, 1⟩
/-- PART_EVENTS.COMMITTED (R248). -/
abbrev partEventsCommitted (p : Nat) : Fld := ⟨.partEvents p, 0, 1⟩
/-- PART_SEG_ID.LAST_SEG_ID (R249). -/
abbrev partSegIdLastSegId (p : Nat) : Fld := ⟨.partSegId p, 0, 32⟩
/-- PART_EPOCH.EPOCH (R249). -/
abbrev partEpochEpoch (p : Nat) : Fld := ⟨.partEpoch p, 0, 16⟩
/-- ENC_CTRL.HI_FRAC (R284). -/
abbrev encCtrlHiFrac (b : Nat) : Fld := ⟨.encCtrl b, 24, 8⟩
/-- ENC_CTRL.LO_FRAC (R284). -/
abbrev encCtrlLoFrac (b : Nat) : Fld := ⟨.encCtrl b, 16, 8⟩
/-- ENC_CTRL.HOLD (R284). -/
abbrev encCtrlHold (b : Nat) : Fld := ⟨.encCtrl b, 8, 8⟩
/-- ENC_CTRL.ENC_POLICY (R284). -/
abbrev encCtrlEncPolicy (b : Nat) : Fld := ⟨.encCtrl b, 0, 2⟩
/-- ENC_STATUS.LAST_MEAN (R285). -/
abbrev encStatusLastMean (b : Nat) : Fld := ⟨.encStatus b, 16, 16⟩
/-- ENC_STATUS.HELD (R285). -/
abbrev encStatusHeld (b : Nat) : Fld := ⟨.encStatus b, 4, 1⟩
/-- ENC_STATUS.LIMIT_ACTIVE (R285). -/
abbrev encStatusLimitActive (b : Nat) : Fld := ⟨.encStatus b, 3, 1⟩
/-- ENC_STATUS.PREF (R285). -/
abbrev encStatusPref (b : Nat) : Fld := ⟨.encStatus b, 2, 1⟩
/-- ENC_STATUS.CURRENT (R285). -/
abbrev encStatusCurrent (b : Nat) : Fld := ⟨.encStatus b, 0, 2⟩
/-- ENC_EVENTS.CFG_REFUSED (R286). -/
abbrev encEventsCfgRefused (b : Nat) : Fld := ⟨.encEvents b, 2, 1⟩
/-- ENC_EVENTS.LIMIT (R286). -/
abbrev encEventsLimit (b : Nat) : Fld := ⟨.encEvents b, 1, 1⟩
/-- ENC_EVENTS.SWITCH (R286). -/
abbrev encEventsSwitch (b : Nat) : Fld := ⟨.encEvents b, 0, 1⟩
/-- MEM_CAP.PAGES_ALLOC (R309). -/
abbrev memCapPagesAlloc : Fld := ⟨.memCap, 16, 15⟩
/-- MEM_CAP.PC_ACTIVE (R309). -/
abbrev memCapPcActive : Fld := ⟨.memCap, 0, 7⟩
/-- MEM_STATUS.FREE_PAGES (R309). -/
abbrev memStatusFreePages : Fld := ⟨.memStatus, 16, 15⟩
/-- MEM_STATUS.RETIRED_COUNT (R309). -/
abbrev memStatusRetiredCount : Fld := ⟨.memStatus, 8, 8⟩
/-- MEM_STATUS.RETIRING (R309). -/
abbrev memStatusRetiring : Fld := ⟨.memStatus, 2, 1⟩
/-- MEM_STATUS.SCRUB_ACTIVE (R309). -/
abbrev memStatusScrubActive : Fld := ⟨.memStatus, 1, 1⟩
/-- MEM_STATUS.TRAINED (R309). -/
abbrev memStatusTrained : Fld := ⟨.memStatus, 0, 1⟩
/-- MEM_EVENTS.CFG_REFUSED (R310). -/
abbrev memEventsCfgRefused : Fld := ⟨.memEvents, 5, 1⟩
/-- MEM_EVENTS.UNDELIV_WM (R310). -/
abbrev memEventsUndelivWm : Fld := ⟨.memEvents, 4, 1⟩
/-- MEM_EVENTS.OVERFLOW (R310). -/
abbrev memEventsOverflow : Fld := ⟨.memEvents, 3, 1⟩
/-- MEM_EVENTS.RECLAIM (R310). -/
abbrev memEventsReclaim : Fld := ⟨.memEvents, 2, 1⟩
/-- MEM_EVENTS.UE (R310). -/
abbrev memEventsUe : Fld := ⟨.memEvents, 1, 1⟩
/-- MEM_EVENTS.PC_RETIRED (R310). -/
abbrev memEventsPcRetired : Fld := ⟨.memEvents, 0, 1⟩
/-- MEM_RETIRED_LO.RETIRED_LO (R311). -/
abbrev memRetiredLoRetiredLo : Fld := ⟨.memRetiredLo, 0, 32⟩
/-- MEM_RETIRED_HI.RETIRED_HI (R311). -/
abbrev memRetiredHiRetiredHi : Fld := ⟨.memRetiredHi, 0, 32⟩
/-- MEM_CTRL.REBAL_EN (R311). -/
abbrev memCtrlRebalEn : Fld := ⟨.memCtrl, 24, 1⟩
/-- MEM_CTRL.RETIRE_UE (R311). -/
abbrev memCtrlRetireUe : Fld := ⟨.memCtrl, 16, 8⟩
/-- MEM_CTRL.SCRUB_HOURS (R311). -/
abbrev memCtrlScrubHours : Fld := ⟨.memCtrl, 8, 8⟩
/-- MEM_RETIRE_CMD.REQ (R311). -/
abbrev memRetireCmdReq : Fld := ⟨.memRetireCmd, 31, 1⟩
/-- MEM_RETIRE_CMD.PC (R311). -/
abbrev memRetireCmdPc : Fld := ⟨.memRetireCmd, 0, 6⟩
/-- MEM_PART_LIMITSp.CEILING (R312). -/
abbrev memPartLimitsCeiling (p : Nat) : Fld := ⟨.memPartLimits p, 16, 15⟩
/-- MEM_PART_LIMITSp.FLOOR (R312). -/
abbrev memPartLimitsFloor (p : Nat) : Fld := ⟨.memPartLimits p, 0, 15⟩
/-- MEM_PART_RINGp.RING_PAGES (R312). -/
abbrev memPartRingRingPages (p : Nat) : Fld := ⟨.memPartRing p, 16, 15⟩
/-- MEM_PART_RINGp.RING_MIN (R312). -/
abbrev memPartRingRingMin (p : Nat) : Fld := ⟨.memPartRing p, 0, 15⟩
/-- MEM_PART_POLICYp.UNDELIV_WM (R312). -/
abbrev memPartPolicyUndelivWm (p : Nat) : Fld := ⟨.memPartPolicy p, 16, 15⟩
/-- MEM_PART_POLICYp.OVERFLOW_POLICY (R312). -/
abbrev memPartPolicyOverflowPolicy (p : Nat) : Fld := ⟨.memPartPolicy p, 0, 2⟩
/-- MEM_PART_STATUSp.AT_LIMIT (R313). -/
abbrev memPartStatusAtLimit (p : Nat) : Fld := ⟨.memPartStatus p, 31, 1⟩
/-- MEM_PART_STATUSp.HELD_PAGES (R313). -/
abbrev memPartStatusHeldPages (p : Nat) : Fld := ⟨.memPartStatus p, 16, 15⟩
/-- MEM_PART_STATUSp.RING_NOW (R313). -/
abbrev memPartStatusRingNow (p : Nat) : Fld := ⟨.memPartStatus p, 0, 15⟩
/-- MEM_PART_HELDp.UNDELIV_PAGES (R313). -/
abbrev memPartHeldUndelivPages (p : Nat) : Fld := ⟨.memPartHeld p, 16, 15⟩
/-- MEM_PART_HELDp.PINNED_PAGES (R313). -/
abbrev memPartHeldPinnedPages (p : Nat) : Fld := ⟨.memPartHeld p, 0, 15⟩
/-- HBM_STACK_STATUS.STACK_TEMP (R535). -/
abbrev hbmStackStatusStackTemp (st : Nat) : Fld := ⟨.hbmStackStatus st, 16, 8⟩
/-- HBM_STACK_STATUS.TRAIN_ATTEMPTS (R535). -/
abbrev hbmStackStatusTrainAttempts (st : Nat) : Fld := ⟨.hbmStackStatus st, 8, 8⟩
/-- HBM_STACK_STATUS.SELF_REFRESH (R535). -/
abbrev hbmStackStatusSelfRefresh (st : Nat) : Fld := ⟨.hbmStackStatus st, 1, 1⟩
/-- HBM_STACK_STATUS.TRAINED (R535). -/
abbrev hbmStackStatusTrained (st : Nat) : Fld := ⟨.hbmStackStatus st, 0, 1⟩
/-- HBM_PC_STATUSq.EYE_WIDTH (R536). -/
abbrev hbmPcStatusEyeWidth (st q : Nat) : Fld := ⟨.hbmPcStatus st q, 16, 8⟩
/-- HBM_PC_STATUSq.EYE_HEIGHT (R536). -/
abbrev hbmPcStatusEyeHeight (st q : Nat) : Fld := ⟨.hbmPcStatus st q, 8, 8⟩
/-- HBM_PC_STATUSq.RETIRED (R536). -/
abbrev hbmPcStatusRetired (st q : Nat) : Fld := ⟨.hbmPcStatus st q, 2, 1⟩
/-- HBM_PC_STATUSq.FENCED (R536). -/
abbrev hbmPcStatusFenced (st q : Nat) : Fld := ⟨.hbmPcStatus st q, 1, 1⟩
/-- HBM_PC_STATUSq.TRAINED (R536). -/
abbrev hbmPcStatusTrained (st q : Nat) : Fld := ⟨.hbmPcStatus st q, 0, 1⟩
/-- HBM_PC_TRAINq.RETRAINS (R536). -/
abbrev hbmPcTrainRetrains (st q : Nat) : Fld := ⟨.hbmPcTrain st q, 16, 16⟩
/-- HBM_PC_TRAINq.LAST_TRAIN_US (R536). -/
abbrev hbmPcTrainLastTrainUs (st q : Nat) : Fld := ⟨.hbmPcTrain st q, 0, 16⟩
/-- RC_SQ_BASE_LO.SQ_BASE[31:12] (R348). -/
abbrev rcSqBaseLoSqBase (f n : Nat) : Fld := ⟨.rcSqBaseLo f n, 12, 20⟩
/-- RC_SQ_BASE_HI.SQ_BASE[63:32] (R348). -/
abbrev rcSqBaseHiSqBase (f n : Nat) : Fld := ⟨.rcSqBaseHi f n, 0, 32⟩
/-- RC_CQ_BASE_LO.CQ_BASE[31:12] (R348). -/
abbrev rcCqBaseLoCqBase (f n : Nat) : Fld := ⟨.rcCqBaseLo f n, 12, 20⟩
/-- RC_CQ_BASE_HI.CQ_BASE[63:32] (R348). -/
abbrev rcCqBaseHiCqBase (f n : Nat) : Fld := ⟨.rcCqBaseHi f n, 0, 32⟩
/-- RC_CFG.EN (R349). -/
abbrev rcCfgEn (f n : Nat) : Fld := ⟨.rcCfg f n, 31, 1⟩
/-- RC_CFG.TYPE (R349). -/
abbrev rcCfgType (f n : Nat) : Fld := ⟨.rcCfg f n, 29, 2⟩
/-- RC_CFG.PROVISIONAL (R349). -/
abbrev rcCfgProvisional (f n : Nat) : Fld := ⟨.rcCfg f n, 28, 1⟩
/-- RC_CFG.CQ_SIZE (R349). -/
abbrev rcCfgCqSize (f n : Nat) : Fld := ⟨.rcCfg f n, 20, 4⟩
/-- RC_CFG.SQ_SIZE (R349). -/
abbrev rcCfgSqSize (f n : Nat) : Fld := ⟨.rcCfg f n, 16, 4⟩
/-- RC_CFG.MSIX_VEC (R349). -/
abbrev rcCfgMsixVec (f n : Nat) : Fld := ⟨.rcCfg f n, 8, 8⟩
/-- RC_MOD.MOD_EOS (R350). -/
abbrev rcModModEos (f n : Nat) : Fld := ⟨.rcMod f n, 31, 1⟩
/-- RC_MOD.MOD_TIME (R350). -/
abbrev rcModModTime (f n : Nat) : Fld := ⟨.rcMod f n, 16, 10⟩
/-- RC_MOD.MOD_COUNT (R350). -/
abbrev rcModModCount (f n : Nat) : Fld := ⟨.rcMod f n, 0, 8⟩
/-- RC_WM.CQ_WM (R350). -/
abbrev rcWmCqWm (f n : Nat) : Fld := ⟨.rcWm f n, 0, 17⟩
/-- RC_STATUS.BOUND (R351). -/
abbrev rcStatusBound (f n : Nat) : Fld := ⟨.rcStatus f n, 11, 1⟩
/-- RC_STATUS.LOSSY (R351). -/
abbrev rcStatusLossy (f n : Nat) : Fld := ⟨.rcStatus f n, 10, 1⟩
/-- RC_STATUS.SUBSCRIBER (R351). -/
abbrev rcStatusSubscriber (f n : Nat) : Fld := ⟨.rcStatus f n, 9, 1⟩
/-- RC_STATUS.PARTITION (R351). -/
abbrev rcStatusPartition (f n : Nat) : Fld := ⟨.rcStatus f n, 6, 3⟩
/-- RC_STATUS.CQ_FULL (R351). -/
abbrev rcStatusCqFull (f n : Nat) : Fld := ⟨.rcStatus f n, 3, 1⟩
/-- RC_STATUS.STATE (R351). -/
abbrev rcStatusState (f n : Nat) : Fld := ⟨.rcStatus f n, 0, 3⟩
/-- RC_SQ_HEAD.SQ_HEAD (R351). -/
abbrev rcSqHeadSqHead (f n : Nat) : Fld := ⟨.rcSqHead f n, 0, 17⟩
/-- RC_CQ_TAIL.CQ_TAIL (R351). -/
abbrev rcCqTailCqTail (f n : Nat) : Fld := ⟨.rcCqTail f n, 0, 17⟩
/-- RC_EVENTS.CFG_REFUSED (R352). -/
abbrev rcEventsCfgRefused (f n : Nat) : Fld := ⟨.rcEvents f n, 3, 1⟩
/-- RC_EVENTS.WM (R352). -/
abbrev rcEventsWm (f n : Nat) : Fld := ⟨.rcEvents f n, 2, 1⟩
/-- RC_EVENTS.CQ_FULL (R352). -/
abbrev rcEventsCqFull (f n : Nat) : Fld := ⟨.rcEvents f n, 1, 1⟩
/-- RC_EVENTS.DB_ERR (R352). -/
abbrev rcEventsDbErr (f n : Nat) : Fld := ⟨.rcEvents f n, 0, 1⟩
/-- RC_PROG_LO.PROG[31:4] (R348). -/
abbrev rcProgLoProg (f n : Nat) : Fld := ⟨.rcProgLo f n, 4, 28⟩
/-- RC_PROG_HI.PROG[63:32] (R348). -/
abbrev rcProgHiProg (f n : Nat) : Fld := ⟨.rcProgHi f n, 0, 32⟩
/-- PWR_STATd.THERMAL_OFF (R476). -/
abbrev pwrStatThermalOff (d : Nat) : Fld := ⟨.pwrStat d, 6, 1⟩
/-- PWR_STATd.FORBIDDEN (R476). -/
abbrev pwrStatForbidden (d : Nat) : Fld := ⟨.pwrStat d, 5, 1⟩
/-- PWR_STATd.PINNED (R476). -/
abbrev pwrStatPinned (d : Nat) : Fld := ⟨.pwrStat d, 4, 1⟩
/-- PWR_STATd.STATE (R476). -/
abbrev pwrStatState (d : Nat) : Fld := ⟨.pwrStat d, 0, 2⟩
/-- PWR_CTLd.IDLE_TIMEOUT (R477). -/
abbrev pwrCtlIdleTimeout (d : Nat) : Fld := ⟨.pwrCtl d, 8, 16⟩
/-- PWR_CTLd.RETAIN_EN (R477). -/
abbrev pwrCtlRetainEn (d : Nat) : Fld := ⟨.pwrCtl d, 2, 1⟩
/-- PWR_CTLd.FORBID_OFF (R477). -/
abbrev pwrCtlForbidOff (d : Nat) : Fld := ⟨.pwrCtl d, 1, 1⟩
/-- PWR_CTLd.PIN_ON (R477). -/
abbrev pwrCtlPinOn (d : Nat) : Fld := ⟨.pwrCtl d, 0, 1⟩
/-- PWR_BANK_EN.BANK_EN (R478). -/
abbrev pwrBankEnBankEn : Fld := ⟨.pwrBankEn, 0, 8⟩
/-- PWR_EVENTS.RECOVERED (R478). -/
abbrev pwrEventsRecovered : Fld := ⟨.pwrEvents, 3, 1⟩
/-- PWR_EVENTS.LOW_POWER (R478). -/
abbrev pwrEventsLowPower : Fld := ⟨.pwrEvents, 2, 1⟩
/-- PWR_EVENTS.CFG_REFUSED (R478). -/
abbrev pwrEventsCfgRefused : Fld := ⟨.pwrEvents, 1, 1⟩
/-- PWR_EVENTS.PIN_OVERRIDDEN (R478). -/
abbrev pwrEventsPinOverridden : Fld := ⟨.pwrEvents, 0, 1⟩
/-- PWR_MODE.MODE (R478). -/
abbrev pwrModeMode : Fld := ⟨.pwrMode, 0, 2⟩
/-- RST_STATUS.ORPHANS (R479). -/
abbrev rstStatusOrphans : Fld := ⟨.rstStatus, 16, 8⟩
/-- RST_STATUS.COEFF_RESTORED (R479). -/
abbrev rstStatusCoeffRestored : Fld := ⟨.rstStatus, 10, 1⟩
/-- RST_STATUS.CAL_ABORTED (R479). -/
abbrev rstStatusCalAborted : Fld := ⟨.rstStatus, 9, 1⟩
/-- RST_STATUS.HBM_KEPT (R479). -/
abbrev rstStatusHbmKept : Fld := ⟨.rstStatus, 8, 1⟩
/-- RST_STATUS.LAST_RESET (R479). -/
abbrev rstStatusLastReset : Fld := ⟨.rstStatus, 0, 4⟩
/-- THERM_CTRL.EARLY_OVERRIDE (R462). -/
abbrev thermCtrlEarlyOverride : Fld := ⟨.thermCtrl, 1, 1⟩
/-- THERM_CTRL.GATE_OVERRIDE (R462). -/
abbrev thermCtrlGateOverride : Fld := ⟨.thermCtrl, 0, 1⟩
/-- THERM_STATUS.DIE_TEMP (R462). -/
abbrev thermStatusDieTemp : Fld := ⟨.thermStatus, 16, 16⟩
/-- THERM_STATUS.STEPS (R462). -/
abbrev thermStatusSteps : Fld := ⟨.thermStatus, 0, 4⟩
/-- TEL_TEMPk.TEMP (R462). -/
abbrev telTempTemp (k : Nat) : Fld := ⟨.telTemp k, 0, 16⟩
/-- TEL_VOLTr.MV (R462). -/
abbrev telVoltMv (r : Nat) : Fld := ⟨.telVolt r, 0, 16⟩
/-- SEC_STATUS.FUSED_EPOCH (R461). -/
abbrev secStatusFusedEpoch : Fld := ⟨.secStatus, 16, 9⟩
/-- SEC_STATUS.REVOKED (R461). -/
abbrev secStatusRevoked : Fld := ⟨.secStatus, 12, 4⟩
/-- SEC_STATUS.KEY_SLOT (R461). -/
abbrev secStatusKeySlot : Fld := ⟨.secStatus, 10, 2⟩
/-- SEC_STATUS.SOURCE (R461). -/
abbrev secStatusSource : Fld := ⟨.secStatus, 8, 2⟩
/-- SEC_STATUS.SEC_STATE (R461). -/
abbrev secStatusSecState : Fld := ⟨.secStatus, 0, 2⟩
/-- BOOT_STATUS.BOARD_ID (R461). -/
abbrev bootStatusBoardId : Fld := ⟨.bootStatus, 24, 8⟩
/-- BOOT_STATUS.FAIL_HOST (R461). -/
abbrev bootStatusFailHost : Fld := ⟨.bootStatus, 16, 4⟩
/-- BOOT_STATUS.FAIL_B (R461). -/
abbrev bootStatusFailB : Fld := ⟨.bootStatus, 12, 4⟩
/-- BOOT_STATUS.FAIL_A (R461). -/
abbrev bootStatusFailA : Fld := ⟨.bootStatus, 8, 4⟩
/-- BOOT_STATUS.CERTS_INVALID (R461). -/
abbrev bootStatusCertsInvalid : Fld := ⟨.bootStatus, 4, 1⟩
/-- BOOT_STATUS.PHASE (R461). -/
abbrev bootStatusPhase : Fld := ⟨.bootStatus, 0, 4⟩
/-- FW_VERSION.VERSION (R461). -/
abbrev fwVersionVersion : Fld := ⟨.fwVersion, 0, 32⟩
/-- SEC_EVENTS.EPOCH (R462). -/
abbrev secEventsEpoch : Fld := ⟨.secEvents, 4, 1⟩
/-- SEC_EVENTS.THERM (R462). -/
abbrev secEventsTherm : Fld := ⟨.secEvents, 3, 1⟩
/-- SEC_EVENTS.HALTED (R462). -/
abbrev secEventsHalted : Fld := ⟨.secEvents, 2, 1⟩
/-- SEC_EVENTS.RESTART (R462). -/
abbrev secEventsRestart : Fld := ⟨.secEvents, 1, 1⟩
/-- SEC_EVENTS.ECLOSION (R462). -/
abbrev secEventsEclosion : Fld := ⟨.secEvents, 0, 1⟩
/-- MGMT_STATUS.RESTARTS (R462). -/
abbrev mgmtStatusRestarts : Fld := ⟨.mgmtStatus, 16, 16⟩
/-- MGMT_STATUS.HALTED (R462). -/
abbrev mgmtStatusHalted : Fld := ⟨.mgmtStatus, 1, 1⟩
/-- MGMT_STATUS.RUNNING (R462). -/
abbrev mgmtStatusRunning : Fld := ⟨.mgmtStatus, 0, 1⟩

end Sys2Proof.Machine.F
end

