-- ==== Sys2Proof/Machine/Sparse.lean ====
section
/-! DEFINITION. Machine/Sparse.lean: the operations on sparse maps (`Sp`): look up, store, and the canonical form that
a store keeps (keys strictly rising). -/

namespace Sys2Proof.Machine

/-- The entry at key `k`, or `d` when none is listed. -/
def spGet {α : Type} (d : α) (k : Nat) : Sp α → α
  | [] => d
  | (k', v) :: r => if k' = k then v else spGet d k r

/-- The map without the entries at key `k`. -/
def spErase {α : Type} (k : Nat) : Sp α → Sp α
  | [] => []
  | (k', v) :: r => if k' = k then spErase k r else (k', v) :: spErase k r

/-- The map with `v` put at key `k`, before the first greater key. -/
def spInsert {α : Type} (k : Nat) (v : α) : Sp α → Sp α
  | [] => [(k, v)]
  | (k', v') :: r => if k < k' then (k, v) :: (k', v') :: r else (k', v') :: spInsert k v r

/-- The map that reads `v` at key `k`; nothing is listed there when `v` is what an unlisted key reads as. -/
def spSet {α : Type} [DecidableEq α] (d : α) (k : Nat) (v : α) (m : Sp α) : Sp α :=
  if v = d then spErase k m else spInsert k v (spErase k m)

/-- The canonical form: keys strictly rising from `lo`. -/
def spRising {α : Type} : Nat → Sp α → Bool
  | _, [] => true
  | lo, (k, _) :: r => decide (lo ≤ k) && spRising (k + 1) r

/-- The canonical form of a sparse map. -/
def spWf {α : Type} (m : Sp α) : Bool := spRising 0 m

end Sys2Proof.Machine
end

