-- ==== Sys2Proof/Machine/Ops.lean ====
section
/-! DEFINITION. Machine/Ops.lean: the named operations that every command shares: places of the state, registers and
their fields, free values, the statistics counters, messages, the event queues, the error logs, the fault logs and
FAULT#. -/

namespace Sys2Proof.Machine

/-! ### Numbers, bytes and times -/

/-- `n` bytes of `v`, lowest first (R6). -/
def leBytes : Nat → Nat → List Byte
  | 0, _ => []
  | n + 1, v => BitVec.ofNat 8 v :: leBytes n (v / 256)

/-- The number whose bytes, lowest first, are given (R6). -/
def leNat : List Byte → Nat
  | [] => 0
  | b :: r => b.toNat + 256 * leNat r

/-- The number in bytes `at_` to `at_ + n − 1` of a block. -/
def leAt (bs : List Byte) (at_ n : Nat) : Nat := leNat ((bs.drop at_).take n)

/-- The bytes of 64-bit words in host memory (R6). -/
def dwordBytes (ws : List DWord) : List Byte := ws.flatMap fun w => leBytes 8 w.toNat

/-- Bits `[lo + n − 1 : lo]` of a number. -/
def bitsOf (v lo n : Nat) : Nat := v / 2 ^ lo % 2 ^ n

/-- SECONDS of a label (R76). -/
def secondsOf (t : Label) : Nat := t / ticksPerSecond
/-- SUBSEC of a label (R76). -/
def subsecOf (t : Label) : Nat := t % ticksPerSecond
/-- The start of the core cycle that holds a label (R77). -/
def coreOf (t : Label) : Label := t / ticksPerCore * ticksPerCore
/-- The least multiple of `p` at or after `t`. -/
def ceilTo (p t : Nat) : Nat := (t + p - 1) / p * p
/-- The next second boundary after `t` (R3). -/
def nextSecond (t : Label) : Label := (t / ticksPerSecond + 1) * ticksPerSecond
/-- The start of the frame that holds `t` (R3). -/
def frameOf (t : Label) : Label := t / ticksPerFrame * ticksPerFrame

/-- The first word of a time pair (R256): SUBSEC below SECONDS[23:0]. -/
def timeWord (t : Label) : DWord := BitVec.ofNat 64 (subsecOf t + secondsOf t % 2 ^ 24 * 2 ^ 40)
/-- Bits [15:0] of the second word of a time pair (R256): SECONDS[39:24]. -/
def timeHigh (t : Label) : Nat := secondsOf t / 2 ^ 24 % 2 ^ 16

/-- Two's complement of `v` in `n` bits. -/
def twos (n : Nat) (v : Int) : Nat := (v % (2 ^ n : Nat)).toNat
/-- The signed number that `n` bits spell. -/
def signed (n : Nat) (v : Nat) : Int := if v < 2 ^ (n - 1) then (v : Int) else (v : Int) - (2 ^ n : Nat)
/-- `v` held within `lo` to `hi`. -/
def clampInt (lo hi v : Int) : Int := if v < lo then lo else if hi < v then hi else v

/-! ### Functions and ports (R359) -/

/-- The PF of a function's port. -/
def portPf (f : Nat) : Nat := f / 128 * 128
/-- Whether a function is a physical function. -/
def isPf (f : Nat) : Bool := f % 128 == 0
/-- PORT and FUNCTION as bit 15 and bits [6:0] (R331, R340). -/
def fnCode (f : Nat) : Nat := f / 128 * 0x8000 + f % 128

/-! ### Places of the state -/

/-- A function of the device. -/
def State.fn (s : State) (f : Nat) : Fn := spGet {} f s.fns
/-- The state with a function's entry replaced. -/
def setFn (f : Nat) (x : Fn) (s : State) : State := { s with fns := spSet {} f x s.fns }
/-- The state with a function's entry changed. -/
def modFn (f : Nat) (g : Fn → Fn) (s : State) : State := setFn f (g (s.fn f)) s

/-- A ring pair of a function. -/
def State.pair (s : State) (f n : Nat) : Pair := spGet {} n (s.fn f).pairs
/-- The state with a ring pair replaced. -/
def setPair (f n : Nat) (x : Pair) (s : State) : State :=
  modFn f (fun q => { q with pairs := spSet {} n x q.pairs }) s
/-- The state with a ring pair changed. -/
def modPair (f n : Nat) (g : Pair → Pair) (s : State) : State := setPair f n (g (s.pair f n)) s

/-- A front-end bank. -/
def State.bank (s : State) (b : Nat) : Bank := spGet {} b s.banks
/-- The state with a bank replaced. -/
def setBank (b : Nat) (x : Bank) (s : State) : State := { s with banks := spSet {} b x s.banks }
/-- The state with a bank changed. -/
def modBank (b : Nat) (g : Bank → Bank) (s : State) : State := setBank b (g (s.bank b)) s

/-- A detector. -/
def State.det (s : State) (n : Nat) : Det := spGet {} n s.dets
/-- The state with a detector replaced. -/
def setDet (n : Nat) (x : Det) (s : State) : State := { s with dets := spSet {} n x s.dets }
/-- The state with a detector changed. -/
def modDet (n : Nat) (g : Det → Det) (s : State) : State := setDet n (g (s.det n)) s

/-- A sequencer. -/
def State.seq (s : State) (p : Nat) : Seq := spGet {} p s.seqs
/-- The state with a sequencer replaced. -/
def setSeq (p : Nat) (x : Seq) (s : State) : State := { s with seqs := spSet {} p x s.seqs }
/-- The state with a sequencer changed. -/
def modSeq (p : Nat) (g : Seq → Seq) (s : State) : State := setSeq p (g (s.seq p)) s

/-- A partition. -/
def State.part (s : State) (p : Nat) : Part := spGet {} p s.parts
/-- The state with a partition replaced. -/
def setPart (p : Nat) (x : Part) (s : State) : State := { s with parts := spSet {} p x s.parts }
/-- The state with a partition changed. -/
def modPart (p : Nat) (g : Part → Part) (s : State) : State := setPart p (g (s.part p)) s

/-- A mailbox channel. -/
def State.chan (s : State) (c : Nat) : Chan := spGet {} c s.chans
/-- The state with a mailbox channel replaced. -/
def setChan (c : Nat) (x : Chan) (s : State) : State := { s with chans := spSet {} c x s.chans }
/-- The state with a mailbox channel changed. -/
def modChan (c : Nat) (g : Chan → Chan) (s : State) : State := setChan c (g (s.chan c)) s

/-- What leaves the block, put in front of what left before. -/
def emit (o : Out) (s : State) : State := { s with out := o :: s.out }

/-- Do `g` only when `c` holds. -/
def when_ (c : Bool) (g : State → State) (s : State) : State := if c then g s else s

/-- Do `g` for each entry of a list, in order. -/
def each {α : Type} (g : α → State → State) : List α → State → State
  | [], s => s
  | x :: r, s => each g r (g x s)

/-- Every meaning of a command that goes on ends here: the machine goes on with `t`, and the commands that wait are
those that waited before it. -/
def done (s t : State) : Host.Outcome State Fault Refusal := .next { t with pending := s.pending }

/-! ### Registers and fields -/

/-- The word a register holds. -/
def State.rd (s : State) (r : Reg) : Word := spGet r.reset r.key s.regs
/-- The state with a register's word replaced. -/
def wr (r : Reg) (w : Word) (s : State) : State := { s with regs := spSet r.reset r.key w s.regs }
/-- The live word of a register with staged fields (R8, R397). -/
def State.rdLive (s : State) (r : Reg) : Word := spGet r.reset r.key s.live
/-- The state with a register's live word replaced. -/
def wrLive (r : Reg) (w : Word) (s : State) : State := { s with live := spSet r.reset r.key w s.live }

/-- Ones in a field's places. -/
def Fld.mask (x : Fld) : Word := BitVec.ofNat 32 ((2 ^ x.width - 1) * 2 ^ x.lo)
/-- A field of a word. -/
def Fld.get (x : Fld) (w : Word) : Nat := bitsOf w.toNat x.lo x.width
/-- A word with a field replaced. -/
def Fld.put (x : Fld) (v : Nat) (w : Word) : Word :=
  (w &&& ~~~x.mask) ||| (BitVec.ofNat 32 (v % 2 ^ x.width * 2 ^ x.lo) &&& x.mask)

/-- The value a field holds (the staged one for a staged field). -/
def State.getF (s : State) (x : Fld) : Nat := x.get (s.rd x.reg)
/-- The state with a field replaced. -/
def setF (x : Fld) (v : Nat) (s : State) : State := wr x.reg (x.put v (s.rd x.reg)) s
/-- The live value of a staged field. -/
def State.getL (s : State) (x : Fld) : Nat := x.get (s.rdLive x.reg)
/-- The state with the live value of a staged field replaced. -/
def setL (x : Fld) (v : Nat) (s : State) : State := wrLive x.reg (x.put v (s.rdLive x.reg)) s
/-- Whether a one-bit field is set. -/
def State.flag (s : State) (x : Fld) : Bool := s.getF x == 1
/-- Whether the live value of a one-bit field is set. -/
def State.flagL (s : State) (x : Fld) : Bool := s.getL x == 1
/-- A value of two fields, the upper one above `n` bits. -/
def State.getF2 (s : State) (lo hi : Fld) : Nat := s.getF lo + s.getF hi * 2 ^ (lo.lo + lo.width)
/-- The live value of two fields of 32 bits and above. -/
def State.getL2 (s : State) (lo hi : Fld) : Nat := s.getL lo + s.getL hi * 2 ^ (lo.lo + lo.width)

/-- The part of word `w` in the places of the fields of `fs` that satisfy `c`. -/
def fieldMask (c : FieldSpec → Bool) (fs : List FieldSpec) : Word :=
  fs.foldl (fun m x => if c x then m ||| BitVec.ofNat 32 ((2 ^ x.width - 1) * 2 ^ x.lo) else m) 0

/-- The fields of apply boundary `a` of register `r` take their staged values, all together (R8, R10). -/
def applyReg (a : Apply) (r : Reg) (s : State) : State :=
  let m := fieldMask (fun x => x.apply == a) r.fields
  wrLive r ((s.rdLive r &&& ~~~m) ||| (s.rd r &&& m)) s

/-- The staged fields of apply boundary `a` return to their reset values, live and staged (R11). -/
def discardReg (a : Apply) (r : Reg) (s : State) : State :=
  let m := fieldMask (fun x => x.apply == a) r.fields
  wrLive r ((s.rdLive r &&& ~~~m) ||| (r.reset &&& m)) (wr r ((s.rd r &&& ~~~m) ||| (r.reset &&& m)) s)

/-- A register and its live copy at reset. -/
def resetReg (r : Reg) (s : State) : State := wrLive r r.reset (wr r r.reset s)

/-! ### Free values -/

/-- A number that the spec does not give, for the next free place. -/
def State.freeN (s : State) : Nat := Config.freeNat s.free
/-- A free value has been drawn. -/
def spend (s : State) : State := { s with free := s.free + 1 }

/-! ### Time -/

/-- The block is at instant `t`, when that is later than the present one (R76): elapsed time counts along. -/
def advanceTo (t : Label) (s : State) : State :=
  if s.now < t then { s with elapsed := s.elapsed + (t - s.now), now := t } else s

/-- At most once per `period` ticks for each `key`: `g` runs when the last time lies that far back. -/
def limited (key period : Nat) (g : State → State) (s : State) : State :=
  let last := spGet 0 key s.stamps
  if last = 0 ∨ last + period ≤ s.elapsed + 1 then
    g { s with stamps := spSet 0 key (s.elapsed + 1) s.stamps }
  else s

/-- The function has not done anything under this key yet. -/
def clearStamp (key : Nat) (s : State) : State := { s with stamps := spSet 0 key 0 s.stamps }

/-! ### Outputs of the sample PLL (R43 to R46) -/

/-- The period of output `n` in ticks; none while it is held low: gated, or disabled. -/
def State.outPeriod (s : State) (n : Nat) : Option Nat :=
  if s.flag F.csStatusOutputsGated = true ∨ s.flag (F.csOutCtrlEn n) = false then none
  else
    let div := s.getF (F.csOutCtrlDiv n)
    some (40 * (if div = 0 then 256 else div) * (s.getF (F.csOutCtrlPostdiv n) + 1))

/-- CD13 has no clock: CORE is held low. -/
def State.noCore (s : State) : Bool := (s.outPeriod 2).isNone
/-- The front-end tiles do not sample: SMP, TDC or CORE is held low. -/
def State.noSample (s : State) : Bool := (s.outPeriod 0).isNone || (s.outPeriod 1).isNone || s.noCore

/-- The delay of output `n` that its register gives (R45). -/
def State.delaySet (s : State) (n : Nat) : Nat := s.getF (F.csOutDelayCoarse n) * 20 + s.getF (F.csOutDelayFine n)
/-- The delay of output `n` in effect (R45): on an enabled output it moves by 20 ticks in each output cycle, the most that
R45 allows (DESIGN CHOICE). -/
def State.outDelay (s : State) (n : Nat) : Nat :=
  let goal := s.delaySet n
  let at_ := spGet 0 n s.clk.delayAt
  match s.outPeriod n with
  | none => goal
  | some per =>
    if at_ = 0 then goal
    else
      let old := spGet 0 n s.clk.delayFrom
      let by_ := 20 * ((s.elapsed + 1 - at_) / per)
      if old ≤ goal then min goal (old + by_) else max goal (old - by_)

/-! ### Ports and messages -/

/-- The physical functions: one for each port (R353, R359). -/
def State.pfs (s : State) : List Nat := if s.mgmt.dualPort then [0, 128] else [0]

/-- Whether a function is in containment (R369). -/
def State.contained (s : State) (f : Nat) : Bool := s.flag (F.containStatusContained f)

/-- Whether a function may send requests: Bus Master Enable set and not in D3hot (R374, R378). -/
def State.bmeOn (s : State) (f : Nat) : Bool := (s.fn f).bme && !(s.fn f).d3
/-- Whether a function's DMA runs (R369, R374). -/
def State.dmaOn (s : State) (f : Nat) : Bool := s.bmeOn f && !s.contained f

/-- A message on a vector, or its pending bit where it is masked or cannot be sent (R361). -/
def msixNow (f vec : Nat) (s : State) : State :=
  let x := s.fn f
  if x.fnMask ∨ x.unmasked.contains vec = false ∨ s.bmeOn f = false then
    setFn f { x with pendVec := if x.pendVec.contains vec then x.pendVec else x.pendVec ++ [vec] } s
  else emit (.msix f vec) s

/-- A message on a vector; in containment the only message is that of the containment event (R370), and any other sets
its pending bit. -/
def msix (f vec : Nat) (s : State) : State :=
  if s.contained f then
    modFn f (fun x => { x with pendVec := if x.pendVec.contains vec then x.pendVec else x.pendVec ++ [vec] }) s
  else msixNow f vec s

/-- The pending messages of a function are sent once sending is possible (R361). -/
def sendPending (f : Nat) (s : State) : State :=
  let vs := (s.fn f).pendVec
  each (fun v => msix f v) vs (modFn f (fun x => { x with pendVec := [] }) s)

/-! ### Statistics counters (R98) and the event queues (R407 to R410) -/

/-- The greatest value of a 48-bit statistics counter. -/
def ctrMax : Nat := 2 ^ 48 - 1
/-- A counter's value. A counter that has met an increment it cannot take is held as 2^48. -/
def State.ctr (s : State) (code : Nat) : Nat := min ctrMax (spGet 0 code s.ctrs)
/-- The state with a counter loaded; loading ends saturation (R98). -/
def loadCtr (code v : Nat) (s : State) : State := { s with ctrs := spSet 0 code (v % 2 ^ 48) s.ctrs }
/-- A counter after an increment of `n`, saturation not yet reported. -/
def bumpRaw (code n : Nat) (s : State) : State :=
  let v := spGet 0 code s.ctrs
  { s with ctrs := spSet 0 code (if v + n ≤ ctrMax then v + n else ctrMax + 1) s.ctrs }
/-- Whether an increment of `n` is the first that the counter cannot take. -/
def State.bumpSaturates (s : State) (code n : Nat) : Bool :=
  decide (spGet 0 code s.ctrs ≤ ctrMax) && decide (ctrMax < spGet 0 code s.ctrs + n)

/-- An event-queue entry (R408). -/
def evqEntry (lost : Bool) (code payload : Nat) : DWord :=
  BitVec.ofNat 64 (2 ^ 63 + (if lost then 2 ^ 62 else 0) + code % 2 ^ 16 * 2 ^ 32 + payload % 2 ^ 32)

/-- Item code of EVQ_LOST of a function (R402). -/
def evqLostItem (f : Nat) : Nat := 0x6100 + f

/-- An upward crossing of a watermark `w` by a fill (R281). -/
def crosses (w before after : Nat) : Bool := decide (w ≠ 0) && decide (before < w) && decide (w ≤ after)

/-- An entry joins a function's event queue, or is dropped and counted when the queue is full (R407, R410). -/
def enqueue (f code payload : Nat) (s : State) : State :=
  let x := s.fn f
  let n := x.evq.length
  if 256 ≤ n then
    bumpRaw (evqLostItem f) 1 (setF (F.evqStatusOverrun f) 1 (setFn f { x with evqLost := true } s))
  else
    let s := setFn f { x with evq := x.evq ++ [evqEntry x.evqLost code payload], evqLost := false } s
    let s := if n = 0 ∧ s.flag (F.evqCfgIrqEdge f) = true then msix f 0 s else s
    if crosses (s.getF (F.evqCfgEvqWm f)) n (n + 1) then msix f 0 (setF (F.evqStatusWm f) 1 s) else s

/-- COUNTER_SATURATED to the PF of each port, with its status bit (R98, R103). -/
def saturated (item : Nat) (s : State) : State :=
  each (fun f => enqueue f 0x0810 (item * 2 ^ 16)) s.pfs (setF F.timeEventsCounterSat 1 s)

/-- An event is posted to a function (R407); a loss that saturates EVQ_LOST is reported by R98. -/
def post (f code payload : Nat) (s : State) : State :=
  let full := decide (256 ≤ (s.fn f).evq.length) && s.bumpSaturates (evqLostItem f) 1
  let s := enqueue f code payload s
  if full then saturated (evqLostItem f) s else s

/-- An event is posted to several functions, a separate entry in each queue (R407). -/
def postAll (fs : List Nat) (code payload : Nat) (s : State) : State := each (fun f => post f code payload) fs s

/-- An event is posted to the PF of each port. -/
def postPfs (code payload : Nat) (s : State) : State := postAll s.pfs code payload s

/-- A device-wide event: its status bit is set and it is posted to the PF of each port. -/
def event (bit : Fld) (code payload : Nat) (s : State) : State := postPfs code payload (setF bit 1 s)

/-- A counter takes an increment of `n`; the first that it cannot take is reported (R98). -/
def bump (code n : Nat) (s : State) : State :=
  let sat := s.bumpSaturates code n
  let s := bumpRaw code n s
  if sat then saturated code s else s

/-- A counter keeps the greater of its value and `v`. -/
def raiseCtr (code v : Nat) (s : State) : State := if s.ctr code < v then loadCtr code (min v ctrMax) s else s

/-- The interval item `code` begins to run at the present instant (held in ticks). -/
def startInterval (code : Nat) (s : State) : State := { s with since := spSet 0 code (s.elapsed + 1) s.since }
/-- Ticks the running interval of item `code` has lasted. -/
def State.running (s : State) (code : Nat) : Nat :=
  if spGet 0 code s.since = 0 then 0 else s.elapsed + 1 - spGet 0 code s.since
/-- Items that count the time spent in a state of a power domain, read in µs (R467). -/
def residency (code : Nat) : Bool := decide (0x8008 ≤ code) && decide (code < 0x80F8) && decide (code % 8 < 4)
/-- The greatest number of ticks that an interval item can show. -/
def intervalMax (code : Nat) : Nat := if residency code then 2 ^ 48 * ticksPerUs - 1 else ctrMax
/-- A running interval item that cannot take what it has run is saturated, and this is reported once (R98). -/
def checkInterval (code : Nat) (s : State) : State :=
  let v := spGet 0 code s.ctrs
  if v ≤ intervalMax code ∧ intervalMax code < v + s.running code then
    saturated code { s with ctrs := spSet 0 code (intervalMax code + 1) s.ctrs }
  else s
/-- Every running interval item is checked. -/
def checkIntervals (s : State) : State := each checkInterval (s.since.map Prod.fst) s
/-- The interval item `code` stops running; what it ran is added to it. -/
def stopInterval (code : Nat) (s : State) : State :=
  let s := checkInterval code s
  let s := { s with ctrs := spSet 0 code (spGet 0 code s.ctrs + s.running code) s.ctrs }
  { s with since := spSet 0 code 0 s.since }

/-! ### Error log of a function (R384) -/

/-- DETAIL of an error-log entry for a BAR access (R384). -/
def barDetail (bar2 : Bool) (off : Nat) : Nat := (if bar2 then 2 ^ 26 else 0) + off % 2 ^ 20

/-- An error-log entry. -/
def errEntry (code tag source detail : Nat) : DWord :=
  BitVec.ofNat 64 (2 ^ 63 + code % 2 ^ 8 * 2 ^ 48 + tag % 2 ^ 14 * 2 ^ 32 + source % 16 * 2 ^ 28 + detail % 2 ^ 28)

/-- An entry joins a function's error log, or is dropped and counted (R384). -/
def logErr (f code tag source detail : Nat) (s : State) : State :=
  let x := s.fn f
  let n := x.err.length
  if 64 ≤ n then setF (F.epEventsErrOverrun f) 1 (bump (0x6000 + f) 1 s)
  else
    let s := setFn f { x with err := x.err ++ [errEntry code tag source detail] } s
    if crosses (s.getF (F.epErrCfgErrWm f)) n (n + 1) then
      post f 0x1704 f (setF (F.epEventsErrWm f) 1 s)
    else s

/-! ### FAULT# (R493, R494) -/

/-- Causes in force that drive FAULT#. -/
def State.pinCommon (s : State) : Nat :=
  (BitVec.ofNat 6 (s.getF F.fltPinCauseCause) &&& BitVec.ofNat 6 (s.getF F.fltPinMaskMask)).toNat

/-- The lowest set bit of six, by number. -/
def lowestBit (n : Nat) : Nat := ((List.range 6).find? fun k => n.testBit k).getD 0

/-- FAULT# follows its causes: a change of the pin is reported (R493, R494). With FAULT_TEST alone no cause bit is in
common, and the payload is a free value. -/
def pinUpdate (s : State) : State :=
  let low := decide (s.pinCommon ≠ 0) || s.flag F.fltCtrlFaultTest
  if low = s.mgmt.faultPin then s
  else
    let s := emit (.faultPin low) { s with mgmt := { s.mgmt with faultPin := low } }
    let s := each (fun f => setF (F.fltStatusFaultPin f) (if low then 1 else 0)) [0, 128] s
    if low then
      if s.pinCommon = 0 then postPfs 0x1B00 (s.freeN % 256) (spend s)
      else postPfs 0x1B00 (lowestBit s.pinCommon) s
    else postPfs 0x1B01 0 s

/-- Cause `n` of FAULT# is set (R494). -/
def setCause (n : Nat) (s : State) : State :=
  pinUpdate (setF ⟨.fltPinCause, n, 1⟩ 1 s)

/-! ### Fault logs (R489 to R492) -/

/-- Codes that R490 never suppresses. -/
def neverSuppressed (code : Nat) : Bool := [0x07, 0x09, 0x0B, 0x0E, 0x11, 0x12].contains code

/-- Word A of a fault-log entry (R491). -/
def fltWordA (lost : Bool) (code index detail suppressed timeline : Nat) : DWord :=
  BitVec.ofNat 64 (2 ^ 63 + (if lost then 2 ^ 62 else 0) + code % 2 ^ 8 * 2 ^ 48 + index % 2 ^ 8 * 2 ^ 40
    + detail % 2 ^ 8 * 2 ^ 32 + min suppressed 0xFFFF * 2 ^ 16 + timeline % 2 ^ 16)

/-- An entry joins the fault log of one PF, or is dropped (R489, R281). -/
def fltPush (f code index detail suppressed : Nat) (s : State) : State :=
  let log := spGet [] f s.fltLog
  let n := log.length
  if 64 ≤ n then
    setF (F.fltStatusOverrun f) 1 { s with fltLost := if s.fltLost.contains f then s.fltLost else f :: s.fltLost }
  else
    let a := fltWordA (s.fltLost.contains f) code index detail suppressed (s.getF F.timeStatusTimeline)
    let s := { s with fltLog := spSet [] f (log ++ [(a, timeWord s.now)]) s.fltLog,
                      fltLost := s.fltLost.filter (· ≠ f) }
    if crosses (s.getF (F.fltCfgLogWm f)) n (n + 1) then
      post f 0x1B03 ((n + 1) * 2 ^ 16) (setF (F.fltStatusWm f) 1 s)
    else s

/-- A fault is counted and logged: an occurrence within 1 s of the last entry of its code and INDEX is only counted, in
the SUPPRESSED field of the next entry (R489, R490, R503). -/
def logFault (code index detail : Nat) (s : State) : State :=
  let s := setF (F.fltCountCount code) (min 0xFFFFFFFF (s.getF (F.fltCountCount code) + 1)) s
  let key := code * 256 + index
  let seen := spGet (0, 0) key s.fltSeen
  if neverSuppressed code = false ∧ seen.1 ≠ 0 ∧ s.elapsed + 1 < seen.1 + ticksPerSecond then
    { s with fltSeen := spSet (0, 0) key (seen.1, seen.2 + 1) s.fltSeen }
  else
    let s := { s with fltSeen := spSet (0, 0) key (s.elapsed + 1, 0) s.fltSeen }
    each (fun f => fltPush f code index detail seen.2) s.pfs s

/-! ### Accesses to a domain that is off (R398), refused writes (R429) -/

/-- STATE of a power domain: 0 ON, 1 GATED, 2 RETAIN, 3 OFF (R476). -/
def State.domain (s : State) (d : Nat) : Nat := s.getF (F.pwrStatState d)
/-- Whether a power domain is off. -/
def State.domainOff (s : State) (d : Nat) : Bool := s.domain d == 3

/-- The power domain in which a register sits (R33, R398); `none` for a block that no shipped state powers off alone. -/
def Reg.powerDomain : Reg → Option Nat
  | r =>
    let o := r.off
    if r.space ≠ 256 then none
    else if 0x10000 ≤ o ∧ o < 0x20000 then some (10 + (o - 0x10000) / 0x2000)
    else if 0x20000 ≤ o ∧ o < 0x28000 then some (10 + (o - 0x20000) / 0x1000)
    else if 0x28000 ≤ o ∧ o < 0x40000 then some 18
    else if 0x44000 ≤ o ∧ o < 0x44100 then some 19
    else if 0x58000 ≤ o ∧ o < 0x5C000 then some 21
    else if 0x5C000 ≤ o ∧ o < 0x60000 then some 22
    else if 0x74000 ≤ o ∧ o < 0x78000 then some 30
    else none

/-- An access to a register whose domain is off is recorded and reported (R398). -/
def domainDown (f d off : Nat) (write : Bool) (s : State) : State :=
  let s := wr (.regDownLog f)
    (BitVec.ofNat 32 (2 ^ 31 + (if write then 2 ^ 30 else 0) + d % 32 * 2 ^ 25 + off / 4 % 2 ^ 18 * 4)) s
  let s := setF (F.regEventsDomainDown f) 1 s
  limited (0x1801 * 256 + f) ticksPerMs
    (fun s => postAll (if isPf f then [f] else [f, portPf f]) 0x1801 (d % 256 + (if write then 256 else 0)) s) s

/-- A refused write of the register services is reported (R429). -/
def cfgRefused (f off : Nat) (s : State) : State :=
  let s := if isPf f then setF (F.regEventsCfgRefused f) 1 s else s
  post f 0x1803 (off % 2 ^ 16 * 2 ^ 16) s

end Sys2Proof.Machine
end

