-- ==== Sys2Proof/Machine/Records.lean ====
section
/-! DEFINITION. Machine/Records.lean: the record layouts of the record stream (R250 to R280), the checks over them
(R262, R264), and the CRC of the Karing frames. Pure functions of their fields. -/

namespace Sys2Proof.Machine

/-! ### CRCs -/

/-- One bit step of a reflected CRC. -/
def crcBit {n : Nat} (poly c : BitVec n) : BitVec n := if c.getLsbD 0 then (c >>> 1) ^^^ poly else c >>> 1
/-- A reflected CRC takes one byte. -/
def crcByte {n : Nat} (poly c : BitVec n) (b : Byte) : BitVec n :=
  let step := crcBit poly
  step (step (step (step (step (step (step (step (c ^^^ b.setWidth n))))))))
/-- A reflected CRC over bytes, with initial value and final XOR all ones. -/
def crcOver {n : Nat} (poly : BitVec n) (bs : List Byte) : BitVec n :=
  bs.foldl (crcByte poly) (BitVec.allOnes n) ^^^ BitVec.allOnes n

/-- CRC-32C (R264): polynomial 0x1EDC_6F41, reflected. -/
def crc32c (bs : List Byte) : BitVec 32 := crcOver 0x82F63B78 bs
/-- The CRC-64 of CONFIG_DIGEST (R262): polynomial 0x42F0_E1EB_A9EA_3693, reflected. -/
def crc64 (bs : List Byte) : BitVec 64 := crcOver 0xC96C5795D7870F42 bs

/-! ### Headers and time pairs -/

/-- A number as a 64-bit word. -/
def dw (n : Nat) : DWord := BitVec.ofNat 64 n
/-- One for true. -/
def bit (b : Bool) : Nat := if b then 1 else 0

/-- Record header (R254): TYPE, Q, K, LENGTH and the type-specific half. P and L are set in delivered copies only. -/
def recHeader (type : Nat) (q k : Bool) (len low : Nat) : DWord :=
  dw (type % 256 * 2 ^ 56 + bit q * 2 ^ 51 + bit k * 2 ^ 50 + len % 2 ^ 16 * 2 ^ 32 + low % 2 ^ 32)

/-- TYPE of a record. -/
def Rec.type (r : Rec) : Nat := bitsOf ((r.words.headD 0).toNat) 56 8
/-- Words of a record (LENGTH). -/
def Rec.length (r : Rec) : Nat := r.words.length

/-- A time pair (R256), with bits [63:16] of the second word. -/
def timePair (t : Label) (rest : Nat) : List DWord := [timeWord t, dw (timeHigh t + rest % 2 ^ 48 * 2 ^ 16)]
/-- An absent time pair (R256). -/
def absentPair (rest : Nat) : List DWord := [BitVec.allOnes 64, dw (0xFFFF + rest % 2 ^ 48 * 2 ^ 16)]
/-- A time pair that may be absent. -/
def optPair (t : Option Label) (rest : Nat) : List DWord :=
  match t with
  | some t => timePair t rest
  | none => absentPair rest
/-- SAMPLE of a MARKER or TRIGGER record: a time pair, or a state-sample count in [47:0] of its first word. -/
def samplePair (state : Bool) (t count : Nat) : List DWord :=
  if state then [dw (count % 2 ^ 48), 0] else timePair t 0

/-! ### Data records -/

/-- FRAME (R266). -/
def frameRec (q resumed store single : Bool) (firstBlock quality rate enc bank frameStart timeline mergedPrev : Nat)
    (u l : DWord) : Rec :=
  { bank := some bank, first := frameStart, last := frameStart,
    words := recHeader 0x02 q false 5 (firstBlock % 2 ^ 10 * 2 ^ 14 + bit resumed * 2 ^ 13 + bit store * 2 ^ 12
        + quality % 16 * 2 ^ 8 + rate % 4 * 2 ^ 6 + bit single * 2 ^ 5 + enc % 4 * 2 ^ 3 + bank % 8)
      :: timePair frameStart (timeline % 2 ^ 16 * 2 ^ 32 + min mergedPrev 0xFFFFFFFF) ++ [u, if single then 0 else l] }

/-- SAMPLE_BLOCK (R268): the samples of one block, in order, each with its U and L words. -/
def sampleRec (q single : Bool) (block bank start p lim : Nat) (samples : List (DWord × DWord)) : Rec :=
  let payload := if single then samples.map Prod.fst else samples.flatMap fun x => [x.1, x.2]
  { bank := some bank, first := start, last := start + (samples.length - 1) * p, lim := lim,
    words := recHeader 0x03 q false (1 + payload.length)
      (block % 2 ^ 10 * 2 ^ 4 + bit single * 2 ^ 3 + bank % 8) :: payload }

/-- A transition word (R269). -/
def transitionWord (chan : Nat) (u l : Bool) (offset : Nat) : Word :=
  BitVec.ofNat 32 (chan % 64 * 2 ^ 26 + bit u * 2 ^ 25 + bit l * 2 ^ 24 + offset % 2 ^ 24)

/-- Two 32-bit words in each 64-bit word, the earlier below; an odd count ends with all ones (R269). -/
def pairWords : List Word → List DWord
  | [] => []
  | [a] => [dw (a.toNat + 0xFFFFFFFF * 2 ^ 32)]
  | a :: b :: r => dw (a.toNat + b.toNat * 2 ^ 32) :: pairWords r

/-- TRANSITIONS (R269) of a run of blocks. -/
def transitionsRec (q k : Bool) (lastBlock firstBlock bank : Nat) (first last : Label) (ws : List Word) : Rec :=
  let payload := pairWords ws
  { bank := some bank, first := first, last := last,
    words := recHeader 0x04 q k (1 + payload.length)
      (lastBlock % 2 ^ 10 * 2 ^ 14 + firstBlock % 2 ^ 10 * 2 ^ 4 + bank % 8) :: payload }

/-- STATE_BLOCK (R271) of state samples whose edge labels lie in one frame. -/
def stateRec (q k single : Bool) (bank firstIndex : Nat) (samples : List StateSample) : Rec :=
  let f := frameOf ((samples.head?.map StateSample.label).getD 0)
  let payload := samples.flatMap fun x =>
    let head := dw (bit (!x.rising) * 2 ^ 24 + (x.label - f) % 2 ^ 24)
    if single then [head, x.u] else [head, x.u, x.l]
  { bank := some bank, first := (samples.head?.map StateSample.label).getD 0,
    last := (samples.getLast?.map StateSample.label).getD 0,
    words := recHeader 0x05 q k (2 + payload.length) (bit single * 2 ^ 3 + bank % 8)
      :: dw (samples.length % 256 * 2 ^ 48 + firstIndex % 2 ^ 48) :: payload }

/-! ### Event records -/

/-- MARKER (R276). -/
def markerRec (q state exact : Bool) (part branch level code : Nat) (sample count : Nat) (time : Label) : Rec :=
  { bank := none, first := sample, last := sample,
    words := recHeader 0x06 q false 5 (bit state * 2 ^ 18 + bit exact * 2 ^ 17 + part % 8 * 2 ^ 14 + branch % 4 * 2 ^ 12
        + level % 16 * 2 ^ 8 + code % 256)
      :: samplePair state sample count ++ timePair time 0 }

/-- GAP (R277). -/
def gapRec (q : Bool) (banks reason : Nat) (end_ : Label) (resume : Option Label) (detail : Nat) : Rec :=
  { bank := none, first := end_, last := resume.getD end_,
    words := recHeader 0x07 q false 5 (bit resume.isNone * 2 ^ 16 + banks % 256 * 2 ^ 8 + reason % 256)
      :: timePair end_ 0 ++ optPair resume detail }

/-- MODE (R278). -/
def modeRec (q store wide : Bool) (block cause enc bank blocks words : Nat) (at_ : Label) : Rec :=
  { bank := if wide then none else some bank, first := at_, last := at_,
    words := recHeader 0x08 q false 4 (block % 2 ^ 10 * 2 ^ 16 + cause % 16 * 2 ^ 8 + bit store * 2 ^ 6
        + enc % 4 * 2 ^ 4 + bit wide * 2 ^ 3 + bank % 8)
      :: dw (blocks % 2 ^ 32 * 2 ^ 32 + words % 2 ^ 32) :: timePair at_ 0 }

/-- TIME_STEP (R279). -/
def timeStepRec (q : Bool) (timeline cause : Nat) (old new : Label) (sub secs : Int) : Rec :=
  { bank := none, first := new, last := new,
    words := recHeader 0x09 q false 7 (timeline % 2 ^ 16 * 2 ^ 16 + cause % 16)
      :: timePair old 0 ++ timePair new 0 ++ [dw (twos 64 sub), dw (twos 64 secs)] }

/-- TRIGGER (R280, R199). -/
def triggerRec (q state : Bool) (anchor part : Nat) (trigout : Option Label) (forced exact : Bool)
    (branch level latency : Nat) (sample count : Nat) (time : Label) (sinceArm : Nat) (cs ts : List Nat) : Rec :=
  { bank := none, first := sample, last := sample,
    words := recHeader 0x0A q false 16 (anchor % 2 ^ 16 * 2 ^ 16 + part % 8 * 2 ^ 12 + bit state * 2 ^ 11
        + bit trigout.isSome * 2 ^ 10 + bit forced * 2 ^ 9 + bit exact * 2 ^ 8 + branch % 4 * 2 ^ 6 + level % 16 * 2 ^ 2
        + latency % 4)
      :: samplePair state sample count ++ timePair time 0 ++ optPair trigout 0
      ++ dw sinceArm :: (cs ++ ts).map fun v => dw (v % 2 ^ 48) }

/-- PAD (R265) of `n` words. -/
def padRec (q : Bool) (at_ : Label) (n : Nat) : Rec :=
  { bank := none, first := at_, last := at_, words := recHeader 0x0E q false n 0 :: List.replicate (n - 1) 0 }

/-! ### The segment's own records -/

/-- SEGMENT_HEADER (R260, R261) as it stands in capture memory: the words written so far, the others all ones. -/
def headerRec (g : Seg) (length : Option Nat) : Rec :=
  let w2 : DWord := match g.id with
    | some id => dw (bit g.empty * 2 ^ 49 + bit g.earlyTrig * 2 ^ 48 + g.epoch % 2 ^ 16 * 2 ^ 32 + id % 2 ^ 32)
    | none => BitVec.allOnes 64
  let late : List DWord := match g.start with
    | some _ => timePair g.startW g.dead ++ [g.digest, dw (g.timeline % 2 ^ 16 * 2 ^ 16 + g.quality % 16)]
    | none => [BitVec.allOnes 64, BitVec.allOnes 64, 0, 0]
  { bank := none, first := g.start.getD g.openT, last := g.start.getD g.openT, bad := g.headBad, gone := g.headGone,
    words := recHeader 0x01 g.q false 8 1 :: (match length with | some n => dw n | none => BitVec.allOnes 64) :: w2
      :: (g.word3 ||| dw (bit g.preShort * 2 ^ 62)) :: late }

/-- Word 3 of a SEGMENT_HEADER without PRE_SHORT (R260). -/
def headerWord3 (deviceId banks : Nat) (continuous state : Bool) (rate part cand : Nat) : DWord :=
  dw (deviceId % 2 ^ 14 * 2 ^ 48 + banks % 256 * 2 ^ 40 + bit continuous * 2 ^ 39 + bit state * 2 ^ 38
    + rate % 4 * 2 ^ 36 + part % 8 * 2 ^ 32 + cand % 2 ^ 32)

/-- The words of a record as the CRC takes them (R264): bits [49:48] of the header are 0. -/
def crcWords (r : Rec) : List DWord :=
  match r.words with
  | [] => []
  | h :: t => (h &&& ~~~(3#64 <<< 48)) :: t

/-- TRAILER (R263) without its CRC: the fields of the first TRIGGER record come from that record. -/
def trailerRec (q : Bool) (g : Seg) (gaps cause poisoned records limit merged : Nat) (cs : List Nat) : Rec :=
  let first := g.trigs.head?.map fun x => x.2.words
  let h := ((first.getD []).headD 0).toNat
  let trig : List DWord := match first with
    | some ws => [ws.getD 1 0, (ws.getD 2 0 &&& 0xFFFF#64)
        ||| dw (bitsOf h 9 1 * 2 ^ 23 + bitsOf h 8 1 * 2 ^ 22 + bitsOf h 6 2 * 2 ^ 20 + bitsOf h 2 4 * 2 ^ 16)]
    | none => absentPair 0
  { bank := none, first := g.last.getD g.openT, last := g.last.getD g.openT,
    words := recHeader 0x0F q false 13 (min gaps 0xFFFF * 2 ^ 16 + min g.trigs.length 255 * 2 ^ 8
        + bit g.preShort * 2 ^ 7 + bit g.earlyTrig * 2 ^ 6 + bit g.empty * 2 ^ 5 + bit g.truncated * 2 ^ 4 + cause % 16)
      :: optPair g.last 0
      ++ dw (bitsOf g.word3.toNat 48 14 * 2 ^ 48 + g.epoch % 2 ^ 16 * 2 ^ 32 + (g.id.getD 0xFFFFFFFF) % 2 ^ 32)
      :: trig
      ++ dw (poisoned % 2 ^ 32 * 2 ^ 32 + records % 2 ^ 32) :: dw (limit % 2 ^ 32 * 2 ^ 32 + min merged 0xFFFFFFFF)
      :: (cs.map fun v => dw (v % 2 ^ 48)) ++ [0] }

/-- A record as delivered: P set when a word of it is poisoned (R251), a PAD header in place of a header that fails
parity (R253), words lost with a pseudo-channel as all ones (R301), L set before its segment is imago (R228). -/
def delivered (larval : Bool) (r : Rec) : List DWord :=
  match r.words with
  | [] => []
  | h :: t =>
    let h := if r.bad.contains 0 then recHeader 0x0E false false r.words.length 0 else h
    let t := t.zipIdx.map fun e => if r.gone.contains (e.2 + 1) then BitVec.allOnes 64 else e.1
    (h ||| dw (bit (!r.bad.isEmpty) * 2 ^ 49 + bit larval * 2 ^ 48)) :: t

end Sys2Proof.Machine
end

