-- ==== Sys2Proof/Machine/Rings.lean ====
section
/-! DEFINITION. Machine/Rings.lean: ring indices, reads of host memory with their tags, completion entries and their
signalling, descriptor fetches (R314 to R345, R361 to R363). -/

namespace Sys2Proof.Machine

/-! ### Status codes (R345) -/

/-- OK. -/
def stOk : Nat := 0x0000
/-- OK_PARTIAL. -/
def stPartial : Nat := 0x0001
/-- COMMITTED. -/
def stCommitted : Nat := 0x0002
/-- ABANDONED. -/
def stAbandoned : Nat := 0x0003
/-- TRUNCATED. -/
def stTruncated : Nat := 0x0004
/-- SKIPPED. -/
def stSkipped : Nat := 0x0005
/-- POISONED. -/
def stPoisoned : Nat := 0x0006
/-- BUSY. -/
def stBusy : Nat := 0x0100
/-- BUSY_BRINGUP. -/
def stBringup : Nat := 0x0101
/-- INVALID_OPCODE. -/
def stInvalidOpcode : Nat := 0x0200
/-- INVALID_FIELD. -/
def stInvalidField : Nat := 0x0201
/-- NOT_OWNER. -/
def stNotOwner : Nat := 0x0202
/-- NO_RESOURCE. -/
def stNoResource : Nat := 0x0203
/-- BAD_GRANT. -/
def stBadGrant : Nat := 0x0204
/-- DOMAIN_DOWN. -/
def stDomainDown : Nat := 0x0400
/-- RESET_LOST. -/
def stResetLost : Nat := 0x0401
/-- SUPERSEDED. -/
def stSuperseded : Nat := 0x0402
/-- SIGNATURE_FAIL. -/
def stSignatureFail : Nat := 0x0500
/-- ROLLBACK. -/
def stRollback : Nat := 0x0501
/-- INTERNAL_ERROR. -/
def stInternalError : Nat := 0x0F00

/-! ### Ring indices (R315) -/

/-- Position of an index: its low 16 bits. -/
def idxPos (i : Nat) : Nat := i % 0x10000
/-- Wrap bit of an index. -/
def idxWrap (i : Nat) : Nat := i / 0x10000 % 2

/-- The distance from index `a` to index `b` in a ring; `none` when `b` does not follow `a` (R315). -/
def idxDist (size a b : Nat) : Option Nat :=
  if idxWrap a = idxWrap b then
    if idxPos a ≤ idxPos b then some (idxPos b - idxPos a) else none
  else if idxPos a ≤ size ∧ size - idxPos a + idxPos b ≤ size then some (size - idxPos a + idxPos b) else none

/-- The index after `i`: the wrap bit toggles when the position passes from size − 1 to 0 (R315). -/
def idxNext (size i : Nat) : Nat :=
  if idxPos i + 1 < size then idxWrap i * 0x10000 + idxPos i + 1 else (1 - idxWrap i) * 0x10000

/-- Entries of a pair's submission ring. -/
def State.sqSize (s : State) (f n : Nat) : Nat := 16 * 2 ^ s.getF (F.rcCfgSqSize f n)
/-- Entries of a pair's completion ring. -/
def State.cqSize (s : State) (f n : Nat) : Nat := 16 * 2 ^ s.getF (F.rcCfgCqSize f n)
/-- Address in two registers. -/
def State.addr (s : State) (lo hi : Reg) : Nat :=
  (s.rd lo).toNat / 4096 * 4096 + (s.rd hi).toNat * 2 ^ 32
/-- Submission-ring base of a pair. -/
def State.sqBase (s : State) (f n : Nat) : Nat := s.addr (.rcSqBaseLo f n) (.rcSqBaseHi f n)
/-- Completion-ring base of a pair. -/
def State.cqBase (s : State) (f n : Nat) : Nat := s.addr (.rcCqBaseLo f n) (.rcCqBaseHi f n)

/-- Whether a pair is enabled. -/
def State.pairEn (s : State) (f n : Nat) : Bool := s.flag (F.rcCfgEn f n)
/-- Whether a pair is an enabled capture pair. -/
def State.captureEn (s : State) (f n : Nat) : Bool := s.pairEn f n && s.getF (F.rcCfgType f n) == 1
/-- Posted, unfetched entries of a pair. -/
def State.posted (s : State) (f n : Nat) : Nat :=
  (idxDist (s.sqSize f n) (s.getF (F.rcSqHeadSqHead f n)) (s.pair f n).sqTail).getD 0
/-- Completion entries written and not released. -/
def State.cqUsed (s : State) (f n : Nat) : Nat :=
  (idxDist (s.cqSize f n) (s.pair f n).cqHead (s.getF (F.rcCqTailCqTail f n))).getD 0
/-- With one slot left, the completion ring is full (R319). -/
def State.cqFull (s : State) (f n : Nat) : Bool := decide (s.cqSize f n ≤ s.cqUsed f n + 1)
/-- STATE of RC_STATUS: 0 DISABLED, 1 ACTIVE, 2 FROZEN, 3 HELD (R351). -/
def State.pairState (s : State) (f n : Nat) : Nat :=
  if s.pairEn f n = false then 0 else if s.contained f then 2 else if s.bmeOn f = false then 3 else 1

/-! ### Reads of host memory (R362, R363) -/

/-- Tag values of a width (R363), and requests that a port may have outstanding with it (R362). -/
def tagSpace : TagWidth → Nat
  | .bits14 => 16384
  | .bits10 => 1024
  | .bits8 => 256
/-- Requests that a port may have outstanding with tags of a width (R362). -/
def tagLimit : TagWidth → Nat
  | .bits14 => 4096
  | .bits10 => 768
  | .bits8 => 256

/-- The tags of a port. -/
def State.tagWidth (s : State) (port : Nat) : TagWidth := spGet .bits14 port s.mgmt.tagWidth
/-- Tags of a port that are outstanding or quarantined: no tag value is used twice on a port (R363). -/
def State.portTags (s : State) (port : Nat) : List Tag :=
  (s.fns.filter fun e => e.1 / 128 == port).flatMap fun e => e.2.tags

/-- The first tag value from `k` on, below `space`, that is neither outstanding nor quarantined. -/
def freshTag (space : Nat) : Nat → Nat → List Tag → Nat
  | 0, k, _ => k % space
  | n + 1, k, ts => if ts.any (fun t => t.num == k % space) then freshTag space n (k + 1) ts else k % space

/-- Outstanding requests of a function. -/
def State.outstanding (s : State) (f : Nat) : Nat := ((s.fn f).tags.filter fun t => !t.quarantined).length
/-- Outstanding requests of the functions that satisfy `c`. -/
def State.outstandingOf (s : State) (c : Nat → Bool) : Nat :=
  ((s.fns.filter fun e => c e.1).map fun e => (e.2.tags.filter fun t => !t.quarantined).length).sum
/-- Whether a further request of a function may be issued: the limits allow it, and its port has a free tag value (R362,
R363). -/
def State.readAllowed (s : State) (f : Nat) : Bool :=
  let port := s.outstandingOf (fun g => g / 128 == f / 128)
  decide (s.outstanding f < 1024) && decide (s.outstandingOf (fun _ => true) < 4096)
    && (!s.mgmt.dualPort || decide (port < 3072)) && decide (port < tagLimit (s.tagWidth (f / 128)))
    && decide ((s.portTags (f / 128)).length < tagSpace (s.tagWidth (f / 128)))

/-- A function waits, behind those that wait already, until it may issue a request (R362). -/
def awaitRead (f : Nat) (s : State) : State :=
  if s.readWait.contains f then s else { s with readWait := s.readWait ++ [f] }

/-- A read of host memory for a function: `source` and `detail` as in the error log (R384). Answers its tag. -/
def issueRead (f source detail : Nat) (s : State) : Nat × State :=
  let x := s.fn f
  let ts := s.portTags (f / 128)
  let k := freshTag (tagSpace (s.tagWidth (f / 128))) ts.length x.nextTag ts
  let t : Tag := { num := k, source := source, detail := detail, timeout := s.getF (F.epCtoCto f) }
  (k, emit (.hostRead f k) (setFn f { x with nextTag := (k + 1) % 16384, tags := x.tags ++ [t] } s))

/-! ### Completion entries (R319, R322, R334, R337, R344) -/

/-- Bytes of a command completion without PHASE (R322). -/
def cmdEntry (result resultHi index status tag opcode : Nat) : List Byte :=
  leBytes 4 result ++ leBytes 4 resultHi ++ leBytes 2 index ++ leBytes 2 status ++ leBytes 2 tag ++ leBytes 1 opcode ++ [0]

/-- Bytes of a capture completion without PHASE (R334). -/
def capEntry (bytes segId index status epoch flags : Nat) : List Byte :=
  leBytes 4 bytes ++ leBytes 4 segId ++ leBytes 2 index ++ leBytes 2 status ++ leBytes 2 epoch ++ leBytes 1 flags ++ [0]

/-- FLAGS of a capture completion (R334). -/
def capFlags (part : Nat) (first last readBack poison trunc : Bool) : Nat :=
  part % 8 + bit first * 8 + bit last * 16 + bit readBack * 32 + bit poison * 64 + bit trunc * 128

/-- A message for every completion of a pair not yet signalled (R344). -/
def signalPair (f n : Nat) (s : State) : State :=
  msix f (s.getF (F.rcCfgMsixVec f n)) (modPair f n (fun x => { x with unsignalled := 0 }) s)

/-- A delivery has consumed `words` words of a segment; 2^64 stands for all of it (R337). -/
def consume (p key did words : Nat) (s : State) : State :=
  let upd (e : Nat × Nat) : Nat × Nat := if e.1 = did then (e.1, max e.2 words) else e
  let one (g : Seg) : Seg :=
    if g.key = key then { g with needed := (g.needed.map upd).filter fun e => decide (e.2 < 2 ^ 64) } else g
  modPart p (fun x => { x with segs := x.segs.map one }) s

/-- The pins of a READ_BACK are released (R305). -/
def unpin (p : Nat) (pages : List Nat) (s : State) : State := modPart p (fun x => { x with pins := x.pins.erase pages }) s

/-- One completion entry is written: PHASE by the tail's wrap bit, the tail advances, the watermark, the full condition
and the signal follow (R319, R344). -/
def writeCpl (f n : Nat) (c : Cpl) (s : State) : State :=
  let tail := s.getF (F.rcCqTailCqTail f n)
  let used := s.cqUsed f n
  let bytes := c.words.take 15 ++ [if idxWrap tail = 0 then 0x80#8 else 0#8]
  let s := each (fun w => emit (.hostWrite f w.1 w.2 false)) c.pre s
  let s := emit (.hostWrite f (s.cqBase f n + idxPos tail * 16) bytes false) s
  let s := setF (F.rcCqTailCqTail f n) (idxNext (s.cqSize f n) tail) s
  let s := modPair f n (fun x => { x with unsignalled := x.unsignalled + 1 }) s
  let s := match c.consumes with
    | some (p, key, did, w) => consume p key did w s
    | none => s
  let s := match c.unpins with
    | some (p, pages) => unpin p pages s
    | none => s
  let s := each (fun w => emit (.hostWrite f w.1 w.2 false)) c.post s
  let s := if s.cqFull f n ∧ s.flag (F.rcStatusCqFull f n) = false then
      post f 0x1602 n (setF (F.rcEventsCqFull f n) 1 (setF (F.rcStatusCqFull f n) 1 s))
    else s
  let s := if c.urgent ∨ max 1 (s.getF (F.rcModModCount f n)) ≤ (s.pair f n).unsignalled
      ∨ (c.last ∧ s.flag (F.rcModModEos f n)) then signalPair f n s else s
  if crosses (s.getF (F.rcWmCqWm f n)) used (used + 1) then
    post f 0x1604 n (setF (F.rcEventsWm f n) 1 (signalPair f n s))
  else s

/-- The completions given are written in order while the pair's DMA runs and its completion ring has room; the rest
are held (R319, R337, R369). -/
def writeHeld (f n : Nat) : List Cpl → State → State
  | [], s => modPair f n (fun x => { x with heldCpl := [] }) s
  | c :: r, s =>
    if s.dmaOn f && s.pairEn f n && !s.cqFull f n then writeHeld f n r (writeCpl f n c s)
    else modPair f n (fun x => { x with heldCpl := c :: r }) s

/-- The held completions of a pair are written as far as they can be. -/
def flushPair (f n : Nat) (s : State) : State := writeHeld f n (s.pair f n).heldCpl s

/-- A completion joins those of its pair, after every earlier one (R320). -/
def complete (f n : Nat) (c : Cpl) (s : State) : State := writeHeld f n ((s.pair f n).heldCpl ++ [c]) s

/-- A capture completion is due on a pair (R334, R344), with writes that follow it (R235). -/
def finishBufThen (post : List (Nat × List Byte)) (f n bytes segId index status epoch flags : Nat)
    (consumes : Option (Nat × Nat × Nat × Nat)) (s : State) : State :=
  complete f n
    { words := capEntry bytes segId index status epoch flags,
      urgent := decide (0x100 ≤ status) || status == stSkipped || status == stTruncated || status == stPoisoned,
      last := bitsOf flags 4 1 == 1, consumes := consumes, post := post } s

/-- A capture completion is due on a pair. -/
def finishBuf (f n bytes segId index status epoch flags : Nat) (consumes : Option (Nat × Nat × Nat × Nat))
    (s : State) : State :=
  finishBufThen [] f n bytes segId index status epoch flags consumes s

/-! ### Long commands and fetches (R323, R324, R335) -/

/-- Whether an opcode is a long command (R324). -/
def longOpcode (op : Nat) : Bool := [0x06, 0x0A, 0x0C, 0x0D, 0x0E].contains op

/-- Long commands of a function that are fetched and not completed, over its pairs (R323). -/
def State.longsOf (s : State) (f : Nat) : Nat := ((s.fn f).pairs.map fun e => e.2.longs.length).sum

/-- Whether a pair wants further descriptors: there are posted ones, no read of it is in progress, and its TYPE
wants them: a command ring while only long commands of it are in progress (R319, R321, R323, R335). -/
def State.wantsFetch (s : State) (f n : Nat) : Bool :=
  let x := s.pair f n
  s.pairEn f n && s.dmaOn f && decide (0 < s.posted f n) && x.fetchTag.isNone &&
  (if s.getF (F.rcCfgType f n) = 1 then
    (x.delivery.isSome || !x.readBacks.isEmpty) && decide (x.fetched.length < 16)
  else !s.cqFull f n && x.started.all (fun i => x.longs.contains i) && !x.fence && !x.excess)

/-- Whether a command of a pair has its parameter block still to be read. -/
def State.wantsParams (s : State) (f n : Nat) : Bool :=
  (s.pair f n).await.isSome && (s.pair f n).paramTag.isNone && s.dmaOn f

/-- A pair reads its next descriptors, or the parameter block of its command, when it may; else its function waits. -/
def tryFetch (f n : Nat) (s : State) : State :=
  if s.wantsFetch f n || s.wantsParams f n then
    if s.readAllowed f then
      let params := s.wantsParams f n
      let (k, s) := issueRead f (if params then 2 else 1) n s
      modPair f n (fun x => if params then { x with paramTag := some k } else { x with fetchTag := some k }) s
    else awaitRead f s
  else s

/-- A command in progress whose descriptor is gone with its ring (R375): it completes nothing. -/
def goneCmd (c : Cmd) : Cmd := { c with index := 65536 }

/-- A command completes (R320, R322): its descriptor is no longer in progress, a FENCE with no earlier command left and
a ring held for want of a long command's place go on. A status of 0x0100 or above, or INTERRUPT, signals at once (R344).
`pre` are the writes that the entry reports (R320). A command whose ring a reset of its function has cleared (`goneCmd`)
completes nothing. -/
def finishCpl (c : Cmd) (opcode status result resultHi : Nat) (pre : List (Nat × List Byte))
    (unpins : Option (Nat × List Nat)) (s : State) : State :=
  if 65536 ≤ c.index then s else
  let s := modPair c.fn c.pair (fun x =>
    let left := x.started.filter (· ≠ c.index)
    { x with started := left, longs := x.longs.filter (· ≠ c.index), fence := x.fence && !left.isEmpty }) s
  let s := if s.longsOf c.fn < 16 then
      modFn c.fn (fun x => { x with pairs := x.pairs.map fun e => (e.1, { e.2 with excess := false }) }) s
    else s
  let s := complete c.fn c.pair
    { words := cmdEntry result resultHi c.index status c.tag opcode,
      urgent := decide (0x100 ≤ status) || c.interrupt, pre := pre, unpins := unpins } s
  each (fun n => tryFetch c.fn n) (List.range 8) s

/-- A command completes with writes to report. -/
def finishPre (c : Cmd) (opcode status result resultHi : Nat) (pre : List (Nat × List Byte)) (s : State) : State :=
  finishCpl c opcode status result resultHi pre none s

/-- A command completes with no write to report. -/
def finish (c : Cmd) (opcode status result resultHi : Nat) (s : State) : State :=
  finishPre c opcode status result resultHi [] s

/-! ### Reads of mailbox blocks, and reads that wait (R362, R411 to R414) -/

/-- Whether a channel's receiver is Firefly (R411). -/
def State.toFirefly (s : State) (c : Nat) : Bool := s.flag (F.mbxChanTarget c)
/-- Whether a channel is down: its receiver restarts or is held in reset (R417). -/
def State.chanDown (s : State) (c : Nat) : Bool := if s.toFirefly c then s.mgmt.fireflyDown else s.mgmt.scarabDown

/-- The read of a message block in progress for a function's post on a channel (R414). -/
def State.mbxTag (s : State) (f c : Nat) : Option Tag :=
  (s.fn f).tags.find? fun t => t.source == 3 && t.detail == c && !t.quarantined

/-- The receiver reads the block of the post that it takes next, with the sender as requester (R412, R414); the read may
have to wait (R362). A post with pointer 0 has no block to read. -/
def readBlock (c : Nat) (s : State) : State :=
  match (s.chan c).untaken with
  | some p =>
    if (s.chan c).taken.isNone && !s.chanDown c && s.dmaOn p.fn && p.ptr != 0 && (s.mbxTag p.fn c).isNone then
      if s.readAllowed p.fn then (issueRead p.fn 3 c s).2 else awaitRead p.fn s
    else s
  | none => s

/-- The functions whose requests wait are served in turn (R362): each issues what it may, and goes behind the others where
more of it waits. -/
def serveReads (s : State) : State :=
  if s.readWait = [] then s
  else
    each (fun f s => each readBlock (List.range 16) (each (fun n => tryFetch f n) (List.range 8) s)) s.readWait
      { s with readWait := [] }

/-- A tag of a function is free. -/
def dropTag (f k : Nat) (s : State) : State :=
  modFn f (fun x => { x with tags := x.tags.filter fun t => decide (t.num ≠ k) }) s

/-- A request of a function has ended: its tag is free, and those that waited are served. -/
def endTag (f k : Nat) (s : State) : State := serveReads (dropTag f k s)

/-- Every pair of a function writes its held completions and fetches what it may (R372, R374). -/
def resumeFn (f : Nat) (s : State) : State :=
  each (fun n s => tryFetch f n (flushPair f n s)) (List.range 8) s

end Sys2Proof.Machine
end

