-- ==== Sys2Proof/Machine/Stream.lean ====
section
/-! DEFINITION. Machine/Stream.lean: what a partition's configuration says, the sample grid, and the stream in capture
memory: pages of the ring, held pages and the records in them (R215, R287 to R292). -/

namespace Sys2Proof.Machine

/-! ### Configuration of a partition, as live -/

/-- Whether a partition exists (R244). -/
def State.exists_ (s : State) (p : Nat) : Bool := s.flag (F.partOwnerExists p)
/-- Banks of a partition, by number (R244). -/
def State.banksOf (s : State) (p : Nat) : List Nat :=
  (List.range 8).filter fun b => (s.getF (F.partOwnerBanks p)).testBit b
/-- The partition that owns a bank (R22). -/
def State.partOf (s : State) (b : Nat) : Option Nat :=
  (List.range 8).find? fun p => s.exists_ p && (s.getF (F.partOwnerBanks p)).testBit b
/-- PORT and FUNCTION of PART_OWNER as a function number. -/
def State.ownerFn (s : State) (p : Nat) : Nat :=
  s.getF (F.partOwnerPort p) * 128 + s.getF (F.partOwnerFunction p)
/-- Whether ORPHAN is set: the partition has no owner (R341). -/
def State.orphan (s : State) (p : Nat) : Bool := s.flag (F.partStatusOrphan p)
/-- The owning function, when there is one. -/
def State.owner (s : State) (p : Nat) : Option Nat :=
  if s.exists_ p && !s.orphan p then some (s.ownerFn p) else none
/-- Whether a function owns a partition. -/
def State.owns (s : State) (f p : Nat) : Bool := s.owner p == some f

/-- An event goes to the PF of each port and to the partition's owner. -/
def postPart (p code payload : Nat) (s : State) : State :=
  let fs := match s.owner p with
    | some f => if s.pfs.contains f then s.pfs else s.pfs ++ [f]
    | none => s.pfs
  postAll fs code payload s

/-- Whether a partition runs in state mode. -/
def State.stateMode (s : State) (p : Nat) : Bool := s.flagL (F.partModeStateMode p)
/-- Rate index k: 6.4 / 2^k GS/s. -/
def State.rate (s : State) (p : Nat) : Nat := s.getL (F.partModeRate p)
/-- Sample period in ticks (R117). -/
def State.period (s : State) (p : Nat) : Nat := 80 * 2 ^ s.rate p
/-- Block length in ticks (R4, R5). -/
def State.blockLen (s : State) (p : Nat) : Nat := if s.stateMode p then 16000 else 16000 * 2 ^ s.rate p
/-- Whether a partition is in continuous-stream mode (R226). -/
def State.continuous (s : State) (p : Nat) : Bool := s.flagL (F.partModeContinuous p)
/-- Whether a bank samples with its U comparators only (R114, R132). -/
def State.single (s : State) (p b : Nat) : Bool := s.flagL (F.feBankCtrlCmpMode b) || (s.part p).reduced
/-- Bit Q of a record header: the quality code is 0x2 or higher (R254). -/
def State.q (s : State) : Bool := decide (2 ≤ s.getF F.timeStatusQuality)
/-- Block of its frame in which an instant lies. -/
def blockIn (len : Nat) (t : Label) : Nat := (t - frameOf t) / len

/-! ### Pages (R287, R291, R293) -/

/-- Bytes of a page. -/
def pageBytes : Nat := 2097152
/-- The page of a stream position. -/
def pageOf (pos : Nat) : Nat := pos / pageBytes
/-- Bytes of a record. -/
def Rec.bytes (r : Rec) : Nat := 8 * r.words.length

/-- Pages a partition holds, in its ring and in its segment store. -/
def Part.pages (x : Part) : Nat := x.ringNow + x.held.length
/-- Whether a partition's data is in the staging store: it was armed in reduced service, and eclosion has not moved it
to HBM (R306, R450). -/
def State.inStaging (s : State) (p : Nat) : Bool := (s.part p).reduced && !s.mgmt.eclosed
/-- FLOOR of a partition. -/
def State.floor (s : State) (p : Nat) : Nat := s.getF (F.memPartLimitsFloor p)
/-- Pages of the free pool: the allocatable pages that no partition holds or has reserved (R293). -/
def State.freePages (s : State) : Nat :=
  s.getF F.memCapPagesAlloc -
    ((List.range 8).map fun p => max (if s.inStaging p then 0 else (s.part p).pages) (s.floor p)).sum
/-- Pages that partitions have found (R303). -/
def State.pagesUsed (s : State) : Nat := ((List.range 8).map fun p => if s.inStaging p then 0 else (s.part p).pages).sum
/-- Whether a further page can be found for a partition: its floor reserve, then the free pool within CEILING (R291).
No more than PAGES_ALLOC pages can be found, even where the floors add up to more: who comes first has them (R303). The
staging store has no page beyond its 24 (R306). -/
def State.pageAvailable (s : State) (p : Nat) : Bool :=
  let x := s.part p
  !s.inStaging p && decide (s.pagesUsed < s.getF F.memCapPagesAlloc) && (decide (x.pages < s.floor p)
    || (decide (x.pages < s.getF (F.memPartLimitsCeiling p)) && decide (0 < s.freePages)))
/-- Target length of the ring: RING_PAGES, or the 24 pages of the staging store (R293, R306). -/
def State.ringPages (s : State) (p : Nat) : Nat := if s.inStaging p then 24 else s.getL (F.memPartRingRingPages p)
/-- Shortest ring before the limit: RING_MIN, or 4 pages of the staging store (R295, R306). -/
def State.ringMin (s : State) (p : Nat) : Nat := if s.inStaging p then 4 else s.getL (F.memPartRingRingMin p)

/-- Records whose pages are all in memory. -/
def Part.keepRecs (x : Part) : List (Nat × Rec) :=
  x.recs.filter fun e => x.unheld.contains (pageOf e.1) || x.held.contains (pageOf e.1)

/-- Records whose pages have left memory are gone; so are the state samples in them (R219). -/
def Part.trim (x : Part) : Part :=
  let gone := x.recs.filter fun e => e.2.type == 0x05 && decide (x.base ≤ e.1)
    && !(x.unheld.contains (pageOf e.1) || x.held.contains (pageOf e.1))
  { x with recs := x.keepRecs, stGone := max x.stGone ((gone.map fun e => e.2.last + 1).max?.getD 0) }

/-- Position of the oldest byte of the present armed interval's stream still in memory (R292, R293). -/
def Part.oldestPos (x : Part) : Nat :=
  match ((x.unheld ++ x.held).filter fun n => decide (pageOf x.base ≤ n)).min? with
  | some n => max (n * pageBytes) x.base
  | none => x.writePos

/-- Writing advances into page `n`: a ring page without data, or the oldest unheld page of the ring, whose data leaves
memory (R292). -/
def takePage (n : Nat) (x : Part) : Part :=
  if x.unheld.contains n || x.held.contains n then x
  else if x.unheld.length < x.ringNow then { x with unheld := x.unheld ++ [n] }
  else
    { x with unheld := x.unheld.drop 1 ++ [n] }.trim

/-- Writing takes `k` pages from `n` on. -/
def takePages : Nat → Nat → Part → Part
  | 0, _, x => x
  | k + 1, n, x => takePages k (n + 1) (takePage n x)

/-- A record is written at the write position (R292). -/
def Part.append (x : Part) (r : Rec) : Part :=
  let last := pageOf (x.writePos + r.bytes - 1)
  let y := takePages (last + 1 - pageOf x.writePos) (pageOf x.writePos) x
  { y with recs := y.recs ++ [(x.writePos, r)], writePos := x.writePos + r.bytes }

/-! ### Stripes and lost words (R250, R287, R301, R302) -/

/-- Words of a record become poisoned: they fail parity from now on. -/
def Rec.poison (ws : List Nat) (r : Rec) : Rec := { r with bad := r.bad ++ ws.filter fun i => !r.bad.contains i }
/-- Words of a record are lost with a pseudo-channel: they read as all ones with failing parity. -/
def Rec.lose (ws : List Nat) (r : Rec) : Rec :=
  { r.poison ws with gone := r.gone ++ ws.filter fun i => !r.gone.contains i }

/-- The pseudo-channel that stripe `k` of a page lies on: its own, or where that is retired the one of the stripe that
replaces it, a free value among those active then (R287, R302). The first argument lists the retirements, with the number
of each. -/
def stripeHome (p page : Nat) : List (Nat × Nat) → List Nat → Nat → Nat
  | [], _, k => k
  | (n, i) :: r, gone, k =>
    let left := (List.range 64).filter fun m => !(n :: gone).contains m
    stripeHome p page r (n :: gone) (if k = n then left.getD (Config.spareStripe p page i % left.length) 0 else k)

/-- Words of a record at stream position `pos` that lie in stripes on pseudo-channel `n`. -/
def State.onChannel (s : State) (p n pos : Nat) (r : Rec) : List Nat :=
  (List.range r.length).filter fun i =>
    stripeHome p (pageOf (pos + 8 * i)) s.mgmt.retired.zipIdx [] ((pos + 8 * i) / 32768 % 64) == n

/-- A record as it is stored: writes to a pseudo-channel that is fenced off are dropped (R301). -/
def State.fenced (s : State) (p pos : Nat) (r : Rec) : Rec :=
  if s.inStaging p then r else s.mgmt.retiring.foldl (fun r e => r.lose (s.onChannel p e.1 pos r)) r

/-- A record joins a partition's stream. -/
def append (p : Nat) (r : Rec) (s : State) : State := modPart p (fun x => x.append (s.fenced p x.writePos r)) s
/-- Several records join a partition's stream, in order. -/
def appendAll (p : Nat) (rs : List Rec) (s : State) : State := each (append p) rs s

/-- A page joins the ring at its place in stream order. -/
def insertPage (n : Nat) : List Nat → List Nat
  | [] => [n]
  | m :: r => if n ≤ m then n :: m :: r else m :: insertPage n r

/-- A page stops being held: it returns to the ring with its data. Where the ring is at its target a page goes to the
floor reserve or the free pool (R291): one without data, else the oldest, so that data leaves memory oldest first
(R292, R343). -/
def releasePage (p n : Nat) (s : State) : State :=
  let x := s.part p
  let y := { x with held := x.held.filter (· ≠ n) }
  if s.exists_ p ∧ x.ringNow < s.ringPages p then
    setPart p { y with unheld := insertPage n y.unheld, ringNow := y.ringNow + 1 } s
  else if s.exists_ p then
    let u := insertPage n y.unheld
    let z := { y with unheld := u.drop (u.length - y.ringNow) }
    setPart p z.trim s
  else setPart p y.trim s

/-- A page becomes held: it leaves the ring list, and a replacement joins the ring where one can be found (R291). -/
def holdPage (p n : Nat) (s : State) : State :=
  let x := s.part p
  let y := { x with unheld := x.unheld.filter (· ≠ n), held := insertPage n x.held }
  setPart p { y with ringNow := if s.pageAvailable p then x.ringNow else x.ringNow - 1 } s

/-- Whether a page can become held without the partition being at its limit (R295). -/
def State.canHold (s : State) (p : Nat) : Bool :=
  s.pageAvailable p || decide (s.ringMin p + 1 ≤ (s.part p).ringNow)

end Sys2Proof.Machine
end

