-- ==== Sys2Proof/Machine/Flags.lean ====
section
/-! DEFINITION. Machine/Flags.lean: the cross-trigger flags: the changes of a core cycle, what a reader sees, and what a
read of XF_STATE returns (R195, R196). -/

namespace Sys2Proof.Machine

/-! ### Cross-trigger flags (R195, R196) -/

/-- Flags after changes of one core cycle: a set prevails over a clear; host values prevail over both (R196). -/
def flagsAfter (f : BitVec 8) (seqs host : List (Nat × Bool)) : BitVec 8 :=
  (List.range 8).foldl (fun g k =>
    let mine := seqs.filter fun c => c.1 == k
    let h := (host.filter fun c => c.1 == k).getLast?
    let v := match h with
      | some c => c.2
      | none => if mine.any Prod.snd then true else if mine.isEmpty then g.getLsbD k else false
    if v then g ||| BitVec.ofNat 8 (2 ^ k) else g &&& ~~~BitVec.ofNat 8 (2 ^ k)) f

/-- Changes that sequencers whose SEQ_LATENCY satisfies `c` made in the core cycle being collected. -/
def State.flagChanges (s : State) (c : Nat → Bool) : List (Nat × Bool) :=
  (List.range 8).flatMap fun p => if c (s.getF (F.seqStatusSeqLatency p)) then (s.seq p).xfChange else []

/-- The core cycle being collected ends; collecting goes on in cycle `m`, before which nothing else changes. -/
def rollOnce (m : Nat) (s : State) : State :=
  let f := s.flags
  let host := (f.host.filter fun h => decide (h.1 ≤ f.cycle)).map Prod.snd
  let now := flagsAfter f.cur (s.flagChanges fun _ => true) host
  let next := decide (m = f.cycle + 1)
  let late := if next then s.flagChanges (fun l => l == 11) else []
  let flags : Flags := { f with
    prev := if next then f.cur else now, cur := now, late := late, lateHost := if next then host else [],
    host := f.host.filter fun h => decide (f.cycle < h.1), cycle := m }
  each (fun p s => if (s.seq p).xfChange.isEmpty then s else modSeq p (fun q => { q with xfChange := [] }) s)
    (List.range 8) { s with flags := flags }

/-- Collecting comes to core cycle `m`, by way of the cycles in which the host wrote; the first argument bounds them. -/
def rollFlags : Nat → Nat → State → State
  | 0, _, s => s
  | k + 1, m, s =>
    if m ≤ s.flags.cycle then s
    else
      let stops := (s.flags.host.map Prod.fst).filter fun c => decide (s.flags.cycle < c) && decide (c < m)
      rollFlags k m (rollOnce (stops.min?.getD m) s)

/-- The flags are resolved up to the core cycle before `m`. -/
def flagsTo (m : Nat) (s : State) : State := rollFlags (s.flags.host.length + 1) m s

/-- The flags as a reader with a SEQ_LATENCY sees them in the cycle being collected (R196). -/
def State.flagView (s : State) (latency : Nat) : BitVec 8 :=
  if latency = 12 then s.flags.cur else flagsAfter s.flags.prev s.flags.late s.flags.lateHost

/-- XF_STATE as a read returns it: every change up to the present core cycle resolved (R196). -/
def State.xfRead (s : State) : BitVec 8 := (flagsTo (max s.flags.cycle (s.now / ticksPerCore) + 1) s).flags.cur

/-! ### A sequencer is cleared (R201, R204) -/

/-- A sequencer is at level 0 with no occurrence counted, its counters and timers at 0 and stopped, STORE as given (R201,
R204). The flag changes of the core cycle stay, since flags keep their values (R196). -/
def clearSeq (p : Nat) (store : Bool) (s : State) : State :=
  let q := s.seq p
  let s := setSeq p { store := store, running := q.running, first := q.first, force := q.force, stateCount := q.stateCount,
                      stopped := q.stopped, deadBranches := q.deadBranches, inbox := q.inbox, xfChange := q.xfChange } s
  setF (F.seqStatusLevel p) 0 (setF (F.seqStatusLastBranch p) 0 (setF (F.seqStatusStore p) (bit store) s))

end Sys2Proof.Machine
end

