-- ==== Sys2Proof/Machine/Packer.lean ====
section
/-! DEFINITION. Machine/Packer.lean: the packers: a bank's samples and transition words of a block, the records they
leave in the stream, interruptions of storing and their GAP records (R31, R266 to R278, R485). -/

namespace Sys2Proof.Machine

/-- At most once per frame for each `key`. -/
def oncePerFrame (key : Nat) (g : State → State) (s : State) : State :=
  let fr := s.now / ticksPerFrame + 1
  if spGet 0 key s.stamps = fr then s else g { s with stamps := spSet 0 key fr s.stamps }

/-- Rate-rule key of an event of a unit. -/
def rateKey (code unit : Nat) : Nat := code * 256 + unit

/-- An event of a bank goes to the PF of each port and to the owner of the bank's partition (R136, R283). -/
def postBank (b code payload : Nat) (s : State) : State :=
  match s.partOf b with
  | some p => postPart p code payload s
  | none => postPfs code payload s

/-! ### Samples and transition words of a block -/

/-- A comparator's bit in a state word. -/
def setBit (w : DWord) (c : Nat) (v : Bool) : DWord := if v then w ||| dw (2 ^ c) else w &&& ~~~dw (2 ^ c)

/-- Comparator states after a crossing. -/
def crossed (ul : DWord × DWord) (x : Crossing) : DWord × DWord :=
  match x.cmp with
  | .u => (setBit ul.1 x.chan x.rising, ul.2)
  | .l => (ul.1, setBit ul.2 x.chan x.rising)

/-- The samples at `n` instants from `t` on, `p` apart: each holds the state set by the last crossing labelled at or
before its instant (R117). -/
def samplesOf : Nat → Label → Nat → DWord × DWord → List Crossing → List (DWord × DWord)
  | 0, _, _, _, _ => []
  | n + 1, t, p, ul, cs =>
    let now := (cs.takeWhile fun x => decide (x.label ≤ t)).foldl crossed ul
    now :: samplesOf n (t + p) p now (cs.dropWhile fun x => decide (x.label ≤ t))

/-- The transition words of a list of crossings in order of label and channel: one for each channel and label at which
U, L or both change (R269). `base` is the frame start. -/
def transitionsOf (base : Label) : DWord × DWord → List Crossing → List Word
  | _, [] => []
  | ul, x :: r =>
    let now := crossed ul x
    let same := match r with
      | y :: _ => decide (y.label = x.label) && decide (y.chan = x.chan)
      | [] => false
    if same then transitionsOf base now r
    else
      transitionWord x.chan (now.1.getLsbD x.chan) (now.2.getLsbD x.chan)
        (if x.label < base then x.label + ticksPerFrame - base else x.label - base) :: transitionsOf base now r

/-- A crossing takes its place in order of label and channel. -/
def insertCrossing (x : Crossing) : List Crossing → List Crossing
  | [] => [x]
  | y :: r =>
    if x.label < y.label ∨ (x.label = y.label ∧ x.chan < y.chan) then x :: y :: r else y :: insertCrossing x r

/-! ### Records of a bank -/

/-- A record of a bank joins its partition's stream; its words are counted in ENC_WORDS (R283, DESIGN CHOICE), and in
X04 while that queue cannot drain (R40). -/
def appendBank (p b : Nat) (r : Rec) (s : State) : State :=
  let s := if s.clk.sysHeld then modBank b (fun x => { x with x04 := x.x04 + r.length }) s else s
  append p r (bump (0x1005 + b * 0x10) r.length s)

/-- A FRAME record with another ENCODING (R266). -/
def withEncoding (enc : Nat) (r : Rec) : Rec :=
  if r.type = 0x02 then
    { r with words := match r.words with | h :: t => ((h &&& ~~~dw 0x18) ||| dw (enc % 4 * 2 ^ 3)) :: t | [] => [] }
  else r

/-- The records of a bank's frame that waited for its first block are written: the FRAME record states the encoding of
that block, `forced` when the limit rule forces it (R258, R266, R275). -/
def writeDue (p b : Nat) (forced : Bool) (s : State) : State :=
  let rs := (s.bank b).due
  if rs = [] then s
  else each (fun r => if r.type = 0x02 then appendBank p b (if forced then withEncoding 0 r else r) else append p r) rs
    (modBank b (fun x => { x with due := [] }) s)

/-- A record of a bank takes its place in the stream, behind those of its frame that wait. -/
def writeAfterDue (p b : Nat) (r : Rec) (s : State) : State :=
  if (s.bank b).due = [] then append p r s else modBank b (fun x => { x with due := x.due ++ [r] }) s

/-- The run of transition words of a bank ends: a TRANSITIONS record, unless the run holds no crossing (R270). -/
def flushRun (p b : Nat) (k : Bool) (s : State) : State :=
  let s := writeDue p b false s
  let x := s.bank b
  let s1 := setBank b { x with runFirst := none, runLast := 0, runWords := [] } s
  match x.runFirst with
  | none => s
  | some f =>
    if x.runWords.isEmpty then s1
    else
      let last := x.runFrom + (x.runLast + 1 - f) * s.blockLen p - s.period p
      appendBank p b (transitionsRec s.q k x.runLast f b x.runFrom last x.runWords) s1

/-- PREF and CURRENT of a bank take values; SWITCH tells of a change (R285, R286). -/
def setEnc (b pref cur : Nat) (s : State) : State :=
  let new := decide (s.getF (F.encStatusPref b) ≠ pref) || decide (s.getF (F.encStatusCurrent b) ≠ cur)
  let s := setF (F.encStatusCurrent b) cur (setF (F.encStatusPref b) pref s)
  if new then setF (F.encEventsSwitch b) 1 s else s

/-- A change of a bank's encoding is recorded: its MODE record, ENC_SWITCHES and ENC_SWITCH (R275, R278, R283). -/
def switchEnc (p b enc cause blocks words : Nat) (at_ : Label) (s : State) : State :=
  let s := writeAfterDue p b (modeRec s.q false false (blockIn (s.blockLen p) at_) cause enc b blocks words at_) s
  let s := bump (0x1003 + b * 0x10) 1 s
  oncePerFrame (rateKey 0x1400 b) (postBank b 0x1400 (b + enc % 256 * 2 ^ 16 + cause % 256 * 2 ^ 24)) s

/-- Whether a committed segment's fill end E lies in the block that starts at `start` and ends whole at `upto` (R270). -/
def State.fillEndIn (s : State) (p : Nat) (start upto : Label) : Bool :=
  decide (start + s.blockLen p ≤ upto) &&
    (s.part p).segs.any fun g => g.id.isSome && !g.imago && decide (start ≤ g.fillEnd) && decide (g.fillEnd < upto)

/-! ### A block in timing mode (R267 to R270, R274) -/

/-- Sample instants in the part of a block from `start` to `upto`. -/
def State.instants (s : State) (p : Nat) (start upto : Label) : Nat := (upto - start + s.period p - 1) / s.period p

/-- The crossings of a bank in the part of a block from `start` to `upto`: those labelled up to its last sample (R267). -/
def State.blockCross (s : State) (p b : Nat) (start upto : Label) : List Crossing :=
  (s.bank b).cross.takeWhile fun c => decide (c.label ≤ start + (s.instants p start upto - 1) * s.period p)

/-- Comparator states of a bank before its next block; L reads 0 in single mode (R114). -/
def State.startStates (s : State) (p b : Nat) : DWord × DWord :=
  ((s.bank b).startU, if s.single p b then 0 else (s.bank b).startL)

/-- The transition words of a bank's block, or of its part before `upto` (R269). -/
def State.blockWords (s : State) (p b : Nat) (start upto : Label) : List Word :=
  transitionsOf (frameOf start) (s.startStates p b) (s.blockCross p b start upto)

/-- The limit rule on a block that is to be written: the first one of a frame that exceeds the limit forces it and every
later one of the frame, behind a MODE record (R274, R275). -/
def limitBlock (p b : Nat) (start upto : Label) (s : State) : State :=
  let n := (s.blockWords p b start upto).length
  if s.flag (F.encStatusPref b) = true ∧ (s.bank b).forced = false ∧ 1000 * 2 ^ s.rate p < n then
    let s := flushRun p b false (writeDue p b true s)
    let s := switchEnc p b 0 2 1 n start (setEnc b 1 0 (modBank b (fun x => { x with forced := true }) s))
    let s := setF (F.encEventsLimit b) 1 (setF (F.encStatusLimitActive b) 1 s)
    oncePerFrame (rateKey 0x1401 b) (postBank b 0x1401 b) s
  else writeDue p b false s

/-- One block of a bank in timing mode, or its part before `upto`: it is counted, and written as PREF and the limit rule
say when `write` holds (R267 to R270, R274). -/
def packTiming (p b : Nat) (start upto : Label) (write : Bool) (s : State) : State :=
  let x := s.bank b
  let per := s.period p
  let len := s.blockLen p
  let cs := s.blockCross p b start upto
  let single := s.single p b
  let samples := samplesOf (s.instants p start upto) start per (s.startStates p b) cs
  let words := s.blockWords p b start upto
  let final := cs.foldl crossed (s.startStates p b)
  let s := setBank b { x with startU := final.1, startL := final.2, frameWords := x.frameWords + words.length,
                              cross := x.cross.drop cs.length, frameBlocks := x.frameBlocks + 1 } s
  if write = false then s
  else
    let s :=
      if x.forced ∨ s.flag (F.encStatusPref b) = false then
        let s := if x.forced then bump (0x1004 + b * 0x10) 1 s else s
        appendBank p b (sampleRec s.q single (blockIn len start) b start per (bit x.forced) samples)
          (flushRun p b false s)
      else
        let s := if 2 * 16383 < (s.bank b).runWords.length + words.length then flushRun p b true s else s
        modBank b (fun x => { x with runFirst := some (x.runFirst.getD (blockIn len start)), runLast := blockIn len start,
                                     runFrom := if x.runFirst.isSome then x.runFrom else start,
                                     runWords := x.runWords ++ words }) s
    if s.fillEndIn p start upto then flushRun p b true s else s

/-- The block of a bank that starts at `start`, or its part before `upto`: the limit rule, then its records. -/
def packBank (p b : Nat) (start upto : Label) (write : Bool) (s : State) : State :=
  packTiming p b start upto write (if write then limitBlock p b start upto s else writeDue p b false s)

/-- FRAME records of a bank for the frame that holds `start` (R266). In timing mode it waits for the bank's first block,
whose encoding it states (R275). -/
def writeFrame (p b : Nat) (start : Label) (resumed : Bool) (s : State) : State :=
  let x := s.bank b
  let enc := if s.stateMode p then 2 else s.getF (F.encStatusCurrent b)
  let init := s.startStates p b
  let r := frameRec s.q resumed (s.seq p).store (s.single p b) (blockIn (s.blockLen p) start)
    (s.getF F.timeStatusQuality) (s.rate p) enc b (frameOf start) (s.getF F.timeStatusTimeline) x.mergedPrev init.1 init.2
  let s := setBank b { x with frameAt := frameOf start + 1 } s
  if s.stateMode p then appendBank p b r s else modBank b (fun x => { x with due := x.due ++ [r] }) s

/-! ### Interruptions (R31, R277, R485) -/

/-- A further cause of an interruption: a new piece, unless the running piece has the same REASON (R485). -/
def addPiece (reason detail : Nat) (t : Label) (gs : List Gap) : List Gap :=
  match gs.getLast? with
  | some g => if g.reason = reason then gs else gs ++ [{ reason := reason, detail := detail, from_ := t }]
  | none => [{ reason := reason, detail := detail, from_ := t }]

/-- DETAIL of a piece: the whole blocks of `len` ticks discarded for OVERFLOW, else the cause's (R277). -/
def pieceDetail (len : Nat) (g : Gap) (until_ : Label) : Nat :=
  if g.reason = 2 ∧ g.detail = 0 then (until_ - g.from_) / len else g.detail

/-- The GAP records of an interruption, in time order: the RESUME of each piece but the last is the start of the next;
the last one's is `resume`, absent when storing does not resume (R277, R485). -/
def gapRecs (q : Bool) (banks len : Nat) (resume : Option Label) (now : Label) : List Gap → List Rec
  | [] => []
  | [g] => [gapRec q banks g.reason g.from_ resume (pieceDetail len g (resume.getD now))]
  | g :: h :: r =>
    gapRec q banks g.reason g.from_ (some h.from_) (pieceDetail len g h.from_) :: gapRecs q banks len resume now (h :: r)

/-- A set of banks as a mask. -/
def bankMask (bs : List Nat) : Nat := (bs.map fun b => 2 ^ b).sum

/-- Banks of a partition with an interruption of their own. -/
def State.ownGaps (s : State) (p : Nat) : List Nat := (s.banksOf p).filter fun b => !(s.bank b).gaps.isEmpty

/-- The pieces of a bank's own interruption are written: at resume, or without RESUME. In state mode the DETAIL of
OVERFLOW is the state samples discarded (R277). -/
def writeBankGaps (p b : Nat) (resume : Option Label) (s : State) : State :=
  let x := s.bank b
  let gs := if s.stateMode p then
      x.gaps.map fun g => if g.reason = 2 ∧ g.detail = 0 then { g with detail := x.lost } else g
    else x.gaps
  let len := if s.stateMode p then 0 else s.blockLen p
  let s := appendAll p (gapRecs s.q (2 ^ b) len resume s.now gs) s
  modBank b (fun x => { x with gaps := [], stResume := none, stBack := none, lost := 0 }) s

/-- What opens a bank's stream at `t`: the GAP records of its own interruption, then a FRAME record with RESUMED. -/
def openRecords (p b : Nat) (t : Label) (s : State) : State :=
  writeFrame p b t true (if (s.bank b).gaps = [] then s else writeBankGaps p b (some t) s)

/-! ### State mode (R119, R120, R271, R272) -/

/-- A bank's states at a label: the crossings up to it are taken (R117). -/
def crossTo (b : Nat) (t : Label) (s : State) : State :=
  let x := s.bank b
  let old := x.cross.takeWhile fun e => decide (e.label ≤ t)
  let now := old.foldl crossed (x.startU, x.startL)
  setBank b { x with cross := x.cross.drop old.length, startU := now.1, startL := now.2 } s

/-- The run of state samples of a bank ends: a STATE_BLOCK record (R271). -/
def flushState (p b : Nat) (k : Bool) (s : State) : State :=
  let run := (s.bank b).stRun
  if run = [] then s
  else appendBank p b (stateRec s.q k (s.single p b) b ((run.head?.map StateSample.index).getD 0) run)
    (modBank b (fun x => { x with stRun := [] }) s)

/-- The end of the last thing a state-mode bank kept: its last state sample, or the beginning of the interval. -/
def State.keptTo (s : State) (p b : Nat) : Label := (s.bank b).stPassed.getD ((s.part p).begun.getD 0)

/-- A state sample joins the run, which ends at 200 samples, at a frame end and at a sample not stored (R271, R272). -/
def joinRun (p b : Nat) (e : StateSample) (s : State) : State :=
  let fits := match (s.bank b).stRun.getLast? with
    | some y => decide (y.index + 1 = e.index) && decide (frameOf y.label = frameOf e.label)
    | none => true
  let s := modBank b (fun x => { x with stRun := x.stRun ++ [e] }) (if fits then s else flushState p b false s)
  if 200 ≤ (s.bank b).stRun.length then flushState p b false s else s

/-- A state sample is packed (R5, R119, R120, R272): in an interruption it is discarded and counted, unless the bank
resumes with it; the GAP record of edges removed before it comes first; its values are those of the crossing stream. -/
def packSample (p b : Nat) (e : StateSample) (s : State) : State :=
  let s := if (s.bank b).stBack = some e.label then openRecords p b e.label s else s
  if (s.bank b).gaps ≠ [] ∨ (s.part p).gaps ≠ [] then
    crossTo b e.label (modBank b (fun x => { x with lost := x.lost + 1 }) s)
  else
    let s := match e.lost with
      | some n => append p (gapRec s.q (2 ^ b) 2 (s.keptTo p b) (some e.label) n) (flushState p b false s)
      | none => s
    let s := modBank b (fun x => { x with stPassed := some e.label }) (crossTo b e.label s)
    let now := s.startStates p b
    if e.store then joinRun p b { e with u := now.1, l := now.2 } s else flushState p b false s

/-- A bank's state samples before `upto` are packed; with `force` the run ends there, with K as given (R271). -/
def packState (p b : Nat) (upto : Label) (force k : Bool) (s : State) : State :=
  let now := (s.bank b).stSamples.takeWhile fun e => decide (e.label < upto)
  let s := each (packSample p b) now (modBank b (fun x => { x with stSamples := x.stSamples.drop now.length }) s)
  if force then flushState p b k s else s

/-! ### Blocks of a partition (R268, R272, R282) -/

/-- Banks of a partition that deliver samples. -/
def State.liveBanks (s : State) (p : Nat) : List Nat := (s.banksOf p).filter fun b => !s.flag (F.feBankStatusStopped b)

/-- The MODE records of STORE changes that wait are written (R272): behind those of encoding changes (R282). -/
def writeStoreModes (p : Nat) (s : State) : State :=
  appendAll p (s.part p).storeModes (modPart p (fun x => { x with storeModes := [] }) s)

/-- The block that starts at `start` ends at `upto`: every bank of the partition that delivers is packed, encoding
changes first and STORE changes next (R282), and the last stored sample moves on (R268, R272). -/
def packBlock (p : Nat) (start upto : Label) (force : Bool) (s : State) : State :=
  let x := s.part p
  let bs := s.liveBanks p
  let writes (s : State) (b : Nat) : Bool := x.storing && x.storeAny && (s.bank b).gaps.isEmpty
  let s := if s.stateMode p then s
    else each (fun b s => if writes s b then limitBlock p b start upto s else writeDue p b false s) bs s
  let s := writeStoreModes p s
  let s := each (fun b s =>
    if s.stateMode p then
      packState p b upto (force || s.fillEndIn p start upto) (s.fillEndIn p start upto) s
    else
      let s := packTiming p b start upto (writes s b) s
      if force || !writes s b || x.storeCut then flushRun p b false s else s) bs s
  let s := modPart p (fun x => { x with storeCut := false }) s
  if x.storing then
    let stored := if s.stateMode p then upto else start + s.instants p start upto * s.period p
    modPart p (fun x => { x with storedTo := max x.storedTo stored }) s
  else s

/-- The next block boundary after `t`. -/
def State.nextBlock (s : State) (p : Nat) (t : Label) : Label :=
  frameOf t + (t - frameOf t + s.blockLen p) / s.blockLen p * s.blockLen p

/-- Everything of a partition before `upto` is packed: whole blocks, then the part of one; the first argument bounds
them. -/
def packParts : Nat → Nat → Label → State → State
  | 0, _, _, s => s
  | k + 1, p, upto, s =>
    let a := (s.part p).blockAt
    if upto ≤ a then s
    else
      let b := min (s.nextBlock p a) upto
      let s := packBlock p a b (decide (b = upto) || decide (frameOf b = b)) s
      packParts k p upto (modPart p (fun x => { x with blockAt := b, storeAny := (s.seq p).store }) s)

/-- Everything of one bank before `upto` is packed, as far as the partition has not come. -/
def packBankTo : Nat → Nat → Nat → Label → Label → State → State
  | 0, _, _, _, _, s => s
  | k + 1, p, b, a, upto, s =>
    if upto ≤ a then s
    else
      let e := min (s.nextBlock p a) upto
      let write := (s.part p).storing && ((s.part p).storeAny || (s.seq p).store)
      packBankTo k p b e upto (packBank p b a e write s)

/-- Storing of a partition stops, or is stopped by a further cause, at `t` (R485). -/
def stopStoring (p reason detail : Nat) (t : Label) (s : State) : State :=
  let first := (s.part p).gaps.isEmpty
  let s := writeStoreModes p (each (fun b => flushRun p b false) (s.banksOf p) s)
  let s := if first && s.stateMode p then each (fun b => packState p b t true false) (s.banksOf p) s else s
  let s := each (fun b => modBank b fun x => { x with gaps := addPiece reason detail t x.gaps }) (s.ownGaps p) s
  let from_ := if first then (if (s.part p).begun.isSome then (s.part p).storedTo else t) else t
  let s := if first then each (fun b s =>
      if (s.bank b).gaps.isEmpty then modBank b (fun x => { x with lost := 0, stLost := none }) s else s) (s.banksOf p) s
    else s
  modPart p (fun x => { x with gaps := addPiece reason detail from_ x.gaps, storing := false }) s

/-- The pieces of a partition-wide interruption as those of one of its banks: in state mode every bank has its own last
state sample (R5, R277). -/
def State.pieces (s : State) (p b : Nat) : List Gap :=
  match (s.part p).gaps with
  | g :: r => (if s.stateMode p then { g with from_ := s.keptTo p b } else g) :: r
  | [] => []

/-- In state mode every bank has its own last and first state sample: a partition-wide interruption becomes one of each
bank (R5, R277). -/
def spreadGaps (p : Nat) (s : State) : State :=
  if s.stateMode p = false ∨ (s.part p).gaps = [] then s
  else
    let s := each (fun b s =>
      if (s.bank b).gaps.isEmpty then modBank b (fun x => { x with gaps := s.pieces p b }) s else s) (s.banksOf p) s
    modPart p (fun x => { x with gaps := [] }) s

/-- The pieces of a partition-wide interruption are written (R277): at resume `t`, or without RESUME. -/
def writeGaps (p : Nat) (resume : Option Label) (s : State) : State :=
  let s := spreadGaps p s
  let x := s.part p
  let banks := (s.banksOf p).filter fun b => (s.bank b).gaps.isEmpty
  let s := appendAll p (gapRecs s.q (bankMask banks) (s.blockLen p) resume s.now x.gaps) s
  modPart p (fun y => { y with gaps := [] }) s

/-- The last stored sample instant at or before `e`, as far as storing has come: the last one before a gap that holds
`e` (R224). -/
def State.lastStored (s : State) (p : Nat) (e : Label) : Option Label :=
  let x := s.part p
  let per := if s.stateMode p then 1 else s.period p
  match x.begun with
  | none => none
  | some b =>
    let top := min (e / per * per) (x.storedTo - per)
    let t := match x.pastGaps.find? fun g => decide (g.1 ≤ top) && decide (top < g.2) with
      | some g => g.1 - per
      | none => top
    if b ≤ t then some t else none

/-- Partitions whose armed interval has begun. -/
def State.begunParts (s : State) : List Nat := (List.range 8).filter fun p => (s.part p).begun.isSome

/-- Storing of a partition is to stop at the next block boundary for a cause (R301, R450, R453); while an interruption
lasts its next piece starts at that boundary (R485). -/
def stopAtBlock (p reason detail : Nat) (s : State) : State :=
  if (s.part p).gaps ≠ [] then stopStoring p reason detail (s.nextBlock p (s.now - 1)) s
  else modPart p (fun x =>
    if x.stopDue.any (fun d => d.1 == reason) then x else { x with stopDue := x.stopDue ++ [(reason, detail)] }) s

end Sys2Proof.Machine
end

