-- ==== Sys2Proof/Machine/Segments.lean ====
section
/-! DEFINITION. Machine/Segments.lean: segments and their life (R217 to R232), CONFIG_DIGEST (R262), the end of an armed
interval (R218), held pages, the limit and the overflow policies (R291, R295 to R297, R343). -/

namespace Sys2Proof.Machine

/-! ### CONFIG_DIGEST (R262) -/

/-- A word of the live mirror (R397): live values of staged fields, primary values of the others; XF_STATE is the flags
(R196). -/
def State.mirror (s : State) (r : Reg) : Word :=
  if r = .xfState then BitVec.ofNat 32 s.xfRead.toNat else
  let m := fieldMask (fun x => [Apply.frame, .segment, .second, .arm].contains x.apply) r.fields
  (s.rdLive r &&& m) ||| (s.rd r &&& ~~~m)

/-- A word as CONFIG_DIGEST takes it: bits outside RW and MR fields are 0. -/
def State.digestWord (s : State) (off : Nat) : Word :=
  match Reg.ofOff 0 off with
  | some r => s.mirror r &&& fieldMask (fun x => x.access == .rw || x.access == .mr) r.fields
  | none => 0

/-- Blocks that CONFIG_DIGEST runs over, as base and bytes, in ascending address order (R262). -/
def State.digestBlocks (s : State) (p : Nat) : List (Nat × Nat) :=
  let bs := s.banksOf p
  bs.map (fun b => (0x10000 + b * 0x2000, 0x2000)) ++
  bs.map (fun b => (0x20000 + b * 0x1000, 0x1000)) ++
  ((List.range 8).filter fun g => s.flagL (F.gpCfgAssigned g) && s.getL (F.gpCfgPartition g) == p).map
    (fun g => (0x28000 + g * 0x100, 0x100)) ++
  [(0x2C000, 0x80), (0x30000 + p * 0x2000, 0x2000), (0x40000 + p * 0x400, 0x400)] ++
  bs.map (fun b => (0x44000 + b * 0x20, 0x20))

/-- CONFIG_DIGEST over the values live now (R262). -/
def State.configDigest (s : State) (p : Nat) : DWord :=
  crc64 ((s.digestBlocks p).flatMap fun e =>
    (List.range (e.2 / 4)).flatMap fun k => leBytes 4 (s.digestWord (e.1 + 4 * k)).toNat)

/-! ### Stored samples -/

/-- Edge labels of a STATE_BLOCK record (R271). -/
def stateLabels (r : Rec) : List Label :=
  let stride := if bitsOf (r.words.headD 0).toNat 3 1 = 1 then 2 else 3
  let n := bitsOf (r.words.getD 1 0).toNat 48 8
  let offset (i : Nat) : Nat := bitsOf (r.words.getD (2 + i * stride) 0).toNat 0 24
  (List.range n).map fun i => r.first + offset i - offset 0

/-- State samples of a bank that are to be stored and are in no record yet: in an interruption of its own those from the
one it resumes with on. -/
def State.waitingSamples (s : State) (p b : Nat) : List StateSample :=
  let x := s.bank b
  let ahead := if (s.part p).gaps ≠ [] then []
    else if x.gaps = [] then x.stSamples
    else match x.stBack with
      | some t => x.stSamples.filter fun e => decide (t ≤ e.label)
      | none => []
  (x.stRun ++ ahead).filter StateSample.store

/-- Edge labels of the state samples of a partition that are in memory or about to be packed. -/
def State.stateInstants (s : State) (p : Nat) : List Label :=
  ((s.part p).recs.filter fun e => e.2.type == 0x05).flatMap (fun e => stateLabels e.2) ++
    (s.banksOf p).flatMap fun b => (s.waitingSamples p b).map StateSample.label

/-- The last stored sample at or before `e` (R224). -/
def State.lastSample (s : State) (p : Nat) (e : Label) : Option Label :=
  if s.stateMode p then ((s.stateInstants p).filter fun t => decide (t ≤ e)).max? else s.lastStored p e

/-- The first stored sample instant at or after `t`: on the sample grid, or the first state sample (R219). In continuous
mode an instant in an interruption is not stored, and the first sample after it counts (R226, R260). -/
def State.firstSample (s : State) (p : Nat) (t : Label) : Option Label :=
  if s.stateMode p then ((s.stateInstants p).filter fun x => decide (t ≤ x)).min?
  else if s.continuous p && !(s.part p).storing && decide ((s.part p).storedTo ≤ t) then none
  else
    let u := ceilTo (s.period p) t
    match (s.part p).pastGaps.find? fun g => s.continuous p && decide (g.1 ≤ u) && decide (u < g.2) with
    | some g => some g.2
    | none => some u

/-- The oldest sample of the stream still in memory (R292). -/
def Part.oldestSample (x : Part) : Label :=
  match ((x.recs.filter fun e => decide (x.base ≤ e.1) && e.2.bank.isSome).map fun e => e.2.first).min? with
  | some t => max t (x.begun.getD 0)
  | none => x.begun.getD 0

/-- Stream position, from `pos` on, of the first FRAME record of the frame that holds sample `t` (R259). -/
def Part.framePos (x : Part) (pos : Nat) (t : Label) : Option Nat :=
  let fs := x.recs.filter fun e => decide (pos ≤ e.1) && e.2.type == 0x02 && decide (e.2.first ≤ t)
    && decide (t < e.2.first + ticksPerFrame)
  match (fs.map fun e => e.2.first).max? with
  | some f => ((fs.filter fun e => decide (e.2.first = f)).map Prod.fst).min?
  | none => none

/-- A FRAME record in memory of the frame that holds sample `t`: it states the quality and the TIMELINE of that frame
(R260, R266). -/
def Part.frameOfSample (x : Part) (t : Label) : Option Rec :=
  (x.recs.find? fun e => decide (x.base ≤ e.1) && e.2.type == 0x02 && decide (e.2.first ≤ t)
    && decide (t < e.2.first + ticksPerFrame)).map Prod.snd

/-! ### The partition's segments -/

/-- The segment with a key. -/
def Part.seg? (x : Part) (key : Nat) : Option Seg := x.segs.find? fun g => g.key == key
/-- The partition with a segment changed. -/
def Part.modSeg (x : Part) (key : Nat) (g : Seg → Seg) : Part :=
  { x with segs := x.segs.map fun e => if e.key = key then g e else e }
/-- A partition's segment is changed. -/
def modSegment (p key : Nat) (g : Seg → Seg) (s : State) : State := modPart p (fun x => x.modSeg key g) s

/-- Larval segments, oldest first. -/
def Part.larvals (x : Part) : List Seg := x.segs.filter fun g => g.id.isNone
/-- Segments in POST, oldest first. -/
def Part.posts (x : Part) : List Seg := x.segs.filter fun g => g.id.isSome && !g.imago
/-- Placeholders in the list (R221). -/
def Part.phantoms (x : Part) : Nat := (x.entries.filter (· == .phantom)).length

/-- STATE of PART_STATUS (R217): the first condition of the table that applies. -/
def State.partState (s : State) (p : Nat) : Nat :=
  let x := s.part p
  if s.exists_ p = false then 0
  else if x.posts ≠ [] then 4
  else if x.larvals ≠ [] then 3
  else if x.rearm then 5
  else if x.armed then 2
  else 1

/-- Deliveries of a partition: function × 8 + pair (R27). -/
def Part.deliveries (x : Part) : List Nat := x.ownerPair.toList ++ x.subs
/-- The delivery bound to a pair. -/
def State.delivery (s : State) (id : Nat) : Option Delivery := (s.pair (id / 8) (id % 8)).delivery
/-- A delivery is changed. -/
def modDelivery (id : Nat) (g : Delivery → Delivery) (s : State) : State :=
  modPair (id / 8) (id % 8) (fun x => { x with delivery := x.delivery.map g }) s

/-- The last stored sample that F of a segment is taken from: at its commit the earlier segments' is kept (R219). -/
def Part.endBefore (x : Part) (g : Seg) : Option Label := if g.id.isSome then g.prevEnd else x.lastEnd
/-- The segment that `endBefore` is of. -/
def Part.keyBefore (x : Part) (g : Seg) : Option Nat := if g.id.isSome then g.prevKey else x.lastKey

/-- OPEN's request for the start of a segment (R219). -/
def State.asked (s : State) (p : Nat) (g : Seg) : Label := if s.continuous p then g.openT else g.openT - g.pretrig

/-- The value of an unset start bound: OPEN's request, the armed interval, the oldest sample, F (R219), where `e` is the
last stored sample that F is taken from. -/
def State.boundAfter (s : State) (p : Nat) (g : Seg) (e : Option Label) : Label :=
  let x := s.part p
  let f := match e with | some t => if s.continuous p then 0 else t + 32768 | none => 0
  max (max (s.asked p g) (x.begun.getD 0)) (max x.oldestSample f)

/-- The same with what is known of F. -/
def State.startBound (s : State) (p : Nat) (g : Seg) : Label := s.boundAfter p g ((s.part p).endBefore g)

/-- Whether the last stored sample of a segment is known: it is imago, or its fill end has passed in state mode. -/
def Seg.ended (g : Seg) : Bool := g.imago || g.endKnown

/-- Whether a segment's first stored sample may be fixed now (R220): it is committed, or it is the oldest larval
segment; in state mode the end that F is taken from must be known. -/
def State.fixable (s : State) (p : Nat) (g : Seg) : Bool :=
  let x := s.part p
  g.start.isNone && !g.empty && (g.id.isSome || x.larvals.all fun h => decide (g.key ≤ h.key))
    && (!s.stateMode p || ((x.keyBefore g).bind x.seg?).all Seg.ended)

/-- PART_DEAD_SUM and PART_DEAD_MAX take a dead time (R227). -/
def countDead (p dead : Nat) (s : State) : State :=
  if dead = 0xFFFFFFFFFFFF then s
  else raiseCtr (0x4005 + p * 0x20) dead (bump (0x4004 + p * 0x20) dead s)

/-- The end of a continuous-stream segment whose first stored sample is `t`: that of the CONT_FRAMES-th frame counted from
the frame that holds it (R226). -/
def State.contEnd (s : State) (p : Nat) (t : Label) : Label :=
  frameOf t + s.getL (F.partModeContFrames p) * ticksPerFrame - 1

/-- A continuous-stream segment has its first stored sample `t`: its end is counted from there (R226). -/
def setEnd (p key : Nat) (t : Label) (s : State) : State :=
  let e := s.contEnd p t
  modPart p (fun x => { x.modSeg key (fun h => { h with fillEnd := e }) with
    contE := some e,
    lastEnd := if x.lastKey = some key then some (e / s.period p * s.period p) else x.lastEnd }) s

/-- Words of the SEGMENT_HEADER are written anew: their parity is good. -/
def Seg.rewrite (ws : List Nat) (g : Seg) : Seg :=
  { g with headBad := g.headBad.filter fun i => !ws.contains i, headGone := g.headGone.filter fun i => !ws.contains i }

/-- The last stored sample of a segment is known: what was taken from its fill end E is corrected; a segment that
stored none gives way to the one before it (R219). -/
def Part.knownEnd (x : Part) (g : Seg) (last : Option Label) : Part :=
  let k := if last.isSome then some g.key else g.prevKey
  let e := if last.isSome then last else g.prevEnd
  { x with lastKey := if x.lastKey = some g.key then k else x.lastKey,
           lastEnd := if x.lastKey = some g.key then e else x.lastEnd,
           segs := x.segs.map fun h => if h.prevKey = some g.key then { h with prevKey := k, prevEnd := e } else h }

/-- The last stored sample of a committed segment at or before its E, as far as storing has come (R224). -/
def State.lastOf (s : State) (p : Nat) (g : Seg) : Option Label :=
  if g.empty then none else match s.lastSample p g.fillEnd with
    | some t => if g.start.getD 0 ≤ t then some t else none
    | none => none

/-- A committed segment turns out to hold no sample: its fill end precedes its first stored sample (R223, R261). -/
def emptySeg (p key : Nat) (s : State) : State :=
  match (s.part p).seg? key with
  | none => s
  | some g =>
    let s := modPart p (fun x => (x.knownEnd g none).modSeg key fun h => { (h.rewrite [2, 4, 5]) with
      empty := true, earlyTrig := true, endKnown := true, dead := 0xFFFFFFFFFFFF }) s
    if g.earlyTrig then s else setF (F.partEventsEarlyTrigger p) 1 s

/-- DEAD_TIME of a segment that starts at `t` (R227): 0 where a continuous stream leaves no sample unstored before it. -/
def State.deadTime (s : State) (p : Nat) (g : Seg) (t : Label) : Nat :=
  match (s.part p).endBefore g with
  | none => 0xFFFFFFFFFFFF
  | some e =>
    let next := if s.stateMode p then !(s.part p).pastGaps.any fun h => decide (h.1 ≤ t) && decide (e < h.2)
      else decide (t = e + s.period p)
    if s.continuous p && next then 0 else t - e

/-- Whether a segment that starts at `t` is short: the first sample instant, or state sample, at or after the request lies
before it (R219). -/
def State.preShort (s : State) (p : Nat) (g : Seg) (t : Label) : Bool :=
  match s.firstSample p (s.asked p g) with
  | some a => decide (a < t) || (s.stateMode p && decide (s.asked p g < (s.part p).stGone))
  | none => true

/-- A segment's first stored sample is fixed: the header's words 4 to 7 (R219, R220, R227, R261). -/
def fixStart (p : Nat) (g : Seg) (s : State) : State :=
  let bound := s.startBound p g
  let late (t : Label) : Bool := g.id.isSome && s.stateMode p && decide (g.fillEnd < t)
  if late bound then emptySeg p g.key s
  else match s.firstSample p bound with
  | none => s
  | some t =>
    if late t then emptySeg p g.key s
    else
      let x := s.part p
      let dead := s.deadTime p g t
      let pos := if s.continuous p ∧ g.openT < t then g.startPos else match x.framePos x.base t with
        | some q => q
        | none => if x.storedTo ≤ t then x.writePos else x.oldestPos
      let dig := s.configDigest p
      let tl := ((x.frameOfSample t).map fun r => bitsOf (r.words.getD 2 0).toNat 48 16).getD (s.getF F.timeStatusTimeline)
      let qu := ((x.frameOfSample t).map fun r => bitsOf (r.words.headD 0).toNat 8 4).getD (s.getF F.timeStatusQuality)
      let short := s.preShort p g t
      let early := g.earlyTrig || (g.id.isSome && g.trigs.head?.any fun e => decide (e.2.first < t))
      let s := modSegment p g.key (fun h => { (h.rewrite [3, 4, 5, 6, 7]) with
        start := some t, startW := t, startPos := pos, dead := dead, digest := dig, preShort := short, timeline := tl,
        quality := qu, earlyTrig := early }) s
      let s := if early && !g.earlyTrig then setF (F.partEventsEarlyTrigger p) 1 s else s
      let s := if s.continuous p then setEnd p g.key t s else s
      if g.id.isSome then countDead p dead s else s

/-- Every segment whose first stored sample may be fixed is fixed (R220). -/
def fixReady (p : Nat) (s : State) : State :=
  each (fun k s => match (s.part p).seg? k with
    | some g => if s.fixable p g then fixStart p g s else s
    | none => s) ((s.part p).segs.map Seg.key) s

/-- Where the time at which a staged value was accepted is kept, as 1 + elapsed time (R9). -/
def stagedKey (r : Reg) : Nat := 2 ^ 40 + r.key
/-- The staged fields of boundary `a` of a register apply at a frame, segment or second boundary: the value that staging
holds then, if it was accepted at least 1,280 ticks before, else at the following one (R9, R10). -/
def applyStaged (a : Apply) (r : Reg) (s : State) : State :=
  let at_ := spGet 0 (stagedKey r) s.stamps
  if at_ = 0 ∨ at_ + 1280 ≤ s.elapsed + 1 then applyReg a r s else s

/-- A segment opens at sample `o` (R219 to R221): it takes the PRETRIG and POSTTRIG live at its opening. -/
def openSeg (p : Nat) (o : Label) (entry : Bool) (s : State) : State :=
  let s := each (applyStaged .segment) [.partPretrigLo p, .partPretrigHi p, .partPosttrigLo p, .partPosttrigHi p] s
  let x := s.part p
  let w3 := headerWord3 (s.getF F.timeDevidDeviceId) (s.getF (F.partOwnerBanks p)) (s.continuous p) (s.stateMode p)
    (s.rate p) p x.nextCand
  let g : Seg := { key := x.nextKey, cand := x.nextCand, openT := o, word3 := w3, q := s.q,
                   pretrig := s.getL2 (F.partPretrigLoPretrig p) (F.partPretrigHiPretrig p),
                   posttrig := s.getL2 (F.partPosttrigLoPosttrig p) (F.partPosttrigHiPosttrig p) }
  let entries := if entry then x.entries ++ [.larval g.key] else x.entries
  setPart p { x with segs := x.segs ++ [g], nextKey := x.nextKey + 1, nextCand := (x.nextCand + 1) % 2 ^ 32, entries } s

/-- Whether a further segment may open (R221, R295): at most 4 larval, at most 8 larval or in POST; not at the limit
under HOLD_ARMED. -/
def State.mayOpen (s : State) (p : Nat) : Bool :=
  let x := s.part p
  decide (x.larvals.length < 4) && decide (x.larvals.length + x.posts.length < 8)
    && !(x.atLimit && s.getL (F.memPartPolicyOverflowPolicy p) == 2)

/-- OPEN at sample `o` (R221): a larval segment, or a placeholder where the limits refuse it. -/
def opOpen (p : Nat) (o : Label) (s : State) : State :=
  if s.continuous p then s
  else if s.mayOpen p then fixReady p (openSeg p o true s)
  else
    let s := bump (0x4002 + p * 0x20) 1 (setF (F.partEventsOpenRefused p) 1 s)
    let s := oncePerFrame (rateKey 0x1300 p) (postPart p 0x1300 p) s
    if (s.part p).phantoms < 65535 then modPart p (fun x => { x with entries := x.entries ++ [.phantom] }) s else s

/-! ### Completions of buffers that hold no data (R232, R295, R343) -/

/-- A progress record of a pair (R236): its address and bytes, with the SEQ that the pair holds. -/
def State.progressRec (s : State) (f n index bytes cand : Nat) (retracted : Bool) : Nat × List Byte :=
  ((s.rd (.rcProgLo f n)).toNat / 16 * 16 + (s.rd (.rcProgHi f n)).toNat * 2 ^ 32,
   leBytes 2 (s.pair f n).progSeq ++ leBytes 2 index ++ leBytes 4 bytes ++ leBytes 4 cand
     ++ leBytes 1 (bit retracted) ++ [0, 0, 0])
/-- SEQ is incremented for a progress record (R236). -/
def progNext (f n : Nat) (s : State) : State :=
  modPair f n (fun x => { x with progSeq := (x.progSeq + 1) % 2 ^ 16 }) s
/-- A progress record of a pair in provisional view is written (R235). -/
def progress (f n index bytes cand : Nat) (retracted : Bool) (s : State) : State :=
  if s.flag (F.rcCfgProvisional f n) && s.dmaOn f then
    let s := progNext f n s
    let r := s.progressRec f n index bytes cand retracted
    emit (.hostWrite f r.1 r.2 false) s
  else s

/-- The buffers a delivery has taken complete with ABANDONED, in ring order, and nothing is being delivered (R232).
`post` are the writes that follow the last of these completions. -/
def abandonThen (post : List (Nat × List Byte)) (id p segId epoch : Nat) (s : State) : State :=
  let f := id / 8
  let n := id % 8
  let bufs := (s.pair f n).taken
  let last := bufs.getLast?.map Buf.index
  let s := modPair f n (fun x => { x with taken := [], progBytes := 0 }) s
  let s := each (fun (b : Buf) s => finishBufThen (if some b.index = last then post else []) f n b.used segId b.index
      stAbandoned epoch
      (capFlags p (bufs.head?.map Buf.index == some b.index) false false false false) none s) bufs s
  modDelivery id (fun d => { d with now := none, words := 0, early := 0, larvalHead := false, poisonPosted := false, x07 := [] }) s

/-- The same with no writes to follow. -/
def abandonTaken (id p segId epoch : Nat) (s : State) : State := abandonThen [] id p segId epoch s

/-- The skipped segments of a delivery are reported by one SKIPPED completion (R343). -/
def writeSkip (id : Nat) (s : State) : State :=
  match s.delivery id with
  | some { skip := some (first, epoch, count), part := p, .. } =>
    finishBuf (id / 8) (id % 8) count first 0xFFFF stSkipped epoch (capFlags p false false false false false) none
      (modDelivery id (fun d => { d with skip := none }) s)
  | _ => s

/-- A delivery skips a committed segment: consecutive skipped segments of one EPOCH join one report (R343). -/
def skipSeg (id segId epoch : Nat) (s : State) : State :=
  match s.delivery id with
  | none => s
  | some d =>
    let s := match d.skip with
      | some (first, e, c) => if e = epoch ∧ (first + c) % 0xFFFFFFFF = segId then s else writeSkip id s
      | none => s
    let s := modDelivery id (fun d => { d with skip := match d.skip with
      | some (first, e, c) => some (first, e, c + 1)
      | none => some (segId, epoch, 1) }) s
    match (s.delivery id).bind Delivery.skip with
    | some (_, _, c) => if 65535 ≤ c then writeSkip id s else s
    | none => s

/-- A delivery gives up a segment of the partition: taken buffers complete with ABANDONED, and it no longer waits. -/
def dropFrom (id p key segId epoch : Nat) (s : State) : State :=
  let s := match s.delivery id with
    | some d => if d.now = some key then abandonTaken id p segId epoch s else s
    | none => s
  modDelivery id (fun d => { d with queue := d.queue.filter (· ≠ key) }) s

/-! ### Abandon and commit -/

/-- A delivery gives up what it has shipped early of the segment with `key` (R232, R233, R261): its buffers complete
with ABANDONED, a progress record follows (R235). -/
def dropEarly (p key cand : Nat) (retracted : Bool) (id : Nat) (s : State) : State :=
  match s.delivery id with
  | some d =>
    if d.now = some key then
      let f := id / 8
      let n := id % 8
      let index := ((s.pair f n).taken.getLast?.map Buf.index).getD 0
      let s := bump (0x4007 + p * 0x20) (8 * d.words) s
      let view := s.flag (F.rcCfgProvisional f n) && !(s.pair f n).taken.isEmpty
      let s := if view then progNext f n s else s
      let post := if view then [s.progressRec f n index 0 cand retracted] else []
      abandonThen post id p 0xFFFFFFFF (s.getF (F.partEpochEpoch p)) s
    else s
  | none => s

/-- A larval segment is abandoned (R225, R232). -/
def abandonSeg (p key : Nat) (s : State) : State :=
  let cand := ((s.part p).seg? key).map Seg.cand
  let s := modPart p (fun x => { x with segs := x.segs.filter fun g => decide (g.key ≠ key),
                                        entries := x.entries.filter fun e => e != .larval key }) s
  let s := bump (0x4001 + p * 0x20) 1 (setF (F.partEventsAbandoned p) 1 s)
  each (dropEarly p key (cand.getD 0) true) (s.part p).deliveries s

/-- ABANDON removes the newest entry of the list (R225). -/
def opAbandon (p : Nat) (s : State) : State :=
  if s.continuous p then s
  else match (s.part p).entries.getLast? with
    | none => s
    | some .phantom => modPart p (fun x => { x with entries := x.entries.dropLast }) s
    | some (.larval k) => fixReady p (abandonSeg p k s)

/-- Every larval segment is abandoned and the list is empty (R202, R218). -/
def abandonAll (p : Nat) (s : State) : State :=
  let s := each (fun g => abandonSeg p g.key) (s.part p).larvals.reverse s
  modPart p (fun x => { x with entries := [] }) s

/-- The delivery of a claimant to come: it holds what an orphaned partition commits (R240). -/
def claimant : Nat := 2048

/-- The segment with `key` commits at sample `t` with fill end `e`: SEGMENT_ID, EPOCH, POST, the deliveries that
receive it (R222, R223, R227, R237). -/
def commitSeg (p key : Nat) (t e : Label) (s : State) : State :=
  match (s.part p).seg? key with
  | none => s
  | some g =>
    let x := s.part p
    let first := match g.start with
      | some a => a
      | none => if s.stateMode p then s.startBound p g else ceilTo (s.period p) (s.startBound p g)
    let early := decide (t < first)
    -- state mode: while the fill that F depends on goes on, F lies at the last sample known or later
    let open_ := s.stateMode p && !((x.lastKey.bind x.seg?).all Seg.ended)
    let empty := early && decide (e < if open_ then s.boundAfter p g (s.lastSample p t) else first)
    let id := x.nextId
    let ds := x.deliveries.filter fun d => match s.delivery d with | some v => v.ending.isNone | none => false
    let lossless := (if s.orphan p then [claimant] else []) ++
      ds.filter fun d => match s.delivery d with | some v => !v.lossy | none => false
    let per := if s.stateMode p then 1 else s.period p
    let dead := if empty then 0xFFFFFFFFFFFF else g.dead
    let s := setPart p { (x.modSeg key fun h => { (h.rewrite [2]) with
        id := some id, epoch := s.getF (F.partEpochEpoch p), fillEnd := e, prevKey := x.lastKey,
        prevEnd := x.lastEnd, earlyTrig := early, empty := empty, ord := x.commits,
        dead := dead, needed := lossless.map fun d => (d, 0) }) with
      entries := x.entries.filter fun v => v != .larval key,
      nextId := (id + 1) % 0xFFFFFFFF, commits := x.commits + 1, contE := if s.continuous p then some e else x.contE,
      lastKey := if empty then x.lastKey else some key,
      lastEnd := if empty then x.lastEnd else some (e / per * per) } s
    let s := if (id + 1) % 0xFFFFFFFF = 0 then
        setF (F.partEpochEpoch p) (s.getF (F.partEpochEpoch p) + 1) s else s
    let s := if early then setF (F.partEventsEarlyTrigger p) 1 s else s
    let s := bump (0x4000 + p * 0x20) 1 s
    let s := if g.start.isSome ∧ empty = false then countDead p g.dead s else s
    let s := each (fun d => modDelivery d fun v => { v with queue := v.queue ++ [key] }) ds s
    -- EMPTY after early shipping: the buffers are abandoned and the segment is delivered afresh (R261); a larval segment
    -- shipped early gives way to one committed ahead of it (R233)
    let s := if empty then each (dropEarly p key g.cand false) ds s else s
    let s := each (fun h s => if h.key = key then s else each (dropEarly p h.key h.cand false) ds s) (s.part p).larvals s
    fixReady p s

/-- A TRIGGER record is placed in a committed segment at the present end of its records (R222, R259). -/
def placeTrigger (p key : Nat) (r : Rec) (s : State) : State :=
  modPart p (fun x => x.modSeg key fun g => { g with trigs := g.trigs ++ [(x.writePos, s.fenced p x.writePos r)] }) s

/-- A dropped TRIGGER (R223). -/
def dropTrigger (p : Nat) (s : State) : State :=
  let s := bump (0x4003 + p * 0x20) 1 (setF (F.partEventsTrigDropped p) 1 s)
  oncePerFrame (rateKey 0x1301 p) (postPart p 0x1301 p) s

/-- State mode: the fill ends that sample `t` has passed give the last stored samples of their segments (R223, R224). -/
def resolveEnds (p : Nat) (t : Label) (s : State) : State :=
  if s.stateMode p = false then s
  else each (fun k s =>
    let s := fixReady p s
    match (s.part p).seg? k with
    | some g =>
      if g.ended ∨ g.start.isNone = true ∨ t ≤ g.fillEnd then s
      else
        let e := s.lastOf p g
        fixReady p (modPart p (fun x => (x.knownEnd g e).modSeg k fun h => { h with endKnown := true }) s)
    | none => s) ((s.part p).posts.map Seg.key) s

/-- TRIGGER at sample `t` acts on the oldest entry (R222, R223, R226). -/
def opTrigger (p : Nat) (t : Label) (r : Rec) (s : State) : State :=
  let s := resolveEnds p t s
  let x := s.part p
  if s.continuous p then
    match x.posts.getLast? with
    | some g => placeTrigger p g.key r s
    | none => s
  else match x.entries with
    | .larval k :: _ =>
      match x.seg? k with
      | none => s
      | some g =>
        let first := g.start.getD (s.startBound p g)
        if s.flagL (F.partModeOverlapDrop p) ∧ t < first then dropTrigger p s
        else
          let s := modPart p (fun x => { x with entries := x.entries.drop 1 }) s
          placeTrigger p k r (commitSeg p k t (t + g.posttrig) s)
    | _ =>
      let f := match x.lastEnd with | some e => e + 32768 | none => 0
      if s.mayOpen p = false ∨ (s.flagL (F.partModeOverlapDrop p) = true ∧ t < f) then dropTrigger p s
      else
        let s := modPart p (fun x => { x with entries := x.entries.drop 1 }) s
        let k := (s.part p).nextKey
        let s := openSeg p t false s
        let e := t + (((s.part p).seg? k).map Seg.posttrig).getD 0
        placeTrigger p k r (commitSeg p k t e s)

/-! ### What a segment consists of (R259) -/

/-- Position of the first record of a segment: the FRAME record of the frame that holds its first stored sample. A
continuous-stream segment that opened in a gap holds the records of the gap, too (R224, R226). -/
def Part.segFrom (x : Part) (g : Seg) : Nat :=
  match g.start with
  | none => g.startPos
  | some t => if g.word3.getLsbD 39 ∧ g.openT < t then g.startPos else (x.framePos g.startPos t).getD g.startPos
/-- End position of a segment's records so far. -/
def Part.segTo (x : Part) (g : Seg) : Nat := if g.imago then g.endPos else x.writePos

/-- TRIGGER records take their place among the stream's records by position. -/
def mergeAt (ts : List (Nat × Rec)) : List (Nat × Rec) → List (Nat × Rec)
  | [] => ts
  | e :: r =>
    (ts.takeWhile fun t => decide (t.1 ≤ e.1)) ++ e :: mergeAt (ts.dropWhile fun t => decide (t.1 ≤ e.1)) r

/-- The records of a segment between its SEGMENT_HEADER and its PAD and TRAILER, with their stream positions. -/
def Part.segBody (x : Part) (g : Seg) : List (Nat × Rec) :=
  if g.empty then g.trigs
  else mergeAt g.trigs
    (x.recs.filter fun e => decide (x.segFrom g ≤ e.1) && decide (e.1 < x.segTo g))

/-- SEGMENT_LENGTH of a segment with its tail (R260). -/
def segBytes (body tail : List Rec) : Nat := 8 * (8 + (body.map Rec.length).sum + (tail.map Rec.length).sum)

/-- The records of a segment in the order of R259, as in capture memory, each with its place in the stream. The
SEGMENT_HEADER, the PAD and the TRAILER have none: they are taken to lie on the stripes of the place at which the
segment's records begin and end (DESIGN CHOICE, entry 90). -/
def Part.segPlaced (x : Part) (g : Seg) : List (Nat × Rec) :=
  let body := x.segBody g
  (x.segFrom g, headerRec g (if g.imago then some (segBytes (body.map Prod.snd) g.tail) else none))
    :: body ++ g.tail.map fun r => (x.segTo g, r)
/-- The records alone. -/
def Part.segRecs (x : Part) (g : Seg) : List Rec := (x.segPlaced g).map Prod.snd

/-- The bytes the TRAILER's CRC runs over (R264). -/
def crcBytes (header : Rec) (body tail : List Rec) : List Byte :=
  let h := crcWords header
  dwordBytes (h.take 1 ++ h.drop 2 ++ (body ++ tail.dropLast).flatMap crcWords
    ++ ((tail.getLast?.map crcWords).getD []).dropLast)

/-! ### Imago (R224, R263) -/

/-- End position of a segment's records from position `start` on whose last stored sample is `last`: the last record that
begins at or before it, a GAP only if it also ends there (R259). -/
def Part.endAt (x : Part) (start : Nat) (last : Option Label) : Nat :=
  match last with
  | none => start
  | some t => (((x.recs.filter fun e => decide (start ≤ e.1)
      && decide ((if e.2.type = 0x07 then e.2.last else e.2.first) ≤ t)).map
      fun e => e.1 + e.2.bytes).max?).getD start

/-- The records of a segment that are final: all of a larval or an imago one; of one in POST the header and those up to
the last sample at or before E that is stored now. -/
def State.finalPlaced (s : State) (p : Nat) (g : Seg) : List (Nat × Rec) :=
  let x := s.part p
  if g.imago || g.id.isNone then x.segPlaced g
  else if g.start.isNone && !g.empty then []
  else
    let top := x.endAt (x.segFrom g) (s.lastOf p g)
    { x with writePos := top }.segPlaced
      { g with trigs := g.trigs.filter fun e => g.empty || decide (e.1 ≤ top) }
/-- The records alone. -/
def State.finalRecs (s : State) (p : Nat) (g : Seg) : List Rec := (s.finalPlaced p g).map Prod.snd

/-- Pairs removed by R116 in a segment's span (R259, R263): those whose first crossing lies in a block from the start of
the frame that holds the first stored sample to the end of the block that holds the last one. -/
def State.mergedIn (s : State) (p : Nat) (g : Seg) (last : Option Label) : Nat :=
  match g.start, last with
  | some a, some e =>
    let len := s.blockLen p
    let top := if s.stateMode p then e else frameOf e + ((e - frameOf e) / len + 1) * len - s.period p
    let low := if s.stateMode p then frameOf a else frameOf a + 1 - s.period p
    ((s.part p).pairs.filter fun t => decide (low ≤ t) && decide (t ≤ top)).length
  | _, _ => 0

/-- A segment in POST becomes imago: its last stored sample, PAD, TRAILER with CRC, LAST_SEG_ID, COMMITTED (R224). -/
def makeImago (p key cause : Nat) (truncated : Bool) (s : State) : State :=
  match (s.part p).seg? key with
  | none => s
  | some g =>
    let x := s.part p
    let last := s.lastOf p g
    let start := x.segFrom g
    let endPos := x.endAt start last
    let g := { (g.rewrite [1]) with
      imago := true, last := last, truncated := truncated, startPos := start, endPos := endPos }
    let body := (x.segBody g).map Prod.snd
    let bare := 8 + (body.map Rec.length).sum + 13
    let n := (8 - bare % 8) % 8
    let pad := if n = 0 then [] else [padRec s.q (last.getD g.openT) n]
    let cs := g.cnts.getD ((List.range 4).map fun k => spGet 0 k (s.seq p).cnts)
    let t := trailerRec s.q g ((body.filter fun r => r.type == 0x07).length) cause
      ((body.map fun r => r.bad.length).sum + g.headBad.length)
      (body.length + pad.length + 2) ((body.map Rec.lim).sum) (s.mergedIn p g last) cs
    let tail := pad ++ [t]
    let crc := crc32c (crcBytes (headerRec g none) body tail)
    let tail := pad ++ [{ t with words := t.words.dropLast ++ [dw crc.toNat] }]
    let x := if g.empty then x else x.knownEnd g last
    let s := setPart p ({ x with rearm := x.armed }.modSeg key fun _ =>
      { g with tail := tail, len := 8 + ((body ++ tail).map Rec.length).sum }) s
    let s := setF (F.partSegIdLastSegId p) (g.id.getD 0xFFFFFFFF) (setF (F.partEventsCommitted p) 1 s)
    fixReady p s

/-! ### The end of an armed interval (R218) -/

/-- Edges removed after a bank's last state sample leave a GAP record without RESUME when the armed interval ends (R120,
R277). -/
def closeLost (p b : Nat) (s : State) : State :=
  match (s.bank b).stLost with
  | some n =>
    if (s.bank b).gaps ≠ [] ∨ (s.part p).gaps ≠ [] then s
    else modBank b (fun x => { x with stLost := none }) (append p (gapRec s.q (2 ^ b) 2 (s.keptTo p b) none n) s)
  | none => s

/-- An armed interval ends: samples before `upto` are kept, an interruption is closed without RESUME, larval segments
are abandoned, segments in POST end TRUNCATED with END_CAUSE `cause`, the sequencer stops (R203, R218, R343). -/
def endArmed (p cause : Nat) (upto : Label) (s : State) : State :=
  let x := s.part p
  let s := if x.begun.isSome then packParts ((upto - x.blockAt) / s.blockLen p + 2) p upto s else s
  let s := each (fun b s => if s.stateMode p then packState p b upto true false s else flushRun p b false s)
    (s.liveBanks p) (writeStoreModes p s)
  let s := if s.stateMode p then each (fun b => closeLost p b) (s.liveBanks p) s else s
  let s := if (s.part p).gaps.isEmpty then s else writeGaps p none s
  let s := each (fun b => writeBankGaps p b none) (s.ownGaps p) s
  let s := abandonAll p s
  let s := each (fun g => makeImago p g.key cause true) (s.part p).posts s
  let s := modPart p (fun x => { x with armed := false, begun := none, storing := false, rearm := false,
                                        stopDue := [] }) s
  -- a FORCE_TRIGGER whose trigger was not placed ends as in IDLE (R218)
  let s := each (fun c => finish c 0x08 stInvalidField 0 0) (s.seq p).force s
  let s := setF (F.seqStatusRunning p) 0
    (clearSeq p false (modSeq p (fun q => { q with running := false, force := [], inbox := [] }) s))
  each writeSkip (s.part p).deliveries s

/-! ### Held pages, the limit and the overflow policies (R291, R295 to R297) -/

/-- Stream positions a segment keeps in memory: a larval or POST segment from its earliest possible start on, an imago
one from the first record that a lossless delivery has yet to consume (R291, R337). -/
def State.holdSpan (s : State) (p : Nat) (g : Seg) : Option (Nat × Nat) :=
  let x := s.part p
  if g.imago then
    match (g.needed.map Prod.snd).min? with
    | none => none
    | some done =>
      let from_ := (x.segBody g).foldl (fun (acc : Nat × Option Nat) e =>
        let w := acc.1 + e.2.length
        (w, if acc.2.isSome then acc.2 else if done < w then some e.1 else none)) (8, none)
      match from_.2 with
      | some q => some (q, g.endPos)
      | none => none
  else if g.start.isSome then some (x.segFrom g, x.writePos)
  else
    some ((x.framePos x.base (s.startBound p g)).getD x.writePos, x.writePos)

/-- Whether a page holds data of a stretch of the stream. -/
def pageIn (n : Nat) (span : Nat × Nat) : Bool :=
  decide (n * pageBytes < span.2) && decide (span.1 < (n + 1) * pageBytes)

/-- Stretches and pins that must stay in memory. -/
def State.spans (s : State) (p : Nat) : List (Nat × Nat) := (s.part p).segs.filterMap (s.holdSpan p)
/-- Whether a page must be held (R291). -/
def State.pageNeeded (s : State) (p n : Nat) : Bool :=
  (s.spans p).any (pageIn n) || (s.part p).pins.any (fun l => l.contains n)

/-- The partition meets its limit (R295). -/
def atLimit (p : Nat) (s : State) : State :=
  if (s.part p).atLimit then s
  else
    let s := modPart p (fun x => { x with atLimit := true }) s
    let s := bump (0x400A + p * 0x20) 1 (setF F.memEventsOverflow 1 s)
    postPart p 0x1504 (p + s.getL (F.memPartPolicyOverflowPolicy p) * 2 ^ 16) s

/-- A committed segment is released by OVERWRITE_OLDEST (R295). -/
def releaseSeg (p : Nat) (g : Seg) (s : State) : State :=
  let s := bump (0x400B + p * 0x20) 1 s
  let s := each (fun id s => match s.delivery id with
    | some d =>
      if d.now = some g.key ∨ d.queue.contains g.key then
        let s := dropFrom id p g.key (g.id.getD 0xFFFFFFFF) g.epoch s
        let s := skipSeg id (g.id.getD 0xFFFFFFFF) g.epoch s
        if d.lossy then s else writeSkip id s
      else s
    | none => s) (s.part p).deliveries s
  modPart p (fun x => { x with segs := x.segs.filter fun h => decide (h.key ≠ g.key) }) s

/-- Pages that need not be held are released (R291). -/
def releasePages (p : Nat) (s : State) : State :=
  each (fun n s => if s.pageNeeded p n then s else releasePage p n s) (s.part p).held s

/-- Storing is to stop at the next block boundary for want of pages (R295). -/
def stopForPages (p : Nat) (s : State) : State :=
  modPart p (fun x =>
    if x.stopDue.any (fun d => d.1 == 2) || x.gaps.any (fun g => g.reason == 2) then x
    else { x with stopDue := x.stopDue ++ [(2, 0)] }) s

/-- STOP at the last stored sample (R218, R295). -/
def overflowStop (p : Nat) (s : State) : State :=
  let s := each (fun b => flushRun p b false) (s.banksOf p) s
  let s := stopStoring p 2 0 (s.part p).storedTo s
  let s := endArmed p 3 (s.part p).blockAt s
  let s := setF (F.partStatusStopped p) 1 (setF (F.partEventsStopped p) 1 s)
  postPart p 0x1307 p s

/-- Whether a READ_BACK pins a page of a segment. -/
def Part.pinned (x : Part) (g : Seg) : Bool :=
  x.pins.any fun l => l.any fun n => decide (pageOf g.startPos ≤ n) && decide (n ≤ pageOf (g.endPos - 1))

/-- What the overflow policy frees at the limit, once (R295); none where only segments in POST and pins hold pages. A
segment whose page a READ_BACK pins is released when the pin is, and the next one comes (R307). -/
def limitStep (p : Nat) (s : State) : Option State :=
  let x := s.part p
  match s.getL (F.memPartPolicyOverflowPolicy p) with
  | 0 => if x.armed then some (releasePages p (overflowStop p s)) else none
  | 1 =>
    match x.larvals.head? with
    | some g => some (releasePages p (fixReady p (abandonSeg p g.key s)))
    | none =>
      match x.segs.find? (fun g => g.imago && !g.needed.isEmpty && !x.releases.contains g.key) with
      | some g =>
        if x.pinned g then some (modPart p (fun y => { y with releases := y.releases ++ [g.key] }) s)
        else some (releasePages p (releaseSeg p g s))
      | none => none
  | _ =>
    match x.larvals.getLast? with
    | some g => some (releasePages p (fixReady p (abandonSeg p g.key s)))
    | none => none

/-- The partition meets its limit, and the policy acts until `enough` holds or it can free no more (R295). The second
argument bounds the steps. -/
def limitActs (enough : State → Bool) : Nat → Nat → State → State
  | 0, _, s => s
  | k + 1, p, s =>
    if enough s then s
    else
      let s := atLimit p s
      match limitStep p s with
      | some t => limitActs enough k p t
      | none => if (s.part p).armed then stopForPages p s else s

/-- Steps that the policy may take. -/
def State.limitSteps (s : State) (p : Nat) : Nat := 2 * (s.part p).segs.length + 2

/-- Every page that must be held is held. At the limit the overflow policy acts until the page can be held (R295).
The first argument bounds the number of steps. -/
def holdPages : Nat → Nat → State → State
  | 0, _, s => s
  | k + 1, p, s =>
    match (s.part p).unheld.find? fun n => s.pageNeeded p n with
    | none => s
    | some n =>
      if s.canHold p ∨ (s.part p).armed = false then holdPages k p (holdPage p n s)
      else
        let s := atLimit p s
        match limitStep p s with
        | some t => holdPages k p t
        | none => holdPages k p (holdPage p n (stopForPages p s))

/-- Segments whose release by OVERWRITE_OLDEST waited for a pin are released (R307). -/
def releaseLate (p : Nat) (s : State) : State :=
  each (fun k s => match (s.part p).seg? k with
    | some g =>
      if (s.part p).pinned g then s
      else
        let s := modPart p (fun x => { x with releases := x.releases.filter (· ≠ k) }) s
        if g.needed.isEmpty then s else releaseSeg p g s
    | none => modPart p (fun x => { x with releases := x.releases.filter (· ≠ k) }) s) (s.part p).releases s

/-- Held pages with committed data that a lossless delivery has yet to consume (R297). -/
def State.undelivPages (s : State) (p : Nat) : Nat :=
  let spans := ((s.part p).segs.filter fun g => g.id.isSome && !g.needed.isEmpty).filterMap (s.holdSpan p)
  ((s.part p).held.filter fun n => spans.any (pageIn n)).length

/-- UNDELIV_PAGES is counted again; its watermark (R297). -/
def countUndeliv (p : Nat) (s : State) : State :=
  let n := s.undelivPages p
  let old := (s.part p).undeliv
  let s := modPart p (fun x => { x with undeliv := n }) s
  if crosses (s.getF (F.memPartPolicyUndelivWm p)) old n then
    postPart p 0x1506 (p + n * 2 ^ 16) (setF F.memEventsUndelivWm 1 s)
  else s

/-- AT_LIMIT clears once the ring has grown to RING_MIN + 16 pages (R296). -/
def clearLimit (p : Nat) (s : State) : State :=
  if (s.part p).atLimit ∧ s.ringMin p + 16 ≤ (s.part p).ringNow then
    postPart p 0x1505 p (modPart p (fun x => { x with atLimit := false }) s)
  else s

/-- Whether every page of a segment's records is in memory. -/
def Part.whole (x : Part) (g : Seg) : Bool :=
  g.empty || (List.range (pageOf (g.endPos - 1) + 1 - pageOf g.startPos)).all fun k =>
    x.unheld.contains (pageOf g.startPos + k) || x.held.contains (pageOf g.startPos + k)

/-- Whether a lossy delivery can still receive the rest of the segment that it delivers: all that has left memory it has
read (R343). -/
def State.canGoOn (s : State) (p : Nat) (g : Seg) (d : Delivery) : Bool :=
  let lost := g.len - (((s.part p).segRecs g).map Rec.length).sum
  d.now == some g.key && (lost == 0 || decide (lost + 8 ≤ d.words + d.x07.length))

/-- Imago segments that no lossless delivery needs and whose records have begun to leave memory: a lossy delivery that
still wants what has left skips the segment, and the device forgets it once nothing delivers it (R237, R343). -/
def forgetSegs (p : Nat) (s : State) : State :=
  each (fun (g : Seg) s =>
    if g.imago ∧ g.needed = [] ∧ (s.part p).whole g = false then
      let on (id : Nat) : Bool := match s.delivery id with
        | some d => s.canGoOn p g d
        | none => false
      let ds := (s.part p).deliveries
      let s := each (fun id s => match s.delivery id with
        | some d =>
          if (d.now = some g.key ∨ d.queue.contains g.key) ∧ on id = false then
            skipSeg id (g.id.getD 0xFFFFFFFF) g.epoch (dropFrom id p g.key (g.id.getD 0xFFFFFFFF) g.epoch s)
          else s
        | none => s) ds s
      if ds.any on then s
      else modPart p (fun x => { x with segs := x.segs.filter fun h => decide (h.key ≠ g.key) }) s
    else s) (s.part p).segs s

/-- A binding ends: the pair holds no delivery, its segments no longer wait for it (R237, R342). -/
def unbind (id : Nat) (s : State) : State :=
  match s.delivery id with
  | none => s
  | some d =>
    let p := d.part
    let s := modPair (id / 8) (id % 8) (fun x => { x with delivery := none }) s
    modPart p (fun x => { x with subs := x.subs.filter (· ≠ id),
                                 ownerPair := if x.ownerPair = some id then none else x.ownerPair,
                                 segs := x.segs.map fun g => { g with needed := g.needed.filter fun e => e.1 != id } }) s

/-- A subscription that its UNSUBSCRIBE has ended is gone, and the command completes, once every completion of its pair is
written (R342). -/
def endDone (id : Nat) (s : State) : State :=
  match s.delivery id with
  | some { ending := some c, now := none, .. } =>
    if (s.pair (id / 8) (id % 8)).heldCpl = [] then finish c 0x0A stOk 0 0 (unbind id s) else s
  | _ => s

/-- A partition's pages follow its segments: pages no longer needed are released, pages needed are held, the limit and
the watermark are looked at (R291, R295 to R297); subscriptions that have ended go (R342). -/
def settle (p : Nat) (s : State) : State :=
  let s := releasePages p (releaseLate p s)
  let s := holdPages (2 * ((s.part p).unheld.length + (s.part p).segs.length) + 4) p s
  each endDone (s.part p).subs (forgetSegs p (clearLimit p (countUndeliv p s)))

/-- Every partition settles. -/
def settleAll (s : State) : State := each settle (List.range 8) s

end Sys2Proof.Machine
end

