-- ==== Sys2Proof/Machine/Errors.lean ====
section
/-! DEFINITION. Machine/Errors.lean: errors of the capture memory and of the queues that carry its words, and the first
steps of a retirement (R30, R250, R252, R298 to R302). -/

namespace Sys2Proof.Machine

/-! ### Stored records -/

/-- Every record that a segment holds beside the stream's is changed, each with its place: SEGMENT_HEADER, TRIGGER, PAD
and TRAILER. -/
def Seg.mapRecs (h : Nat → Rec → Rec) (x : Part) (g : Seg) : Seg :=
  let head := h (x.segFrom g) (headerRec g none)
  { g with headBad := head.bad, headGone := head.gone, trigs := g.trigs.map fun e => (e.1, h e.1 e.2),
           tail := g.tail.map (h (x.segTo g)) }

/-- Every read-back in progress is changed. -/
def mapReadBacks (h : ReadBack → ReadBack) (s : State) : State :=
  { s with fns := s.fns.map fun e => (e.1, { e.2 with pairs := e.2.pairs.map fun q =>
    (q.1, { q.2 with readBacks := q.2.readBacks.map h }) }) }

/-- The stored records of a partition's stream are changed, each with its place, where a read-back delivers them, too. -/
def mapStored (p : Nat) (h : Nat → Rec → Rec) (s : State) : State :=
  mapReadBacks (fun r => if r.part = p then { r with recs := r.recs.map fun e => (e.1, h e.1 e.2) } else r)
    (modPart p (fun x => { x with recs := x.recs.map fun e => (e.1, h e.1 e.2) }) s)

/-- A record's words that lie in bytes `lo` to `hi − 1` of the stream. -/
def wordsIn (pos lo hi : Nat) (r : Rec) : List Nat :=
  (List.range r.length).filter fun i => decide (lo ≤ pos + 8 * i) && decide (pos + 8 * i < hi)

/-- The record that holds word `w` of a row of records: its number, and the word's in it. -/
def findWord : Nat → List Rec → Option (Nat × Nat)
  | _, [] => none
  | w, r :: rest =>
    if w < r.length then some (0, w) else (findWord (w - r.length) rest).map fun e => (e.1 + 1, e.2)

/-- Word `w` of a row of records is poisoned. -/
def poisonRow : Nat → List (Nat × Rec) → List (Nat × Rec)
  | _, [] => []
  | w, e :: rest =>
    if w < e.2.length then (e.1, e.2.poison [w]) :: rest else e :: poisonRow (w - e.2.length) rest

/-- How many records of some types stand before number `k` of a row. -/
def countBefore (c : Nat → Bool) (k : Nat) (es : List (Nat × Rec)) : Nat := ((es.take k).filter fun e => c e.2.type).length

/-- Word `w` of the records `es`, those of the segment with `key` if one, fails parity in memory from now on (R250,
R299). -/
def poisonWord (p : Nat) (key : Option Nat) (es : List (Nat × Rec)) (w : Nat) (s : State) : State :=
  match findWord w (es.map Prod.snd) with
  | none => s
  | some (k, i) =>
    let e := es.getD k (0, { bank := none, first := 0, last := 0, words := [] })
    let own (h : Seg → Seg) (s : State) : State := match key with
      | some q => modSegment p q h s
      | none => s
    let s := match e.2.type with
      | 0x01 => own (fun g => { g with headBad := g.headBad.filter (· ≠ i) ++ [i] }) s
      | 0x0A =>
        let m := countBefore (· == 0x0A) k es
        own (fun g => { g with trigs := g.trigs.mapIdx fun n t => if n = m then (t.1, t.2.poison [i]) else t }) s
      | 0x0E | 0x0F =>
        let m := countBefore (fun c => c == 0x0E || c == 0x0F) k es
        own (fun g => { g with tail := g.tail.mapIdx fun n t => if n = m then t.poison [i] else t }) s
      | _ => mapStored p (fun pos r => if pos = e.1 then r.poison [i] else r) s
    mapReadBacks (fun r => if r.part = p ∧ r.key.isSome ∧ r.key = key then { r with recs := poisonRow w r.recs } else r) s

/-! ### Retirement begins (R300 to R302) -/

/-- Whether a pseudo-channel is retired. -/
def State.pcRetired (s : State) (n : Nat) : Bool :=
  (s.getF F.memRetiredLoRetiredLo + s.getF F.memRetiredHiRetiredHi * 2 ^ 32).testBit n

/-- Data in the stripes on `n` is lost, also where a read-back is to deliver it (R301, R302). -/
def loseStripes (n : Nat) (s : State) : State :=
  each (fun p s =>
    if s.inStaging p then s
    else
      let h (pos : Nat) (r : Rec) : Rec := r.lose (s.onChannel p n pos r)
      let s := modPart p (fun x => { x with segs := x.segs.map (Seg.mapRecs h x) }) s
      mapStored p h s) (List.range 8) s

/-- Steps 1 to 3 of R301 for pseudo-channel `n`: the fence, storing stops at the next block boundary of each armed
partition, MEM_PC_RETIRING, FAULT#. `cause` is as in the fault log. -/
def retire (n cause : Nat) (s : State) : State :=
  if s.flag F.memStatusTrained = false ∨ s.pcRetired n = true ∨ (s.mgmt.retiring.any fun e => e.1 == n) = true then s
  else
    let s := setF F.memStatusRetiring 1 { s with mgmt := { s.mgmt with retiring := s.mgmt.retiring ++ [(n, cause)] } }
    let s := loseStripes n s
    let s := each (fun p => stopAtBlock p 3 n) s.begunParts s
    let owners := (List.range 8).filterMap s.owner
    let s := postAll (s.pfs ++ owners).eraseDups 0x1500 n s
    setCause 0 (logFault 0x07 n cause s)

/-! ### Errors (R30, R298, R299) -/

/-- The ECC corrects an error of pseudo-channel `n` (R298). -/
def corrected (n : Nat) (s : State) : State := logFault 0x04 n 0 (bump (0x5000 + n) 1 s)

/-- Uncorrectable words of pseudo-channel `n` within the last second (R300). -/
def State.ueCount (s : State) (n : Nat) : Nat :=
  (s.mgmt.ueTimes.filter fun e => e.1 == n && decide (s.elapsed < e.2 + ticksPerSecond)).length

/-- The ECC of pseudo-channel `n` meets a word it cannot correct (R299), `reserved` in a reserved region, where it is
restored from its mirror copy; RETIRE_UE of them within one second retire the pseudo-channel (R300). -/
def uncorrectable (n : Nat) (reserved : Bool) (s : State) : State :=
  let s := logFault 0x05 n (bit reserved) (bump (0x5040 + n) 1 s)
  let s := limited (0x1502 * 256 + n) ticksPerSecond (event F.memEventsUe 0x1502 n) s
  let ts := (s.mgmt.ueTimes.filter fun e => decide (s.elapsed < e.2 + ticksPerSecond)) ++ [(n, s.elapsed)]
  let s : State := { s with mgmt := { s.mgmt with ueTimes := ts } }
  if s.getF F.memCtrlRetireUe ≤ s.ueCount n then retire n 0 s else s

/-- Crossings whose words are stored, so that a word that fails parity there keeps failing (R250): the sample queues,
X04, X05 and staging SRAM. -/
def storedCrossing (c : CrossingId) : Bool := [1, 2, 3, 4, 5, 23].contains c.val
/-- Crossings that carry a delivered word after it has been read: X06, X07 and X09. -/
def readCrossing (c : CrossingId) : Bool := [6, 7, 9].contains c.val

/-- Words fail parity at crossings (R30, R492). -/
def logParity (es : List (CrossingId × Nat)) (s : State) : State :=
  each (fun (e : CrossingId × Nat) s => if e.1.val = 0 then s else logFault 0x06 e.1.val 0 s) es s

/-- Words that a command has written to a partition's stream since position `from_` fail parity on their way into memory
(R30, R250): they are counted from there. -/
def failWrites (p from_ : Nat) (es : List (CrossingId × Nat)) (s : State) : State :=
  let hit := (es.filter fun e => storedCrossing e.1).map fun e => from_ + 8 * e.2
  logParity es (mapStored p (fun pos r => r.poison ((List.range r.length).filter fun i => hit.contains (pos + 8 * i))) s)

/-- What the reads of a command meet in memory (R298, R299, R250): the words are counted from number `skip` of the
records `es` on, `count` of them are read. -/
def meetErrors (p : Nat) (key : Option Nat) (es : List (Nat × Rec)) (skip count : Nat) (e : ReadErrors) (s : State) :
    State :=
  let hbm := !s.inStaging p
  let s := if hbm then each (fun (n : PcId) => corrected n) e.ce s else s
  let s := if hbm then each (fun (u : PcId × Nat) s =>
      if u.2 < count then uncorrectable u.1 false (poisonWord p key es (skip + u.2) s) else s) e.ue s else s
  each (fun (u : CrossingId × Nat) s =>
      if u.2 < count ∧ storedCrossing u.1 = true then poisonWord p key es (skip + u.2) s else s) e.parity
    (logParity (e.parity.filter fun u => decide (u.2 < count)) s)

/-! ### Reading whole records (R252) -/

/-- Of a row of records whose first `skip` words have been read: the whole records that bring at least `need` further
words. -/
def recsToRead : Nat → Nat → List (Nat × Rec) → List (Nat × Rec)
  | _, _, [] => []
  | skip, need, e :: rest =>
    if e.2.length ≤ skip then recsToRead (skip - e.2.length) need rest
    else if need = 0 then []
    else e :: recsToRead 0 (need - e.2.length) rest

/-- Words in a row of records. -/
def rowWords (es : List (Nat × Rec)) : Nat := (es.map fun e => e.2.length).sum

end Sys2Proof.Machine
end

