-- ==== Sys2Proof/Machine/Delivery.lean ====
section
/-! DEFINITION. Machine/Delivery.lean: deliveries: records into the buffers of capture pairs, early shipping, the
rewrites and completions at the end of a segment, read-backs, the end of bindings and partitions; and the commands of
the segment family (R217 to R240, R304, R305, R335 to R344). -/

namespace Sys2Proof.Machine

/-! ### Buffers (R335) -/

/-- A word to deliver and whether it fails parity (R251). -/
abbrev Out64 := DWord × Bool

/-- The words of a record as delivered, each with its parity. -/
def recWords (larval : Bool) (r : Rec) : List Out64 :=
  (delivered larval r).zipIdx.map fun e => (e.1, r.bad.contains e.2)

/-- Words are written into the buffer in use of a pair, then into the next one, as far as buffers are posted (R335);
the first argument bounds the number of buffers. Answers the words left over. -/
def fillBuffers : Nat → Nat → Nat → List Out64 → State → List Out64 × State
  | 0, _, _, ws, s => (ws, s)
  | k + 1, f, n, ws, s =>
    if ws.isEmpty then (ws, s)
    else
      let x := s.pair f n
      match x.taken.find? fun b => decide (b.used + 8 ≤ b.size) with
      | some b =>
        let m := (b.size - b.used) / 8
        let now := ws.take m
        let bad := now.any Prod.snd
        let s := emit (.hostWrite f (b.addr + b.used) (dwordBytes (now.map Prod.fst)) bad) s
        let upd (c : Buf) : Buf :=
          if c.index = b.index then { c with used := c.used + 8 * now.length, poison := c.poison || bad } else c
        fillBuffers k f n (ws.drop m) (modPair f n (fun y => { y with taken := y.taken.map upd }) s)
      | none =>
        match x.fetched with
        | [] => (ws, s)
        | b :: r =>
          fillBuffers k f n ws
            (tryFetch f n (modPair f n (fun y => { y with fetched := r, taken := y.taken ++ [b] }) s))

/-- Steps that `fillBuffers` may take on a pair. -/
def State.fillSteps (s : State) (f n : Nat) : Nat :=
  2 * ((s.pair f n).taken.length + (s.pair f n).fetched.length) + 2

/-- Whether a pair can receive capture data now (R337). -/
def State.pairOpen (s : State) (f n : Nat) : Bool := s.captureEn f n && s.dmaOn f && !s.cqFull f n

/-- The host address of word `i` of what the taken buffers hold. -/
def wordAddr : Nat → List Buf → Option Nat
  | _, [] => none
  | i, b :: r => if 8 * i < b.used then some (b.addr + 8 * i) else wordAddr (i - b.used / 8) r

/-- Poisoned words delivered are counted, and the first of a segment in a delivery is reported (R251). -/
def poisoned (id p segId count : Nat) (s : State) : State :=
  if count = 0 then s
  else
    let s := bump (0x4008 + p * 0x20) count s
    match s.delivery id with
    | some d =>
      if d.poisonPosted then s
      else post (id / 8) 0x1403 (p + segId % 2 ^ 16 * 2 ^ 16)
        (modDelivery id (fun d => { d with poisonPosted := true }) s)
    | none => s

/-- Words for a delivery (R252): those in X07, then whole records that `es` hold from word `skip` on, as many as `words`
words ask for. Errors met on the way are in `spoil`: words that fail parity after they were read. Answers the words to
write now, and those that stay in X07. -/
def wordsToShip (larval : Bool) (x07 : List Out64) (skip words : Nat) (spoil : List Nat) (es : List (Nat × Rec)) :
    List Out64 × List Out64 :=
  let row := recsToRead skip (words - x07.length) es
  let row := spoil.foldl (fun r w => poisonRow w r) row
  let all := x07 ++ (row.map Prod.snd).flatMap (recWords larval)
  (all.take words, all.drop words)

/-- Words read that fail parity on their way to the host (R30). -/
def spoiled (e : ReadErrors) : List Nat := (e.parity.filter fun u => readCrossing u.1).map Prod.snd

/-- Progress records of an early write (R235): one for each buffer it ends, and one when 64 KiB have gone into the buffer in
use since the last one. `before` are the buffers before the write. -/
def progressSteps (f n cand : Nat) (before : List Buf) (s : State) : State :=
  each (fun (b : Buf) s =>
    let old := ((before.find? fun c => c.index = b.index).map Buf.used).getD 0
    let mark := if old = 0 then 0 else (s.pair f n).progBytes
    if b.used = old then s
    else if b.used = b.size then progress f n b.index b.used cand false (modPair f n (fun x => { x with progBytes := 0 }) s)
    else if mark + 65536 ≤ b.used then
      progress f n b.index b.used cand false (modPair f n (fun x => { x with progBytes := b.used }) s)
    else modPair f n (fun x => { x with progBytes := mark }) s) (s.pair f n).taken s

/-- A delivery writes up to `words` further words of the segment it delivers (R228, R230, R233, R252, R335). -/
def shipWords (id p key words : Nat) (early : Bool) (e : ReadErrors) (s : State) : State :=
  match s.delivery id, (s.part p).seg? key with
  | some d, some g =>
    let f := id / 8
    let n := id % 8
    let es := s.finalPlaced p g
    -- what has left memory is behind the words read (R343)
    let skip := d.words + d.x07.length - (g.len - if g.imago then rowWords es else g.len)
    let s0 := meetErrors p (some key) es skip (rowWords (recsToRead skip (words - d.x07.length) es)) e s
    let g := ((s0.part p).seg? key).getD g
    let (ws, rest) := wordsToShip (!g.imago) d.x07 skip words (spoiled e) (s0.finalPlaced p g)
    let (left, s1) := fillBuffers (s0.fillSteps f n) f n ws s0
    let k := ws.length - left.length
    let s1 := modDelivery id (fun d => { d with
      words := d.words + k, x07 := left ++ rest, early := if g.imago then d.early else d.early + k,
      larvalHead := d.larvalHead || (g.id.isNone && decide (d.words = 0) && decide (0 < k)) }) s1
    let s1 := poisoned id p (g.id.getD 0xFFFFFFFF) ((ws.take k).filter Prod.snd).length s1
    if early ∧ 0 < k then
      progressSteps f n g.cand (s.pair f n).taken (bump (0x4006 + p * 0x20) (8 * k) s1)
    else s1
  | _, _ => s

/-- A delivery takes up the next committed segment that waits for it: any for the owner and lossless subscribers, an
imago one for a lossy subscriber (R237). A SKIPPED report comes before it (R343). -/
def takeNext (id p : Nat) (s : State) : State :=
  match s.delivery id with
  | some d =>
    match d.now, d.queue with
    | none, k :: r =>
      let ok := match (s.part p).seg? k with | some g => g.imago || !d.lossy | none => false
      if ok then
        modDelivery id (fun d => { d with now := some k, queue := r, words := 0, early := 0, larvalHead := false,
                                          poisonPosted := false, x07 := [] }) (writeSkip id s)
      else s
    | some _, k :: r =>
      -- the segment shipped early has committed: it is the first in the queue and goes on
      if d.now = some k then modDelivery id (fun d => { d with queue := r }) s else s
    | _, _ => s
  | none => s

/-- The completions of a segment's buffers in one delivery (R229, R336): `done` counts the words of earlier buffers. -/
def segCompletions (id p key segId epoch : Nat) (lossy trunc : Bool) (first last : Nat) : Nat → List Buf → State → State
  | _, [], s => s
  | done, b :: r, s =>
    let f := id / 8
    let n := id % 8
    let st := if b.poison then stPoisoned else if trunc then stTruncated else stCommitted
    let words := done + b.used / 8
    let cons := if lossy then none else some (p, key, id, if b.index = last then 2 ^ 64 else words)
    segCompletions id p key segId epoch lossy trunc first last words r
      (finishBuf f n b.used segId b.index st epoch
        (capFlags p (b.index == first) (b.index == last) false b.poison trunc) cons s)

/-- Step 5 of R230: L is cleared in the record headers delivered with it, the SEGMENT_ID word and the length slot are
written. -/
def rewriteEarly (f : Nat) (bufs : List Buf) (early : Nat) (larvalHead : Bool) (recs : List Rec) (s : State) : State :=
  let heads := (recs.foldl (fun (acc : Nat × List (Nat × DWord)) r =>
    (acc.1 + r.length, if acc.1 < early then acc.2 ++ [(acc.1, (delivered false r).headD 0)] else acc.2)) (0, [])).2
  let first := (recs.headD { bank := none, first := 0, last := 0, words := [] }).words
  let heads := heads ++ (if larvalHead then [(2, first.getD 2 0)] else [])
    ++ (if 0 < early then [(1, first.getD 1 0)] else [])
  each (fun e s => match wordAddr e.1 bufs with
    | some a => emit (.hostWrite f a (leBytes 8 e.2.toNat) false) s
    | none => s) heads s

/-- The end of a segment's delivery (R228, R230 steps 5 and 6): rewrites, then completions for every buffer in ring
order. -/
def deliverDone (id p key : Nat) (s : State) : State :=
  match s.delivery id, (s.part p).seg? key with
  | some d, some g =>
    let f := id / 8
    let n := id % 8
    let recs := (s.part p).segRecs g
    if g.imago = false ∨ d.words < g.len then s
    else
      let bufs := (s.pair f n).taken
      let s := rewriteEarly f bufs d.early d.larvalHead recs s
      let s := modPair f n (fun x => { x with taken := [], progBytes := 0 }) s
      let s := segCompletions id p key (g.id.getD 0xFFFFFFFF) g.epoch d.lossy g.truncated
        ((bufs.head?.map Buf.index).getD 0) ((bufs.getLast?.map Buf.index).getD 0) 0 bufs s
      modDelivery id (fun d => { d with now := none, words := 0, early := 0, larvalHead := false,
                                        poisonPosted := false, x07 := [] }) s
  | _, _ => s

/-! ### READ_BACK in progress (R305) -/

/-- The first read-back of a pair is changed. -/
def modReadBack (f n : Nat) (h : ReadBack → ReadBack) (s : State) : State :=
  modPair f n (fun x => { x with readBacks := match x.readBacks with
    | y :: t => h y :: t
    | [] => [] }) s

/-- The first read-back of a pair writes up to `words` further words (R252, R305). -/
def shipReadBack (f n words : Nat) (e : ReadErrors) (s : State) : State :=
  match (s.pair f n).readBacks with
  | [] => s
  | r :: _ =>
    let skip := r.done + r.x07.length
    let s0 := meetErrors r.part r.key r.recs skip (rowWords (recsToRead skip (words - r.x07.length) r.recs)) e s
    let es := ((s0.pair f n).readBacks.headD r).recs
    let (ws, rest) := wordsToShip false r.x07 skip words (spoiled e) es
    let (left, s1) := fillBuffers (s0.fillSteps f n) f n ws s0
    let k := ws.length - left.length
    let s1 := bump (0x4008 + r.part * 0x20) ((ws.take k).filter Prod.snd).length s1
    modReadBack f n (fun y => { y with done := y.done + k, x07 := left ++ rest }) s1

/-- The capture completions of a read-back (R305, R336). -/
def readBackCompletions (f n : Nat) (r : ReadBack) (epoch first last : Nat) : List Buf → State → State
  | [], s => s
  | b :: t, s =>
    let st := if b.poison then stPoisoned else if r.range then stOk else stCommitted
    readBackCompletions f n r epoch first last t
      (finishBuf f n b.used r.segId b.index st epoch
        (capFlags r.part (b.index == first) (b.index == last) true b.poison r.trunc) none s)

/-- EPOCH of the partition bound to a pair, or 0 (R334). -/
def State.boundEpoch (s : State) (f n : Nat) : Nat :=
  match (s.pair f n).delivery with
  | some d => s.getF (F.partEpochEpoch d.part)
  | none => 0

/-- The first read-back of a pair ends when all of it is delivered: capture completions, then the command's own; its pins
are released when that one is written (R305). -/
def readBackDone (f n : Nat) (s : State) : State :=
  match (s.pair f n).readBacks with
  | [] => s
  | r :: rest =>
    let total := rowWords r.recs
    if r.done < total then s
    else
      let bufs := (s.pair f n).taken
      let epoch := if r.range then s.boundEpoch f n else r.epoch
      let s := modPair f n (fun x => { x with taken := [], readBacks := rest }) s
      let s := readBackCompletions f n r epoch ((bufs.head?.map Buf.index).getD 0)
        ((bufs.getLast?.map Buf.index).getD 0) bufs s
      let s := if 65536 ≤ r.cmd.index then unpin r.part r.pages s
        else finishCpl r.cmd 0x0C stOk (total / 8) 0 [] (some (r.part, r.pages)) s
      settle r.part s

/-! ### The end of a partition (R218, R11) -/

/-- Registers of the device between two offsets that hold or stage something else than at reset. -/
def State.listed (s : State) (lo hi : Nat) : List Reg :=
  ((s.regs.map Prod.fst ++ s.live.map Prod.fst).filter fun k =>
    decide (256 * 0x100000 + lo ≤ k) && decide (k < 256 * 0x100000 + hi)).filterMap fun k => Reg.ofOff 0 (k % 0x100000)

/-- The staged values of SEGMENT and ARM fields between two offsets are discarded: they read their reset values
(R11). -/
def discardRange (lo hi : Nat) (s : State) : State :=
  each (fun r s => discardReg .arm r (discardReg .segment r s)) (s.listed lo hi) s

/-- A stopped bank resumes when its partition is destroyed (R133). -/
def freeBank (b : Nat) (s : State) : State :=
  let s := modBank b (fun x => { x with faulted := false, stuck := false, softDone := false, gaps := [], cross := [],
                                        stSamples := [], stRun := [], due := [], runFirst := none, runWords := [],
                                        forced := false }) s
  setF (F.feBankStatusStopped b) 0 (setF (F.feBankStatusFault b) 0 s)

/-- An ARM that waits for auto-threshold ends with BUSY: the partition stays IDLE with its earlier live values, and the
pages taken return (R135, R218). -/
def stopAutoThreshold (p : Nat) (s : State) : State :=
  let x := s.part p
  match x.arming with
  | some c =>
    let s := each (fun (e : Nat × Word) s => match Reg.ofOff 0 (e.1 % 0x100000) with
      | some r => wrLive r e.2 s
      | none => s) x.oldLive s
    finish c 0x06 stBusy 0 0 (setPart p { x with
      arming := none, oldLive := [], armRing := 0, oldRing := 0, ringNow := max x.oldRing x.unheld.length } s)
  | none => s

/-- A partition is destroyed (R218, R11, R293, R338): as DISARM when it is armed; undelivered data is discarded, taken
buffers complete with ABANDONED; bindings and tokens end; its pages and FLOOR return; `event` goes to the PF, the owner
and each subscriber. -/
def destroyPart (p event : Nat) (s : State) : State :=
  let s := stopAutoThreshold p s
  let s := if (s.part p).armed then endArmed p 2 s.now s else s
  let subs := (s.part p).subs.map (· / 8)
  let s := each (fun id s =>
    let s := match s.delivery id with
      | some d => match d.now with
        | some k =>
          let g := (s.part p).seg? k
          abandonTaken id p ((g.bind Seg.id).getD 0xFFFFFFFF) ((g.map Seg.epoch).getD 0) s
        | none => s
      | none => s
    let ending := (s.delivery id).bind Delivery.ending
    let s := unbind id s
    match ending with
    | some c => finish c 0x0A stOk 0 0 s
    | none => s) (s.part p).deliveries s
  let owner := (s.owner p).toList
  let told := (s.pfs ++ owner ++ subs).eraseDups
  let s := postAll told event p s
  let bs := s.banksOf p
  let s := each freeBank bs s
  let s := each (fun b => discardRange (0x10000 + b * 0x2000) (0x12000 + b * 0x2000)) bs s
  let s := each (fun b => discardRange (0x20000 + b * 0x1000) (0x21000 + b * 0x1000)) bs s
  let gps := (List.range 8).filter fun g => (s.flag (F.gpCfgAssigned g) && s.getF (F.gpCfgPartition g) == p)
    || (s.flagL (F.gpCfgAssigned g) && s.getL (F.gpCfgPartition g) == p)
  let s := each (fun g => discardRange (0x28000 + g * 0x100) (0x28100 + g * 0x100)) gps s
  let s := discardRange (0x30000 + p * 0x2000) (0x32000 + p * 0x2000) s
  let s := discardRange (0x40000 + p * 0x400) (0x40400 + p * 0x400) s
  let s := discardRange (0x2C050 + p * 4) (0x2C054 + p * 4) s
  let s := discardRange (0x50100 + p * 0x20) (0x50120 + p * 0x20) s
  let s := setF (F.memPartLimitsFloor p) 0 s
  let s := wr (.partOwner p) 0 s
  let s := setF (F.partStatusOrphan p) 0 (setF (F.partStatusStopped p) 0 (setF (F.partStatusEarlyThrottled p) 0 s))
  let x := s.part p
  setPart p { pins := x.pins, held := x.held.filter fun n => x.pins.any fun l => l.contains n } s

/-! ### The commands of the segment family -/

/-- FIRST_SAMPLE_FIXED (R220): the first stored sample of every segment that may have it fixed is fixed. -/
def execFirstSampleFixed (p : PartId) (s : State) : Host.Outcome State Fault Refusal :=
  done s (settle p.val (fixReady p.val s))

/-- Whether the fill of a segment in POST has ended: the last sample at or before its E is stored (R224). A
continuous-stream segment that opened in a gap first waits for its first stored sample (R226), one of state mode for the
end that its F depends on (R220). -/
def State.filled (s : State) (p : Nat) (g : Seg) : Bool :=
  decide (g.fillEnd < (s.part p).blockAt) && !(g.start.isNone && (s.continuous p
    || (s.stateMode p && !g.empty && !(((s.part p).keyBefore g).bind (s.part p).seg?).all Seg.ended)))

/-- FILL_COMPLETE (R224): the oldest segment in POST whose fill has ended becomes imago. -/
def execFillComplete (p : PartId) (s : State) : Host.Outcome State Fault Refusal :=
  let s0 := resolveEnds p (s.part p).blockAt s
  match (s0.part p).posts.find? (s0.filled p) with
  | none => done s s0
  | some g =>
    let cause := if s0.continuous p then 5 else 0
    let s1 := if s0.stateMode p = true ∧ g.start.isNone = true ∧ g.empty = false then emptySeg p g.key s0 else s0
    done s (settle p (fixReady p (makeImago p g.key cause false s1)))

/-- REARM_INTERVAL_END (R217): 32,768 ticks after a segment became imago the state COMMITTED ends. -/
def execRearmIntervalEnd (p : PartId) (s : State) : Host.Outcome State Fault Refusal :=
  done s (modPart p (fun x => { x with rearm := false }) s)

/-- A continuous-stream segment opens and commits at `t`, with its end at the end of the CONT_FRAMES-th frame counted
from the frame that holds `t` (R226). -/
def openContinuous (p : Nat) (t : Label) (s : State) : State :=
  let k := (s.part p).nextKey
  let s := modSegment p k (fun g => { g with startPos := (s.part p).writePos }) (openSeg p t false s)
  commitSeg p k t (s.contEnd p t) s

/-- CONTINUOUS_SEGMENT_END (R226): at the frame boundary that ends the current segment the next one opens, whether or not
the current one is imago already. -/
def execContinuousSegmentEnd (p : PartId) (t : Label) (s : State) : Host.Outcome State Fault Refusal :=
  let s1 := advanceTo t s
  match (s1.part p).contE with
  | some e =>
    if s1.continuous p = true ∧ (s1.part p).armed = true ∧ e < t ∧ (s1.part p).posts.all (fun g => g.start.isSome) = true then
      done s (settle p (openContinuous p t s1))
    else done s s1
  | none => done s s1

/-- Whether the thermal step WARN stops early shipping (R234, R453). -/
def State.thermalEarlyStop (s : State) : Bool :=
  (s.getF F.thermStatusSteps).testBit 1 && !s.flag F.thermCtrlEarlyOverride

/-- The larval segment a delivery may ship early now (R233). -/
def State.earlySeg (s : State) (id : Nat) (d : Delivery) : Option Seg :=
  let p := d.part
  let throttled := s.flag (F.partStatusEarlyThrottled p) && !s.flag (F.partEarlyCfgThrottleOverride p)
  match (s.part p).larvals.head? with
  | some g =>
    if s.flagL (F.partModeEarlyEn p) && !d.lossy && g.start.isSome && !throttled && !s.thermalEarlyStop
        && d.queue.isEmpty && (d.now.isNone || d.now == some g.key) && d.ending.isNone
        && (s.pair (id / 8) (id % 8)).readBacks.isEmpty
        && decide (g.start.getD 0 < (s.part p).storedTo) then some g
    else none
  | none => none

/-! ### The read path (R233, R290) -/

/-- Whether a pair has room for a word in a taken buffer, or a buffer to take. -/
def State.room (s : State) (f n : Nat) : Bool :=
  (s.pair f n).taken.any (fun b => decide (b.used + 8 ≤ b.size)) || !(s.pair f n).fetched.isEmpty

/-- The next committed segment that a delivery may write now: the one it delivers, or the first in its queue. -/
def State.committedSeg (s : State) (d : Delivery) : Option Seg :=
  let seg (k : Nat) : Option Seg := ((s.part d.part).seg? k).filter fun g => g.id.isSome && (g.imago || !d.lossy)
  match d.now, d.queue with
  | some k, _ => seg k
  | none, k :: _ => seg k
  | none, [] => none

/-- Whether a pair's read-back comes next: none of it waits behind a segment that the pair delivers (R305). -/
def State.readBackNext (s : State) (id : Nat) : Bool :=
  let rb := (s.pair (id / 8) (id % 8)).readBacks
  let busy := match s.delivery id with | some d => d.now.isSome | none => false
  (!busy && !rb.isEmpty) || rb.head?.any fun r => decide (0 < r.done)

/-- Words of a segment that are final. -/
def State.wordsNow (s : State) (p : Nat) (g : Seg) : Nat :=
  if g.imago then g.len else ((s.finalRecs p g).map Rec.length).sum

/-- Whether a delivery has committed data that it can write now (R290, priority 1). -/
def State.wantsCommitted (s : State) (id : Nat) : Bool :=
  s.pairOpen (id / 8) (id % 8) && s.room (id / 8) (id % 8) && !s.readBackNext id &&
  match s.delivery id with
  | some d => match s.committedSeg d with
    | some g => decide ((if d.now = some g.key then d.words else 0) < s.wordsNow d.part g)
    | none => false
  | none => false

/-- Whether a pair's read-back has data that it can write now (R290, priority 2). -/
def State.wantsReadBack (s : State) (id : Nat) : Bool :=
  s.pairOpen (id / 8) (id % 8) && s.room (id / 8) (id % 8) && s.readBackNext id &&
  (s.pair (id / 8) (id % 8)).readBacks.head?.any fun r => decide (r.done < rowWords r.recs)

/-- Whether a delivery can ship early now (R233; R290, priority 3). -/
def State.wantsEarly (s : State) (id : Nat) : Bool :=
  s.pairOpen (id / 8) (id % 8) && s.room (id / 8) (id % 8) &&
  match s.delivery id with
  | some d => match s.earlySeg id d with
    | some g => decide ((if d.now = some g.key then d.words else 0) < s.wordsNow d.part g)
    | none => false
  | none => false

/-- Pairs that hold a delivery or a read-back, as function × 8 + pair. -/
def State.readers (s : State) : List Nat :=
  s.fns.flatMap fun e => (e.2.pairs.filter fun q => q.2.delivery.isSome || !q.2.readBacks.isEmpty).map fun q => e.1 * 8 + q.1

/-- Whether it is a request's turn on its level: the ports come in turn, and the deliveries of one port (R290). -/
def State.inTurn (s : State) (level : Nat) (wants : Nat → Bool) (id : Nat) : Bool :=
  let ids := s.readers.filter wants
  let port := id / 1024
  let mine := ids.filter fun k => decide (k / 1024 = port)
  let last := spGet 0 (level * 2 + port) s.mgmt.turn
  let next := ((mine.filter fun k => decide (last < k + 1)).min?).orElse fun _ => mine.min?
  next == some id && !(spGet 0 level s.mgmt.portTurn == port + 1 && ids.any fun k => decide (k / 1024 ≠ port))

/-- The read path has served a request. -/
def served (level id : Nat) (s : State) : State :=
  { s with mgmt := { s.mgmt with portTurn := spSet 0 level (id / 1024 + 1) s.mgmt.portTurn,
                                 turn := spSet 0 (level * 2 + id / 1024) (id + 1) s.mgmt.turn } }

/-- Whether the read path serves a pair's committed delivery now. -/
def State.servesCommitted (s : State) (id : Nat) : Bool := s.wantsCommitted id && s.inTurn 1 s.wantsCommitted id
/-- Whether the read path serves a pair's read-back now. -/
def State.servesReadBack (s : State) (id : Nat) : Bool :=
  s.wantsReadBack id && !s.readers.any s.wantsCommitted && s.inTurn 2 s.wantsReadBack id
/-- Whether the read path serves a delivery's early shipping now. -/
def State.servesEarly (s : State) (id : Nat) : Bool :=
  s.wantsEarly id && !s.readers.any (fun k => s.wantsCommitted k || s.wantsReadBack k) && s.inTurn 3 s.wantsEarly id

/-- EARLY_SHIP_WRITE (R233): up to `words` further words of the oldest larval segment go to a delivery, with L set; `e` are
the errors that its reads meet. While the read path serves another request nothing goes (R290). -/
def execEarlyShipWrite (f : FnId) (pair : PairId) (words : Nat) (s : State) (e : ReadErrors := ⟨[], [], []⟩) :
    Host.Outcome State Fault Refusal :=
  let id := f.val * 8 + pair.val
  if s.servesEarly id = false then done s s
  else match s.delivery id with
    | some d =>
      match s.earlySeg id d with
      | some g =>
        let s1 := served 3 id (if d.now.isNone then writeSkip id s else s)
        done s (shipWords id d.part g.key words true e (modDelivery id (fun d => { d with now := some g.key }) s1))
      | none => done s s
    | none => done s s

/-- Committed and undelivered pages of all partitions with a delivery on a port (R234). -/
def State.portBacklog (s : State) (port : Nat) : Nat :=
  ((List.range 8).map fun p =>
    if (s.part p).deliveries.any fun id => id / 8 / 128 == port then s.undelivPages p else 0).sum

/-- Ports of the deliveries of a partition that ship early: its owner's and its lossless subscribers' (R233, R234). -/
def State.earlyPorts (s : State) (p : Nat) : List Nat :=
  (((s.part p).deliveries.filter fun id => match s.delivery id with
    | some d => !d.lossy
    | none => false).map fun id => id / 8 / 128).eraseDups

/-- EARLY_THROTTLE_CHANGE (R234): Scarab throttles early shipping while the backlog on the port of one of the partition's
deliveries is above EARLY_BACKLOG, and lifts the throttle once all are at half of it; while Scarab is down the throttle
keeps its state (R36). -/
def execEarlyThrottleChange (p : PartId) (s : State) : Host.Outcome State Fault Refusal :=
  let ns := (s.earlyPorts p).map s.portBacklog
  let lim := s.getF (F.partEarlyCfgEarlyBacklog p)
  let on := s.flag (F.partStatusEarlyThrottled p)
  let next := if lim = 0 ∨ ns.any (fun n => decide (lim < n)) = true then true
    else if ns.all (fun n => decide (n ≤ lim / 2)) = true then false else on
  if ns = [] ∨ s.mgmt.scarabDown = true ∨ s.flag (F.partEarlyCfgThrottleOverride p) = true ∨ next = on then done s s
  else
    let s1 := setF (F.partEventsThrottle p) 1 (setF (F.partStatusEarlyThrottled p) (bit next) s)
    done s (postPart p 0x1302 (p.val + bit next * 2 ^ 16) s1)

/-- SEGMENT_DELIVERY_WRITE (R230, R290, R305, R335): up to `words` further words of the committed segment that the delivery
delivers, or of the read-back that comes next on its pair; `e` are the errors that its reads meet. While the read path
serves another request nothing goes. -/
def execSegmentDeliveryWrite (f : FnId) (pair : PairId) (words : Nat) (s : State) (e : ReadErrors := ⟨[], [], []⟩) :
    Host.Outcome State Fault Refusal :=
  let id := f.val * 8 + pair.val
  if s.servesReadBack id then done s (tryFetch f pair (shipReadBack f pair words e (served 2 id s)))
  else if s.servesCommitted id = false then done s s
  else match s.delivery id with
    | some d =>
      let s1 := takeNext id d.part (served 1 id s)
      match (s1.delivery id).bind Delivery.now with
      | some k => done s (tryFetch f pair (shipWords id d.part k words false e s1))
      | none => done s s1
    | none => done s s

/-- SEGMENT_DELIVERY_DONE (R228, R230): after the last record of a segment, or of a read-back, the rewrites and the
completions. -/
def execSegmentDeliveryDone (f : FnId) (pair : PairId) (s : State) : Host.Outcome State Fault Refusal :=
  let id := f.val * 8 + pair.val
  if s.dmaOn f = false then done s s
  else
    match s.delivery id with
    | some { now := some k, part := p, .. } => done s (tryFetch f pair (settle p (deliverDone id p k s)))
    | _ => done s (tryFetch f pair (readBackDone f pair s))

/-- MOD_TIME_EXPIRY (R344): MOD_TIME µs after the first unsignalled completion the pair signals. -/
def execModTimeExpiry (f : FnId) (pair : PairId) (s : State) : Host.Outcome State Fault Refusal :=
  if s.getF (F.rcModModTime f pair) ≠ 0 ∧ 0 < (s.pair f pair).unsignalled then done s (signalPair f pair s)
  else done s s

end Sys2Proof.Machine
end

