-- ==== Sys2Proof/Machine/Detectors.lean ====
section
/-! DEFINITION. Machine/Detectors.lean: the event detectors: what each type does with a crossing or a narrow-pulse
notice, its expiries, the global pattern detectors, start and restart, and the commands of the family (R144 to R164). -/

namespace Sys2Proof.Machine

/-! ### What a detector is -/

/-- The partition a detector serves (R24, R144, R162). -/
def State.detPart (s : State) (n : Nat) : Option Nat :=
  if n < 128 then s.partOf (n / 16)
  else if s.flagL (F.gpCfgAssigned (n - 128)) then some (s.getL (F.gpCfgPartition (n - 128))) else none

/-- LIM1 of a detector, as live. -/
def State.lim1 (s : State) (n : Nat) : Nat := s.getL2 (F.detLim1LoLim1 n) (F.detLim1HiLim1 n)
/-- LIM2 of a detector, as live. -/
def State.lim2 (s : State) (n : Nat) : Nat := s.getL2 (F.detLim2LoLim2 n) (F.detLim2HiLim2 n)

/-- Whether a bank delivers crossings and samples to the detectors: it is not stopped and in no gap, or in state mode has
taken the sample it resumes with (R5, R164). -/
def State.bankLive (s : State) (b : Nat) : Bool :=
  !s.flag (F.feBankStatusStopped b) && ((s.bank b).gaps.isEmpty || (s.bank b).stBack.isSome) &&
  match s.partOf b with
  | some p => (s.part p).begun.isSome && (s.part p).gaps.isEmpty
  | none => false

/-- Whether a per-bank detector works: enabled in an armed interval, its bank delivers (R163, R164, R484). -/
def State.detOn (s : State) (n : Nat) : Bool :=
  s.flagL (F.detCfgEn n) && !(s.det n).ue && s.bankLive (n / 16)

/-- SAMPLE of an event (R148, R166): the first sample instant at or after TIME, or the state samples before it. -/
def State.eventSample (s : State) (p b : Nat) (time : Label) : Nat :=
  if s.stateMode p then
    let x := s.bank b
    x.stCount - (x.stSamples.filter fun e => decide (time ≤ e.label)).length
  else ceilTo (s.period p) time

/-- A detector fires (R147, R150): it is counted, and the event waits to be presented, unless one of its sample waits or
has been presented. In reduced service labels have sample resolution, so EXACT is 0 (R166). In state mode SAMPLE of a global
pattern event is the partition's count of state samples (DEDUCED: R166 counts those of a detector's bank). -/
def fireDet (n : Nat) (time : Label) (exact : Bool) (aux : Nat) (s : State) : State :=
  match s.detPart n with
  | none => s
  | some p =>
    let ev : Ev := { sel := 0x1000 + n, time := time, exact := exact && !(s.part p).reduced,
                     sample := if n < 128 then s.eventSample p (n / 16) time
                       else if s.stateMode p then (s.seq p).stateCount else time,
                     aux := aux }
    modDet n (fun d => { d with
        lastTime := time, lastAux := aux,
        events := if d.shown = some ev.sample ∨ d.events.any (fun e => e.sample == ev.sample) then d.events
          else d.events ++ [ev] })
      (bump (0x2000 + n * 4) 1 s)

/-- A value against MIN and MAX under INSIDE or OUTSIDE (R153). -/
def inWindow (outside : Bool) (lo hi w : Nat) : Bool := (decide (lo ≤ w) && decide (w ≤ hi)) != outside

/-- Whether DIR selects a direction (R146). -/
def dirSelects (dir : Nat) (rising : Bool) : Bool := dir == 2 || (dir == 0) == rising

/-- Whether a crossing is on comparator `cmp` (0 U, 1 L) of a channel. -/
def Crossing.on (x : Crossing) (chan cmp : Nat) : Bool :=
  x.chan == chan && (match x.cmp with | .u => cmp == 0 | .l => cmp == 1)

/-! ### Expiries (R156, R158, R160) -/

/-- `k` expiries of a TIMEOUT with REPEAT, from `r` on, `t` apart. -/
def fireTimeouts (n t : Nat) : Nat → Label → State → State
  | 0, _, s => s
  | k + 1, r, s => fireTimeouts n t k (r + t) (fireDet n (r + t) true 0 s)

/-- Unresolved SKEW crossings of both sides, in label order. -/
def mergeSkew (a b : List (Label × Nat)) : List (Label × Nat) :=
  b.foldl (fun l e => (l.filter fun f => decide (f.1 ≤ e.1)) ++ e :: (l.filter fun f => decide (e.1 < f.1))) a

/-- Every expiry of a detector at an instant before `upto` takes place. -/
def expireDet (n : Nat) (upto : Label) (s : State) : State :=
  let d := s.det n
  let t := s.lim1 n
  match s.getL (F.detCfgType n) with
  | 5 => match d.base with
    | some r =>
      if t = 0 ∨ upto ≤ r + t then s
      else if s.flagL (F.detCfgRepeat n) then
        let k := (upto - 1 - r) / t
        modDet n (fun d => { d with base := some (r + k * t) }) (fireTimeouts n t k r s)
      else modDet n (fun d => { d with base := none }) (fireDet n (r + t) true 0 s)
    | none => s
  | 7 =>
    let due (e : Label × Nat) : Bool := decide (e.1 + t < upto)
    let s1 := each (fun e => fireDet n (e.1 + t) true e.2) (mergeSkew (d.skewA.filter due) (d.skewB.filter due)) s
    modDet n (fun d => { d with skewA := d.skewA.filter fun e => !due e, skewB := d.skewB.filter fun e => !due e }) s1
  | 8 => match d.openAt with
    | some (e, _) =>
      if s.flagL (F.detCfgWindow n) = false ∧ d.fired = false ∧ d.held ∧ e + t < upto then
        modDet n (fun d => { d with fired := true }) (fireDet n (e + t) true t s)
      else s
    | none => s
  | _ => s

/-! ### A crossing or a notice reaches a detector (R151 to R160) -/

/-- PULSE_WIDTH and GLITCH: a pulse of polarity `positive` and width `w` closes at `at_` (R153, R154). -/
def pulse (n : Nat) (positive : Bool) (w : Nat) (at_ : Label) (s : State) : State :=
  let ok := if s.getL (F.detCfgType n) = 3 then decide (w < s.lim1 n)
    else inWindow (s.flagL (F.detCfgWindow n)) (s.lim1 n) (s.lim2 n) w
  if ok && dirSelects (s.getL (F.detCfgDir n)) positive then fireDet n at_ true w s else s

/-- The open measurement of a detector is replaced. -/
def setOpen (n : Nat) (o : Option (Label × Bool)) (s : State) : State := modDet n (fun d => { d with openAt := o }) s

/-- The open falling transit of a SLEW detector is replaced. -/
def setDown (n : Nat) (o : Option Label) (s : State) : State := modDet n (fun d => { d with openDown := o }) s

/-- A SKEW crossing on one side: it resolves what it matches on the other, and is checked itself when its side is
(R158, R159). `sideB` is the CHAN_B side. -/
def skewCrossing (n : Nat) (sideB checked : Bool) (at_ : Label) (s : State) : State :=
  let d := s.det n
  let lim := s.lim1 n
  let mine := if sideB then d.skewB else d.skewA
  let other := if sideB then d.recentA else d.recentB
  let match_ := other.any fun b => decide (at_ ≤ b + lim) && decide (b ≤ at_ + lim)
  let aux := match (other.filter fun b => decide (b < at_)).max? with | some b => at_ - b | none => 0
  let keep (l : List Label) : List Label := (l.filter fun b => decide (at_ ≤ b + lim)) ++ [at_]
  let resolve (l : List (Label × Nat)) : List (Label × Nat) := l.filter fun e => decide (e.1 + lim < at_)
  let s := modDet n (fun d => if sideB then { d with recentB := keep d.recentB, skewA := resolve d.skewA }
    else { d with recentA := keep d.recentA, skewB := resolve d.skewB }) s
  if checked = false ∨ match_ = true then s
  else if 16 ≤ mine.length then
    let s := bump (0x2001 + n * 4) 1 (setF (F.detStatusOverrun n) 1 s)
    match s.detPart n with
    | some p => oncePerFrame (rateKey 0x1101 n) (postPart p 0x1101 n) s
    | none => s
  else modDet n (fun d => if sideB then { d with skewB := d.skewB ++ [(at_, aux)] }
    else { d with skewA := d.skewA ++ [(at_, aux)] }) s

/-- What a detector does with one crossing or notice; `u` and `l` are its channel's states before it (R151 to R158). -/
def detOne (n : Nat) (f : Feed) (u l : Bool) (s : State) : State :=
  let x := f.x
  let t := x.label
  let a := s.getL (F.detCfgChanA n)
  let dir := s.getL (F.detCfgDir n)
  let watched := x.on a (s.getL (F.detCfgCmp n))
  let notice := decide (f.width ≠ 0)
  let onU := x.on a 0
  let onL := x.on a 1
  let o := (s.det n).openAt
  match s.getL (F.detCfgType n) with
  | 1 => if watched && !notice && dirSelects dir x.rising then fireDet n t true 0 s else s
  | 2 | 3 =>
    if watched = false then s
    else if notice then pulse n x.rising f.width (t + f.width) s
    else
      let s := match o with
        | some (o, r) => if r = x.rising then s else pulse n r (t - o) t s
        | none => s
      setOpen n (some (t, x.rising)) s
  | 4 =>
    if notice then
      match o with
      | some (_, r) => if (r && onU) || (!r && onL) then setOpen n none s else s
      | none => s
    else if onL then
      if x.rising then
        if u = false ∧ dirSelects dir true = true then setOpen n (some (t, true)) s else s
      else match o with
        | some (o, true) => setOpen n none (if s.lim1 n ≤ t - o then fireDet n t true (t - o) s else s)
        | some (_, false) => setOpen n none s
        | none => s
    else if onU then
      if x.rising then
        match o with
        | some (o, false) => setOpen n none (if s.lim1 n ≤ t - o then fireDet n t true (t - o) s else s)
        | some (_, true) => setOpen n none s
        | none => s
      else if l ∧ dirSelects dir false then setOpen n (some (t, false)) s else s
    else s
  | 5 =>
    if watched && (notice || dirSelects dir x.rising) then modDet n (fun d => { d with base := some t }) s else s
  | 6 =>
    let down := (s.det n).openDown
    if notice then
      if onL && o.isSome then setOpen n (some (t + f.width, true)) s
      else if onU && down.isSome then setDown n (some (t + f.width)) s
      else s
    else
      let close (o : Option Label) (s : State) : State := match o with
        | some o => if inWindow (s.flagL (F.detCfgWindow n)) (s.lim1 n) (s.lim2 n) (t - o) then fireDet n t true (t - o) s
          else s
        | none => s
      if onL then
        if x.rising then if dirSelects dir true then setOpen n (some (t, true)) s else s
        else setDown n none (setOpen n none (close down s))
      else if onU then
        if x.rising then setDown n none (setOpen n none (close (o.map Prod.fst) s))
        else if dirSelects dir false then setDown n (some t) s else s
      else s
  | 7 =>
    if notice || !dirSelects dir x.rising then s
    else
      let s := if watched then skewCrossing n false true t s else s
      if x.on (s.getL (F.detCfgChanB n)) (s.getL (F.detCfgCmpB n)) then
        skewCrossing n true (s.flagL (F.detCfgRepeat n)) t s else s
  | _ => s

/-- A word of DET_PAT_MASK or DET_PAT_VALUE of U (`k` 0) or L (`k` 2), 64 bits. -/
def patWord (s : State) (x : Nat → Fld) (k : Nat) : DWord := dw (s.getL (x k) + s.getL (x (k + 1)) * 2 ^ 32)

/-- Whether the bank pattern of a detector holds for states `u` and `l` (R160); a mask of all zeros never counts. -/
def State.patternHolds (s : State) (n : Nat) (u l : DWord) : Bool :=
  let mu := patWord s (F.detPatMaskPatMask n) 0
  let ml := patWord s (F.detPatMaskPatMask n) 2
  let vu := patWord s (F.detPatValuePatValue n) 0
  let vl := patWord s (F.detPatValuePatValue n) 2
  ((u ^^^ vu) &&& mu) == 0 && ((l ^^^ vl) &&& ml) == 0 && (mu != 0 || ml != 0)

/-- PATTERN_DURATION after all crossings of one label have applied (R160). -/
def patternStep (n : Nat) (t : Label) (u l : DWord) (s : State) : State :=
  let d := s.det n
  let now := s.patternHolds n u l
  if now = d.held then s
  else if now then modDet n (fun d => { d with held := true, fired := false, openAt := some (t, true) }) s
  else
    let s := match d.openAt with
      | some (e, _) =>
        if s.flagL (F.detCfgWindow n) ∧ t - e < s.lim1 n then fireDet n t true (t - e) s else s
      | none => s
    modDet n (fun d => { d with held := false, fired := false, openAt := none }) s

/-- Comparator states after a crossing or notice: a notice leaves them. -/
def fed (ul : DWord × DWord) (f : Feed) : DWord × DWord := if f.width = 0 then crossed ul f.x else ul

/-- The crossings of one label reach a detector, one after the other. -/
def detFold (n : Nat) : DWord × DWord → List Feed → State → State
  | _, [], s => s
  | ul, f :: r, s =>
    detFold n (fed ul f) r (detOne n f (ul.1.getLsbD f.x.chan) (ul.2.getLsbD f.x.chan) s)

/-- Every crossing of label `t` reaches a detector: first what expired before it. -/
def detGroup (t : Label) (ul : DWord × DWord) (g : List Feed) (n : Nat) (s : State) : State :=
  if s.detOn n = false then s
  else
    let s := detFold n ul g (expireDet n t s)
    if s.getL (F.detCfgType n) = 8 then
      let after := g.foldl fed ul
      patternStep n t after.1 after.2 s
    else s

/-- The per-bank detectors of a bank. -/
def detsOf (b : Nat) : List Nat := (List.range 16).map fun i => 16 * b + i

/-- The crossings with the earliest label that wait go to the bank's detectors. -/
def feedOnce (b : Nat) (s : State) : State :=
  let x := s.bank b
  match x.feed with
  | [] => s
  | f :: _ =>
    let t := f.x.label
    let g := x.feed.takeWhile fun e => decide (e.x.label = t)
    let after := g.foldl fed (x.fedU, x.fedL)
    let s := each (detGroup t (x.fedU, x.fedL) g) (detsOf b) s
    setBank b { s.bank b with feed := x.feed.drop g.length, fedU := after.1, fedL := after.2 } s

/-- The detectors of a bank take everything labelled at or before `t`; the first argument bounds the steps. -/
def feedTo : Nat → Nat → Label → State → State
  | 0, _, _, s => s
  | k + 1, b, t, s =>
    match (s.bank b).feed with
    | f :: _ => if f.x.label ≤ t then feedTo k b t (feedOnce b s) else s
    | [] => s

/-- A bank's detectors have seen everything up to instant `t`: crossings, and expiries up to `t`. -/
def detsTo (b : Nat) (t : Label) (s : State) : State :=
  let s := feedTo (s.bank b).feed.length b t s
  each (fun n s => if s.detOn n then expireDet n (t + 1) s else s) (detsOf b) s

/-- A bank's detectors take what waits until detector `n` has an event to present. -/
def feedUntil : Nat → Nat → Nat → State → State
  | 0, _, _, s => s
  | k + 1, b, n, s =>
    if (s.det n).events.isEmpty ∧ (s.bank b).feed ≠ [] then feedUntil k b n (feedOnce b s) else s

/-! ### Start and restart (R163, R164) -/

/-- A detector starts at sample `t` with no measurement open (R163). Events it has fired stay. -/
def restartDet (t : Label) (n : Nat) (s : State) : State :=
  let d := s.det n
  let x := s.bank (n / 16)
  let held := decide (n < 128) && s.getL (F.detCfgType n) == 8 && s.patternHolds n x.fedU x.fedL
  setDet n { events := d.events, lastTime := d.lastTime, lastAux := d.lastAux, ue := d.ue, held := held,
             base := if s.getL (F.detCfgType n) = 5 ∧ n < 128 then some t else none } s

/-- The detectors of a bank start at sample `t`: the states of that sample are the states before any crossing. -/
def restartDets (b : Nat) (t : Label) (s : State) : State :=
  let x := s.bank b
  let old := x.feed.takeWhile fun f => decide (f.x.label ≤ t)
  let after := old.foldl fed (x.fedU, x.fedL)
  let s := setBank b { x with feed := x.feed.drop old.length, fedU := after.1, fedL := after.2 } s
  each (restartDet t) (detsOf b) s

/-- A bank's detectors lose what they measured and what they have fired and not presented (R164). -/
def stopDets (b : Nat) (s : State) : State :=
  let s := modBank b (fun x => { x with feed := [], fedU := x.lvlU, fedL := x.lvlL }) s
  each (fun n s => modDet n (fun d => { lastTime := d.lastTime, lastAux := d.lastAux, ue := d.ue }) s) (detsOf b) s

/-! ### Global pattern detectors (R161) -/

/-- The channels of word `k` that a global pattern detector compares. -/
def State.gpWord (s : State) (g k : Nat) : Nat :=
  let lo := s.getL (F.gpRangeLoCh g)
  let hi := s.getL (F.gpRangeHiCh g)
  let m := s.getL (F.gpMaskGpMask g k)
  ((List.range 32).map fun i => if m.testBit i && decide (lo ≤ 32 * k + i) && decide (32 * k + i ≤ hi) then 2 ^ i else 0).sum

/-- Banks that hold a compared channel. -/
def State.gpBanks (s : State) (g : Nat) : List Nat :=
  (List.range 8).filter fun b => s.gpWord g (2 * b) != 0 || s.gpWord g (2 * b + 1) != 0

/-- Whether the sample bits match a global pattern detector; with no channel selected every sample does. -/
def State.gpMatches (s : State) (g : Nat) : Bool :=
  (List.range 16).all fun k =>
    let x := s.bank (k / 2)
    let w := if s.flagL (F.gpCfgCmp g) then x.fedL else x.fedU
    let bits := bitsOf w.toNat (32 * (k % 2)) 32
    ((bits ^^^ s.getL (F.gpValueGpValue g k)) &&& s.gpWord g k) == 0

/-- A global pattern detector evaluates the sample at `t` (R161). In a state-mode partition of several banks it evaluates at
every state sample of the partition, on the comparator states at that instant, also at those of banks that hold none of its
channels (DESIGN CHOICE: R161 says "at every sample of its partition" and no more). -/
def gpSample (p g : Nat) (t : Label) (s : State) : State :=
  let n := 128 + g
  let bs := s.gpBanks g
  let up := if bs = [] then (s.banksOf p).any s.bankLive else bs.all s.bankLive
  if s.flagL (F.gpCfgEn g) = false ∨ (s.det n).ue = true then s
  else if up = false then modDet n (fun d => { d with matched := false }) s
  else
    let now := s.gpMatches g
    let was := (s.det n).matched
    let s := setF (F.gpStatusMatch g) (bit now) (modDet n (fun d => { d with matched := now }) s)
    let fires := match s.getL (F.gpCfgOutput g) with
      | 0 => now && !was
      | 1 => was && !now
      | _ => now
    if fires then fireDet n t false 0 s else s

/-- Global pattern detectors assigned to a partition. -/
def State.gpsOf (s : State) (p : Nat) : List Nat :=
  (List.range 8).filter fun g => s.flagL (F.gpCfgAssigned g) && s.getL (F.gpCfgPartition g) == p

/-! ### Presentation (R149, R150) -/

/-- A detector presents its earliest event (R150). -/
def presentOne (p n : Nat) (s : State) : State :=
  match (s.det n).events with
  | [] => s
  | e :: r =>
    let s := modDet n (fun d => { d with events := r, shown := some e.sample }) s
    if s.flag (F.seqStatusRunning p) then modSeq p (fun q => { q with inbox := q.inbox ++ [e] }) s else s

/-- A detector has presented every event of sample `t` or before (R149). -/
def presentTo (p : Nat) (t : Label) : Nat → Nat → State → State
  | 0, _, s => s
  | k + 1, n, s =>
    match (s.det n).events with
    | e :: _ => if e.time ≤ t then presentTo p t k n (presentOne p n s) else s
    | [] => s

/-! ### The commands of the family -/

/-- DETECTOR_EVENT (R149): the detector presents its event to the sequencer of its partition. -/
def execDetectorEvent (d : DetId) (s : State) : Host.Outcome State Fault Refusal :=
  match s.detPart d.val with
  | none => done s s
  | some p =>
    if d.val < 128 then
      let b := d.val / 16
      done s (presentOne p d.val (feedUntil (s.bank b).feed.length b d.val s))
    else done s (presentOne p d.val s)

/-- The first expiry of a TIMEOUT detector. -/
def State.timeoutAt (s : State) (n : Nat) : Option Label :=
  if s.getL (F.detCfgType n) = 5 then (s.det n).base.map fun r => r + s.lim1 n else none
/-- The first expiry of a SKEW detector. -/
def State.skewAt (s : State) (n : Nat) : Option Label :=
  if s.getL (F.detCfgType n) = 7 then
    (((s.det n).skewA ++ (s.det n).skewB).map fun e => e.1 + s.lim1 n).min?
  else none
/-- The expiry of a PATTERN_DURATION detector in mode LONGER. -/
def State.longerAt (s : State) (n : Nat) : Option Label :=
  if s.getL (F.detCfgType n) = 8 ∧ s.flagL (F.detCfgWindow n) = false ∧ (s.det n).held ∧ (s.det n).fired = false then
    (s.det n).openAt.map fun e => e.1 + s.lim1 n
  else none

/-- A detector's bank has come to the instant of its next expiry: crossings up to that instant are taken first, so that
a crossing that prevents the expiry does. -/
def expireAt (n : Nat) (t : Option Label) (s : State) : State :=
  match t with
  | none => s
  | some x => if s.detOn n then detsTo (n / 16) x (advanceTo x s) else s

/-- TIMEOUT_EXPIRY (R156): r + T passes without a restarting crossing in (r, r + T]. -/
def execTimeoutExpiry (d : DetId) (s : State) : Host.Outcome State Fault Refusal :=
  done s (expireAt d.val (s.timeoutAt d.val) s)

/-- SKEW_EXPIRY (R158): a + LIMIT passes without a match. -/
def execSkewExpiry (d : DetId) (s : State) : Host.Outcome State Fault Refusal :=
  done s (expireAt d.val (s.skewAt d.val) s)

/-- PATTERN_LONGER_EXPIRY (R160): the pattern has held for T and still holds. -/
def execPatternLongerExpiry (d : DetId) (s : State) : Host.Outcome State Fault Refusal :=
  done s (expireAt d.val (s.longerAt d.val) s)

end Sys2Proof.Machine
end

