-- ==== Sys2Proof/Machine/Sequencer.lean ====
section
/-! DEFINITION. Machine/Sequencer.lean: the trigger sequencers: terms, counters, timers, cross-trigger flags, actions,
the evaluation of one sample in substeps, TRIGOUT, the rules checked at ARM, and the commands of the family (R176 to
R204). -/

namespace Sys2Proof.Machine

/-! ### Configuration, as live -/

/-- LIMIT of a timer. -/
def State.tmrLimit (s : State) (p k : Nat) : Nat := s.getL2 (F.seqTmrLimLoLimit p k) (F.seqTmrLimHiLimit p k)
/-- TC of a counter. -/
def State.cntTc (s : State) (p k : Nat) : Nat := s.getL2 (F.seqCntTcLoTc p k) (F.seqCntTcHiTc p k)
/-- DWELL of a level. -/
def State.dwell (s : State) (p l : Nat) : Nat := s.getL2 (F.lvlDwellLoDwell p l) (F.lvlDwellHiDwell p l)
/-- A term selector of a branch: `hold` reads the staged or the live word. -/
def termSel (g : Fld → Nat) (p l b i : Nat) : Nat :=
  if i % 2 = 0 then g (F.brTermSelLo p l b (i / 2)) else g (F.brTermSelHi p l b (i / 2))
/-- Truth-table entry of a branch. -/
def State.ttBit (s : State) (p l b i : Nat) : Bool := (s.getL (F.brTtTt p l b (i / 32))).testBit (i % 32)

/-! ### Counters and timers (R187 to R190) -/

/-- Counter of a sequencer. -/
def Seq.cnt (q : Seq) (k : Nat) : Nat := spGet 0 k q.cnts
/-- Timer of a sequencer. -/
def Seq.tmr (q : Seq) (k : Nat) : Tmr := spGet {} k q.tmrs
/-- A timer is replaced. -/
def setTmr (p k : Nat) (t : Tmr) (s : State) : State := modSeq p (fun q => { q with tmrs := spSet {} k t q.tmrs }) s

/-- CNT_OPS on one counter (R187). -/
def counterOp (p k op : Nat) (s : State) : State :=
  let q := s.seq p
  let v := q.cnt k
  let tc := s.cntTc p k
  let next :=
    if op = 1 then
      if v = tc then (if s.flagL (F.seqCntCfgCntMode p k) then tc else 0) else (v + 1) % 2 ^ 48
    else if op = 2 then 0 else v
  setSeq p { q with cnts := spSet 0 k next q.cnts } s

/-- The instant at which a running timer reaches LIMIT. -/
def State.tmrExpiry (s : State) (p k : Nat) : Option Label :=
  let t := (s.seq p).tmr k
  if t.running then some (t.at_ + (s.tmrLimit p k - t.value)) else none

/-- A timer's value at an instant; from its expiry on it has returned to 0 (R190). -/
def State.tmrValue (s : State) (p k : Nat) (at_ : Label) : Nat :=
  let t := (s.seq p).tmr k
  let lim := s.tmrLimit p k
  if t.running = false then t.value
  else
    let v := t.value + (at_ - t.at_)
    if v < lim then v else if s.flagL (F.seqTmrCfgTmrMode p k) then v % lim else 0

/-- An expiry at `x` takes place: ONESHOT returns to 0 and stops, PERIODIC to 0 and runs on; expiries of it up to `upto`
are taken as passed (R190, R202). -/
def expireTmr (p k : Nat) (x upto : Label) (s : State) : State :=
  let lim := s.tmrLimit p k
  if s.flagL (F.seqTmrCfgTmrMode p k) then
    setTmr p k { value := 0, running := true, at_ := if lim = 0 then x else x + (upto - x) / lim * lim } s
  else setTmr p k { value := 0, running := false, at_ := x } s

/-- A timer started in this sample that has already expired before an operation on it at `t`: its expiry is presented
at the start of the next sample (R190). -/
def deferExpiry (p k : Nat) (t : Label) (s : State) : State :=
  match s.tmrExpiry p k with
  | some x =>
    if (s.seq p).fresh.contains k ∧ x ≤ t then
      expireTmr p k x t (modSeq p (fun q => { q with expiries := q.expiries ++ [(k, x)] }) s)
    else s
  | none => s

/-- TMR_OPS on one timer at action time `t` (R189). -/
def timerOp (p k op : Nat) (t : Label) (s : State) : State :=
  if op = 0 then s
  else
    let s := deferExpiry p k t s
    let x := (s.seq p).tmr k
    let start (v : Nat) (s : State) : State :=
      modSeq p (fun q => { q with fresh := if q.fresh.contains k then q.fresh else q.fresh ++ [k] })
        (setTmr p k { value := v, running := true, at_ := t } s)
    match op with
    | 1 => if x.running then s else start x.value s
    | 2 => if x.running then setTmr p k { value := s.tmrValue p k t, running := false, at_ := t } s else s
    | 3 => setTmr p k { value := 0, running := false, at_ := t } s
    | 4 => start 0 s
    | _ => s

/-! ### Terms (R177, R178) -/

/-- The level of a TRIGIN input at a sample: its last labelled edge at or before the sample decides (R178). -/
def State.triginAt (s : State) (n : Nat) (t : Label) : Bool :=
  let es := s.flags.triginEdges.filter fun e => e.2.1 == n
  match (es.filter fun e => decide (e.1 ≤ t)).getLast? with
  | some e => e.2.2
  | none => match es.head? with
    | some e => !e.2.2
    | none => s.flags.triginLevel.getLsbD n

/-- Whether an event raises a term selector: a TRIGIN edge raises the selector of its direction and of "either". -/
def raises (sel : Nat) (e : Ev) : Bool :=
  e.sel == sel || (sel / 0x1000 == 2 && e.sel / 0x1000 == 2 && sel % 16 / 4 == 2 && e.sel % 4 == sel % 4)

/-- A term of a substep of sample `t` with upper end `ub`: its value and, for an event term, TIME and EXACT of its event
(R178, R192). -/
def State.term (s : State) (p : Nat) (t ub : Label) (evs : List Ev) (exps : List (Nat × Label)) (sel : Nat) :
    Bool × Option (Label × Bool) :=
  let q := s.seq p
  let i := sel % 0x1000
  let event (l : List (Label × Bool)) : Bool × Option (Label × Bool) :=
    (!l.isEmpty, l.foldl (fun m e => match m with | some f => if f.1 < e.1 then some e else m | none => some e) none)
  match sel / 0x1000 with
  | 1 | 2 => event ((evs.filter (raises sel)).map fun e => (e.time, e.exact))
  | 3 => (s.triginAt (i % 4) t, none)
  | 4 => ((s.flagView (s.getF (F.seqStatusSeqLatency p))).getLsbD (i % 8), none)
  | 5 =>
    let v := if (s.getL (F.seqCtrlExactCnt p)).testBit (i % 4) then q.cnt (i % 4) else spGet 0 (i % 4) q.cntsCycle
    (v == s.cntTc p (i % 4), none)
  | 6 => event ((exps.filter fun e => e.1 == i % 4).map fun e => (e.2, true))
  | 7 =>
    let k := i % 4
    let past := match s.tmrExpiry p k with
      | some x => q.fresh.contains k && !s.flagL (F.seqTmrCfgTmrMode p k) && decide (x ≤ ub)
      | none => false
    ((q.tmr k).running && !past, none)
  | 8 => (q.store, none)
  | _ => (false, none)

/-! ### Actions (R184 to R186, R197, R199) -/

/-- STORE changes at sample `t`: a MODE record gives it at the end of the block (R282), and a run ends with the block in
which STORE becomes 0 (R186, R270, R272). -/
def setStore (p : Nat) (on : Bool) (t : Label) (s : State) : State :=
  if (s.seq p).store = on then s
  else
    let s := setF (F.seqStatusStore p) (bit on) (modSeq p (fun q => { q with store := on }) s)
    let s := modPart p (fun x => { x with
      storeCut := x.storeCut || !on,
      storeAny := on || (x.storeAny && (s.stateMode p || decide (x.blockAt < t))) }) s
    let r := modeRec s.q on true (blockIn (s.blockLen p) t) (if on then 6 else 5) 3 0 0 0 t
    modPart p (fun x => { x with storeModes := x.storeModes ++ [r] }) s

/-- The last change a sequencer makes to each flag of a mask in this core cycle (R196). -/
def changeFlags (p mask : Nat) (set : Bool) (s : State) : State :=
  modSeq p (fun q => { q with xfChange :=
    (q.xfChange.filter fun c => !mask.testBit c.1) ++ ((List.range 8).filter mask.testBit).map fun k => (k, set) }) s

/-- TRIGOUT outputs of a mask that a sequencer reaches (R197). -/
def State.reached (s : State) (p mask : Nat) : List Nat :=
  (List.range 4).filter fun n => mask.testBit n && (s.getF (F.trigoutCfgSrcMask n)).testBit p

/-- Leading-edge time of a TRIGOUT pulse for an acting sample (R197). -/
def trigoutLead (t : Label) : Label := coreOf t + 26240

/-- Whether the pin of a TRIGOUT output is high now: active within a pulse, inverted by POLARITY (R197, R214). -/
def State.trigoutHigh (s : State) (n : Nat) : Bool :=
  (s.flag (F.trigoutCfgEn n) && decide (spGet 0 n s.flags.trigoutLead ≤ s.now) && decide (s.now < spGet 0 n s.flags.trigoutEnd))
    != s.flag (F.trigoutCfgPolarity n)

/-- A pulse on a TRIGOUT output: WIDTH cycles of 320 ticks from its leading edge; one that arrives while the output is
active extends it and makes no new edge (R197). A disabled output holds the inactive level. -/
def trigoutPulse (lead : Label) (n : Nat) (s : State) : State :=
  if s.flag (F.trigoutCfgEn n) = false then s
  else
    let old := spGet 0 n s.flags.trigoutEnd
    let end_ := max old (lead + s.getF (F.trigoutCfgWidth n) * 320)
    let start := if old ≤ lead then lead else spGet 0 n s.flags.trigoutLead
    emit (.trigout n lead end_ (decide (old ≤ lead)) (s.flag (F.trigoutCfgPolarity n)))
      { s with flags := { s.flags with trigoutEnd := spSet 0 n end_ s.flags.trigoutEnd,
                                       trigoutLead := spSet 0 n start s.flags.trigoutLead } }

/-- The state-sample count of the state sample whose edge is labelled `t` (R166), or the samples evaluated so far. -/
def State.stateIndex (s : State) (p : Nat) (t : Label) : Nat :=
  match (s.banksOf p).findSome? fun b =>
      (((s.bank b).stRun ++ (s.bank b).stSamples).find? fun e => decide (e.label = t)).map StateSample.index with
  | some i => i
  | none => (s.seq p).stateCount

/-- A TRIGGER: its record goes to the segment machinery (R199, R200, R280). -/
def trigger (p : Nat) (t time : Label) (exact forced : Bool) (anchor level branch : Nat) (lead : Option Label)
    (s : State) : State :=
  let q := s.seq p
  let r := triggerRec s.q (s.stateMode p) anchor p lead forced exact branch level
    (s.getF (F.seqStatusSeqLatency p) - 11) t (s.stateIndex p t) time (t - q.first)
    ((List.range 4).map q.cnt) ((List.range 4).map fun k => s.tmrValue p k time)
  let s := bump (0x3000 + p * 0x10) 1 (setF (F.seqEventsTriggered p) 1 s)
  opTrigger p t r s

/-- The actions of a branch that fires, in the order of R184, at action time `at_` in sample `t`. -/
def actions (p l b : Nat) (t at_ : Label) (exact : Bool) (anchor : Nat) (s : State) : State :=
  let on (x : Nat → Nat → Nat → Fld) : Bool := s.flagL (x p l b)
  let next := s.getL (F.brAct0NextLevel p l b)
  let enters := on F.brAct0Goto && next != l
  let mask := s.getL (F.brAct2Trigout p l b)
  let s1 := setF (F.seqStatusLastBranch p) b s
  let s1 := each (fun k => counterOp p k (bitsOf (s.getL (F.brAct1CntOps p l b)) (2 * k) 2)) (List.range 4) s1
  let s1 := each (fun k => timerOp p k (bitsOf (s.getL (F.brAct1TmrOps p l b)) (3 * k) 3) at_) (List.range 4) s1
  let s1 := changeFlags p (s.getL (F.brAct2XfSet p l b)) true (changeFlags p (s.getL (F.brAct2XfClr p l b)) false s1)
  let s1 := if on F.brAct0StoreOn then setStore p true t s1 else if on F.brAct0StoreOff then setStore p false t s1 else s1
  let s1 := if on F.brAct0Mark then
      bump (0x3003 + p * 0x10) 1 (append p (markerRec s1.q (s1.stateMode p) exact p b l
        (s.getL (F.brAct0MarkCode p l b)) t (s1.stateIndex p t) at_) s1)
    else s1
  let s1 := if on F.brAct0Abandon || (enters && next == 0 && !on F.brAct0Trigger) then
      opAbandon p (bump (0x3002 + p * 0x10) 1 s1) else s1
  let s1 := if on F.brAct0Open || (enters && s.flagL (F.lvlCfgCandidate p next)) then
      opOpen p t (bump (0x3001 + p * 0x10) 1 s1) else s1
  let outs := s.reached p mask
  let s1 := if on F.brAct0Trigger then
      trigger p t at_ exact false anchor l b (if outs.isEmpty then none else some (trigoutLead t))
        (modSeq p (fun q => { q with trigNow := true }) s1)
    else s1
  let s1 := each (trigoutPulse (trigoutLead t)) outs s1
  if enters then
    setF (F.seqStatusLevel p) next (modSeq p (fun q => { q with level := next, occ := 0, entryT := at_ }) s1)
  else s1

/-! ### One substep, one sample (R180 to R183, R190 to R193) -/

/-- The anchors of a branch among its terms that are 1: the event terms with the largest TIME (R192). -/
def anchors (ts : List (Nat × (Bool × Option (Label × Bool)))) : List (Nat × Label × Bool) :=
  let l : List (Nat × Label × Bool) := ts.filterMap fun e => e.2.2.map fun v => (e.1, v)
  let top : Nat := (l.map fun e => e.2.1).max?.getD 0
  (l.filter fun e => decide (e.2.1 = top)).eraseDups

/-- The branches of the level from branch `b` on are taken in order; the first eligible one whose condition is true
fires (R180 to R182). Which of several terms of one TIME is the anchor is a free value. -/
def branches (p l : Nat) (t ub : Label) (evs : List Ev) (exps : List (Nat × Label)) : List Nat → State → State
  | [], s => s
  | b :: r, s =>
    let q := s.seq p
    let eligible := s.flagL (F.brAct0En p l b) && !q.deadBranches.contains (4 * l + b)
      && (s.flagL (F.brAct0IgnoreDwell p l b) || decide (q.entryT + s.dwell p l ≤ ub))
    let ts := (List.range 8).map fun i =>
      let sel := termSel s.getL p l b i
      (sel, s.term p t ub evs exps sel)
    let idx := ((ts.zipIdx).map fun e => if e.1.2.1 then 2 ^ e.2 else 0).sum
    if eligible = false ∨ s.ttBit p l b idx = false then branches p l t ub evs exps r s
    else if b = 0 ∧ q.occ + 1 < s.getL (F.lvlCfgOccur p l) then
      branches p l t ub evs exps r (modSeq p (fun q => { q with occ := q.occ + 1 }) s)
    else
      let s := if b = 0 then modSeq p (fun q => { q with occ := 0 }) s else s
      match anchors ts with
      | [] => actions p l b t ub false 0 s
      | [a] => actions p l b t a.2.1 a.2.2 a.1 s
      | a :: as =>
        let c := ((a :: as)[s.freeN % (as.length + 1)]?).getD a
        actions p l b t c.2.1 c.2.2 c.1 (spend s)

/-- One substep of sample `t` with upper end `ub`. -/
def substep (p : Nat) (t ub : Label) (evs : List Ev) (exps : List (Nat × Label)) (s : State) : State :=
  branches p (s.seq p).level t ub evs exps (List.range 4) s

/-- Timers, started before this sample, that expire in an interval: number and instant. -/
def State.expiring (s : State) (p : Nat) (c : Label → Bool) : List (Nat × Label) :=
  (List.range 4).filterMap fun k =>
    match s.tmrExpiry p k with
    | some x => if c x && !(s.seq p).fresh.contains k then some (k, x) else none
    | none => none

/-- Expiries within an earlier sample are presented at the start of the sample in time order (R190), in substeps whose upper
end is the previous sample instant `ub`, which R191 does not give them (DESIGN CHOICE); the first argument bounds the
steps. -/
def lateSubsteps : Nat → Nat → Label → Label → State → State
  | 0, _, _, _, s => s
  | k + 1, p, t, ub, s =>
    match ((s.seq p).expiries.map Prod.snd).min? with
    | none => s
    | some x =>
      let now := (s.seq p).expiries.filter fun e => decide (e.2 = x)
      let s := modSeq p (fun q => { q with expiries := q.expiries.filter fun e => decide (e.2 ≠ x) }) s
      lateSubsteps k p t ub (substep p t ub [] now s)

/-- Expiries and dwell ends that fell in a gap, after `pos` and up to `lo`, are presented at the start of the first resumed
sample in time order, each timer's earliest (R202), in substeps that end at them. The first argument bounds the steps. -/
def gapSubsteps : Nat → Nat → Label → Label → Label → State → State
  | 0, _, _, _, _, s => s
  | k + 1, p, t, pos, lo, s =>
    let q := s.seq p
    let due := s.expiring p fun x => decide (pos < x) && decide (x ≤ lo)
    let dwell := q.entryT + s.dwell p q.level
    let ends := if pos < dwell ∧ dwell ≤ lo then [dwell] else []
    match (due.map Prod.snd ++ ends).min? with
    | none => s
    | some x =>
      let now := due.filter fun e => decide (e.2 = x)
      let s := each (fun e => expireTmr p e.1 x lo) now s
      gapSubsteps k p t x lo (substep p t x [] now s)

/-- What is presented before the events of sample `t`, where `prev` is the sample evaluated before it and `lo` the sample
instant before it: timers that expired by `prev` have expired, whichever is presented first (R190). -/
def dueSubsteps (p : Nat) (t prev lo : Label) (s : State) : State :=
  let due := s.expiring p fun x => decide (x ≤ prev)
  let s := each (fun e s => expireTmr p e.1 e.2 prev (modSeq p (fun q => { q with expiries := q.expiries ++ [e] }) s)) due s
  gapSubsteps 24 p t prev lo (lateSubsteps 9 p t prev s)

/-- The substeps of sample `t` from instant `pos` on (R191). An expiry that an operation of the very substep that ends at it
cancels leaves the later events to a further substep of the sample (DESIGN CHOICE: R191 gives the upper end before the
operation acts, and joins the events of an expiry cancelled earlier). `exps` are the expiries at `pos`; `force` says that the
substep takes place even with no event; the first argument bounds the steps. -/
def substeps : Nat → Nat → Label → Label → List Ev → List (Nat × Label) → Bool → State → State
  | 0, _, _, _, _, _, _, s => s
  | k + 1, p, t, pos, evs, exps, force, s =>
    let ahead := s.expiring p fun x => decide (pos < x) && decide (x ≤ t)
    let ub := (ahead.map Prod.snd).min?.getD t
    let now := evs.filter fun e => decide (e.time ≤ ub)
    let s := if force ∨ now ≠ [] then substep p t ub now exps s else s
    if ahead = [] then s
    else
      let ks := s.expiring p fun x => decide (x = ub)
      let s := each (fun e => expireTmr p e.1 ub t) ks s
      substeps k p t ub (evs.filter fun e => decide (ub < e.time)) ks (ks ≠ []) s

/-- One event for each source, the earliest (R150, R191: state mode). -/
def onePerSource : List Ev → List Ev
  | [] => []
  | e :: r =>
    let src (v : Ev) : Nat := if v.sel / 0x1000 = 2 then 0x2000 + v.sel % 4 else v.sel
    e :: (onePerSource r).filter fun v => decide (src v ≠ src e)

/-- The sequencer evaluates sample `t`; `lo` is the sample before it (R191). -/
def evalSample (p : Nat) (t lo : Label) (s : State) : State :=
  let q := s.seq p
  let mine := q.inbox.filter fun e => decide (e.time ≤ t)
  let mine := if s.stateMode p then onePerSource mine else mine
  let cyc := t / ticksPerCore
  let s := modSeq p (fun q => { q with
    inbox := q.inbox.filter fun e => decide (t < e.time), fresh := [], trigNow := false,
    cntsCycle := if q.cycle = cyc then q.cntsCycle else q.cnts, cycle := cyc }) s
  let s := dueSubsteps p t (min lo (q.prev.getD lo)) lo s
  substeps 9 p t lo mine [] true s

/-- FORCE_TRIGGER in a sample (R200): a TRIGGER of no branch, unless a branch performed one. It completes the commands
that wait (R326). Its level, counters and timers are those after the sample's own branches have acted (DESIGN CHOICE: R200
does not say which side of them it reads). -/
def forceTrigger (p : Nat) (t : Label) (s : State) : State :=
  let q := s.seq p
  if q.force = [] then s
  else
    let s := modSeq p (fun q => { q with force := [] }) s
    let s := if q.trigNow then s else trigger p t t false true 0 q.level 0 none s
    each (fun c => finish c 0x08 stOk 0 0) q.force s

/-- The counters of segments in POST whose fill end lies before sample `t` are taken for their TRAILER (R263). -/
def keepCounters (p : Nat) (t : Label) (s : State) : State :=
  let cs := (List.range 4).map (s.seq p).cnt
  modPart p (fun x => { x with segs := x.segs.map fun g =>
    if g.id.isSome ∧ g.imago = false ∧ g.cnts = none ∧ g.fillEnd < t then { g with cnts := some cs } else g }) s

/-- State samples labelled `t` take the STORE state of their sample (R272). -/
def markStore (p : Nat) (t : Label) (s : State) : State :=
  let on := (s.seq p).store
  each (fun b => modBank b fun x => { x with stSamples := x.stSamples.map fun e =>
    if e.label = t then { e with store := on } else e }) (s.banksOf p) s

/-- SEQUENCER_SAMPLE (R191): the sequencer of a partition evaluates sample `t`. Before it every detector has taken what
is labelled up to `t` and has presented its events of the sample (R149). -/
def execSequencerSample (p : PartId) (t : Label) (s : State) : Host.Outcome State Fault Refusal :=
  let s1 := advanceTo t s
  let q := s1.seq p
  if q.running = false ∨ q.stopped = true ∨ s1.noCore = true then done s s1
  else
    let bs := s1.banksOf p
    let s1 := each (fun b => detsTo b t) bs s1
    let s1 := each (fun g => gpSample p g t) (s1.gpsOf p) s1
    let ds := bs.flatMap detsOf ++ (s1.gpsOf p).map (128 + ·)
    let s1 := each (fun n s => presentTo p t (s.det n).events.length n s) ds s1
    let s1 := flagsTo (t / ticksPerCore) s1
    let s1 := keepCounters p t s1
    let lo := if s1.stateMode p then q.prev.getD (t - s1.period p) else t - s1.period p
    let s1 := forceTrigger p t (evalSample p t lo s1)
    let s1 := markStore p t s1
    let s1 := modSeq p (fun q => { q with prev := some t, stateCount := q.stateCount + 1 }) s1
    done s (settle p s1)

/-- TMR_EXPIRY (R190): the block is at the instant at which a running timer reaches LIMIT; from then on the timer reads
0. The expiry is presented in the sample that holds it, or in the next one. -/
def execTmrExpiry (p : PartId) (k : Fin 4) (s : State) : Host.Outcome State Fault Refusal :=
  match s.tmrExpiry p k with
  | some x => done s (advanceTo x s)
  | none => done s s

/-- A host write of XF_STATE (R196, R214): bits [23:16] of the written word select the flags that take the values in
[7:0]. The host values prevail over sequencer changes of the core cycle that accepts the write. -/
def xfStateWrite (v : Word) (s : State) : State :=
  let cyc := max s.flags.cycle (s.now / ticksPerCore)
  let hs := ((List.range 8).filter fun k => v.getLsbD (16 + k)).map fun k => (cyc, k, v.getLsbD k)
  { s with flags := { s.flags with host := s.flags.host ++ hs } }

/-- TRIGIN_EDGE (R179): the edge is labelled with TRIGIN_DESKEW and goes to the sequencer of every armed partition, since its
label may lie in an interval that is still to begin; while the capture outputs are gated it is lost, and TRIGIN_LEVEL is the
input's state (R202). TRIGIN_POL inverts the input (R198). -/
def execTriginEdge (n : Fin 4) (rising : Bool) (tPin : Label) (s : State) : Host.Outcome State Fault Refusal :=
  let s1 := advanceTo tPin s
  let up := rising != (s.getF F.triginCfgTriginPol).testBit n
  let lvl := if up then s.flags.triginLevel ||| BitVec.ofNat 4 (2 ^ n.val)
    else s.flags.triginLevel &&& ~~~BitVec.ofNat 4 (2 ^ n.val)
  let others := s1.flags.triginEdges.filter fun e => e.2.1 != n.val
  if s1.noCore then done s { s1 with flags := { s1.flags with triginLevel := lvl, triginEdges := others } }
  else
    let time := tPin + s.getF (F.triginDeskewDeskew n)
    let kept := s1.flags.triginEdges.filter fun e => decide (tPin ≤ e.1 + ticksPerFrame)
    let s1 := { s1 with flags := { s1.flags with triginLevel := lvl, triginEdges := kept ++ [(time, n.val, up)] } }
    let e : Ev := { sel := 0x2000 + (if up then 0 else 4) + n.val, time := time, exact := true, sample := time, aux := 0 }
    done s (each (fun p s => if (s.part p).armed then modSeq p (fun q => { q with inbox := q.inbox ++ [e] }) s else s)
      (List.range 8) s1)

/-! ### Start, restart and stop (R194, R201, R202) -/

/-- A sequencer starts at sample `t` with level 0, counters and timers 0, STORE_INIT (R201). -/
def startSeq (p : Nat) (t : Label) (s : State) : State :=
  let s := clearSeq p (s.flagL (F.seqCtrlStoreInit p)) s
  setF (F.seqStatusRunning p) 1 (modSeq p (fun q => { q with
    entryT := t, running := true, inbox := q.inbox.filter fun e => decide (t ≤ e.time) }) s)

/-- On resume after a LOCK_LOSS or ECLOSION gap (R202): a restart as at ARM, which writes no MODE record, or the
sequencer keeps its state and expiries of the gap are presented in the first sample. -/
def resumeSeq (p : Nat) (t : Label) (s : State) : State :=
  if s.flagL (F.seqCtrlGapRestart p) then
    let s := startSeq p t (abandonAll p s)
    postPart p 0x1202 p (setF (F.seqEventsGapRestart p) 1 s)
  else s

/-! ### The rules checked at ARM (R177, R178, R183, R185, R190, R201) -/

/-- Whether a term selector is no reserved encoding (R177). -/
def selOk (sel : Nat) : Bool :=
  let i := sel % 0x1000
  match sel / 0x1000 with
  | 0 => i == 0
  | 1 => decide (i < 136)
  | 2 => decide (i < 12)
  | 3 => decide (i < 4)
  | 4 => decide (i < 8)
  | 5 => decide (i < 4)
  | 6 => decide (i < 4)
  | 7 => decide (i < 4)
  | 8 => i == 0
  | _ => false

/-- Words of a branch that break a rule, as offsets in the branch, in rising order; `g` reads the fields (staged ones, or an
image's), `dets` are the detectors the partition may name, `per` the sample period or 100 ticks in state mode (R185, R190,
R178, R201). A rule that joins the timer's words with a branch's is broken by the branch's. -/
def branchBad (g : Fld → Nat) (dets : Nat → Bool) (per p l b : Nat) : List Nat :=
  let on (x : Nat → Nat → Nat → Fld) : Bool := g (x p l b) == 1
  let set := g (F.brAct2XfSet p l b)
  let clr := g (F.brAct2XfClr p l b)
  let permit := g (F.xfPermitPermit p)
  let short (k : Nat) : Bool := g (F.seqTmrCfgTmrMode p k) == 1
    && decide (g (F.seqTmrLimLoLimit p k) + g (F.seqTmrLimHiLimit p k) * 2 ^ 32 < per)
  let termBad (i : Nat) : Bool :=
    let v := termSel g p l b i
    !(selOk v && (v / 0x1000 != 1 || dets (v % 0x1000))) || ((v / 0x1000 == 6 || v / 0x1000 == 7) && short (v % 4))
  let opBad (k : Nat) : Bool := [1, 4].contains (bitsOf (g (F.brAct1TmrOps p l b)) (3 * k) 3) && short k
  let flagBad (k : Nat) : Bool :=
    (set.testBit k && clr.testBit k) || ((set.testBit k || clr.testBit k) && !permit.testBit k)
  ((List.range 4).filter fun j => termBad (2 * j) || termBad (2 * j + 1)).map (fun j => 0x20 + 4 * j)
    ++ (if (on F.brAct0Trigger && on F.brAct0Abandon) || (on F.brAct0StoreOn && on F.brAct0StoreOff) then [0x30] else [])
    ++ (if (List.range 4).any opBad then [0x34] else [])
    ++ (if (List.range 8).any flagBad then [0x38] else [])

/-- Whether an enabled branch breaks a rule. -/
def branchBreaks (g : Fld → Nat) (dets : Nat → Bool) (per p l b : Nat) : Bool :=
  g (F.brAct0En p l b) == 1 && !(branchBad g dets per p l b).isEmpty
/-- Whether a level breaks a rule of its own: OCCUR, CANDIDATE of level 0. -/
def levelBreaks (g : Fld → Nat) (p l : Nat) : Bool :=
  g (F.lvlCfgOccur p l) == 0 || (l == 0 && g (F.lvlCfgCandidate p 0) == 1)

/-- The first level and branch that break a rule; a level's own rule names branch 0. -/
def seqBreach (g : Fld → Nat) (dets : Nat → Bool) (per p : Nat) : Option (Nat × Nat) :=
  (List.range 16).findSome? fun l =>
    if levelBreaks g p l then some (l, 0)
    else (List.range 4).findSome? fun b => if branchBreaks g dets per p l b then some (l, b) else none

/-- The block offset of the first word that breaks a rule: level words come before those of branches (R206, R212, R213). -/
def seqBadWord (g : Fld → Nat) (dets : Nat → Bool) (per p : Nat) : Option Nat :=
  match (List.range 16).find? (levelBreaks g p) with
  | some l => some (0x200 + l * 0x10)
  | none => (List.range 64).findSome? fun i =>
    if branchBreaks g dets per p (i / 4) (i % 4) then
      (branchBad g dets per p (i / 4) (i % 4)).head?.map fun o => 0x1000 + i * 0x40 + o
    else none

/-- Detectors that a term of partition `p` may name, with global pattern detectors as `g` assigns them (R178). -/
def State.mayName (s : State) (g : Fld → Nat) (p n : Nat) : Bool :=
  if n < 128 then (s.banksOf p).contains (n / 16)
  else g (F.gpCfgAssigned (n - 128)) == 1 && g (F.gpCfgPartition (n - 128)) == p

/-- The shortest LIMIT of a PERIODIC timer of a partition, on the values about to apply (R190). -/
def State.limitFloor (s : State) (p : Nat) : Nat :=
  if s.flag (F.partModeStateMode p) then 100 else 80 * 2 ^ s.getF (F.partModeRate p)

end Sys2Proof.Machine
end

