-- ==== Sys2Proof/Machine/FrontEnd.lean ====
section
/-! DEFINITION. Machine/FrontEnd.lean: the input front end: crossings and their labels, state clocks, calibration, bank
faults and soft resets, and the commands of the family (R110 to R136). -/

namespace Sys2Proof.Machine

/-- An event of a bank with its sticky bit (R136). -/
def feEvent (b code payload : Nat) (bit_ : Fld) (s : State) : State := postBank b code payload (setF bit_ 1 s)

/-- Whether calibration steps 0 to 3 have disconnected a bank's inputs (R126). -/
def State.disconnected (s : State) (b : Nat) : Bool := s.getF (F.feCalStatusStepRunning b) % 16 != 0

/-- Every comparator of a bank starts low (R113); its crossing stream is empty. -/
def comparatorsLow (b : Nat) (s : State) : State :=
  modBank b (fun x => { x with lvlU := 0, lvlL := 0, startU := 0, startL := 0, fedU := 0, fedL := 0, cross := [],
                               feed := [], lastX := [] }) s

/-- Whether a bank belongs to a partition whose armed interval has begun. -/
def State.bankBegun (s : State) (b : Nat) : Bool :=
  match s.partOf b with
  | some p => (s.part p).begun.isSome
  | none => false

/-! ### Crossings (R115 to R117, R132) -/

/-- Order of crossings of one label on one channel: L before U when rising, U before L when falling (R155). -/
def crossingRank (x : Crossing) : Nat :=
  match x.cmp, x.rising with
  | .l, true => 0
  | .u, true => 1
  | .u, false => 0
  | .l, false => 1

/-- A crossing takes its place among those that wait for the detectors. -/
def insertFeed (f : Feed) : List Feed → List Feed
  | [] => [f]
  | g :: r =>
    if f.x.label < g.x.label
      ∨ (f.x.label = g.x.label ∧ (f.x.chan < g.x.chan ∨ (f.x.chan = g.x.chan ∧ crossingRank f.x < crossingRank g.x)))
    then f :: g :: r else g :: insertFeed f r

/-- A comparator's state set in a pair of words. -/
def setLevel (ul : DWord × DWord) (c : Cmp) (chan : Nat) (v : Bool) : DWord × DWord :=
  match c with
  | .u => (setBit ul.1 chan v, ul.2)
  | .l => (ul.1, setBit ul.2 chan v)

/-- Key of a comparator: 2 × channel, + 1 for L. -/
def cmpKey (chan : Nat) (c : Cmp) : Nat := match c with | .u => 2 * chan | .l => 2 * chan + 1

/-- Whether an entry is the crossing of a comparator with a label. -/
def Crossing.is (x : Crossing) (label : Label) (chan : Nat) (c : Cmp) : Bool :=
  decide (x.label = label) && x.chan == chan && x.cmp == c

/-- A removed pair is counted for the frame that holds its first crossing (R116, R135). -/
def Bank.countPair (x : Bank) (first : Label) : Bank :=
  if first < x.countFrom then { x with mergedPrev := x.mergedPrev + 1 }
  else if first < x.countFrom + ticksPerFrame then { x with merged := x.merged + 1 }
  else { x with mergedNext := x.mergedNext + 1 }

/-- A pair of crossings `w` ticks apart is removed (R116): the stream loses the first, the second never enters it, and
the detectors get a notice in its place. Where the first has been packed or taken already, the state goes back. -/
def removePair (b : Nat) (first : Label) (w chan : Nat) (c : Cmp) (rising : Bool) (s : State) : State :=
  let x := s.bank b
  let inCross := x.cross.any fun e => e.is first chan c
  let inFeed := x.feed.any fun f => f.x.is first chan c && f.width == 0
  let start := if inCross then (x.startU, x.startL) else setLevel (x.startU, x.startL) c chan rising
  let seen := if inFeed then (x.fedU, x.fedL) else setLevel (x.fedU, x.fedL) c chan rising
  let lvl := setLevel (x.lvlU, x.lvlL) c chan rising
  let feed := x.feed.map fun f => if f.x.is first chan c && f.width == 0 then { f with width := w } else f
  let y : Bank := { x with
    cross := x.cross.filter (fun e => !e.is first chan c), feed := feed,
    lastX := spSet 0 (cmpKey chan c) 0 x.lastX, startU := start.1, startL := start.2, fedU := seen.1, fedL := seen.2,
    lvlU := lvl.1, lvlL := lvl.2 }
  let s := match s.partOf b with
    | some p => if (s.part p).begun.isSome then modPart p (fun q => { q with pairs := first :: q.pairs }) s else s
    | none => s
  let s := bump (0x1000 + b * 0x10) 1 (setF (F.feBankEventsTdcMerge b) 1 (setBank b (y.countPair first) s))
  oncePerFrame (rateKey 0x1008 b) (postBank b 0x1008 b) s

/-- A bank with no armed interval keeps only the crossings that a later one may still remove or that lie ahead. -/
def foldOld (b : Nat) (t : Label) (s : State) : State :=
  if s.bankBegun b then s
  else
    let x := s.bank b
    let old := x.cross.takeWhile fun e => decide (e.label + 160 ≤ t)
    let start := old.foldl crossed (x.startU, x.startL)
    let oldF := x.feed.takeWhile fun f => decide (f.x.label + 160 ≤ t)
    let seen := oldF.foldl fed (x.fedU, x.fedL)
    setBank b { x with cross := x.cross.drop old.length, startU := start.1, startL := start.2,
                       feed := x.feed.drop oldF.length, fedU := seen.1, fedL := seen.2 } s

/-- A crossing enters the stream with its label, unless R116 removes it with the one before it. -/
def addCrossing (b chan : Nat) (c : Cmp) (rising : Bool) (label : Label) (s : State) : State :=
  let x := s.bank b
  let last := spGet 0 (cmpKey chan c) x.lastX
  if last ≠ 0 ∧ label < last - 1 + 160 then removePair b (last - 1) (label - (last - 1)) chan c rising s
  else
    let e : Crossing := { label := label, chan := chan, cmp := c, rising := rising }
    let lvl := setLevel (x.lvlU, x.lvlL) c chan rising
    setBank b { x with cross := insertCrossing e x.cross, feed := insertFeed { x := e } x.feed,
                       lastX := spSet 0 (cmpKey chan c) (label + 1) x.lastX, lvlU := lvl.1, lvlL := lvl.2 } s

/-- A crossing of a bank that samples at 0.8 GS/s with its TDCs off (R132): it takes the label of the first sample
instant that shows the new state. A second change before that instant leaves a sample that shows none. -/
def addSlow (b chan : Nat) (c : Cmp) (rising : Bool) (t : Label) (s : State) : State :=
  let x := s.bank b
  let label := ceilTo 640 t
  let lvl := setLevel (x.lvlU, x.lvlL) c chan rising
  if x.cross.any fun e => e.is label chan c then
    setBank b { x with cross := x.cross.filter (fun e => !e.is label chan c),
                       feed := x.feed.filter (fun f => !f.x.is label chan c), lvlU := lvl.1, lvlL := lvl.2 } s
  else
    let e : Crossing := { label := label, chan := chan, cmp := c, rising := rising }
    setBank b { x with cross := insertCrossing e x.cross, feed := insertFeed { x := e } x.feed,
                       lvlU := lvl.1, lvlL := lvl.2 } s

/-- The label of a crossing at a pin (R115): DESKEW later, or the instant itself where a change of the threshold at an
ARM made the comparator change state (R113). -/
def State.crossLabel (s : State) (b c : Nat) (tPin : Label) : Label :=
  if (s.bank b).thrAt = tPin + 1 ∧ (s.bank b).thrChans.contains c then tPin else tPin + s.getL (F.chCfgDeskew b c)

/-- CHANNEL_CROSSING (R115, R116): the crossing is labelled with the channel's DESKEW and enters the stream. In reduced
service it takes the label of the first sample instant that shows it (R132). While the sample clock is gated or the bank
is stopped it changes the state and no crossing is labelled. -/
def execChannelCrossing (b : BankId) (c : ChanId) (cmp : Cmp) (rising : Bool) (tPin : Label) (s : State) :
    Host.Outcome State Fault Refusal :=
  let s1 := foldOld b tPin (advanceTo tPin s)
  let x := s1.bank b
  let single := s1.flagL (F.feBankCtrlCmpMode b) || x.slow
  let word := match cmp with | .u => x.lvlU | .l => x.lvlL
  if (single && cmp == .l) || s1.disconnected b || s1.domainOff (10 + b) || word.getLsbD c.val == rising then done s s1
  else if s1.noSample || s1.flag (F.feBankStatusStopped b) then
    let lvl := setLevel (x.lvlU, x.lvlL) cmp c rising
    let st := setLevel (x.startU, x.startL) cmp c rising
    let fd := setLevel (x.fedU, x.fedL) cmp c rising
    done s (setBank b { x with lvlU := lvl.1, lvlL := lvl.2, startU := st.1, startL := st.2, fedU := fd.1, fedL := fd.2 } s1)
  else
    let label := s1.crossLabel b c tPin
    done s (if x.slow then addSlow b c cmp rising label s1 else addCrossing b c cmp rising label s1)

/-! ### A bank resumes (R133, R266, R485) -/

/-- The global pattern detectors of a partition that compare a channel of a bank restart (R161, R164). -/
def restartGpsOf (p b : Nat) (s : State) : State :=
  each (fun g s => if (s.gpBanks g).contains b then modDet (128 + g) (fun d => { d with matched := false, events := [] }) s
    else s) (s.gpsOf p) s

/-- The detectors that take a bank's samples restart at `t` (R161, R164). -/
def restartBank (p b : Nat) (t : Label) (s : State) : State := restartGpsOf p b (restartDets b t s)

/-- A bank of an armed interval delivers again from `t` on: states at the sample before `t` and at `t`. Limit forcing has
ended, and the bank resumes in PREF (R282). In state mode INIT_U and INIT_L at the beginning of an interval, which no
state sample precedes, are the states just before it (DESIGN CHOICE). -/
def startBank (p b : Nat) (t : Label) (s : State) : State :=
  let x := s.bank b
  let back := if s.stateMode p then 1 else s.period p
  let old := x.cross.takeWhile fun e => decide (e.label + back ≤ t)
  let start := old.foldl crossed (x.startU, x.startL)
  let s := restartBank p b t (setBank b { x with cross := x.cross.drop old.length, startU := start.1, startL := start.2,
                                                 runFirst := none, runWords := [], due := [], forced := false } s)
  if s.stateMode p then s
  else
    let pref := s.getF (F.encStatusPref b)
    setF (F.encStatusLimitActive b) 0 (setEnc b pref pref s)

/-- A bank of an armed interval starts or resumes at `t`: its own GAP records, then a FRAME record with RESUMED. -/
def openBank (p b : Nat) (t : Label) (s : State) : State := openRecords p b t (startBank p b t s)

/-- A bank in state mode resumes with state sample `e`, if it is at or after the resume boundary (R5); its detectors
restart there. -/
def backAt (p b : Nat) (e : Label) (s : State) : State :=
  let x := s.bank b
  if x.gaps ≠ [] ∧ (s.part p).gaps = [] ∧ x.stBack = none ∧ (x.stResume.any fun r => decide (r ≤ e)) = true then
    restartBank p b e (modBank b (fun x => { x with stBack := some e }) s)
  else s

/-- A bank resumes from block boundary `t` on: in state mode with its first state sample at or after it (R5). -/
def resumeBank (p b : Nat) (t : Label) (s : State) : State :=
  if s.stateMode p && !(s.bank b).gaps.isEmpty then
    let s := modBank b (fun x => { x with stResume := some t }) s
    each (fun e => backAt p b (StateSample.label e)) (s.bank b).stSamples s
  else openBank p b t s

/-! ### State clocks (R119, R120) -/

/-- Whether STCLK_EDGE uses an edge. -/
def State.edgeUsed (s : State) (b : Nat) (rising : Bool) : Bool := dirSelects (s.getL (F.feStclkCfgStclkEdge b)) rising

/-- Both edges of a state-clock phase of 99 ticks or fewer are removed, with the state sample of the first (R120). -/
def removePhase (b : Nat) (first : Label) (rising : Bool) (s : State) : State :=
  let x := s.bank b
  let top := x.stSamples.getLast?.filter fun e => decide (e.label = first)
  let had := top.isSome
  let lost := bit had + bit (s.edgeUsed b rising) + (top.bind StateSample.lost).getD 0
  let y : Bank := { x with
    stEdge := 0, stLost := some (x.stLost.getD 0 + lost),
    stSamples := if had then x.stSamples.dropLast else x.stSamples,
    stCount := if had then x.stCount - 1 else x.stCount,
    stBack := if x.stBack = some first then none else x.stBack }
  let s := bump (0x1001 + b * 0x10) 1 (setF (F.feBankEventsStclkMerge b) 1 (setBank b y s))
  oncePerFrame (rateKey 0x1009 b) (postBank b 0x1009 b) s

/-- A used edge takes one state sample (R119): it is read from the crossing stream when it is packed. After removed edges
it ends a GAP record of its own (R120, R277), at which the bank's detectors restart (R164). In an interruption the sample
counts and is discarded, until the first one from the resume boundary on (R5). -/
def takeStateSample (p b : Nat) (rising : Bool) (label : Label) (s : State) : State :=
  let x := s.bank b
  let gone := !x.gaps.isEmpty && x.stBack.isNone || !(s.part p).gaps.isEmpty
  let e : StateSample := { label := label, rising := rising, index := x.stCount, store := (s.seq p).store,
                           lost := if gone then none else x.stLost }
  let s := setBank b { x with stCount := (x.stCount + 1) % 2 ^ 48, stSamples := x.stSamples ++ [e], stLost := none } s
  if gone then backAt p b label s
  else if e.lost.isNone then s
  else restartBank p b label (each (fun n => modDet n fun d => { d with events := [] }) (detsOf b) s)

/-- STCLK_EDGE (R119, R120): the edge is labelled with STCLK_DESKEW; in a state-mode partition a used edge takes a state
sample. -/
def execStclkEdge (b : BankId) (rising : Bool) (tPin : Label) (s : State) : Host.Outcome State Fault Refusal :=
  let s1 := advanceTo tPin s
  match s1.partOf b with
  | none => done s s1
  | some p =>
    if s1.stateMode p = false ∨ s1.noSample = true ∨ s1.flag (F.feBankStatusStopped b) = true
      ∨ s1.disconnected b = true then done s s1
    else
      let label := tPin + s1.getL (F.feStclkCfgStclkDeskew b)
      let last := (s1.bank b).stEdge
      if last ≠ 0 ∧ label < last - 1 + 100 then done s (removePhase b (last - 1) rising s1)
      else
        let s1 := modBank b (fun x => { x with stEdge := label + 1 }) s1
        match (s1.part p).begun with
        | some t => if s1.edgeUsed b rising = true ∧ t ≤ label then done s (takeStateSample p b rising label s1) else done s s1
        | none => done s s1

/-! ### Calibration (R125 to R129) -/

/-- UNCALIBRATED follows STEPS_VALID (R128). -/
def setValid (b valid : Nat) (s : State) : State :=
  setF (F.feBankStatusUncalibrated b) (bit (valid % 16 != 15)) (setF (F.feBankStatusStepsValid b) valid s)

/-- A CALIBRATE in progress after the calibration of a bank ended with `reason`, 0 for done. -/
def calCount (b reason : Nat) (e : Calib) : Calib :=
  if e.left.testBit b = false then e
  else if reason = 0 then { e with left := e.left - 2 ^ b, ok := e.ok + 2 ^ b }
  else { e with left := e.left - 2 ^ b, aborted := e.aborted ++ [(b, reason)] }

/-- The completion of a CALIBRATE (R328). -/
def finishCal (e : Calib) (s : State) : State :=
  let low := (e.aborted.map Prod.fst).min?.getD 0
  let why := ((e.aborted.find? fun a => a.1 == low).map Prod.snd).getD 0
  finish e.cmd 0x0E (if e.aborted.isEmpty then stOk else stPartial)
    (e.ok + (e.aborted.map fun a => 2 ^ a.1).sum * 256) (low * 256 + why) s

/-- The calibration of a bank has ended: the CALIBRATE that waits for it counts it, and completes after the last bank
(R328). -/
def calEnded (b reason : Nat) (s : State) : State :=
  let all := s.cals.map (calCount b reason)
  each finishCal (all.filter fun e => e.left == 0) { s with cals := all.filter fun e => e.left != 0 }

/-- A bank's calibration begins (R126): the steps of a mask, in the order of their bit numbers. -/
def startCal (b steps : Nat) (s : State) : State :=
  match (List.range 5).filter steps.testBit with
  | [] => s
  | k :: r =>
    let s := modBank b (fun x => { x with calSteps := r }) s
    let s := setF (F.feCalStatusStepRunning b) (2 ^ k) (setF (F.feCalStatusStepsDone b) 0 (setF (F.feCalStatusAbortReason b) 0 s))
    let s := setF (F.feBankStatusCalRunning b) 1 s
    if k < 4 then comparatorsLow b s else s

/-- A running calibration of a bank aborts (R127, R128, R135). -/
def abortCal (b reason : Nat) (s : State) : State :=
  if s.flag (F.feBankStatusCalRunning b) = false then s
  else
    let s := modBank b (fun x => { x with calSteps := [] }) s
    let s := setF (F.feCalStatusStepRunning b) 0 (setF (F.feCalStatusAbortReason b) reason s)
    let s := setF (F.feBankStatusCalRunning b) 0 s
    calEnded b reason (feEvent b 0x1003 b (F.feBankEventsCalAborted b) s)

/-- Every running calibration aborts. -/
def abortAllCal (reason : Nat) (s : State) : State := each (fun b => abortCal b reason) (List.range 8) s

/-- DESKEW by step 4 (R127): `round(m_max − m_c)`, halves up, of means in units of 2^−16 tick. -/
def deskewOf (top m : Nat) : Nat := (top - m + 32768) / 65536

/-- The running step of a bank has completed: its coefficients are replaced, and the next step runs (R125, R128). -/
def calStepEnds (b : Nat) (tileTemp : Int) (s : State) : State :=
  let run := s.getF (F.feCalStatusStepRunning b)
  let s := setF (F.feCalStatusStepsDone b) (s.getF (F.feCalStatusStepsDone b) + run) s
  let s := setValid b ((BitVec.ofNat 5 (s.getF (F.feBankStatusStepsValid b)) ||| BitVec.ofNat 5 run).toNat) s
  let s := if run = 4 then setF (F.feBankStatusTempDrift b) 0 (setF (F.feBankStatusTempAtCal b) (twos 8 tileTemp) s) else s
  match (s.bank b).calSteps with
  | k :: r =>
    let s := setF (F.feCalStatusStepRunning b) (2 ^ k) (modBank b (fun x => { x with calSteps := r }) s)
    if k = 4 then comparatorsLow b s else s
  | [] =>
    let s := setF (F.feBankStatusCalRunning b) 0 (setF (F.feCalStatusStepRunning b) 0 s)
    let s := if run < 16 then comparatorsLow b s else s
    calEnded b 0 (feEvent b 0x1002 b (F.feBankEventsCalDone b) s)

/-- CAL_STEP_DONE (R125 to R128): the running step of a bank completes. For step 4 `means` are the mean labels of the 64
channels in units of 2^−16 tick; the step fails as a whole when a channel lacks its edges or a result exceeds 2,047. -/
def execCalStepDone (b : BankId) (tileTemp : Int) (means : List Nat) (s : State) : Host.Outcome State Fault Refusal :=
  if s.flag (F.feBankStatusCalRunning b) = false then done s s
  else if s.getF (F.feCalStatusStepRunning b) = 16 then
    let top := means.max?.getD 0
    let ds := means.map (deskewOf top)
    if ds.length < 64 then done s (abortCal b 3 s)
    else if ds.any fun d => decide (2047 < d) then done s (abortCal b 4 s)
    else done s (calStepEnds b tileTemp (each (fun e => setF (F.chCfgDeskew b e.2) e.1) ds.zipIdx s))
  else done s (calStepEnds b tileTemp s)

/-- CAL_EXT_TIMEOUT (R127): step 4 has not found its edges within EXT_TIMEOUT. -/
def execCalExtTimeout (b : BankId) (s : State) : Host.Outcome State Fault Refusal :=
  if s.getF (F.feCalStatusStepRunning b) = 16 then done s (abortCal b 3 s) else done s s

/-- Whether a calibration of a bank may start (R126). -/
def State.calAllowed (s : State) (b : Nat) : Bool :=
  !s.flag (F.feBankStatusCalRunning b) && s.flag F.csStatusSpllLocked &&
  match s.partOf b with
  | some p => s.partState p == 1 && (s.part p).arming.isNone
  | none => true

/-- A write of FE_CAL_CTRL with START (R126): refused as a whole where a calibration may not start. Answers the state
and whether it was refused. -/
def calWrite (b : Nat) (v : Word) (s : State) : State × Bool :=
  let steps := bitsOf v.toNat 0 5
  let start := bitsOf v.toNat 5 1 = 1 ∧ steps ≠ 0
  if (start ∧ s.calAllowed b = false) ∨ bitsOf v.toNat 8 8 = 0 then (s, true)
  else
    let s := setF (F.feCalCtrlExtEdge b) (bitsOf v.toNat 16 1) (setF (F.feCalCtrlExtTimeout b) (bitsOf v.toNat 8 8)
      (setF (F.feCalCtrlSteps b) steps s))
    (if start then startCal b steps s else s, false)

/-! ### Bank faults and soft resets (R133, R134) -/

/-- A bank stops delivering at `t`: its packer ends its record at the last good sample, and the interruption begins
(R133, R485, R498). -/
def stopBank (b reason detail : Nat) (t : Label) (s : State) : State :=
  let s := match s.partOf b with
    | none => s
    | some p =>
      let x := s.part p
      if x.begun.isNone then s
      else if (s.bank b).gaps ≠ [] then
        modBank b (fun y => { y with gaps := addPiece reason detail (x.blockAt + s.blockLen p) y.gaps }) s
      else if x.gaps ≠ [] then
        if x.gaps.any fun g => g.reason == 1 then s
        else modBank b (fun y => { y with
          gaps := addPiece reason detail (x.blockAt + s.blockLen p) (s.pieces p b) }) s
      else if s.stateMode p then
        let s := packState p b t true false s
        modBank b (fun y => { y with gaps := [{ reason := reason, detail := detail, from_ := s.keptTo p b }],
                                     lost := 0, stLost := none }) s
      else
        let s := packBankTo ((t - x.blockAt) / s.blockLen p + 2) p b x.blockAt t s
        let s := flushRun p b false s
        modBank b (fun y => { y with gaps := [{ reason := reason, detail := detail,
                                                from_ := x.blockAt + ceilTo (s.period p) (t - x.blockAt) }] }) s
  stopDets b (setF (F.feBankStatusStopped b) 1 s)

/-- BANK_FAULT (R133): step 1, the fault is logged and posted, and a soft reset starts where AUTO_RECOVER allows it and
the bank did not recover within the last second. -/
def execBankFault (b : BankId) (code : Fin 256) (chan : ChanId) (s : State) : Host.Outcome State Fault Refusal :=
  let s1 := abortCal b 6 s
  let s1 := stopBank b 4 code s1.now s1
  let s1 := setF (F.feFaultInfoFaultChannel b) chan (setF (F.feFaultInfoFaultCode b) code s1)
  let s1 := bump (0x1002 + b * 0x10) 1 (setF (F.feBankStatusFault b) 1 s1)
  let s1 := feEvent b 0x1000 b (F.feBankEventsFault b) s1
  let s1 := logFault 0x08 b code s1
  let rec_ := (s1.bank b).recovered
  let stays := !s1.flag (F.feBankCtrlAutoRecover b) || (decide (rec_ ≠ 0) && decide (s1.elapsed + 1 < rec_ + ticksPerSecond))
  let s1 := modBank b (fun x => { x with faulted := true, softDone := false, softRun := !stays, stuck := stays }) s1
  if stays then
    let s1 := logFault 0x09 b code s1
    done s (if (s1.partOf b).isSome then setCause 2 s1 else s1)
  else done s s1

/-- Whether an armed partition depends on a bank (R34). -/
def State.bankArmed (s : State) (b : Nat) : Bool :=
  match s.partOf b with
  | some p => (s.part p).armed
  | none => false

/-- A host-written SOFT_RESET (R134): it interrupts a bank of an armed partition with reason HOST_STOP, or starts the
recovery of a stopped bank. -/
def softReset (b : Nat) (s : State) : State :=
  let s := abortCal b 2 s
  let s := if s.flag (F.feBankStatusStopped b) = false ∧ s.bankArmed b then stopBank b 8 1 s.now s else s
  modBank b (fun x => { x with softRun := true, softDone := false, stuck := false }) s

/-- SOFT_RESET_DONE (R134): the deserialiser, TDC pipelines, crossing stream and detector state of the bank are clear;
registers and coefficients stay. FAULT clears, and the comparators start low. -/
def execSoftResetDone (b : BankId) (s : State) : Host.Outcome State Fault Refusal :=
  if (s.bank b).softRun = false then done s s
  else
    let s1 := comparatorsLow b (modBank b (fun x => { x with softRun := false, stEdge := 0, softAt := s.elapsed + 1,
                                                             softDone := s.flag (F.feBankStatusStopped b) }) s)
    let s1 := stopDets b (setF (F.feBankStatusFault b) 0 s1)
    done s s1

/-- BANK_RESUME (R133 step 4): at a frame boundary 9 core cycles or more after the soft reset the bank resumes with its
GAP records and a FRAME record; FE_BANK_RECOVERED is posted where a fault caused the stop (R134). While the whole
partition is interrupted the records wait for its resume (R485). -/
def execBankResume (b : BankId) (t : Label) (s : State) : Host.Outcome State Fault Refusal :=
  let s1 := advanceTo t s
  if (s1.bank b).softDone = false ∨ frameOf t ≠ t
      ∨ s1.elapsed + 1 < (s1.bank b).softAt + 9 * ticksPerCore + (s1.now - t) then done s s1
  else
    let faulted := (s1.bank b).faulted
    let s1 := setF (F.feBankStatusStopped b) 0 (modBank b (fun x => { x with
      softDone := false, faulted := false, stuck := false,
      recovered := if faulted then s1.elapsed + 1 else x.recovered }) s1)
    let s1 := match s1.partOf b with
      | none => s1
      | some p =>
        if (s1.part p).begun.isSome ∧ (s1.part p).gaps = [] then settle p (resumeBank p b t s1) else s1
    done s (if faulted then postBank b 0x1001 b s1 else s1)

end Sys2Proof.Machine
end

