-- ==== Sys2Proof/Machine/Blocks.lean ====
section
/-! DEFINITION. Machine/Blocks.lean: the beginning of an armed interval, blocks, resumes, frames with the adaptive
encoding, the time quality, and the commands BLOCK_BOUNDARY and FRAME_START (R3 to R5, R31, R59, R80,
R85, R95, R259, R266, R273 to R275, R485). -/

namespace Sys2Proof.Machine

/-! ### Resume (R59, R85, R301, R485) -/

/-- Storing of a partition is held back: the capture outputs are gated or have been ungated for less than 9 core cycles
(R59 step 6), a pseudo-channel retires, thermal step STOP holds, a time step runs, or no page can be had. -/
def State.heldBack (s : State) (p : Nat) : Bool :=
  s.noCore || decide (s.elapsed + 1 < s.clk.ungatedAt + 9 * ticksPerCore) || !s.mgmt.retiring.isEmpty || (s.getF F.thermStatusSteps).testBit 2
    || s.cic.resumeAt.isSome || ((s.part p).atLimit && (s.part p).gaps.any fun g => g.reason == 2)

/-- Global pattern detectors of a partition restart (R161, R164). -/
def restartGps (p : Nat) (s : State) : State :=
  each (fun g => modDet (128 + g) fun d => { d with matched := false, events := [] }) (s.gpsOf p) s

/-- A stopped bank begins an interruption of its own at `t`: for its fault, or for the host's soft reset (R133, R134,
R485). -/
def stoppedPiece (b : Nat) (t : Label) (s : State) : State :=
  if (s.bank b).gaps = [] then
    modBank b (fun x => { x with gaps := [{ reason := if x.faulted then 4 else 8,
                                            detail := if x.faulted then s.getF (F.feFaultInfoFaultCode b) else 1, from_ := t }] }) s
  else s

/-- Banks of a partition that a fault or soft reset has stopped. -/
def State.stoppedBanks (s : State) (p : Nat) : List Nat := (s.banksOf p).filter fun b => s.flag (F.feBankStatusStopped b)

/-- Storing of a partition resumes at block boundary `t`: the sequencer as R202 gives it, the GAP records, then FRAME
records with RESUMED of the banks that deliver, whose detectors restart (R164, R266, R277). -/
def resumePart (p : Nat) (t : Label) (s : State) : State :=
  let hard := (s.part p).gaps.any fun g => g.reason == 1 || g.reason == 7
  let s := if hard then resumeSeq p t s else s
  let s := modPart p (fun x => { x with pastGaps := x.pastGaps ++ [(x.storedTo, t)] }) s
  let s := if s.stateMode p then spreadGaps p s else writeGaps p (some t) s
  let s := modPart p (fun x => { x with storing := true, blockAt := t, storeAny := (s.seq p).store }) s
  let s := each (fun b => resumeBank p b t) (s.liveBanks p) s
  let s := each (fun b => stoppedPiece b t) (s.stoppedBanks p) s
  settle p (fixReady p (restartGps p s))

/-! ### Blocks (R4, R31, R268, R272) -/

/-- Whether `t` is a block boundary of a partition. -/
def State.onBlock (s : State) (p : Nat) (t : Label) : Bool := (t - frameOf t) % s.blockLen p == 0

/-- X04 of the banks of a partition at block boundary `t` (R31, R40): a bank whose queue has no room discards whole
blocks from here on; one whose queue drains again resumes. -/
def queueRoom (p : Nat) (t : Label) (s : State) : State :=
  if (s.part p).gaps ≠ [] then s
  else each (fun b s =>
    let x := s.bank b
    if s.clk.sysHeld then
      if x.gaps = [] ∧ 4096 ≤ x.x04 then
        let s := flushState p b false (flushRun p b false s)
        let piece : Gap := { reason := 2, detail := 0, from_ := if s.stateMode p then s.keptTo p b else t }
        modBank b (fun x => { x with lost := 0, stLost := none, gaps := [piece] }) (stopDets b s)
      else s
    else if x.gaps ≠ [] ∧ x.stResume = none then resumeBank p b t s
    else s) (s.liveBanks p) s

/-- Stops of storing that wait for a block boundary take effect at `t` (R295, R301, R453, R485). -/
def takeStops (p : Nat) (t : Label) (s : State) : State :=
  let due := (s.part p).stopDue
  each (fun d => stopStoring p d.1 d.2 t) due (modPart p (fun x => { x with stopDue := [] }) s)

/-- The block from `start` to `upto` ends. -/
def oneBlock (p : Nat) (start upto : Label) (s : State) : State :=
  let s := packBlock p start upto (decide (frameOf upto = upto)) s
  let s := modPart p (fun x => { x with blockAt := upto, storeAny := (s.seq p).store }) s
  queueRoom p upto (takeStops p upto s)

/-- Blocks of a partition that end at or before `t`, one after the other; the first argument bounds them. In an
interruption only stops that wait take effect. -/
def blocksUpTo : Nat → Nat → Label → State → State
  | 0, _, _, s => s
  | k + 1, p, t, s =>
    let a := (s.part p).blockAt
    let b := s.nextBlock p a
    if t < b then s
    else if (s.part p).gaps = [] then blocksUpTo k p t (oneBlock p a b s)
    else
      let last := frameOf t + (t - frameOf t) / s.blockLen p * s.blockLen p
      let s := takeStops p b s
      let s := if s.stateMode p then each (fun n => packState p n last true false) (s.liveBanks p) s else s
      modPart p (fun x => { x with blockAt := last }) s

/-- Every block of an armed interval that ends at or before `t` is taken; an interruption for want of pages ends once
pages can be had (R295). -/
def blocksTo (p : Nat) (t : Label) (s : State) : State :=
  let x := s.part p
  if x.begun.isNone || s.noCore then s
  else
    let s := settle p (blocksUpTo ((t - x.blockAt) / s.blockLen p + 1) p t s)
    let x := s.part p
    if x.gaps ≠ [] ∧ (x.gaps.all fun g => g.reason == 2) = true ∧ s.heldBack p = false then resumePart p x.blockAt s
    else s

/-- The armed interval of a partition begins at block boundary `t` (R163, R201, R226, R259, R266, R292). -/
def beginInterval (p : Nat) (t : Label) (s : State) : State :=
  let s := startSeq p t (modSeq p (fun q => { q with first := t, stateCount := 0 }) s)
  let s := modPart p (fun x => { x with
    begun := some t, blockAt := t, storedTo := t, storing := true, storeAny := (s.seq p).store, storeCut := false,
    base := x.writePos,
    gaps := [], pastGaps := [], stopDue := [], storeModes := [], pairs := [], stGone := 0, contE := none }) s
  let s := each (fun b s =>
    modBank b (fun x => { x with gaps := [], stResume := none, stBack := none, stCount := 0, stSamples := [],
                                 stPassed := none, stRun := [], stLost := none, due := [], frameWords := 0,
                                 frameBlocks := 0, holdCount := 0, holdWords := 0, holdBlocks := 0, prefDue := none,
                                 evalOff := false }) s) (s.banksOf p) s
  let s := each (fun b => openBank p b t) (s.liveBanks p) s
  let s := each (fun b => stoppedPiece b t) (s.stoppedBanks p) s
  let s := restartGps p s
  let s := if s.continuous p then openContinuous p t s else s
  let s := match s.mgmt.retiring with
    | e :: _ => stopStoring p 3 e.1 t s
    | [] => s
  settle p (fixReady p s)

/-- BLOCK_BOUNDARY (R4, R259): at block boundary `t` an armed interval begins, or the blocks up to `t` end. The command
stands after the crossings that belong to the block and after the sequencer's samples of it. `parity` are the words
written with it that fail parity on their way into memory (R30, R250). -/
def execBlockBoundary (p : PartId) (t : Label) (s : State) (parity : List (CrossingId × Nat) := []) :
    Host.Outcome State Fault Refusal :=
  let s1 := advanceTo t s
  if (s1.part p).armed = false ∨ s1.noCore = true then done s s1
  else if (s1.part p).begun = none then
    done s (if s1.onBlock p t && s1.cic.resumeAt.isNone then beginInterval p t s1 else s1)
  else done s (failWrites p (s1.part p).writePos parity (blocksTo p t s1))

/-! ### Time quality (R80, R95) -/

/-- Cicada's estimate of its error in holdover, in ticks (R80); 0 outside holdover. -/
def State.hoEst (s : State) : Nat :=
  match s.cic.holdoverAt with
  | none => 0
  | some t0 =>
    let rate := if s.flag F.csStatusSpllInput then s.getF F.timeHoModelHoRateRef else s.getF F.timeHoModelHoRateXo
    s.cic.lastErr.natAbs + rate * (s.elapsed - t0) / 1000000000000

/-- The time quality code (R95): the highest whose condition holds. While none holds the code stays. -/
def State.qualityNow (s : State) : Nat :=
  let e := s.cic.lastErr.natAbs
  let est := s.hoEst
  if s.flag F.timeStatusSaturated then 15
  else if s.flag F.timeCtrlPpsEn = false ∨ s.cic.everPps = false then 7
  else if s.flag F.timeStatusHoldover then
    if est ≤ 512 then 3 else if est ≤ 51200 then 4 else if est ≤ 5120000 then 5 else 6
  else if s.cic.returning ∨ s.cic.slewing then 2
  else if s.flag F.timeStatusPpsAligned then
    if 10 < e then 2
    else if s.flag F.timeCtrlKtcEn && s.flag F.timeStatusKtcValid && s.cic.karingOk then 0 else 1
  else s.getF F.timeStatusQuality

/-- An event to the PF of each port whose payload the spec does not give (R409): a free value. -/
def postOpen (code : Nat) (s : State) : State := postPfs code (s.freeN % 2 ^ 32) (spend s)
/-- The same with a status bit. -/
def eventOpen (bit_ : Fld) (code : Nat) (s : State) : State := postOpen code (setF bit_ 1 s)

/-- At a frame boundary the quality code changes (R95). -/
def qualityStep (s : State) : State :=
  let q := s.qualityNow
  if q = s.getF F.timeStatusQuality then s
  else postOpen 0x080C (setF F.timeStatusReconverging (bit (q == 2)) (setF F.timeStatusQuality q s))

/-! ### Adaptive encoding (R273 to R275) -/

/-- Transition words per block at break-even (R273). -/
def State.breakEven (s : State) (p b : Nat) : Nat := if s.single p b then 400 else 800

/-- AUTO at a frame start: a decision that waits comes one frame nearer, or the frame that ended is evaluated. `ran`
says that AUTO ruled in it. Answers the bank, and PREF, cause, blocks and words where a decision applies now. -/
def autoStep (hi lo hold be pref : Nat) (ran : Bool) (x : Bank) : Bank × Option (Nat × Nat × Nat × Nat) :=
  let fresh : Bank := { x with holdCount := 0, holdWords := 0, holdBlocks := 0 }
  match x.prefDue with
  | some (n, v, blocks, words) =>
    if n ≤ 1 then ({ fresh with prefDue := none }, some (v, if v = 0 then 0 else 1, blocks, words))
    else ({ x with prefDue := some (n - 1, v, blocks, words) }, none)
  | none =>
    if ran = false ∨ x.frameBlocks = 0 then (x, none)
    else if pref = 1 then
      if be * hi * x.frameBlocks < x.frameWords * 128 then
        ({ fresh with prefDue := some (1, 0, x.frameBlocks, x.frameWords) }, none)
      else (x, none)
    else if x.frameWords * 128 < be * lo * x.frameBlocks then
      let y : Bank := { x with holdCount := x.holdCount + 1, holdWords := x.holdWords + x.frameWords,
                               holdBlocks := x.holdBlocks + x.frameBlocks }
      if hold ≤ y.holdCount then ({ fresh with prefDue := some (1, 1, y.holdBlocks, y.holdWords) }, none) else (y, none)
    else (fresh, none)

/-- A bank in timing mode at frame start `t`: ENC_CTRL applies, PREF changes, limit forcing ends; the FRAME record, then
the MODE record of a change (R258, R266, R273 to R275). -/
def timingFrame (p b : Nat) (t : Label) (s : State) : State :=
  let was := s.getL (F.encCtrlEncPolicy b)
  let s := applyStaged .frame (.encCtrl b) s
  let policy := s.getL (F.encCtrlEncPolicy b)
  let x := s.bank b
  let s := setF (F.encStatusLastMean b) (min 65535 (x.frameWords / max 1 x.frameBlocks)) s
  let pref := s.getF (F.encStatusPref b)
  let still : Bank := { x with holdCount := 0, holdWords := 0, holdBlocks := 0, prefDue := none }
  let (y, change) : Bank × Option (Nat × Nat × Nat × Nat) :=
    if policy ≠ 0 then
      let v := if policy = 1 then 0 else 1
      (still, if v = pref then none else some (v, 4, 0, 0))
    else if s.mgmt.scarabDown then (still, none)
    else autoStep (s.getL (F.encCtrlHiFrac b)) (s.getL (F.encCtrlLoFrac b)) (s.getL (F.encCtrlHold b)) (s.breakEven p b)
      pref (was == 0 && !x.evalOff) x
  let old := s.getF (F.encStatusCurrent b)
  let next := match change with | some (v, _) => v | none => pref
  let s := setBank b { y with forced := false, evalOff := false, frameWords := 0, frameBlocks := 0 } s
  let s := setF (F.encStatusLimitActive b) 0 (setEnc b next next s)
  if (s.bank b).gaps ≠ [] ∨ (s.part p).gaps ≠ [] ∨ s.flag (F.feBankStatusStopped b) = true then s
  else
    let s := if (s.bank b).frameAt = t + 1 then s else writeFrame p b t false s
    match change with
    | some (v, cause, blocks, words) => switchEnc p b v cause blocks words t s
    | none => if old ≠ next then switchEnc p b next 3 0 0 t s else s

/-- The banks of a partition at frame start `t`. -/
def partFrame (p : Nat) (t : Label) (s : State) : State :=
  if (s.part p).begun.isNone || s.noCore then s
  else
    let s := blocksTo p t s
    if s.stateMode p then
      each (fun b s =>
        if (s.bank b).gaps ≠ [] ∨ (s.part p).gaps ≠ [] ∨ (s.bank b).frameAt = t + 1 then s
        else writeFrame p b t false s) (s.liveBanks p) s
    else each (fun b => timingFrame p b t) (s.banksOf p) s

/-- FRAME_START (R3, R85, R95, R116, R266, R273): at frame boundary `t`, behind every crossing that may remove a pair of the
frame that ended, the quality code changes, storing resumes after a time
step, FRAME records are written, and the staged values of FRAME fields apply. -/
def execFrameStart (t : Label) (s : State) : Host.Outcome State Fault Refusal :=
  let s1 := advanceTo t s
  if frameOf t ≠ t then done s s1
  else
    let s1 := each (fun b => modBank b fun x => { x with
      mergedPrev := x.merged, merged := x.mergedNext, mergedNext := 0, countFrom := t }) (List.range 8) s1
    let s1 := each (fun p => blocksTo p t) (List.range 8) s1
    let s1 := qualityStep s1
    let s1 := match s1.cic.resumeAt with
      | none => s1
      | some r =>
        if t < r then s1
        else
          let s2 := { s1 with cic := { s1.cic with resumeAt := none } }
          each (fun p s => if (s.part p).gaps ≠ [] ∧ s.heldBack p = false then resumePart p t s else s) (List.range 8) s2
    let s1 := each (fun p => partFrame p t) (List.range 8) s1
    done s (if s1.noCore then s1
      else each (fun b => applyStaged .frame (.encCtrl b)) (List.range 8) s1)

end Sys2Proof.Machine
end

