-- ==== Sys2Proof/Machine/Time.lean ====
section
/-! DEFINITION. Machine/Time.lean: Cicada, the time base: PPS, holdover, steering, the Karing time code, steps of device
time, and the commands of the family (R76 to R102). -/

namespace Sys2Proof.Machine

/-- Cicada is changed. -/
def modCic (g : Cicada → Cicada) (s : State) : State := { s with cic := g s.cic }
/-- Clock synthesis is changed. -/
def modClk (g : Clocks → Clocks) (s : State) : State := { s with clk := g s.clk }

/-! ### Holdover (R80) -/

/-- Cicada enters holdover. -/
def enterHoldover (s : State) : State :=
  if s.flag F.timeStatusHoldover then s
  else
    let s := modCic (fun c => { c with holdoverAt := some s.elapsed }) (setF F.timeStatusHoldover 1 s)
    eventOpen F.timeEventsHoldoverEntered 0x0804 (startInterval 0x0016 s)

/-- Cicada leaves holdover. -/
def leaveHoldover (s : State) : State :=
  if s.flag F.timeStatusHoldover = false then s
  else
    let s := modCic (fun c => { c with holdoverAt := none }) (setF F.timeStatusHoldover 0 s)
    postOpen 0x0805 (stopInterval 0x0016 s)

/-! ### The live frequency offset (R53 to R55, R86) -/

/-- TRIM as a number. -/
def State.trim (s : State) : Int := signed 24 (s.getF F.csTrimTrim)

/-- The steering term in units of 2^−48 (R86). -/
def State.steer (s : State) : Int := ((s.cic.freqInt + s.cic.phaseTerm) * 2 ^ 48).tdiv 512000000000

/-- The frequency slew of a returning reference, in units of 2^−48: REF_SLEW ppm against the error (R65, R96). -/
def State.slewTerm (s : State) : Int :=
  if s.cic.slewing then -(s.cic.retErr.sign * (s.getF F.timeSteerCfgRefSlew * 4295 * 2 ^ 16 : Nat)) else 0

/-- REF_OFFSET in units of 2^−48, where REFCLK is the input (R54). -/
def State.refUnits (s : State) : Int :=
  if s.flag F.csStatusSpllInput then (signed 16 (s.getF F.csRefMeasRefOffset) * 4295 * 2 ^ 16).tdiv 100 else 0

/-- The live offset that is asked for with a TRIM value, in units of 2^−48: TRIM, the steering term, the slew of a
returning reference (R53, R65). -/
def State.offsetAsked (s : State) (trim : Int) : Int := trim * 2 ^ 16 + s.steer + s.slewTerm
/-- The live offset that R54 allows: the output frequency stays within ±200 ppm. -/
def State.offsetCut (s : State) (v : Int) : Int := clampInt (-858993 * 2 ^ 16 - s.refUnits) (858993 * 2 ^ 16 - s.refUnits) v

/-- The live offset in effect in units of 2^−48: it moves toward its target by 1 ppm in 10 µs (R55). -/
def State.liveOffset (s : State) : Int :=
  let moved : Int := (4295 * 2 ^ 16 * (s.elapsed - s.clk.rampAt) / 5120000 : Nat)
  if s.clk.rampFrom ≤ s.clk.trimTarget then min s.clk.trimTarget (s.clk.rampFrom + moved)
  else max s.clk.trimTarget (s.clk.rampFrom - moved)

/-- CS_STEER_LIVE in units of 2^−32: what lies below a unit is dithered from core cycle to core cycle (R86); the pattern
is not given, a free value. -/
def State.steerLive (s : State) : Int :=
  s.liveOffset / 2 ^ 16 + (if s.liveOffset % 2 ^ 16 ≠ 0 ∧ Config.dither (s.elapsed / ticksPerCore) = true then 1 else 0)

/-- The live offset's target is formed anew (R53, R54). A cut is reported once for each episode. `jump` is a TRIM value
at whose offset it stands at once (R55). While the PLL has no lock the present offset stays (R66). -/
def retarget (jump : Option Int) (s : State) : State :=
  let sum := s.offsetAsked s.trim
  let cut := s.offsetCut sum
  let clipped := decide (cut ≠ sum)
  let from_ := match jump with | some v => s.offsetCut (s.offsetAsked v) | none => s.liveOffset
  let was := s.clk.clamped
  let s := modClk (fun c => { c with clamped := clipped }) s
  let s := if s.flag F.csStatusSpllLocked = false then s
    else modClk (fun c => { c with rampFrom := from_, rampAt := s.elapsed, trimTarget := cut }) s
  let s := setF F.csSteerLiveSteerLive (twos 24 (s.liveOffset / 2 ^ 16)) s
  if clipped && !was then eventOpen F.csEventsSteerClamped 0x0905 s else s

/-- STEER_MAX in ticks per second (R86). -/
def State.steerMax (s : State) : Int := (s.getF F.timeSteerCfgSteerMax * 512000 : Nat)

/-- Steering on an error `e` (R86). -/
def steerBy (e : Int) (s : State) : State :=
  let tc : Int := s.getF F.timeSteerCfgSteerTc
  let phase := clampInt (-s.steerMax) s.steerMax ((-e).tdiv tc)
  let freq := clampInt (-102400000) 102400000 (s.cic.freqInt - e.tdiv (4 * tc * tc))
  retarget none (modCic (fun c => { c with phaseTerm := phase, freqInt := freq }) s)

/-- TIME_XO_LEARNED in ticks per second. -/
def State.xoPart (s : State) : Int := (signed 24 (s.getF F.timeXoLearnedXoLearned) * 512000000000).tdiv (2 ^ 32)

/-- The PLL input becomes REFCLK or XO_IN: freq_int takes the value last learned for it, which for XO_IN includes the
negated TIME_XO_LEARNED (R86). -/
def changeInput (ref : Bool) (s : State) : State :=
  if s.flag F.csStatusSpllInput = ref then s
  else
    let c := s.cic
    let c := if ref then { c with learnedXo := c.freqInt + s.xoPart, freqInt := c.learnedRef }
      else { c with learnedRef := c.freqInt, freqInt := clampInt (-102400000) 102400000 (c.learnedXo - s.xoPart) }
    setF F.csStatusSpllInput (bit ref) { s with cic := c }

/-! ### PPS (R81 to R84) -/

/-- CABLE_DELAY in effect, signed ticks (R93). -/
def State.cableDelay (s : State) : Int := signed 24 (s.getL F.timeCableDelayCableDelay)

/-- Half a second in ticks. -/
def halfSecond : Int := 256000000000

/-- The error of an edge (R81): −256,000,000,000 < e ≤ 256,000,000,000. -/
def State.ppsError (s : State) (t : Label) : Int :=
  let x := ((t : Int) - s.cableDelay) % (ticksPerSecond : Int)
  if halfSecond < x then x - ticksPerSecond else x

/-- TIME_LAST_ERR shows an error, saturated (R81). -/
def showErr (e : Int) (s : State) : State :=
  setF F.timeLastErrLastErr (twos 32 (clampInt (-2147483647) 2147483647 e)) s

/-- The step of R84 for an error: −640 × round(e / 640), halves away from zero. -/
def stepFor (e : Int) : Int :=
  let k : Int := ((e.natAbs + 320) / 640 : Nat)
  if 0 < e then -640 * k else 640 * k

/-- Whether TIME_POLICY steps for an error (R83). -/
def State.policySteps (s : State) (e : Int) : Bool :=
  match s.getF F.timeCtrlTimePolicy with
  | 0 => decide (640 ≤ e.natAbs)
  | 2 => decide (512000 < e.natAbs)
  | _ => false

/-- An outlier (R82). -/
def ppsOutlier (s : State) : State := eventOpen F.timeEventsPpsOutlier 0x0802 (bump 0x0012 1 s)

/-- An accepted edge at `t` with error `e` (R80, R82 to R84, R86). An accepted edge that finds the error back within 10
ticks posts RECONVERGED (DESIGN CHOICE from R105's "Error back within 10 ticks": R96 states the post for a slewed return
of the reference alone). -/
def acceptEdge (t : Label) (e : Int) (s : State) : State :=
  let pending := s.cic.step
  let e := match pending with | some (c, _) => e + c | none => e
  let prev := s.cic.lastErr
  let first := !s.flag F.timeStatusPpsAligned
  let s := showErr e s
  let s := modCic (fun c => { c with everPps := true, accepted := true, measured := true, outliers := [],
                                     lastErr := e, lastPps := t }) s
  let s := if first then eventOpen F.timeEventsPpsAcquired 0x0800 (setF F.timeStatusPpsAligned 1 s) else s
  let s := if e.natAbs ≤ 10 ∧ 10 < prev.natAbs then eventOpen F.timeEventsReconverged 0x0806 s else s
  let s := if s.flag F.csStatusSpllLocked then leaveHoldover s else s
  if pending.isNone && s.policySteps e then
    setF F.timeStatusStepPending 1
      (modCic (fun c => { c with step := some (stepFor e, s.elapsed + 1280), residual := some (e + stepFor e) }) s)
  else steerBy e (modCic (fun c => { c with residual := none }) s)

/-- Outlier errors that lie within `w` of one another, counted back from the last one (R82). -/
def lastRun (w : Nat) : List Int → List Int
  | [] => []
  | x :: r =>
    if (x :: r).all fun a => (x :: r).all fun b => decide ((a - b).natAbs ≤ w) then x :: r else lastRun w r

/-- PPS_EDGE (R81, R82): an edge of the selected polarity is time-stamped and accepted, or counted as an outlier; while
PPS_EN is 0 or the outputs are gated it is not measured. -/
def execPpsEdge (t : Label) (rising : Bool) (s : State) : Host.Outcome State Fault Refusal :=
  let s1 := advanceTo t s
  if s1.flag F.timeCtrlPpsEn = false ∨ s1.flag F.csStatusOutputsGated = true
    ∨ (s1.getF F.timeCtrlPpsEdge == 0) ≠ rising then done s s1
  else
    let e := s1.ppsError t
    let w := s1.getF F.timePpsCfgPpsWindow
    let s1 := modCic (fun c => { c with measured := true }) (showErr e (bump 0x0010 1 s1))
    if s1.cic.accepted then done s (ppsOutlier s1)
    else if s1.flag F.timeStatusPpsAligned = false ∨ e.natAbs ≤ w then done s (acceptEdge t e s1)
    else
      let run := lastRun w (s1.cic.outliers ++ [e])
      let s1 := modCic (fun c => { c with outliers := run }) (ppsOutlier s1)
      if s1.getF F.timePpsCfgOutlierLimit ≤ run.length then done s (acceptEdge t e s1) else done s s1

/-- The instant at or after now at which a PPS interval ends (R82): boundary + CABLE_DELAY + 0.5 s. -/
def State.ppsEnd (s : State) : Label :=
  let off := ((s.cableDelay + halfSecond) % (ticksPerSecond : Int)).toNat
  s.now + (off + ticksPerSecond - s.now % ticksPerSecond) % ticksPerSecond

/-- PPS_INTERVAL_END (R80, R82): an interval without an accepted edge counts one missing edge; holdover begins, and
without a measured edge PPS_ALIGNED clears. -/
def execPpsIntervalEnd (s : State) : Host.Outcome State Fault Refusal :=
  let s1 := advanceTo s.ppsEnd s
  let c := s1.cic
  let s2 := modCic (fun c => { c with accepted := false, measured := false }) s1
  if s1.flag F.timeCtrlPpsEn = false ∨ c.accepted = true then done s s2
  else
    let s2 := eventOpen F.timeEventsPpsMissing 0x0801 (bump 0x0011 1 s2)
    let s2 := if s2.flag F.timeStatusPpsAligned then enterHoldover s2 else s2
    done s (if c.measured then s2 else setF F.timeStatusPpsAligned 0 s2)

/-- A write of PPS_EN (R80, R82). -/
def ppsEnWrite (en : Bool) (s : State) : State :=
  let s := setF F.timeCtrlPpsEn (bit en) s
  if en then s
  else
    let s := modCic (fun c => { c with accepted := false, measured := false, outliers := [] }) s
    let s := setF F.timeStatusPpsAligned 0 s
    if s.flag F.csStatusOutputsGated then s else leaveHoldover s

/-! ### Karing (R89 to R92) -/

/-- The frame CRC (R90): polynomial 0x1021, initial value 0xFFFF, most significant bit first. -/
def karingBit (c : BitVec 16) : BitVec 16 := if c.getLsbD 15 then (c <<< 1) ^^^ 0x1021 else c <<< 1
/-- One byte of the frame CRC. -/
def karingByte (c : BitVec 16) (b : Byte) : BitVec 16 :=
  let c := c ^^^ ((b.setWidth 16) <<< 8)
  karingBit (karingBit (karingBit (karingBit (karingBit (karingBit (karingBit (karingBit c)))))))
/-- The CRC of a frame's payload. -/
def karingCrc (bs : List Byte) : BitVec 16 := bs.foldl karingByte 0xFFFF

/-- A bad frame (R91). -/
def karingBad (s : State) : State := eventOpen F.timeEventsKtcBad 0x0807 (bump 0x0014 1 s)

/-- A good frame is checked against local time (R91): `n` is the second it announces. -/
def karingCheck (n : Nat) (t : Label) (s : State) : State :=
  if s.flag F.timeCtrlKtcEn = false then s
  else if n = secondsOf t + 1 then modCic (fun c => { c with karingOk := true, karingWait := none }) s
  else
    let wait := s.cic.karingWait
    let s := modCic (fun c => { c with karingOk := false }) s
    if s.flag F.timeCtrlKtcConfirm = false then modCic (fun c => { c with karing := some n }) s
    else if wait = some n ∧ s.cic.karingAge = 1 then modCic (fun c => { c with karing := some n, karingWait := none }) s
    else
      eventOpen F.timeEventsKtcMismatch 0x0808
        (modCic (fun c => { c with karingWait := some ((n + 1) % 2 ^ 40), karingAge := 0 }) s)

/-- KTC_FRAME (R89 to R92): a frame that starts at `t`, with its payload and CRC bytes. -/
def execKtcFrame (t : Label) (frame : List Byte) (delimiterOk : Bool) (s : State) : Host.Outcome State Fault Refusal :=
  let s1 := advanceTo t s
  let payload := frame.take 9
  let sub := subsecOf t
  let inWindow := decide (51200000000 ≤ sub) && decide (sub ≤ 460800000000)
  let crcOk := decide (frame.length = 11) && leAt frame 9 2 == (karingCrc payload).toNat
  let b0 := leAt frame 0 1
  if delimiterOk = false ∨ crcOk = false then done s (karingBad s1)
  else if b0 / 16 ≠ 0 ∧ b0 % 16 = 1 then done s s1
  else if b0 % 16 ≠ 1 ∨ inWindow = false then done s (karingBad s1)
  else
    let b8 := leAt frame 8 1
    let epoch := leAt frame 6 2
    let leap := b8 % 4
    let oldEpoch := s1.getF F.timeKtcStatusEpoch
    let oldLeap := s1.getF F.timeKtcStatusLeap
    let s1 := bump 0x0013 1 s1
    let s1 := setF F.timeKtcStatusKtcVersion 1 (setF F.timeKtcStatusKtcHoldover (bitsOf b8 6 1)
      (setF F.timeKtcStatusKtcQuality (bitsOf b8 2 4) (setF F.timeKtcStatusLeap leap (setF F.timeKtcStatusEpoch epoch s1))))
    let s1 := if epoch ≠ oldEpoch then postOpen 0x0809 s1 else s1
    let s1 := if (leap = 1 ∨ leap = 2) ∧ leap ≠ oldLeap then postOpen 0x080A s1 else s1
    let s1 := modCic (fun c => { c with ktcNow := true }) s1
    let s1 := if s1.cic.ktcPrev then setF F.timeStatusKtcValid 1 s1 else s1
    done s (karingCheck (leAt frame 1 5) t s1)

/-! ### TIME_SET (R88, R330) -/

/-- SECONDS in TIME_SET_LO and TIME_SET_HI. -/
def State.setSeconds (s : State) : Nat := s.getF F.timeSetLoSetSecondsLo + s.getF F.timeSetHiSetSecondsHi * 2 ^ 32

/-- A load of TIME_SET is requested (R88): the value is the one that TIME_SET_LO and TIME_SET_HI hold at the request,
and a later write of them without SET_REQ does not change it (DESIGN CHOICE, which R88 leaves open); one that waited is
overtaken, and the TIME_SET command that asked for it completes with SUPERSEDED (R330). -/
def requestSet (cmd : Option Cmd) (s : State) : State :=
  let s := match s.cic.setCmd with
    | some c => finish c 0x0D stSuperseded 0 0 s
    | none => s
  setF F.timeStatusSetPending 1
    (modCic (fun c => { c with setAt := some (s.setSeconds, s.elapsed + 1280), setCmd := cmd }) s)

/-! ### Steps of device time (R84, R85, R87, R96, R101) -/

/-- A label moved by `d` ticks. -/
def moved (d : Int) (t : Label) : Label := ((t : Int) + d).toNat
/-- A label + 1 moved by `d` ticks, 0 for none. -/
def moved1 (d : Int) (t : Nat) : Nat := if t = 0 then 0 else moved d t

/-- What a bank holds by label, moved with a step. -/
def Bank.move (d : Int) (x : Bank) : Bank :=
  { x with cross := x.cross.map (fun c => { c with label := moved d c.label }),
           lastX := x.lastX.map (fun e => (e.1, moved1 d e.2)),
           feed := x.feed.map (fun f => { f with x := { f.x with label := moved d f.x.label } }),
           stEdge := moved1 d x.stEdge, stSamples := x.stSamples.map (fun e => { e with label := moved d e.label }),
           stRun := x.stRun.map (fun e => { e with label := moved d e.label }), stPassed := x.stPassed.map (moved d),
           stResume := x.stResume.map (moved d), stBack := x.stBack.map (moved d), countFrom := moved d x.countFrom,
           frameAt := moved1 d x.frameAt, runFrom := moved d x.runFrom }

/-- An event's instants, moved with a step. -/
def Ev.move (d : Int) (state : Bool) (e : Ev) : Ev :=
  { e with time := moved d e.time, sample := if state then e.sample else moved d e.sample }

/-- What a detector holds by label, moved with a step (R164). -/
def Det.move (d : Int) (state : Bool) (x : Det) : Det :=
  { x with openAt := x.openAt.map (fun o => (moved d o.1, o.2)), openDown := x.openDown.map (moved d),
           shown := if state then x.shown else x.shown.map (moved d), base := x.base.map (moved d),
           skewA := x.skewA.map (fun e => (moved d e.1, e.2)), skewB := x.skewB.map (fun e => (moved d e.1, e.2)),
           recentA := x.recentA.map (moved d), recentB := x.recentB.map (moved d),
           events := x.events.map (Ev.move d state) }

/-- What a sequencer holds by label, moved with a step: timers and dwell count elapsed time (R84). -/
def Seq.move (d : Int) (state : Bool) (q : Seq) : Seq :=
  { q with entryT := moved d q.entryT, tmrs := q.tmrs.map (fun e => (e.1, { e.2 with at_ := moved d e.2.at_ })),
           inbox := q.inbox.map (Ev.move d state), expiries := q.expiries.map (fun e => (e.1, moved d e.2)),
           prev := q.prev.map (moved d), first := moved d q.first, cycle := moved (d / 640) q.cycle }

/-- E moved with a step (R224); in continuous mode, where `per` is the sample period, it is still the end of a frame
(R226). -/
def movedEnd (per : Option Nat) (d : Int) (e : Label) : Label :=
  if per.isSome then ceilTo ticksPerFrame (moved d e + 1) - 1 else moved d e

/-- What a segment holds by label, moved with a step; what its header states stays. -/
def Seg.move (per : Option Nat) (d : Int) (g : Seg) : Seg :=
  { g with openT := moved d g.openT, start := g.start.map (moved d), prevEnd := g.prevEnd.map (moved d),
           fillEnd := if g.imago then g.fillEnd else movedEnd per d g.fillEnd }

/-- The last stored sample of the newest committed segment, moved with a step: in continuous mode, of a segment in POST,
the last sample at or before its new end. -/
def Part.movedLast (per : Option Nat) (d : Int) (x : Part) : Option Label :=
  match per, x.lastKey.bind x.seg? with
  | some k, some g => if g.imago then x.lastEnd.map (moved d) else some (movedEnd per d g.fillEnd / k * k)
  | _, _ => x.lastEnd.map (moved d)

/-- What a partition holds by label, moved with a step. The places of records are kept in the present timeline; their
words stay. -/
def Part.move (per : Option Nat) (d : Int) (x : Part) : Part :=
  { x with begun := x.begun.map (moved d), blockAt := moved d x.blockAt, storedTo := moved d x.storedTo,
           pastGaps := x.pastGaps.map (fun g => (moved d g.1, moved d g.2)), lastEnd := x.movedLast per d,
           contE := x.contE.map (movedEnd per d), stGone := moved1 d x.stGone,
           segs := x.segs.map (Seg.move per d), pairs := x.pairs.map (moved d),
           recs := x.recs.map fun e => (e.1, { e.2 with first := moved d e.2.first, last := moved d e.2.last }) }

/-- The cross-trigger flags' core cycles and the TRIGOUT pulses, moved with a step. -/
def Flags.move (d : Int) (f : Flags) : Flags :=
  { f with cycle := moved (d / 640) f.cycle, host := f.host.map (fun h => (moved (d / 640) h.1, h.2)),
           triginEdges := f.triginEdges.map fun e => (moved d e.1, e.2),
           trigoutEnd := f.trigoutEnd.map (fun e => (e.1, moved d e.2)),
           trigoutLead := f.trigoutLead.map fun e => (e.1, moved d e.2) }

/-- Device time steps by `d` ticks: the main counter is loaded, and every label the device holds moves along. -/
def moveTime (d : Int) (s : State) : State :=
  let state (p : Nat) : Bool := s.stateMode p
  let detState (n : Nat) : Bool := match s.detPart n with | some p => state p | none => false
  let per (p : Nat) : Option Nat := if s.continuous p then some (s.period p) else none
  { s with now := moved d s.now,
           cic := { s.cic with keepAlive := moved d s.cic.keepAlive, resumeAt := s.cic.resumeAt.map (moved d) },
           banks := s.banks.map fun e => (e.1, e.2.move d),
           dets := s.dets.map fun e => (e.1, e.2.move d (detState e.1)),
           seqs := s.seqs.map fun e => (e.1, e.2.move d (state e.1)),
           parts := s.parts.map fun e => (e.1, e.2.move (per e.1) d), flags := s.flags.move d }

/-- A step is recorded: TIMELINE, the TIME_STEP record of each armed partition, TIME_STEPS, TIME_STEPPED (R85, R87,
R279). The counter has been loaded. -/
def recordStep (cause : Nat) (old new : Label) (sub secs : Int) (s : State) : State :=
  let s := setF F.timeStatusTimeline (s.getF F.timeStatusTimeline + 1) s
  let s := modCic (fun c => { c with stepOld := old, stepNew := new }) s
  let s := each (fun p s =>
    append p (timeStepRec s.q (s.getF F.timeStatusTimeline) cause old new sub secs) s) s.begunParts s
  eventOpen F.timeEventsStepped 0x0803 (bump 0x0015 1 s)

/-- Storing stops for a PPS step at second boundary `t` (R85 step 2), and the detectors lose what they measured. -/
def stopForStep (t : Label) (s : State) : State :=
  let s := each (fun p s => stopStoring p 6 0 t s) s.begunParts s
  each (fun p s => each stopDets (s.banksOf p) s) s.begunParts s

/-- A Karing value that is due displaces a TIME_SET load at the same boundary (R101, R330). -/
def karingOverrides (s : State) : State :=
  let s := match s.cic.setCmd with
    | some c => finish c 0x0D stSuperseded 0 0 s
    | none => s
  postOpen 0x080E (setF F.timeStatusSetPending 0 (modCic (fun c => { c with setAt := none, setCmd := none }) s))

/-- The value of SECONDS to load at this boundary and its cause (R87, R91, R101). -/
def secondsLoad (s : State) : Option (Nat × Nat) × State :=
  let due := match s.cic.setAt with | some (v, least) => if least ≤ s.elapsed then some v else none | none => none
  match s.cic.karing, due with
  | some v, some _ => (some (v, 3), karingOverrides (modCic (fun c => { c with karing := none }) s))
  | some v, none => (some (v, 3), modCic (fun c => { c with karing := none }) s)
  | none, some v =>
    let cmd := s.cic.setCmd
    let s := setF F.timeStatusSetPending 0 (modCic (fun c => { c with setAt := none, setCmd := none }) s)
    (some (v, 2), match cmd with | some c => finish c 0x0D stOk 0 0 s | none => s)
  | none, none => (none, s)

/-- The steps due at second boundary `t` (R84, R85, R87, R96, R97, R101). What a REF_RETURN step changed was in effect
from the reload on; its record states it at this boundary, one record with any other step (R279). -/
def applySteps (t : Label) (s : State) : State :=
  let sat := s.flag F.timeStatusSaturated
  let ref := s.cic.refStep
  let s := modCic (fun x => { x with refStep := none }) s
  let c : Int := match s.cic.step with | some (c, least) => if least ≤ s.elapsed then c else 0 | none => 0
  let (load, s) := secondsLoad s
  let secs : Int := match load with | some (v, _) => (v : Int) - secondsOf t | none => 0
  let lower := decide (secs < 0)
  let s := if lower then setF F.timeStatusSaturated 0 (modCic (fun x => { x with saturationPosted := false }) s) else s
  let sub : Int := if sat && !lower && decide (c < 0) then c + ticksPerSecond else c
  let s := if c ≠ 0 then stopForStep t s else s
  let d := sub + secs * ticksPerSecond
  let r := ref.getD 0
  let cause := if c ≠ 0 then 1 else if ref.isSome then 4 else (load.map Prod.snd).getD 2
  let s := if d = 0 ∧ ref = none then s
    else
      let s := if d = 0 then s else moveTime d s
      recordStep cause (moved (-r) t) s.now (sub + r) secs s
  let s := if c ≠ 0 then
      let rest := s.cic.residual
      let s := setF F.timeStatusStepPending 0 (modCic (fun x => { x with
        step := none, residual := none, resumeAt := some (ceilTo ticksPerFrame s.now) }) s)
      match rest with | some e => steerBy e s | none => s
    else s
  s

/-- What Cicada measures of XO_IN in a second is not given, a free value; TIME_XO_LEARNED is the mean of the last 64
(R79). -/
def measureXo (s : State) : State :=
  let l := (signed 24 (s.freeN % 2 ^ 24) :: s.cic.xoMeas).take 64
  setF F.timeXoLearnedXoLearned (twos 24 (l.sum.tdiv l.length)) (modCic (fun c => { c with xoMeas := l }) (spend s))

/-- The keep-alive counter's value `cycles` XO cycles after the last handover: 10,240 ticks a cycle, corrected by the
learned offset through an accumulator of 2^−48 (R79). -/
def State.keepAliveAt (s : State) (cycles : Nat) : Label :=
  let rate : Int := 2 ^ 48 + signed 24 (s.getF F.timeXoLearnedXoLearned) * 2 ^ 16
  ((s.cic.keepAlive : Int) + 10240 * (cycles : Int) * rate / 2 ^ 48).toNat

/-- SECOND_BOUNDARY (R32, R76, R79, R84, R85, R87, R88, R91, R93, R97): the next second boundary comes. -/
def execSecondBoundary (s : State) : Host.Outcome State Fault Refusal :=
  let here := decide (s.now % ticksPerSecond = 0) && decide (s.cic.boundaryAt ≠ s.now + 1)
  let t := if here then s.now else nextSecond s.now
  let s1 := advanceTo t s
  let s1 := each (fun p => blocksTo p t) (List.range 8) s1
  -- SECONDS holds at its last value (R97)
  let s1 := if 2 ^ 40 ≤ secondsOf t then
      let s2 := moveTime (-(ticksPerSecond : Int)) s1
      if s2.cic.saturationPosted then setF F.timeStatusSaturated 1 s2
      else eventOpen F.timeEventsSaturated 0x080B (setF F.timeStatusSaturated 1
        (modCic (fun c => { c with saturationPosted := true }) s2))
    else s1
  let t := s1.now
  let s1 := applyStaged .second .timeCableDelay s1
  let s1 := modCic (fun c => { c with ktcPrev := c.ktcNow, ktcNow := false, karingAge := c.karingAge + 1,
                                      karingWait := if 1 ≤ c.karingAge then none else c.karingWait }) s1
  let s1 := setF F.timeStatusKtcValid (bit (s.cic.ktcNow && s.cic.ktcPrev)) s1
  -- what the device measures each second is not given (R72, R79)
  let s1 := if s1.flag F.csStatusSpllLocked && s1.flag F.csStatusSpllInput then measureXo s1 else s1
  let s1 := if s1.flag F.csStatusRefQualified then
      retarget none (setF F.csRefMeasRefOffset (twos 16 ((s1.freeN % 20001 : Nat) - 10000)) (spend s1)) else s1
  let s1 := checkIntervals (applySteps t s1)
  done s (modCic (fun c => { c with boundaryAt := if s1.now % ticksPerSecond = 0 then s1.now + 1 else 0,
                                    keepAlive := if s1.noCore then c.keepAlive else s1.now }) s1)

end Sys2Proof.Machine
end

