-- ==== Sys2Proof/Machine/Clocks.lean ====
section
/-! DEFINITION. Machine/Clocks.lean: clock synthesis: gating of the outputs, loss of lock and relocks, the input of the
sample PLL, divider alignment by SYNC_IN, SYNC_OUT, the system PLL, and the commands of the family (R39 to R67). -/

namespace Sys2Proof.Machine

/-! ### The calibration of bring-up (R448, R449, R473) -/

/-- Banks that bring-up calibration covers (R449). -/
def State.coveredBanks (s : State) : List Nat :=
  let lo := if (s.mgmt.running.map ImageCopy.chrysalisEn) == some false then 0 else 2
  (List.range 8).filter fun b => decide (lo ≤ b)

/-- The steps that bring-up runs on a bank: the full calibration, or under RESTORE those without coefficients. -/
def State.bringUpSteps (s : State) (b : Nat) : Nat :=
  if (s.mgmt.running.map ImageCopy.bootCalRestore) == some true then 15 - s.getF (F.feBankStatusStepsValid b) % 16 else 15

/-- The calibration of bring-up starts when it is due and may run. -/
def bringUp (s : State) : State :=
  if s.mgmt.calDue && s.flag F.csStatusSpllLocked && !(s.getF F.thermStatusSteps).testBit 2 then
    each (fun b s => startCal b (s.bringUpSteps b) s) s.coveredBanks { s with mgmt := { s.mgmt with calDue := false } }
  else s

/-- A calibration of bring-up that an abort cuts short is due again: eclosion waits for it (R448). -/
def bringUpAgain (s : State) : State :=
  if s.getF F.bootStatusPhase = 5 ∧ s.coveredBanks.any (fun b => s.flag (F.feBankStatusCalRunning b)) = true then
    { s with mgmt := { s.mgmt with calDue := true } }
  else s

/-! ### Gating (R46, R59, R60) -/

/-- A partition's packers end their records at the last sample before the present instant, and storing stops with
reason LOCK_LOSS (R59, R202, R485). -/
def gatePart (p : Nat) (s : State) : State :=
  let s := blocksTo p s.now s
  let x := s.part p
  let s := if x.gaps = [] then
      let s := if x.blockAt < s.now then packBlock p x.blockAt s.now true s else s
      stopStoring p 1 0 s.now s
    else stopStoring p 1 0 (s.nextBlock p (s.now - 1)) s
  each stopDets (s.banksOf p) s

/-- The six outputs are gated (R59 steps 2 and 3): packers end their records, Cicada goes on in holdover on the
keep-alive counter, calibrations and auto-threshold stop, a pending step is cancelled (R101), no restart follows a
SYNC_IN edge (R66). -/
def gateOutputs (s : State) : State :=
  if s.flag F.csStatusOutputsGated then s
  else
    let s := each gatePart s.begunParts s
    let s := setF F.csStatusOutputsGated 1 (setF F.csStatusSpllLocked 0 s)
    let live := s.liveOffset
    let s := modClk (fun c => { c with syncDue := [], fallback := false, rampFrom := live, trimTarget := live,
                                       phaseNow := [], soBase := 0 }) s
    let s := modCic (fun c => { c with step := none, residual := none, returning := false,
                                       slewing := false }) s
    let s := setF F.timeStatusStepPending 0 s
    let s := each stopAutoThreshold (List.range 8) (abortAllCal 1 (bringUpAgain s))
    enterHoldover (startInterval 0x0021 s)

/-! ### Relock (R60 to R63) -/

/-- Whether REF_SEL selects REFCLK now (R41). -/
def State.wantsRef (s : State) : Bool :=
  match s.getF F.csCtrlRefSel with
  | 0 => false
  | 1 => true
  | _ => s.flag F.csStatusRefQualified

/-- A relock starts toward the selected input (R61): fast, or full where one is owed (R62); under REF_SEL REFCLK it
waits for REFCLK. No path has declared lock in the new attempt (R56). -/
def startRelock (full : Bool) (s : State) : State :=
  let s := changeInput s.wantsRef s
  let full := full || s.clk.needFull
  let s := modClk (fun c => { c with fallback := false, retryDue := false, needFull := full,
                                     declaredA := false, declaredD := false }) s
  if s.getF F.csCtrlRefSel = 1 ∧ s.flag F.csStatusRefQualified = false then setF F.csStatusRelockState 4 s
  else setF F.csStatusRelockState (if full then 2 else 1) s

/-- A relock that the host causes (R60): with lock it gates the outputs; during a relock it starts anew. -/
def hostRelock (full : Bool) (s : State) : State :=
  if s.flag F.csStatusSpllLocked then
    startRelock full (modClk (fun c => { c with hostRelock := true, attempts := 0 }) (gateOutputs s))
  else startRelock (full || s.getF F.csStatusRelockState == 2) s

/-- Loss of lock (R58, R59, R61). `detail` is the cause as the fault log gives it (R492); `lost` says that the input
was lost. -/
def lockLoss (detail : Nat) (lost : Bool) (s : State) : State :=
  let s := bump 0x0020 1 (gateOutputs s)
  let s := eventOpen F.csEventsLossOfLock 0x0900 s
  let s := if lost then eventOpen F.csEventsLossOfRef 0x0902 (setF F.csStatusRefQualified 0 s) else s
  let s := logFault 0x0A 0 detail (modClk (fun c => { c with hostRelock := false, trimJump := none, attempts := 0 }) s)
  startRelock false s

/-- The loss threshold of R58, in ticks. -/
def State.lossThreshold (s : State) : Nat := max (4 * s.getF F.csLockDetLossWin) (2 * s.getF F.csLockDetLockWin)

/-- SPLL_LOCK_LOSS (R58, R59): at an input edge with a phase error of `phaseErr` ticks, or with LOCK_FILT at `mv` mV.
Loss by LOCK_FILT is declared under ANALOG or BOTH only, once LOCK_FILT has declared lock; loss of the input is that of
REFCLK. -/
def execSpllLockLoss (cause : LossCause) (s : State) (phaseErr mv : Nat := 0) : Host.Outcome State Fault Refusal :=
  if s.flag F.csStatusSpllLocked = false then done s s
  else match cause with
    | .phase => if s.lossThreshold < phaseErr then done s (lockLoss 0 false s) else done s s
    | .input => done s (lockLoss 1 (s.flag F.csStatusSpllInput) s)
    | .lockFilt =>
      let src := s.getF F.csCtrlLockSource
      if (src = 0 ∨ src = 2) ∧ s.clk.analogUsed = true ∧ mv < 600 then done s (lockLoss 2 false s) else done s s

/-- REFCLK_LOST (R42, R61, R66): loss of the active input is a loss of lock; during a relock toward REFCLK the relock
goes on as REF_SEL says. -/
def execRefclkLost (s : State) : Host.Outcome State Fault Refusal :=
  if s.flag F.csStatusRefQualified = false then done s s
  else if s.flag F.csStatusSpllInput && s.flag F.csStatusSpllLocked then done s (lockLoss 1 true s)
  else
    let s1 := eventOpen F.csEventsLossOfRef 0x0902 (setF F.csStatusRefQualified 0 s)
    let st := s.getF F.csStatusRelockState
    if s.flag F.csStatusSpllInput = true ∧ (st = 1 ∨ st = 2) then done s (startRelock (st == 2) s1) else done s s1

/-- The nearest multiple of 640 (R79). -/
def round640 (t : Label) : Label := (t + 320) / 640 * 640

/-- Whether lock has been declared by the path that LOCK_SOURCE selects (R56, R57). -/
def State.lockDeclared (s : State) : Bool :=
  match s.getF F.csCtrlLockSource with
  | 0 => s.clk.declaredA
  | 1 => s.clk.declaredD
  | 2 => s.clk.declaredA && s.clk.declaredD
  | _ => if s.clk.fallback then s.clk.declaredD else s.clk.declaredA

/-- A relock completes (R59 step 5, R60): dividers restart at their recorded phase, Cicada reloads the main counter from
the keep-alive value, rounded to the grid of 640 ticks, the outputs are ungated. -/
def relockDone (xoCycles : Nat) (s : State) : State :=
  let s := advanceTo (s.keepAliveAt xoCycles) s
  let s := stopInterval 0x0021 { s with now := round640 s.now }
  let s := match s.cic.refStep with
    | some r => moveTime r s
    | none => s
  let jump := s.clk.trimJump
  let s := setF F.csStatusRelockState 0 (setF F.csStatusOutputsGated 0 (setF F.csStatusSpllLocked 1 s))
  let s := modClk (fun c => { c with hostRelock := false, trimJump := none, needFull := false, attempts := 0,
                                     retryDue := false, rampAt := s.elapsed, phaseNow := c.phases,
                                     ungatedAt := s.elapsed + 1 }) s
  bringUp (retarget jump (postOpen 0x0901 s))

/-- A relock attempt has failed (R57, R62, R63): a fast one is followed by a full one; a full one sets RELOCK_FAILED,
and under AUTO disqualifies REFCLK and retries on XO_IN at once. -/
def relockFails (s : State) : State :=
  let st := s.getF F.csStatusRelockState
  let s := if st = 1 ∨ st = 2 then modClk (fun c => { c with attempts := c.attempts + 1, fallback := false }) s else s
  if st = 1 then
    setF F.csStatusRelockState 2 (modClk (fun c => { c with needFull := true, declaredA := false, declaredD := false }) s)
  else if st = 2 then
    let s := setF F.csStatusRelockState 5 s
    let s := eventOpen F.csEventsRelockFailed 0x0909 s
    let s := setCause 1 (logFault 0x0B 0 (min 255 s.clk.attempts) s)
    if s.getF F.csCtrlRefSel = 2 then startRelock true (setF F.csStatusRefQualified 0 s)
    else modClk (fun c => { c with retryDue := true }) s
  else s

/-- RELOCK_FAILED (R62, R63). -/
def execRelockFailed (s : State) : Host.Outcome State Fault Refusal := done s (relockFails s)

/-- RELOCK_RETRY_TIMEOUT (R63): 100 ms after a failed full relock the next attempt starts. -/
def execRelockRetryTimeout (s : State) : Host.Outcome State Fault Refusal :=
  if s.clk.retryDue = true ∧ s.getF F.csStatusRelockState = 5 then done s (startRelock true s) else done s s

/-- LOCK_FILT_PIN_TEST (R57): the result is reported; OPEN or SHORT moves lock declaration to the digital path under
AUTO, and ends the attempt under ANALOG or BOTH. -/
def execLockFiltPinTest (r : PinTest) (s : State) : Host.Outcome State Fault Refusal :=
  let code := match r with | .ok => 1 | .open => 2 | .short => 3
  let s1 := setF F.csStatusLockFiltState code s
  if code = 1 then done s s1
  else match s.getF F.csCtrlLockSource with
    | 3 => done s (event F.csEventsLockFallback 0x0904 (code * 2 ^ 16) (modClk (fun c => { c with fallback := true }) s1))
    | 1 => done s s1
    | _ => done s (relockFails s1)

/-- SPLL_LOCK_DECLARED (R56): a path's condition holds: LOCK_FILT, at `mv` mV, is above 0.8 V; or the phase error has
stayed within `phaseErr` ticks for the last `cycles` input cycles. Lock is declared by the path that LOCK_SOURCE
selects, under BOTH by both. -/
def execSpllLockDeclared (analog : Bool) (s : State) (mv phaseErr cycles : Nat := 0) : Host.Outcome State Fault Refusal :=
  let st := s.getF F.csStatusRelockState
  let holds := if analog then decide (800 < mv)
    else decide (phaseErr ≤ 2 * s.getF F.csLockDetLockWin) && decide (s.getF F.csLockDetLockCount ≤ cycles)
  if holds = false ∨ (s.flag F.csStatusSpllLocked = false ∧ st ≠ 1 ∧ st ≠ 2) then done s s
  else
    let s1 := modClk (fun c => if analog then { c with declaredA := true } else { c with declaredD := true }) s
    let s1 := if analog && (s.getF F.csCtrlLockSource != 1) then modClk (fun c => { c with analogUsed := true }) s1 else s1
    done s (if s1.lockDeclared && !s.lockDeclared then setF F.csStatusLockPath (bit (!analog)) s1 else s1)

/-! ### The reference (R41, R42, R61, R65, R96) -/

/-- The phase of REFCLK is taken over without unlocking (R65): an error of 256 ticks or less is preloaded into the phase
detector, a larger one is removed by a slew of the live offset. -/
def hitlessReturn (err : Int) (s : State) : State :=
  let big := decide (256 < err.natAbs)
  let s := setF F.csStatusRelockState 3 (changeInput true s)
  retarget none (modCic (fun c => { c with returning := decide (10 < err.natAbs), slewing := big, retErr := err }) s)

/-- REFCLK_QUALIFIED (R41, R42, R61, R65, R96): REFCLK is qualified; a wait for it ends, and under AUTO a relock to
XO_IN turns to it (DEDUCED from R41), or the PLL returns to it from XO_IN. `phaseErr` is the phase of REFCLK against
held time, positive when held time is ahead. -/
def execRefclkQualified (phaseErr : Int) (s : State) : Host.Outcome State Fault Refusal :=
  if s.flag F.csStatusRefQualified then done s s
  else
    let freq := s.getF F.csCtrlRefFreq
    let s1 := setF F.csStatusRefQualified 1 s
    let s1 := postOpen 0x0903 (if freq ≠ 3 then setF F.csStatusRefFreqActive freq s1 else s1)
    let st := s1.getF F.csStatusRelockState
    if st = 4 then done s (startRelock false s1)
    else if s1.getF F.csCtrlRefSel = 2 ∧ s1.flag F.csStatusSpllInput = false ∧ (st = 1 ∨ st = 2) then
      done s (startRelock (st == 2) s1)
    else if s1.flag F.csStatusSpllLocked = false ∨ s1.flag F.csStatusSpllInput = true ∨ s1.getF F.csCtrlRefSel ≠ 2 then
      done s s1
    else if phaseErr.natAbs ≤ 256 ∨ s1.flag F.timeCtrlRefReturn = false then done s (hitlessReturn phaseErr s1)
    else
      let s1 := modCic (fun c => { c with refStep := some (stepFor phaseErr) }) s1
      done s (hostRelock false s1)

/-- REF_RETURN_COMPLETE (R65, R96): of the error `err` ticks are left, 10 at most; after a slew RECONVERGED is posted. -/
def execRefReturnComplete (err : Int) (s : State) : Host.Outcome State Fault Refusal :=
  if s.getF F.csStatusRelockState ≠ 3 ∨ 10 < err.natAbs then done s s
  else
    let s1 := modCic (fun c => { c with returning := false, slewing := false, retErr := 0 }) s
    let s1 := retarget none (setF F.csStatusRelockState 0 s1)
    if s.cic.slewing then done s (eventOpen F.timeEventsReconverged 0x0806 s1) else done s s1

/-- REF_FREQ_AUTO_MEASURE (R41, R54, R55): under AUTO the device adopts the nominal that the measurement finds; a change
of the adopted nominal is a full relock. `offset` is in 0.01 ppm. Where the measurement finds no nominal within ±100 ppm,
REF_FREQ_ACTIVE keeps the one adopted before (DESIGN CHOICE: R41 does not say what is then adopted). -/
def execRefFreqAutoMeasure (nominal : Option (Fin 3)) (offset : Int) (s : State) : Host.Outcome State Fault Refusal :=
  if s.getF F.csCtrlRefFreq ≠ 3 then done s s
  else match nominal with
    | none => done s s
    | some n =>
      let old := s.getF F.csStatusRefFreqActive
      let s1 := setF F.csRefMeasRefOffset (twos 16 (clampInt (-10000) 10000 offset)) (setF F.csStatusRefFreqActive n s)
      let s1 := retarget none s1
      if old = 3 ∨ old = n.val then done s s1
      else done s (hostRelock true (setF F.csStatusRefQualified 0 s1))

/-- A write of REF_SEL and REF_FREQ (R44, R55, R60, R61). Answers whether it is refused. A change of the nominal ends the
present qualification at once, with neither LOSS_OF_REF nor REF_LOST (DESIGN CHOICE: R42 qualifies against the selected
nominal and does not say how a change of it treats a qualification that stands). -/
def refSelWrite (sel freq : Nat) (s : State) : State × Bool :=
  if sel = 3 then (s, true)
  else
    let moved := decide (sel ≠ s.getF F.csCtrlRefSel)
    let tuned := decide (freq ≠ s.getF F.csCtrlRefFreq)
    let old := s.getF F.csStatusRefFreqActive
    let s1 := setF F.csCtrlRefSel sel (setF F.csCtrlRefFreq freq s)
    let s1 := if tuned then setF F.csStatusRefFreqActive freq s1 else s1
    let nominal := tuned && decide (freq ≠ old)
    let s1 := if nominal then setF F.csStatusRefQualified 0 s1 else s1
    if moved = false ∧ tuned = false then (s1, false)
    else if s.getF F.csStatusRelockState = 4 ∧ moved = false then
      (modClk (fun c => { c with needFull := c.needFull || nominal }) s1, false)
    else (hostRelock nominal s1, false)

/-- A write of 1 to RELOCK (R60, R66). Without lock it is ignored: R66 says so during a relock; in WAIT_REF, while a
failed relock waits for its retry, and with PD28 off the model does the same (DESIGN CHOICE: R66 does not name these). -/
def relockWrite (s : State) : State := if s.flag F.csStatusSpllLocked then hostRelock false s else s

/-- A write of TRIM (R53, R55, R66). During a relock it is held, and the ramp toward it starts at lock. -/
def trimWrite (v : Nat) (s : State) : State :=
  let trim := signed 24 (v % 2 ^ 24)
  let s1 := setF F.csTrimTrim v s
  if 4295 < (trim - s.trim).natAbs ∧ s.flag F.csCtrlTrimRelock = true ∧ s.flag F.csStatusSpllLocked = true then
    modClk (fun c => { c with trimJump := some trim }) (hostRelock false s1)
  else retarget none s1

/-! ### The system PLL (R39, R40) -/

/-- SYSPLL_LOCK_LOSS (R40): the outputs of the system PLL are gated; X04 cannot drain, and how full it is then is not
given. -/
def execSysPllLockLoss (s : State) : Host.Outcome State Fault Refusal :=
  let s1 := each (fun p s => blocksTo p s.now s) (List.range 8) s
  let s1 := modClk (fun c => { c with sysHeld := true }) (setF F.csStatusSyspllLocked 0 s1)
  let s1 := eventOpen F.csEventsSyspllLoss 0x090A s1
  let s1 := each (fun b s => spend (modBank b (fun x => { x with x04 := s.freeN % 4097 }) s)) (List.range 8) s1
  done s (logFault 0x0C 0 0 s1)

/-- The system PLL has lock, and X04 drains again (R40), at once (DESIGN CHOICE). -/
def sysRelocked (s : State) : State :=
  let s := each (fun p s => blocksTo p s.now s) (List.range 8) s
  let s := modClk (fun c => { c with sysHeld := false, held := [] }) (setF F.csStatusSyspllLocked 1 s)
  each (fun b => modBank b fun x => { x with x04 := 0 }) (List.range 8) s

/-! ### Divider alignment (R48 to R51) -/

/-- Whether any partition is in a state other than IDLE (R47): CAPTURE_OUT_HELD. -/
def State.captureHeld (s : State) : Bool := (List.range 8).any fun p => decide (1 < s.partState p)

/-- SYNC_IN_EDGE (R48, R49, R66): SYNC_IN is sampled high at reference edge k, and edge k + 1 comes at `t`: a restart
follows (8 + SYNC_LATENCY) VCO cycles after it. -/
def execSyncInEdge (s : State) (t : Label := 0) : Host.Outcome State Fault Refusal :=
  let st := s.getF F.csStatusRelockState
  if s.getF F.csCtrlRefSel = 0 ∨ s.flag F.csStatusSpllInput = false ∨ s.flag F.csStatusOutputsGated = true
    ∨ st = 1 ∨ st = 2 ∨ (s.flag F.csSyncCtrlSyncMode = false ∧ s.flag F.csSyncCtrlSyncArm = false) then done s s
  else
    let restart := s.elapsed + (t - s.now) + (8 + s.getF F.csSyncCtrlSyncLatency) * 40
    done s (modClk (fun c => { c with syncDue := c.syncDue ++ [restart] }) s)

/-- The phase of an output that restarted at elapsed time `t` is its recorded phase (R51). -/
def recordPhase (t n : Nat) (s : State) : State :=
  modClk (fun c => { c with phases := spSet 0 n (t + 1) c.phases, phaseNow := spSet 0 n (t + 1) c.phaseNow }) s

/-- SYNC_RESTART (R48 to R51, R101): the next t_restart comes. The dividers whose SYNC_EN is set restart; `moved` are the
outputs that were not at the restart phase, `coreMove` the move of CORE in ticks. While a partition is not IDLE the
capture outputs are spared. In mode ONCE a restart needs SYNC_ARM. -/
def execSyncRestart (moved : BitVec 6) (coreMove : Int) (s : State) : Host.Outcome State Fault Refusal :=
  match s.clk.syncDue with
  | [] => done s s
  | due :: rest =>
    if s.flag F.csStatusOutputsGated then done s s
    else
      let s1 := advanceTo (s.now + (due - s.elapsed)) (modClk (fun c => { c with syncDue := rest }) s)
      if s.flag F.csSyncCtrlSyncMode = false ∧ s.flag F.csSyncCtrlSyncArm = false then done s s1
      else
        let held := s.captureHeld
        let outs := (List.range 6).filter fun n => s.flag (F.csOutCtrlSyncEn n) && (!held || decide (4 ≤ n))
        let last := (outs.map fun n => if moved.getLsbD n then 2 ^ n else 0).sum
        let s1 := each (recordPhase due) outs s1
        let s1 := if outs.contains 5 ∧ (last.testBit 5 = true ∨ s.clk.soBase = 0) then
            modClk (fun c => { c with soBase := due + 1 }) s1 else s1
        let s1 := if s.flag F.csSyncCtrlSyncMode then s1 else setF F.csSyncCtrlSyncArm 0 s1
        let s1 := setF F.csSyncStatusLastRefused (bit held) (setF F.csSyncStatusLastMoved last s1)
        let s1 := if held then eventOpen F.csEventsSyncRefused 0x0907 s1 else s1
        let s1 := setF F.csSyncStatusSyncAppliedCount (s1.getF F.csSyncStatusSyncAppliedCount + 1) s1
        let s1 := event F.csEventsSyncApplied 0x0906 (last * 2 ^ 16) s1
        if last.testBit 2 then done s (event F.timeEventsPhaseAdj 0x080D (twos 16 coreMove * 2 ^ 16) s1) else done s s1

/-! ### SYNC_OUT (R52) -/

/-- A write of 1 to SO_FIRE (R52): it waits for its pulse, also over a later change of SO_MODE; outside mode ONCE it has
no effect (both DESIGN CHOICE: R52 is silent on them). -/
def soFireWrite (s : State) : State :=
  if s.getF F.csSyncoutCtrlSoMode = 3 then modClk (fun c => { c with soFire := s.elapsed + 1 }) s else s

/-- Whether the mode of SYNC_OUT gives a pulse at the present instant, `per` being the SYNC output's period (R52): the
first SYNC-output edge at or after the second boundary; every SO_PERIOD cycles from the last restart of the SYNC divider
or, where that is not known, from the last pulse; the first SYNC-output edge after SO_FIRE. -/
def State.syncOutDue (s : State) (per : Nat) : Bool :=
  let cycles := s.getF F.csSyncoutPeriodSoPeriod * per
  let since (at_ : Nat) : Nat := s.elapsed + 1 - at_
  match s.getF F.csSyncoutCtrlSoMode with
  | 1 => decide (subsecOf s.now < per) && (s.clk.soAt == 0 || decide (subsecOf s.now < since s.clk.soAt))
  | 2 =>
    if s.clk.soBase ≠ 0 then since s.clk.soBase % cycles == 0
    else s.clk.soAt == 0 || (since s.clk.soAt % cycles == 0 && decide (0 < since s.clk.soAt))
  | 3 => s.clk.soFire != 0
  | _ => false

/-- SYNC_OUT_PULSE (R52): SYNC_OUT rises at a SYNC-output edge that its mode gives, for SO_WIDTH cycles. Without the
SYNC output there are no cycles. -/
def execSyncOutPulse (t : Label) (s : State) : Host.Outcome State Fault Refusal :=
  let s1 := advanceTo t s
  match s1.outPeriod 5 with
  | none => done s s1
  | some per =>
    if s1.syncOutDue per = false then done s s1
    else
      let s2 := modClk (fun c => { c with soFire := 0, soAt := s1.elapsed + 1 }) s1
      done s (emit (.syncOut t (s.getF F.csSyncoutCtrlSoWidth) (s1.outDelay 5)) s2)

end Sys2Proof.Machine
end

