-- ==== Sys2Proof/Machine/Memory.lean ====
section
/-! DEFINITION. Machine/Memory.lean: the capture memory's own doings: rebalancing, scrubbing, and the retirement of
pseudo-channels (R287, R294, R298 to R303, R307). -/

namespace Sys2Proof.Machine

/-! ### Pages leave a ring (R294, R302) -/

/-- The ring loses its oldest page: one that holds no data yet, else the one with the oldest data. -/
def Part.dropRingPage (x : Part) : Part :=
  if x.unheld.length < x.ringNow then { x with ringNow := x.ringNow - 1 }
  else
    { x with unheld := x.unheld.drop 1, ringNow := x.ringNow - 1 }.trim

/-- The ring loses `k` pages. -/
def dropRingPages : Nat → Part → Part
  | 0, x => x
  | k + 1, x => dropRingPages k x.dropRingPage

/-! ### Rebalancing (R294) -/

/-- Pages a partition can give: above its FLOOR, with its ring above RING_MIN. -/
def State.donation (s : State) (p : Nat) : Nat :=
  let x := s.part p
  if s.exists_ p && !s.inStaging p then min (x.pages - s.floor p) (x.ringNow - s.ringMin p) else 0

/-- The donor with the largest excess over FLOOR. -/
def State.donor (s : State) (starved : Nat) : Option Nat :=
  let ds := (List.range 8).filter fun p => p != starved && decide (0 < s.donation p)
  let top := (ds.map fun p => (s.part p).pages - s.floor p).max?.getD 0
  ds.find? fun p => decide ((s.part p).pages - s.floor p = top)

/-- Pages are reclaimed for a starved partition, at most `budget` in all; the first argument bounds the donors. Answers
the budget left. -/
def reclaimFor : Nat → Nat → Nat → State → Nat × State
  | 0, _, budget, s => (budget, s)
  | k + 1, p, budget, s =>
    let x := s.part p
    let short := min (s.ringPages p - x.ringNow) (s.getF (F.memPartLimitsCeiling p) - x.pages)
    match s.donor p with
    | none => (budget, s)
    | some d =>
      let n := min (min short budget) (s.donation d)
      if n = 0 then (budget, s)
      else
        let s := modPart p (fun x => { x with ringNow := x.ringNow + n }) (modPart d (dropRingPages n) s)
        let s := setF F.memEventsReclaim 1 (bump (0x4009 + d * 0x20) n s)
        let s := limited (0x1503 * 256 + d) ticksPerSecond (postPart d 0x1503 d) s
        reclaimFor k p (budget - n) s

/-- REBALANCE_TICK (R294): once each millisecond Scarab reclaims pages for starved rings of armed partitions. -/
def execRebalanceTick (s : State) : Host.Outcome State Fault Refusal :=
  if s.flag F.memCtrlRebalEn = false ∨ s.mgmt.scarabDown = true ∨ s.flag F.memStatusTrained = false then done s s
  else
    let starved := (List.range 8).filter fun p =>
      (s.part p).armed && !s.inStaging p && decide ((s.part p).ringNow < s.ringPages p)
    let r := starved.foldl (fun (acc : Nat × State) p => reclaimFor 8 p acc.1 acc.2) (4096, s)
    done s (settleAll r.2)

/-! ### Scrubbing (R298, R299) -/

/-- A word that the scrubber cannot correct fails parity from now on (R299). -/
def scrubPoison : MemPlace → State → State
  | .stream p pos, s => mapStored p (fun q r => r.poison (wordsIn q (pos / 8 * 8) (pos / 8 * 8 + 8) r)) s
  | .segment p key w, s => match (s.part p).seg? key with
    | some g => poisonWord p (some key) (s.finalPlaced p g) w s
    | none => s
  | .reserved, s => s

/-- SCRUB_PASS (R298, R299): the scrubber completes a pass. `ce` are the pseudo-channels of the errors it corrected,
`ue` those of the words it could not correct, with their places. -/
def execScrubPass (ce : List PcId) (ue : List (PcId × MemPlace)) (s : State) : Host.Outcome State Fault Refusal :=
  if s.flag F.memStatusTrained = false ∨ s.getF F.memCtrlScrubHours = 0 then done s s
  else
    let s1 := each (fun (e : PcId × MemPlace) s => uncorrectable e.1 (e.2 == .reserved) (scrubPoison e.2 s)) ue
      (each (fun (n : PcId) => corrected n) ce s)
    done s (bump 0x5080 1 s1)

/-! ### Retirement (R300 to R303) -/

/-- PC_RETIRE_DETECT (R300, R301): a pseudo-channel meets a retirement cause: RETIRE_UE uncorrectable words within one
second, a command interface that does not respond, or a PHY that does not retrain. -/
def execPcRetireDetect (n : PcId) (cause : Fin 3) (s : State) : Host.Outcome State Fault Refusal :=
  if cause = 0 ∧ s.ueCount n < s.getF F.memCtrlRetireUe then done s s else done s (retire n cause s)

/-- The registers of a pseudo-channel after a training of `us` µs (R536); the eye it measures is a free value. -/
def pcTrained (st q us : Nat) (s : State) : State :=
  let s := setF (F.hbmPcStatusEyeWidth st q) (s.freeN % 256) (setF (F.hbmPcStatusEyeHeight st q) (s.freeN / 256 % 256) s)
  spend (setF (F.hbmPcTrainLastTrainUs st q) (min 65535 us) s)

/-- HBM_PHY_RETRAIN (R300, R536): the PHY of a pseudo-channel has lost training; a retraining of more than 100 µs retires
the pseudo-channel. -/
def execHbmPhyRetrain (n : PcId) (us : Nat) (s : State) : Host.Outcome State Fault Refusal :=
  let st := n.val / 32
  let q := n.val % 32
  let s1 := setF (F.hbmPcTrainRetrains st q) (min 65535 (s.getF (F.hbmPcTrainRetrains st q) + 1)) s
  let s1 := pcTrained st q us s1
  if 100 < us then done s (retire n 2 s1) else done s s1

/-- A write of MEM_RETIRE_CMD (R300, R311). Answers whether it is refused. -/
def retireWrite (v : Word) (s : State) : State × Bool :=
  let n := bitsOf v.toNat 0 6
  if bitsOf v.toNat 31 1 = 0 ∨ s.flag F.memStatusTrained = false then (s, false)
  else if s.pcRetired n = true ∨ s.getF F.memCapPcActive < 43 + s.mgmt.retiring.length then (s, true)
  else (retire n 3 s, false)

/-- The longest ring among partitions that satisfy `c`. -/
def State.longestRing (s : State) (c : Nat → Bool) : Option Nat :=
  let ps := (List.range 8).filter fun p => s.exists_ p && !s.inStaging p && decide (0 < (s.part p).ringNow) && c p
  let top := (ps.map fun p => (s.part p).ringNow).max?.getD 0
  ps.find? fun p => decide ((s.part p).ringNow = top)

/-- `k` ring pages are taken for a retirement: rings above RING_MIN first, the longest ring first, then any ring
(R302). -/
def takeRingPages : Nat → State → State
  | 0, s => s
  | k + 1, s =>
    match s.longestRing fun p => decide (s.ringMin p < (s.part p).ringNow) with
    | some p => takeRingPages k (modPart p Part.dropRingPage s)
    | none => match s.longestRing fun _ => true with
      | some p => takeRingPages k (modPart p Part.dropRingPage s)
      | none => s

/-- One retirement is carried out (R302): 384 pages leave the allocatable ones. -/
def remapOne (n : Nat) (s : State) : State :=
  let alloc := s.getF F.memCapPagesAlloc - 384
  let s := takeRingPages (s.pagesUsed - alloc) s
  let s := loseStripes n s
  let s := setF F.memCapPcActive (s.getF F.memCapPcActive - 1) (setF F.memCapPagesAlloc alloc s)
  let s := { s with mgmt := { s.mgmt with retired := s.mgmt.retired ++ [n] } }
  let s := if n < 32 then setF ⟨.memRetiredLo, n, 1⟩ 1 s else setF ⟨.memRetiredHi, n - 32, 1⟩ 1 s
  setF F.memStatusRetiredCount (s.getF F.memStatusRetiredCount + 1) s

/-- A partition that the retirement leaves with a ring below RING_MIN is at its limit: it is reported, or where it was at
its limit before, the policy acts again (R295, R302, R307). -/
def leaveAtLimit (p old : Nat) (s : State) : State :=
  let x := s.part p
  if x.ringNow < old ∧ x.ringNow < s.ringMin p then
    limitActs (fun t => decide (t.ringMin p ≤ (t.part p).ringNow)) (s.limitSteps p) p s
  else s

/-- REMAP_DONE (R301 steps 4 and 5, R302, R303): the page maps are rewritten; RETIRING clears, PC_RETIRED is posted, and
storing may resume. -/
def execRemapDone (s : State) : Host.Outcome State Fault Refusal :=
  let ns := s.mgmt.retiring.map Prod.fst
  if ns = [] then done s s
  else
    let s1 := each remapOne ns s
    let s1 := each (fun p => leaveAtLimit p (s.part p).ringNow) (List.range 8) s1
    let s1 := setF F.memStatusRetiring 0 { s1 with mgmt := { s1.mgmt with retiring := [], mirrorDue := true } }
    let s1 := each (fun n => event F.memEventsPcRetired 0x1501 n) ns s1
    let floors := ((List.range 8).map s1.floor).sum
    let s1 := if s1.getF F.memCapPagesAlloc < floors then postOpen 0x1507 s1 else s1
    done s (settleAll s1)

/-- MIRROR_REBUILD_DONE (R301 step 6): the reserved regions have both copies again. -/
def execMirrorRebuildDone (s : State) : Host.Outcome State Fault Refusal :=
  done s { s with mgmt := { s.mgmt with mirrorDue := false } }

end Sys2Proof.Machine
end

