-- ==== Sys2Proof/Machine/Checks.lean ====
section
/-! DEFINITION. Machine/Checks.lean: staged writes, the ranges and reserved encodings of register words, and the rules
that join several fields: detectors, sequencers, rings of capture memory (R8, R44, R145, R158, R162, R165, R177, R201,
R293). -/

namespace Sys2Proof.Machine

/-! ### Staging (R8, R10) -/

/-- A staged value of a register is marked with the time of its acceptance (R9). -/
def markStaged (r : Reg) (s : State) : State :=
  if r.fields.any fun x => [Apply.frame, .segment, .second, .arm].contains x.apply then
    { s with stamps := spSet 0 (stagedKey r) (s.elapsed + 1) s.stamps }
  else s

/-- The RW fields of a register take their bits from a word. -/
def stage (r : Reg) (w : Word) (s : State) : State :=
  let m := fieldMask (fun x => x.access == .rw) r.fields
  markStaged r (wr r ((s.rd r &&& ~~~m) ||| (w &&& m)) s)

/-- The word a register would hold after its RW fields took their bits from `w`. -/
def State.merged (s : State) (r : Reg) (w : Word) : Word :=
  let m := fieldMask (fun x => x.access == .rw) r.fields
  (s.rd r &&& ~~~m) ||| (w &&& m)

/-- Words of an image from block offset `lo` on, each with the register of a device block that starts at `base`. -/
def imageRegs (base lo : Nat) (ws : List Word) : List (Nat × Reg × Word) :=
  ws.zipIdx.filterMap fun e => (Reg.ofOff 0 (base + lo + 4 * e.2)).map fun r => (lo + 4 * e.2, r, e.1)

/-- `n` words of an image from byte `at_` on; a word beyond the image is 0. -/
def imageWords (image : List Word) (at_ n : Nat) : List Word :=
  (List.range n).map fun k => image.getD (at_ / 4 + k) 0

/-- Words of an image are staged. -/
def stageAll (l : List (Nat × Reg × Word)) (s : State) : State := each (fun e => stage e.2.1 e.2.2) l s

/-! ### Ranges and reserved encodings -/

/-- Whether the value of every RW field of a register word is in its range and no reserved encoding: clock synthesis
(R44, R68, R71, R74), time (R103, R106), front end (R111, R140 to R142), detectors (R145, R146, R175), sequencers (R177,
R213, R214), partitions (R245), encoding (R284), capture memory (R311, R312), rings (R349, R350), endpoint (R387, R389),
services (R426, R430, R432), power (R477), faults (R501). -/
def Reg.rangeOk (r : Reg) (w : Word) : Bool :=
  let g (lo n : Nat) : Nat := bitsOf w.toNat lo n
  let within (lo n a b : Nat) : Bool := decide (a ≤ g lo n) && decide (g lo n ≤ b)
  match r with
  | .csCtrl => g 0 2 != 3
  | .csLockDet => decide (16 ≤ g 16 16) && g 8 8 != 0 && g 0 8 != 0
  | .csSyncoutCtrl => g 8 8 != 0
  | .csSyncoutPeriod => decide (2 ≤ g 0 32)
  | .timeCtrl => g 0 2 != 3
  | .timePpsCfg => g 24 4 != 0 && decide (640 ≤ g 0 24)
  | .timeSteerCfg => within 24 8 1 200 && within 16 8 1 200 && g 0 10 != 0
  | .feStclkCfg _ => g 0 2 != 3
  | .feCalCtrl _ => g 8 8 != 0
  | .feAtCfg _ => g 8 8 != 0 && decide (g 16 8 ≤ g 24 8)
  | .chCfg _ _ => g 8 2 != 3
  | .detCfg _ => decide (g 24 4 ≤ 8) && g 4 2 != 3
  | .gpCfg _ => g 16 2 != 3
  | .brTerm _ _ _ _ => selOk (g 0 16) && selOk (g 16 16)
  | .brAct1 _ _ _ => (List.range 4).all fun k => g (2 * k) 2 != 3 && decide (g (8 + 3 * k) 3 ≤ 4)
  | .trigoutCfg _ => g 24 8 != 0
  | .partMode _ => within 16 15 1 32000
  | .encCtrl _ => g 0 2 != 3 && g 8 8 != 0 && decide (g 16 8 ≤ g 24 8)
  | .memCtrl => g 16 8 != 0
  | .memPartPolicy _ => g 0 2 != 3
  | .rcCfg _ _ => decide (g 29 2 ≤ 1) && decide (g 20 4 ≤ 12) && decide (g 16 4 ≤ 12)
  | .rcWm _ _ => decide (g 0 17 ≤ 65536)
  | .epCto _ => within 0 23 5 6400000
  | .epErrCfg _ => decide (g 0 8 ≤ 64)
  | .epWakeCfg _ => g 24 8 != 0
  | .snapSelect _ => g 30 2 != 3
  | .evqCfg _ => decide (g 0 9 ≤ 256)
  | .mbxHostCfg _ => decide (g 16 4 ≤ 4)
  | .pwrCtl _ => g 8 16 != 0
  | .fltCfg _ => decide (g 0 7 ≤ 64)
  | _ => true

/-! ### The services in force (R460) -/

/-- Before eclosion the device gives reduced service (Chrysalis). -/
def State.reducedService (s : State) : Bool := !s.mgmt.eclosed

/-! ### Detectors (R145, R158, R160, R162, R165) -/

/-- Whether a bank is in single mode under the values about to apply (R114, R132). -/
def State.singleSoon (s : State) (b : Nat) : Bool := s.flag (F.feBankCtrlCmpMode b) || s.reducedService

/-- Whether a per-bank detector obeys the rules that join fields, on its staged values. -/
def State.bankDetOk (s : State) (n : Nat) : Bool :=
  let ty := s.getF (F.detCfgType n)
  let lim1 := s.getF2 (F.detLim1LoLim1 n) (F.detLim1HiLim1 n)
  let lim2 := s.getF2 (F.detLim2LoLim2 n) (F.detLim2HiLim2 n)
  let single := s.singleSoon (n / 16)
  let usesL := match ty with
    | 0 => false
    | 4 | 6 => true
    | 7 => s.flag (F.detCfgCmp n) || s.flag (F.detCfgCmpB n)
    | 8 => s.getF (F.detPatMaskPatMask n 2) != 0 || s.getF (F.detPatMaskPatMask n 3) != 0
    | _ => s.flag (F.detCfgCmp n)
  (!([2, 3, 5, 8].contains ty) || decide (1 ≤ lim1)) && (!([2, 6].contains ty) || decide (lim1 ≤ lim2))
    && (ty != 7 || s.getF (F.detCfgChanA n) != s.getF (F.detCfgChanB n) || s.getF (F.detCfgCmp n) != s.getF (F.detCfgCmpB n))
    && !(single && usesL)

/-- Channels that a global pattern detector compares, on its staged values. -/
def State.gpChannels (s : State) (g : Nat) : List Nat :=
  (List.range 512).filter fun c => decide (s.getF (F.gpRangeLoCh g) ≤ c) && decide (c ≤ s.getF (F.gpRangeHiCh g))
    && (s.getF (F.gpMaskGpMask g (c / 32))).testBit (c % 32)

/-- Whether a global pattern detector of partition `p` obeys R162, on its staged values. -/
def State.gpOk (s : State) (p g : Nat) : Bool :=
  let banks := ((s.gpChannels g).map (· / 64)).eraseDups
  banks.all (fun b => (s.banksOf p).contains b)
    && (!s.flag (F.partModeStateMode p) || decide (banks.length ≤ 1))
    && (!s.flag (F.gpCfgCmp g) || banks.all fun b => !s.singleSoon b)

/-- Whether a detector of partition `p` obeys the rules that join fields (R165), on its staged values. DETECTOR_LOAD asks
this of every entry (R24, R114, R168), an ARM of the enabled detectors. -/
def State.detOk (s : State) (p n : Nat) : Bool :=
  if n < 128 then s.bankDetOk n else s.gpOk p (n - 128)

/-- Whether a detector is enabled, on its staged values. -/
def State.detEnabled (s : State) (n : Nat) : Bool :=
  if n < 128 then s.flag (F.detCfgEn n) else s.flag (F.gpCfgEn (n - 128))

/-- Whether a global pattern detector is assigned to a partition that satisfies `c`, live or staged (R165). -/
def State.gpAssigned (s : State) (g : Nat) (c : Nat → Bool) : Bool :=
  (s.flag (F.gpCfgAssigned g) && c (s.getF (F.gpCfgPartition g)))
    || (s.flagL (F.gpCfgAssigned g) && c (s.getL (F.gpCfgPartition g)))

/-- Detectors of a partition on the values about to apply: those of its banks, and the global ones assigned to it. -/
def State.detsOfPart (s : State) (p : Nat) : List Nat :=
  (s.banksOf p).flatMap detsOf ++
    ((List.range 8).filter fun g => s.flag (F.gpCfgAssigned g) && s.getF (F.gpCfgPartition g) == p).map (128 + ·)

/-! ### Sequencers (R201) -/

/-- The first breach of R201 by partition `p`'s staged sequencer: level, branch, whether a level's own rule. -/
def State.seqBreach (s : State) (p : Nat) : Option (Nat × Nat) :=
  Sys2Proof.Machine.seqBreach s.getF (fun n => decide (n < 136) && s.mayName s.getF p n) (s.limitFloor p) p
/-- The first word of a sequencer's staged block that breaks a rule. -/
def State.seqBadWord (s : State) (p : Nat) : Option Nat :=
  Sys2Proof.Machine.seqBadWord s.getF (fun n => decide (n < 136) && s.mayName s.getF p n) (s.limitFloor p) p

/-! ### Capture memory (R293) -/

/-- Whether the staged ring of a partition obeys RING_MIN ≥ 16 and RING_MIN ≤ RING_PAGES ≤ CEILING. -/
def State.ringOk (s : State) (p : Nat) : Bool :=
  let min_ := s.getF (F.memPartRingRingMin p)
  let pages := s.getF (F.memPartRingRingPages p)
  decide (16 ≤ min_) && decide (min_ ≤ pages) && decide (pages ≤ s.getF (F.memPartLimitsCeiling p))

/-- Whether the FLOOR values fit PAGES_ALLOC and each partition's FLOOR is at most its CEILING. -/
def State.limitsOk (s : State) (p : Nat) : Bool :=
  decide (((List.range 8).map s.floor).sum ≤ s.getF F.memCapPagesAlloc)
    && decide (s.floor p ≤ s.getF (F.memPartLimitsCeiling p))

end Sys2Proof.Machine
end

