-- ==== Sys2Proof/Machine/Power.lean ====
section
/-! DEFINITION. Machine/Power.lean: the states of the power domains, what leaving ON and OFF does to them, pins, the
bank enables, and the commands of the family (R33, R34, R64, R123, R463 to R467, R474). -/

namespace Sys2Proof.Machine

/-! ### States and residency (R463, R467) -/

/-- Item code of the time a domain spent in a state. -/
def residencyItem (d st : Nat) : Nat := 0x8000 + d * 8 + st

/-- A domain enters a state: its residency counts there from now on; a transition out of OFF is counted. -/
def setDomain (d st : Nat) (s : State) : State :=
  let was := s.domain d
  if was = st then s
  else
    let s := startInterval (residencyItem d st) (stopInterval (residencyItem d was) s)
    let s := setF (F.pwrStatState d) st s
    if was = 3 then bump (0x8004 + d * 8) 1 s else s

/-- The residency of every domain begins to count in its present state (R467). -/
def startResidency (s : State) : State :=
  each (fun d s => startInterval (residencyItem d (s.domain d)) s) ((List.range 30).map (· + 1)) s

/-! ### When a domain may be off (R33, R34, R123, R463 to R466) -/

/-- The bank whose analogue or digital part a domain is. -/
def domainBank (d : Nat) : Option Nat := if 2 ≤ d ∧ d < 18 then some ((d - 2) % 8) else none

/-- Whether a domain allows gating (R464). -/
def gates (d : Nat) : Bool := (decide (2 ≤ d) && decide (d ≤ 22)) || [26, 27, 30].contains d
/-- Whether a domain allows retention; for the HBM stacks it is self-refresh (R464). -/
def retains (d : Nat) : Bool := [18, 19, 20, 21, 22, 26].contains d

/-- Whether any partition exists. -/
def State.anyPart (s : State) : Bool := (List.range 8).any s.exists_

/-- Whether BANK_EN holds the domains of a bank off (R466). -/
def State.bankDisabled (s : State) (b : Nat) : Bool := !(s.getF F.pwrBankEnBankEn).testBit b

/-- Whether the thermal step GATE holds a domain off: those of banks in no armed partition (R453). -/
def State.thermallyOff (s : State) (d : Nat) : Bool :=
  match domainBank d with
  | some b => (s.getF F.thermStatusSteps).testBit 0 && !s.flag F.thermCtrlGateOverride && !s.bankArmed b
  | none => false

/-- Whether the off condition of a domain holds (R33, R123, R466). -/
def State.offCondition (s : State) (d : Nat) : Bool :=
  match domainBank d with
  | some b => s.bankDisabled b || ((s.partOf b).isNone && !s.flag (F.feBankStatusCalRunning b))
  | none =>
    if d = 18 ∨ d = 19 then !s.anyPart
    else if d = 21 ∨ d = 22 then (List.range 8).all fun p => s.inStaging p || (s.part p).pages == 0
    else if d = 24 then !s.mgmt.dualPort
    else if d = 27 then s.mgmt.certsRead && !s.mgmt.fireflyDown
    else if d = 28 then !s.anyPart && !s.flag F.csStatusSpllInput
    else d == 30

/-- Whether a domain may be ON: nothing above its controller holds it off (R453, R465, R466, R379). -/
def State.mayBeOn (s : State) (d : Nat) : Bool :=
  !s.mgmt.d3cold && !s.mgmt.tripped && !s.thermallyOff d
    && (match domainBank d with | some b => !s.bankDisabled b | none => true)

/-! ### Loss of a domain's content (R33, R98, R123, R398) -/

/-- Registers between two offsets are at reset, but for what `keep` keeps of each word. -/
def resetRange (keep : Reg → Word) (lo hi : Nat) (s : State) : State :=
  each (fun r s =>
    let w := (s.rd r &&& keep r) ||| (r.reset &&& ~~~keep r)
    let l := (s.rdLive r &&& keep r) ||| (r.reset &&& ~~~keep r)
    wrLive r l (wr r w s)) (s.listed lo hi).eraseDups s

/-- Statistics counters that satisfy `c` are lost with their domain. -/
def loseCtrs (c : Nat → Bool) (s : State) : State := { s with ctrs := s.ctrs.filter fun e => !c e.1 }

/-- What Scarab keeps of a bank's registers: which steps are valid, the temperature of the last TDC_DENSITY step, and
the DESKEW values while step 4 is valid (R123, R127, R128). -/
def State.coefficients (s : State) (r : Reg) : Word :=
  match r with
  | .feBankStatus _ => 0x00FF011F
  | .chCfg b _ => if (s.getF (F.feBankStatusStepsValid b)).testBit 4 then 0x07FF0000 else 0
  | _ => 0

/-- A bank's digital domain loses what it holds: registers but for the coefficients, detectors, counters (R123). The
comparator states follow the pins. -/
def loseBank (b : Nat) (s : State) : State :=
  let x := s.bank b
  let s := resetRange s.coefficients (0x10000 + b * 0x2000) (0x12000 + b * 0x2000) s
  let s := resetRange (fun _ => 0) (0x20000 + b * 0x1000) (0x21000 + b * 0x1000) s
  let s := each (fun n => setDet n {}) (detsOf b) s
  let s := setBank b { lvlU := x.lvlU, lvlL := x.lvlL, startU := x.lvlU, startL := x.lvlL, fedU := x.lvlU, fedL := x.lvlL } s
  loseCtrs (fun c => (c / 16 == 0x100 + b && decide (c % 16 < 3)) || (decide (0x2000 ≤ c) && (c - 0x2000) / 64 == b && decide (c < 0x2200))) s

/-- The domain of the sequencers loses what it holds: sequencers, flags, triggers, global pattern detectors (R33). -/
def loseSequencers (s : State) : State :=
  let s := resetRange (fun _ => 0) 0x28000 0x40000 s
  let s := { s with seqs := [], flags := { triginLevel := s.flags.triginLevel, cycle := s.flags.cycle } }
  let s := each (fun g => setDet (128 + g) {}) (List.range 8) s
  loseCtrs (fun c => (decide (0x2200 ≤ c) && decide (c < 0x2220)) || (decide (0x3000 ≤ c) && decide (c < 0x3080))) s

/-- A domain powers off: what it holds is lost (R33, R123). -/
def powerOff (d : Nat) (s : State) : State :=
  if s.domainOff d then s
  else
    let s := if 10 ≤ d ∧ d < 18 then loseBank (d - 10) s
      else if d = 18 then loseSequencers s
      else if d = 19 then
        loseCtrs (fun c => decide (0x1000 ≤ c) && decide (c < 0x1080) && decide (3 ≤ c % 16))
          (resetRange (fun _ => 0) 0x44000 0x44100 s)
      else if d = 28 then setF F.csStatusRelockState 0 (gateOutputs s)
      else s
    setDomain d 3 s

/-- A domain powers on: the comparators of a bank's front end start low (R113); the sample PLL performs a fast relock
(R64, R464). -/
def powerOn (d : Nat) (s : State) : State :=
  if s.domainOff d = true ∧ s.mayBeOn d = true then
    let s := setF (F.pwrStatThermalOff d) 0 (setDomain d 0 s)
    let s := match domainBank d with | some b => comparatorsLow b s | none => s
    if d = 28 then startRelock false s else s
  else s

/-- A gated or retained domain is ON again when work reaches it (R463). -/
def wake (d : Nat) (s : State) : State := if s.domain d = 1 ∨ s.domain d = 2 then setDomain d 0 s else s

/-- Whether PIN_ON holds a domain. -/
def State.pinned (s : State) (d : Nat) : Bool := s.flag (F.pwrCtlPinOn d)
/-- Whether FORBID_OFF holds a domain. -/
def State.forbidden (s : State) (d : Nat) : Bool := s.flag (F.pwrCtlForbidOff d)

/-! ### Pins (R332, R465) -/

/-- Whether PIN_ON and FORBID_OFF of a domain are refused (R465). -/
def State.pinRefused (s : State) (d : Nat) : Bool :=
  d == 1 || (d == 24 && !s.mgmt.dualPort) || (match domainBank d with | some b => s.bankDisabled b | none => false)

/-- PIN_ON and FORBID_OFF of a domain are set as given, and act (R463, R465). -/
def powerPins (d : Nat) (pin forbid : Bool) (s : State) : State :=
  let s := setF (F.pwrCtlForbidOff d) (bit forbid) (setF (F.pwrCtlPinOn d) (bit pin) s)
  let s := setF (F.pwrStatForbidden d) (bit forbid) (setF (F.pwrStatPinned d) (bit pin) s)
  let s := if pin ∨ forbid then powerOn d s else s
  if pin then wake d s else s

/-- A refused write of the power block is reported to the PF of each port (R465, R475). -/
def powerRefused (off : Nat) (s : State) : State := event F.pwrEventsCfgRefused 0x1A01 (off % 2 ^ 16 * 2 ^ 16) s

/-- POWER_PIN (R332, R465), with ACTION as given; it waits while Scarab is down. -/
def powerPin (again : Instr) (c : Cmd) (d : Nat) (pin forbid : Option Bool) (s : State) : State :=
  if isPf c.fn = false then finish c 0x11 stNotOwner 0 0 s
  else if d = 0 ∨ 30 < d then finish c 0x11 stInvalidField 0 0 s
  else if s.mgmt.scarabDown then { s with waiting := s.waiting ++ [again] }
  else if (pin = some true ∨ forbid = some true) ∧ s.pinRefused d = true then finish c 0x11 stInvalidField 0 0 s
  else
    let s := if d = 1 then s else powerPins d (pin.getD (s.pinned d)) (forbid.getD (s.forbidden d)) s
    finish c 0x11 stOk (s.domain d) 0 s

/-- POWER_PIN_RELEASE (R465). -/
def execPowerPinRelease (c : Cmd) (d : Nat) (s : State) : Host.Outcome State Fault Refusal :=
  done s (powerPin (.powerPinRelease c d) c d (some false) (some false) s)

/-- POWER_PIN_ON (R465). -/
def execPowerPinOn (c : Cmd) (d : Nat) (s : State) : Host.Outcome State Fault Refusal :=
  done s (powerPin (.powerPinOn c d) c d (some true) none s)

/-- POWER_FORBID_OFF (R465). -/
def execPowerForbidOff (c : Cmd) (d : Nat) (s : State) : Host.Outcome State Fault Refusal :=
  done s (powerPin (.powerForbidOff c d) c d none (some true) s)

/-! ### The local controllers (R463, R464) -/

/-- DOMAIN_IDLE_TIMEOUT (R463): ON becomes GATED, GATED becomes RETAIN, where the domain allows it and no pin holds. -/
def execDomainIdleTimeout (d : DomId) (s : State) : Host.Outcome State Fault Refusal :=
  if s.pinned d then done s s
  else if s.domain d = 0 ∧ gates d = true then done s (setDomain d 1 s)
  else if s.domain d = 1 ∧ retains d = true ∧ s.flag (F.pwrCtlRetainEn d) = true then done s (setDomain d 2 s)
  else done s s

/-- DOMAIN_WAKE (R463): work reaches the domain; from OFF nothing changes. -/
def execDomainWake (d : DomId) (s : State) : Host.Outcome State Fault Refusal := done s (wake d s)

/-- DOMAIN_POWER_OFF (R463, R34): the off condition has held for 1 ms with neither PIN_ON nor FORBID_OFF. -/
def execDomainPowerOff (d : DomId) (s : State) : Host.Outcome State Fault Refusal :=
  if s.offCondition d = true ∧ s.pinned d = false ∧ s.forbidden d = false then done s (powerOff d s) else done s s

/-- DOMAIN_POWER_ON (R463, R464): the off condition has ended, and the domain is on again. That PD30 is no longer idle is
what the event says. -/
def execDomainPowerOn (d : DomId) (s : State) : Host.Outcome State Fault Refusal :=
  if s.offCondition d = false ∨ d = 30 ∨ s.pinned d = true ∨ s.forbidden d = true then done s (powerOn d s) else done s s

/-! ### The bank enables (R465, R466) -/

/-- A write of PWR_BANK_EN: refused where it clears the bit of a bank in a partition; else the voted field takes the
value, and the domains of a bank whose bit is 0 are off. A calibration of such a bank aborts; the spec gives no reason
code for it (a free value). -/
def bankEnWrite (v : Nat) (s : State) : State :=
  let clears := (List.range 8).filter fun b => !v.testBit b
  if clears.any fun b => (s.partOf b).isSome then powerRefused 0x70100 s
  else
    let s := setF F.pwrBankEnBankEn v s
    each (fun b s =>
      let s := if s.flag (F.feBankStatusCalRunning b) then abortCal b (s.freeN % 256) (spend s) else s
      powerOff (10 + b) (powerOff (2 + b) s)) clears s


end Sys2Proof.Machine
end

