-- ==== Sys2Proof/Machine/Arm.lean ====
section
/-! DEFINITION. Machine/Arm.lean: ARM with its checks, the ring it takes and auto-threshold, DISARM and FORCE_TRIGGER
(R124, R128, R130, R131, R165, R200, R201, R216, R218, R293, R306, R326). -/

namespace Sys2Proof.Machine

/-! ### What ARM applies (R8, R124) -/

/-- Blocks of the device whose ARM fields belong to a partition, as offsets from and to. The fields of a global pattern
detector whose live and staged values name different partitions apply at the ARM of either (DESIGN CHOICE: R165 counts it as
assigned to both and does not say whose ARM applies them). -/
def State.armBlocks (s : State) (p : Nat) : List (Nat × Nat) :=
  let bs := s.banksOf p
  bs.map (fun b => (0x10000 + b * 0x2000, 0x12000 + b * 0x2000)) ++
  bs.map (fun b => (0x20000 + b * 0x1000, 0x21000 + b * 0x1000)) ++
  ((List.range 8).filter fun g => s.gpAssigned g (· == p)).map (fun g => (0x28000 + g * 0x100, 0x28100 + g * 0x100)) ++
  [(0x2C050 + p * 4, 0x2C054 + p * 4), (0x30000 + p * 0x2000, 0x32000 + p * 0x2000),
   (0x40000 + p * 0x400, 0x40400 + p * 0x400), (0x50100 + p * 0x20, 0x50120 + p * 0x20)]

/-- Registers of a partition that hold or stage something else than at reset. -/
def State.armRegs (s : State) (p : Nat) : List Reg := (s.armBlocks p).flatMap fun e => s.listed e.1 e.2

/-- Whether an ARM now leaves a register's staged fields in staging: CMP_MODE in reduced service (R132), and what was
accepted, or landed by slow access, in this core cycle (R9, R207). -/
def State.armSkips (s : State) (r : Reg) : Bool :=
  (match r with | .feBankCtrl _ => s.reducedService | _ => false)
    || decide (s.elapsed < spGet 0 (stagedKey r) s.stamps + s.now % ticksPerCore)

/-- The state with the live values in staging that an ARM would leave in force: the values that it checks. -/
def State.soon (s : State) (p : Nat) : State :=
  each (fun r s => if s.armSkips r then wr r (s.rdLive r) s else s) (s.armRegs p) s

/-- The L comparators of a bank go down: L reads 0 (R114, R132). When they come back they start low, which the spec does
not say (DESIGN CHOICE). -/
def lowL (b : Nat) (s : State) : State :=
  modBank b (fun x => { x with
    lvlL := 0, startL := 0, fedL := 0, cross := x.cross.filter (fun e => e.cmp == .u),
    feed := x.feed.filter (fun f => f.x.cmp == .u), lastX := x.lastX.filter fun e => e.1 % 2 == 0 }) s

/-- Channels of a bank whose live threshold, hysteresis or input mode differs between two states (R113). -/
def thrChanged (b : Nat) (s t : State) : List Nat :=
  (List.range 64).filter fun c => decide (s.rdLive (.chThr b c) ≠ t.rdLive (.chThr b c))
    || decide (s.rdLive (.chCfg b c) &&& 0x3FF#32 ≠ t.rdLive (.chCfg b c) &&& 0x3FF#32)

/-- New thresholds of a bank are in effect from now on (R113). -/
def newThr (b : Nat) (cs : List Nat) (s : State) : State :=
  if cs = [] then s else modBank b (fun x => { x with thrAt := s.now + 1, thrChans := cs }) s

/-- A bank at an ARM: it samples as reduced or full service says, in the mode that CMP_MODE gives (R114, R132). -/
def armBank (b : Nat) (s : State) : State :=
  let s := modBank b (fun x => { x with slow := s.reducedService }) s
  if s.flagL (F.feBankCtrlCmpMode b) || (s.bank b).slow then lowL b s else s

/-- The staged values of a partition's ARM fields apply (R9, R124). -/
def applyArm (p : Nat) (s : State) : State :=
  let t := each (fun r s => if s.armSkips r then s else applyReg .arm r s) (s.armRegs p) s
  each (fun b t => armBank b (newThr b (thrChanged b s t) t)) (s.banksOf p) t

/-! ### The checks of ARM, in order -/

/-- Banks of a partition that are UNCALIBRATED; none count in reduced service (R128, R132). -/
def State.uncalibrated (s : State) (p : Nat) : List Nat :=
  if s.reducedService then [] else (s.banksOf p).filter fun b => s.flag (F.feBankStatusUncalibrated b)

/-- Whether reduced service refuses an ARM (R216, R437, R447). -/
def State.reducedRefuses (s : State) (p : Nat) : Bool :=
  s.reducedService && ((s.mgmt.running.map ImageCopy.chrysalisEn) == some false
    || (s.banksOf p).any (fun b => decide (2 ≤ b)) || s.getF (F.partModeRate p) != 3
    || s.flag (F.partModeStateMode p))

/-- Pages that the ring of an ARM can take: RING_PAGES of them, from the ring of the earlier interval, the floor reserve
and the free pool within CEILING; the 24 pages of the staging store in reduced service (R293, R306). -/
def State.ringFor (s : State) (p : Nat) : Nat :=
  let held := (s.part p).held.length
  if s.reducedService then 24 - held
  else
    let bare := modPart p (fun x => { x with ringNow := 0, reduced := false }) s
    let reserve := s.floor p - held
    let pool := min bare.freePages (s.getF (F.memPartLimitsCeiling p) - held - reserve)
    min (min (s.getF (F.memPartRingRingPages p)) (reserve + pool)) (s.getF F.memCapPagesAlloc - bare.pagesUsed)

/-- The status with which an ARM is refused, if it is, with the events of the refusal; `v` holds the values that would
apply. -/
def armRefusal (f p : Nat) (v s : State) : Option Nat × State :=
  if s.exists_ p = false ∨ 7 < p then (some stInvalidField, s)
  else if s.owns f p = false then (some stNotOwner, s)
  else if (s.part p).armed ∨ (s.part p).arming.isSome then (some stBusy, s)
  else if v.reducedRefuses p then (some stBringup, s)
  else if (s.banksOf p).any fun b => s.flag (F.feBankStatusCalRunning b) then (some stBusy, s)
  else if s.uncalibrated p ≠ [] then (some stBusy, each (fun b => postBank b 0x1004 b) (s.uncalibrated p) s)
  else match (v.detsOfPart p).find? fun n => v.detEnabled n && !v.detOk p n with
    | some n => (some stInvalidField, postPart p 0x1100 n s)
    | none => match v.seqBreach p with
      | some (l, b) => (some stInvalidField, postPart p 0x1200 (p + l * 2 ^ 8 + b * 2 ^ 12) s)
      | none =>
        if v.ringOk p = false then (some stInvalidField, s)
        else if s.reducedService = false ∧ v.ringFor p < v.getF (F.memPartRingRingMin p) then (some stNoResource, s)
        else (none, s)

/-! ### The armed interval begins at the next block boundary -/

/-- PREF at ARM (R273): as ENC_POLICY gives it, TRANSITION under AUTO; a state-mode bank writes STATE (R285). -/
def armEncoding (p b : Nat) (s : State) : State :=
  let pref := if s.getL (F.encCtrlEncPolicy b) = 1 then 0 else 1
  setEnc b pref (if s.stateMode p then 2 else pref) s

/-- A detector that an uncorrectable word had disabled runs again (R484). -/
def armDetector (n : Nat) (s : State) : State := modDet n (fun d => { d with ue := false }) s

/-- The partition becomes ARMED (R218, R293): the ring of `pages` pages replaces the earlier one, the stream, the
SEGMENT_IDs and the counts of the interval start anew, EPOCH increments, SEQ_LATENCY is set (R194); the domains it
depends on are on (R34). -/
def becomeArmed (p pages : Nat) (s : State) : State :=
  let x := s.part p
  let y : Part := { x with
    armed := true, begun := none, storing := false, gaps := [], pastGaps := [], stopDue := [], entries := [],
    nextId := 0, nextCand := 0, lastKey := none, lastEnd := none, rearm := false, unheld := [], ringNow := pages, atLimit := false,
    reduced := s.reducedService, arming := none, armRing := 0, oldRing := 0, oldLive := [],
    writePos := ceilTo pageBytes x.writePos, base := ceilTo pageBytes x.writePos }
  let s := setPart p { y with recs := y.keepRecs } s
  let s := setF (F.partEpochEpoch p) (s.getF (F.partEpochEpoch p) + 1) s
  let s := wr (.partSegId p) (BitVec.allOnes 32) (setF (F.partStatusStopped p) 0 s)
  let s := clearSeq p (s.flagL (F.seqCtrlStoreInit p)) (modSeq p (fun q => { q with stopped := false, deadBranches := [] }) s)
  let s := setF (F.seqStatusSeqLatency p) (if s.getL (F.seqCtrlExactCnt p) = 0 then 11 else 12) s
  let s := each armDetector (s.detsOfPart p) s
  let s := each powerOn ([18, 19] ++ (s.banksOf p).flatMap fun b => [2 + b, 10 + b]) s
  settle p (each (armEncoding p) (s.banksOf p) s)

/-! ### Auto-threshold (R130, R131) -/

/-- Banks of a partition on which ARM runs auto-threshold. -/
def State.autoBanks (s : State) (p : Nat) : List Nat := (s.banksOf p).filter fun b => s.flagL (F.feAtCfgAtEn b)

/-- The marks of the last auto-threshold of a bank are cleared by ARM. -/
def clearAuto (b : Nat) (s : State) : State :=
  let s := each (fun c s => setF (F.chStatusAtSet b c) 0 (setF (F.chStatusAtNoSwing b c) 0 s)) (List.range 64) s
  wr (.feAtNoswingLo b) 0 (wr (.feAtNoswingHi b) 0 s)

/-- A threshold between V_L and V_H, halves rounded up (R130). -/
def autoThr (vl vh frac : Nat) : Nat := vl + (frac * (vh - vl) + 128) / 256

/-- Auto-threshold on one channel: it sets the live thresholds, or the channel keeps its staged ones. -/
def autoChannel (b c : Nat) (swing : Option Nat × Option Nat) (s : State) : State :=
  let keep (s : State) : State :=
    let s := if c < 32 then setF ⟨.feAtNoswingLo b, c, 1⟩ 1 s else setF ⟨.feAtNoswingHi b, c - 32, 1⟩ 1 s
    setF (F.chStatusAtNoSwing b c) 1 s
  match swing with
  | (some vl, some vh) =>
    if vh < vl + 103 then keep s
    else
      let s := setL (F.chThrThrU b c) (autoThr vl vh (s.getL (F.feAtCfgAtUFrac b))) s
      let s := setL (F.chThrThrL b c) (autoThr vl vh (s.getL (F.feAtCfgAtLFrac b))) s
      setF (F.chStatusAtSet b c) 1 s
  | _ => keep s

/-- Channels of a bank that auto-threshold set. -/
def State.autoSet (s : State) (b : Nat) : Nat := ((List.range 64).filter fun c => s.flag (F.chStatusAtSet b c)).length

/-- Auto-threshold has ended on a bank. -/
def autoBank (swings : List (Nat × Option Nat × Option Nat)) (b : Nat) (s : State) : State :=
  let of_ (c : Nat) : Option Nat × Option Nat :=
    ((swings.find? fun e => e.1 == 64 * b + c).map Prod.snd).getD (none, none)
  let t := s
  let s := each (fun c => autoChannel b c (of_ c)) (List.range 64) s
  let s := newThr b (thrChanged b t s) s
  let n := s.autoSet b
  let s := postBank b 0x1005 (b + n * 2 ^ 16) s
  if n < 64 then feEvent b 0x1006 b (F.feBankEventsAtNoSwing b) s else s

/-! ### The commands -/

/-- ARM (R218, R326): refused, or the ring is taken, the staged values apply and the partition is ARMED; with AT_EN set
auto-threshold runs first, and the command completes after it. -/
def execArm (c : Cmd) (p : Nat) (s : State) : Host.Outcome State Fault Refusal :=
  let v := s.soon p
  match armRefusal c.fn p v s with
  | (some st, s1) => done s (finish c 0x06 st 0 0 s1)
  | (none, s1) =>
    let pages := v.ringFor p
    let old := (s1.armRegs p).map fun r => (r.key, s1.rdLive r)
    let s2 := each clearAuto (s1.banksOf p) (applyArm p s1)
    if s2.autoBanks p = [] then done s (finish c 0x06 stOk 0 0 (becomeArmed p pages s2))
    else done s (modPart p (fun x => { x with
      arming := some c, armRing := pages, oldRing := x.ringNow, oldLive := old, ringNow := max pages x.unheld.length }) s2)

/-- AUTO_THRESHOLD_DONE (R130, R131): the sweeps have ended; `swings` are V_L and V_H by channel. The partition is
ARMED. -/
def execAutoThresholdDone (p : PartId) (swings : List (Nat × Option Nat × Option Nat)) (s : State) :
    Host.Outcome State Fault Refusal :=
  match (s.part p).arming with
  | none => done s s
  | some c =>
    let bs := s.autoBanks p
    let s1 := each (autoBank swings) bs s
    let n := (bs.map s1.autoSet).sum
    done s (finish c 0x06 stOk n 0 (becomeArmed p (s.part p).armRing s1))

/-- The status of a command that names a partition: it must exist, and the function must own it; `pf` lets a PF in. -/
def State.partGate (s : State) (f p : Nat) (pf : Bool) : Option Nat :=
  if s.exists_ p = false ∨ 7 < p then some stInvalidField
  else if s.owns f p || (pf && isPf f) then none
  else some stNotOwner

/-- DISARM (R218): the armed interval ends at the last sample before it. In IDLE nothing changes. -/
def execDisarm (c : Cmd) (p : Nat) (s : State) : Host.Outcome State Fault Refusal :=
  match s.partGate c.fn p true with
  | some st => done s (finish c 0x07 st 0 0 s)
  | none =>
    let s1 := if (s.part p).armed then settle p (endArmed p 1 s.now s) else s
    done s (finish c 0x07 stOk 0 0 s1)

/-- FORCE_TRIGGER (R200, R218, R326): it acts in the next sample that the sequencer evaluates, and completes when that
sample's trigger has been placed; several that wait for one sample have one trigger (DESIGN CHOICE: R200 does not say). -/
def execForceTrigger (c : Cmd) (p : Nat) (s : State) : Host.Outcome State Fault Refusal :=
  match s.partGate c.fn p false with
  | some st => done s (finish c 0x08 st 0 0 s)
  | none =>
    if (s.part p).armed = false then done s (finish c 0x08 stInvalidField 0 0 s)
    else done s (modSeq p (fun q => { q with force := q.force ++ [c] }) s)

end Sys2Proof.Machine
end

