-- ==== Sys2Proof/Machine/Views.lean ====
section
/-! DEFINITION. Machine/Views.lean: what a read of a register returns where the device derives it, the items of the
snapshot window, and the state of slow access (R248, R309, R313, R351, R389, R399 to R406, R426 to R432, R500, R501,
R535, R536). -/

namespace Sys2Proof.Machine

/-! ### Slow access (R403, R406) -/

/-- Whether a slow write is in flight. -/
def State.slowBusy (s : State) : Bool := !s.slow.writes.isEmpty

/-- Whether an offset lies in a slow window (R403). -/
def slowWindow (o : Nat) : Bool :=
  (decide (0x10000 ≤ o) && decide (o < 0x20000)) || (decide (0x58000 ≤ o) && decide (o < 0x60000))
    || (decide (0x74000 ≤ o) && decide (o < 0x78000))

/-- The BUSY_TARGETS bit of an offset: X13 tile 0 or 1, X14, X15. -/
def slowTarget (o : Nat) : Nat :=
  if o < 0x18000 then 1 else if o < 0x20000 then 2 else if o < 0x60000 then 4 else 8

/-! ### Derived registers -/

/-- Fields put into a word, one after the other. -/
def putAll (w : Word) (l : List (Fld × Nat)) : Word := l.foldl (fun w e => e.1.put e.2 w) w

/-- Whether a threshold code lies outside ±1.2 V (R112). -/
def thrOut (n : Nat) : Bool := decide (2200 * 4095 < n * 4000)

/-- Whether a live threshold of a channel lies outside the linear range of its input mode (R112). -/
def State.thrRange (s : State) (b c : Nat) : Bool :=
  s.getL (F.chCfgInputMode b c) != 2 &&
    (thrOut (s.getL (F.chThrThrU b c)) || (!s.flagL (F.feBankCtrlCmpMode b) && thrOut (s.getL (F.chThrThrL b c))))

/-- Whether a detector is enabled in an ARMED partition (R172, R175). -/
def State.detActive (s : State) (n : Nat) : Bool :=
  (if n < 128 then s.flagL (F.detCfgEn n) else s.flagL (F.gpCfgEn (n - 128))) && !(s.det n).ue && match s.detPart n with
  | some p => (s.part p).armed
  | none => false

/-- Whether a delivery ships a larval segment (R248). -/
def State.earlyActive (s : State) (p : Nat) : Bool :=
  (s.part p).deliveries.any fun id => match s.delivery id with
    | some d => match d.now.bind (s.part p).seg? with
      | some g => g.id.isNone
      | none => false
    | none => false

/-- The binding shown in RC_STATUS (R351). -/
def State.bindingFields (s : State) (f n : Nat) : List (Fld × Nat) :=
  match (s.pair f n).delivery with
  | some d => [(F.rcStatusBound f n, 1), (F.rcStatusLossy f n, bit d.lossy), (F.rcStatusSubscriber f n, bit d.subscriber),
      (F.rcStatusPartition f n, d.part)]
  | none => [(F.rcStatusBound f n, 0), (F.rcStatusLossy f n, 0), (F.rcStatusSubscriber f n, 0), (F.rcStatusPartition f n, 0)]

/-- An `Int` of 0.125 °C in whole °C. -/
def wholeDegrees (w : Nat) : Nat := twos 8 (signed 16 w / 8)

/-- What a read of a register's primary offset returns (R7): the word it holds, with the fields that the device derives
when the read is serviced. -/
def State.view (s : State) (r : Reg) : Word :=
  let w := s.rd r
  match r with
  | .identStepping f => putAll w [(F.identSteppingVariant f, Config.variant.toNat)]
  | .identCap f => putAll w [(F.identCapFullService f, s.getF (F.identCapFullService 0)),
      (F.identCapCaptureMem f, s.getF (F.identCapCaptureMem 0)), (F.identCapAllBanks f, s.getF (F.identCapAllBanks 0)),
      (F.identCapRecovery f, s.getF (F.identCapRecovery 0))]
  | .snapData f _ => if s.flag (F.snapStatusSnapValid f) then w else 0
  | .slowStatus f => putAll w [(F.slowStatusSlowBusy f, bit s.slowBusy),
      (F.slowStatusBusyTargets f, match s.slow.writes.head? with | some e => slowTarget e.1 | none => 0)]
  | .slowData _ => 0
  | .evqPopHi f => (s.fn f).evqHold
  | .epErrPopHi f => (s.fn f).errHold
  | .fltPopHi f => BitVec.ofNat 32 ((spGet (0, 0) f s.fltHold).1.toNat / 2 ^ 32)
  | .fltTimeLo f => BitVec.ofNat 32 (spGet (0, 0) f s.fltHold).2.toNat
  | .fltTimeHi f => BitVec.ofNat 32 ((spGet (0, 0) f s.fltHold).2.toNat / 2 ^ 32)
  | .evqStatus f => putAll w [(F.evqStatusFill f, (s.fn f).evq.length)]
  | .mbxChan c => putAll w [(F.mbxChanInProgress c, bit (s.chan c).taken.isSome),
      (F.mbxChanOccupied c, bit (s.chan c).untaken.isSome)]
  | .mbxHostStatus f => putAll w [(F.mbxHostStatusHeld f, (s.fn f).notices.length)]
  | .epTagStatus f => putAll w [(F.epTagStatusQuarantined f, ((s.fn f).tags.filter Tag.quarantined).length),
      (F.epTagStatusOutstanding f, s.outstanding f)]
  | .epLinkStatus f => putAll (s.rd (.epLinkStatus (portPf f))) [(F.epLinkStatusPortMode f, bit s.mgmt.dualPort),
      (F.epLinkStatusPort f, f / 128)]
  | .epWakeCfg f => if isPf f then w else 0
  | .fltStatus f => putAll w [(F.fltStatusFill f, (spGet [] f s.fltLog).length)]
  | .timeHoEst => BitVec.ofNat 32 (min s.hoEst 0xFFFFFFFF)
  | .csStatus => putAll w [(F.csStatusCaptureOutHeld, bit ((List.range 8).any fun p => decide (1 < s.partState p)))]
  | .csSteerLive => putAll w [(F.csSteerLiveSteerLive, twos 24 s.steerLive)]
  | .csLockFilt => putAll w [(F.csLockFiltLfMv, s.freeN)]
  | .chStatus b c => putAll w [(F.chStatusLevelU b c, bit ((s.bank b).lvlU.getLsbD c)),
      (F.chStatusLevelL b c, bit ((s.bank b).lvlL.getLsbD c && !s.flagL (F.feBankCtrlCmpMode b) && !(s.bank b).slow)),
      (F.chStatusThrRange b c, bit (s.thrRange b c))]
  | .encStatus b => putAll w [(F.encStatusHeld b, bit s.mgmt.scarabDown)]
  | .detStatus n => putAll w [(F.detStatusActive n, bit (s.detActive n))]
  | .gpStatus g => putAll w [(F.gpStatusActive g, bit (s.detActive (128 + g)))]
  | .xfState => BitVec.ofNat 32 s.xfRead.toNat
  | .partStatus p => putAll w [(F.partStatusPhantoms p, (s.part p).phantoms), (F.partStatusState p, s.partState p),
      (F.partStatusLarvalCount p, (s.part p).larvals.length), (F.partStatusPostCount p, (s.part p).posts.length),
      (F.partStatusEarlyActive p, bit (s.earlyActive p))]
  | .memStatus => putAll w [(F.memStatusFreePages, s.freePages),
      (F.memStatusScrubActive, bit (s.flag F.memStatusTrained && s.getF F.memCtrlScrubHours != 0))]
  | .memPartStatus p => putAll w [(F.memPartStatusAtLimit p, bit (s.part p).atLimit),
      (F.memPartStatusHeldPages p, (s.part p).held.length), (F.memPartStatusRingNow p, (s.part p).ringNow)]
  | .memPartHeld p => putAll w [(F.memPartHeldUndelivPages p, (s.part p).undeliv),
      (F.memPartHeldPinnedPages p, ((s.part p).pins.flatMap id).eraseDups.length)]
  | .hbmStackStatus st => putAll w [(F.hbmStackStatusTrained st, bit (s.mgmt.eclosed && s.mgmt.trained.contains st)),
      (F.hbmStackStatusSelfRefresh st, bit (s.mgmt.eclosed && s.domain (21 + st) == 2)),
      (F.hbmStackStatusStackTemp st, if s.mgmt.eclosed then wholeDegrees (s.getF (F.telTempTemp (10 + st))) else 0)]
  | .hbmPcStatus st q =>
    if s.mgmt.eclosed then
      putAll w [(F.hbmPcStatusTrained st q, bit (s.mgmt.trained.contains st)),
        (F.hbmPcStatusRetired st q, bit (s.pcRetired (st * 32 + q))),
        (F.hbmPcStatusFenced st q, bit (s.pcRetired (st * 32 + q) || s.mgmt.retiring.any fun e => e.1 == st * 32 + q))]
    else fieldMask (fun x => x.access == .kp) r.fields &&& w
  | .hbmPcTrain _ _ => if s.mgmt.eclosed then w else 0
  | .pwrCtl d => if d = 1 then 0 else w
  | .seqStatus p => if (s.seq p).stopped then putAll w [(F.seqStatusRunning p, 0)] else w
  | .rcStatus f n => putAll w ((F.rcStatusState f n, s.pairState f n) :: s.bindingFields f n)
  | _ => w

/-! ### Items of the snapshot window (R400 to R402, R467) -/

/-- A number of 48 or 64 bits as the window holds it. -/
def numWords (v : Nat) : List Word := [BitVec.ofNat 32 v, BitVec.ofNat 32 (v / 2 ^ 32), 0, 0]

/-- A time as the window holds it. -/
def State.timeWords (s : State) (t : Label) : List Word :=
  [BitVec.ofNat 32 (subsecOf t), BitVec.ofNat 32 (subsecOf t / 2 ^ 32 + secondsOf t % 2 ^ 24 * 256),
   BitVec.ofNat 32 (secondsOf t / 2 ^ 24 % 2 ^ 16),
   BitVec.ofNat 32 (s.getF F.timeStatusTimeline + s.getF F.timeStatusQuality * 2 ^ 16)]

/-- The time a snapshot of the present time holds: the first core-cycle edge, or the keep-alive value (R78). -/
def State.timeNow (s : State) : Label :=
  if s.flag F.csStatusOutputsGated then coreOf s.now else ceilTo ticksPerCore s.now

/-- Whether an item counts while a condition lasts: HOLDOVER_TICKS, SPLL_GATED_TICKS, THERM_STOP_TICKS, residency. -/
def intervalItem (code : Nat) : Bool := [0x0016, 0x0021, 0x9005].contains code || residency code

/-- The value of a 48-bit counter item. -/
def State.itemNum (s : State) (code : Nat) : Nat :=
  if intervalItem code then
    let v := spGet 0 code s.ctrs + s.running code
    min ctrMax (if residency code then v / ticksPerUs else v)
  else s.ctr code

/-- An item takes a value: what runs begins to run anew (R391, R401). -/
def loadItem (code v : Nat) (s : State) : State :=
  let s := loadCtr code v s
  if intervalItem code then
    let s := { s with ctrs := spSet 0 code (if residency code then v * ticksPerUs else v) s.ctrs }
    if spGet 0 code s.since = 0 then s else startInterval code s
  else s

/-- Whether a code names an item that READ_CLEAR and LOAD may change (R402, R467; R459 for 0x9000 on). -/
def clearable (code : Nat) : Bool :=
  let k (base n : Nat) : Bool := decide (base ≤ code) && decide (code < base + n)
  k 0x10 7 || k 0x20 2 || k 0x30 1 || (k 0x1000 0x80 && decide (code % 16 < 6))
    || (k 0x2000 (4 * 136) && code % 4 == 0) || (k 0x2000 (4 * 128) && code % 4 == 1)
    || (k 0x3000 0x80 && decide (code % 16 < 4)) || (k 0x4000 0x100 && decide (code % 32 < 12))
    || k 0x5000 0x81 || k 0x6000 0x300 || (k 0x7000 0x40 && code % 4 != 3)
    || (k 0x8008 0xF0 && decide (code % 8 < 5)) || k 0x8101 1 || k 0x9000 7

/-- The data of an item, for a window of port `port`; none for a code that names no item there. POWER_EST and
ENERGY_MJ, which Scarab computes from telemetry, are free values. -/
def State.item (s : State) (port code : Nat) : Option (List Word) :=
  let p := code / 32 % 8
  if code = 1 then some (s.timeWords s.timeNow)
  else if code = 2 then some (s.timeWords s.cic.lastPps)
  else if code = 3 then some (s.timeWords s.cic.stepOld)
  else if code = 4 then some (s.timeWords s.cic.stepNew)
  else if 0x2000 ≤ code ∧ code < 0x2000 + 4 * 136 ∧ code % 4 = 2 then
    some (s.timeWords (s.det ((code - 0x2000) / 4)).lastTime)
  else if 0x2000 ≤ code ∧ code < 0x2000 + 4 * 136 ∧ code % 4 = 3 then
    some (numWords (s.det ((code - 0x2000) / 4)).lastAux)
  else if 0x3000 ≤ code ∧ code < 0x3080 ∧ 4 ≤ code % 16 ∧ code % 16 < 8 then
    some (numWords ((s.seq (code / 16 % 8)).cnt (code % 4)))
  else if 0x3000 ≤ code ∧ code < 0x3080 ∧ 8 ≤ code % 16 ∧ code % 16 < 12 then
    some (numWords (s.tmrValue (code / 16 % 8) (code % 4) s.now))
  else if 0x4000 ≤ code ∧ code < 0x4100 ∧ code % 32 = 12 then
    some (numWords ((s.part p).writePos - (s.part p).base))
  else if 0x4000 ≤ code ∧ code < 0x4100 ∧ code % 32 = 13 then
    some (numWords ((s.part p).oldestPos - (s.part p).base))
  else if 0x4000 ≤ code ∧ code < 0x4100 ∧ code % 32 = 14 then some (numWords (s.configDigest p).toNat)
  else if 0x6000 ≤ code ∧ code < 0x6300 then
    if code % 256 / 128 = port then some (numWords (s.itemNum code)) else none
  else if code = 0x8100 ∨ code = 0x8101 then some (numWords (s.freeN % 2 ^ 48))
  else if code = 0x9007 ∨ clearable code then some (numWords (s.itemNum code))
  else none

/-- Whether an item is a time item (R78, R331). -/
def timeItem (code : Nat) : Bool :=
  (decide (1 ≤ code) && decide (code ≤ 4))
    || (decide (0x2000 ≤ code) && decide (code < 0x2000 + 4 * 136) && code % 4 == 2)

/-- The power domain in which an item is kept, if it can be off (R398, R402). -/
def itemDomain (code : Nat) : Option Nat :=
  if 0x1000 ≤ code ∧ code < 0x1080 then some (if code % 16 < 3 then 10 + code / 16 % 8 else 19)
  else if 0x2000 ≤ code ∧ code < 0x2200 then some (10 + (code - 0x2000) / 64)
  else if 0x2200 ≤ code ∧ code < 0x2220 ∨ 0x3000 ≤ code ∧ code < 0x3080 then some 18
  else none

/-- The partition whose resource an item belongs to, if one (R331). -/
def State.itemPart (s : State) (code : Nat) : Option Nat :=
  if 0x1000 ≤ code ∧ code < 0x1080 then s.partOf (code / 16 % 8)
  else if 0x2000 ≤ code ∧ code < 0x2200 then s.partOf ((code - 0x2000) / 64)
  else if 0x2200 ≤ code ∧ code < 0x2220 then
    let g := (code - 0x2200) / 4
    if s.flagL (F.gpCfgAssigned g) then some (s.getL (F.gpCfgPartition g)) else none
  else if 0x3000 ≤ code ∧ code < 0x3080 then some (code / 16 % 8)
  else if 0x4000 ≤ code ∧ code < 0x4100 then some (code / 32 % 8)
  else none

end Sys2Proof.Machine
end

