-- ==== Sys2Proof/Machine/Fetch.lean ====
section
/-! DEFINITION. Machine/Fetch.lean: what arrives with a descriptor fetch: buffer descriptors of capture pairs, command
descriptors with the checks that belong to their bytes (R315, R320 to R324, R333, R335, and the layouts of the
commands). -/

namespace Sys2Proof.Machine

/-! ### Buffer descriptors (R333, R335) -/

/-- Whether the bytes `lo` to `hi − 1` of a descriptor are 0. -/
def zeroBytes (bs : List Byte) (lo hi : Nat) : Bool := leAt bs lo (hi - lo) == 0

/-- The submission head passes one entry; answers the ring position of that entry. -/
def passEntry (f n : Nat) (s : State) : Nat × State :=
  let h := s.getF (F.rcSqHeadSqHead f n)
  (idxPos h, setF (F.rcSqHeadSqHead f n) (idxNext (s.sqSize f n) h) s)

/-- Whether a buffer descriptor obeys R333. -/
def bufOk (bs : List Byte) : Bool :=
  leAt bs 0 8 % 64 == 0 && leAt bs 8 4 % 4096 == 0 && decide (4096 ≤ leAt bs 8 4) && decide (leAt bs 8 4 ≤ 268435456)
    && zeroBytes bs 12 32

/-- One buffer descriptor has arrived on a capture pair: it joins those fetched, or completes with INVALID_FIELD. -/
def takeBuffer (f n : Nat) (bs : List Byte) (s : State) : State :=
  let (i, s) := passEntry f n s
  if bufOk bs then
    modPair f n (fun x => { x with fetched := x.fetched ++ [{ index := i, addr := leAt bs 0 8, size := leAt bs 8 4 }] }) s
  else
    let part := match (s.pair f n).delivery with | some d => d.part | none => 0
    finishBuf f n 0 0xFFFFFFFF i stInvalidField (s.boundEpoch f n) (capFlags part false false false false false) none s

/-- Blocks of 32 bytes. -/
def chunks : Nat → List Byte → List (List Byte)
  | 0, _ => []
  | k + 1, bs => bs.take 32 :: chunks k (bs.drop 32)

/-! ### Command descriptors (R321 to R324) -/

/-- Whether the bytes of a command descriptor that no operand of its opcode carries are as its layout asks: reserved
bytes and flags 0, selectors in range, addresses aligned (R167, R205, R304, R325 to R332, R338, R340, R342). -/
def layoutOk (bs : List Byte) : Bool :=
  let z := zeroBytes bs
  let v (i : Nat) : Nat := leAt bs i 1
  match v 0 with
  | 0x01 => z 14 16 && z 22 24 && z 30 32
  | 0x02 | 0x06 | 0x07 | 0x08 => z 9 32
  | 0x03 => leAt bs 8 8 % 4096 == 0 && z 18 24
  | 0x04 => leAt bs 8 8 % 64 == 0 && decide (1 ≤ leAt bs 18 2) && decide (leAt bs 18 2 ≤ 136) && z 20 32
  | 0x05 => leAt bs 8 8 % 4096 == 0 && z 20 32
  | 0x09 => decide (v 11 < 2) && z 14 32
  | 0x0A => z 10 32
  | 0x0B => z 11 12 && z 16 32 && (match v 9 with
    | 0 => z 12 14
    | 1 => z 10 11 && z 14 16
    | 2 => z 10 11 && z 12 16
    | _ => false)
  | 0x0C => z 11 12 && z 18 20 && (match v 9 with
    | 0 => z 20 32
    | 1 => z 12 18
    | _ => false)
  | 0x0D => z 13 32
  | 0x0E => decide (v 10 < 2) && z 12 32
  | 0x0F => leAt bs 8 8 % 64 == 0 && z 18 32
  | 0x10 => leAt bs 8 8 % 64 == 0 && decide (v 16 ≤ 2) && z 18 20 && z 24 32
  | 0x11 => decide (v 9 ≤ 2) && z 10 32
  | _ => false

/-- Whether an opcode reads a parameter block or an image (R167, R205, R327, R329). -/
def readsParams (op : Nat) : Bool := [0x03, 0x04, 0x05, 0x0F].contains op

/-- One command descriptor is passed: it starts, waits for its parameter block, or completes at once where its opcode
or its bytes are refused (R321, R323); in port reduced service only QUERY is carried out (R382). -/
def startCommand (f n : Nat) (bs : List Byte) (s : State) : State :=
  let (i, s) := passEntry f n s
  let op := leAt bs 0 1
  let flags := leAt bs 1 1
  let c : Cmd := { fn := Fin.ofNat 256 f, pair := Fin.ofNat 8 n, index := i, tag := leAt bs 2 2, interrupt := flags.testBit 1 }
  let s := modPair f n (fun x => { x with started := x.started ++ [i] }) s
  if op = 0 ∨ 0x11 < op then finish c op stInvalidOpcode 0 0 s
  else if s.mgmt.portLow.contains (f / 128) ∧ op ≠ 0x10 then finish c op stBringup 0 0 s
  else if 4 ≤ flags ∨ zeroBytes bs 4 8 = false ∨ layoutOk bs = false then
    finish c op stInvalidField (if op = 5 then 0xFFFF else 0) 0 s
  else
    let s := if longOpcode op then modPair f n (fun x => { x with longs := x.longs ++ [i] }) s else s
    tryFetch f n (if readsParams op then modPair f n (fun x => { x with await := some bs }) s else s)

/-- One command descriptor has arrived. With FENCE it starts only after every earlier command of its ring (R321), a long
command only while fewer than 16 of its function are in progress (R323): until then the ring's fetch waits before it,
and reads it again (DESIGN CHOICE: the spec does not say whether the descriptor is kept or read twice). -/
def takeCommand (f n : Nat) (bs : List Byte) (s : State) : State :=
  if (leAt bs 1 1).testBit 0 ∧ (s.pair f n).started ≠ [] then modPair f n (fun x => { x with fence := true }) s
  else if longOpcode (leAt bs 0 1) ∧ 16 ≤ s.longsOf f then modPair f n (fun x => { x with excess := true }) s
  else startCommand f n bs s

/-- DESCRIPTOR_FETCH_DONE (R315, R323, R335): the read with a tag has returned `bytes` of a pair's submission ring. What a
read brings that was issued before the pair was frozen is discarded: it ends the request (R371, R372, R374). -/
def execDescriptorFetchDone (f : FnId) (pair : PairId) (tag : Nat) (s : State) (bytes : List Byte := []) :
    Host.Outcome State Fault Refusal :=
  let x := s.pair f pair
  if x.fetchTag ≠ some tag then
    if x.paramTag ≠ some tag ∧ ((s.fn f).tags.any fun t =>
        t.num == tag && !t.quarantined && (t.source == 1 || t.source == 2) && t.detail == pair.val) = true then
      done s (endTag f tag s)
    else done s s
  else
    let s1 := modPair f pair (fun x => { x with fetchTag := none }) (endTag f tag s)
    if s1.getF (F.rcCfgType f pair) = 1 then
      let room := min (s1.posted f pair) (16 - (s1.pair f pair).fetched.length)
      let ds := chunks (min (bytes.length / 32) room) bytes
      done s (tryFetch f pair (each (takeBuffer f pair) ds s1))
    else if s1.posted f pair = 0 then done s s1
    else done s (takeCommand f pair bytes s1)

/-- The parameter block of a command has arrived (R323): the read that its pair awaits has ended. -/
def takeParams (c : Cmd) (s : State) : State :=
  match (s.pair c.fn c.pair).paramTag with
  | some k => modPair c.fn c.pair (fun x => { x with await := none, paramTag := none }) (endTag c.fn k s)
  | none => s

end Sys2Proof.Machine
end

