-- ==== Sys2Proof/Machine/Commands.lean ====
section
/-! DEFINITION. Machine/Commands.lean: the commands that create, configure and calibrate (R167, R168, R205, R206, R218,
R325, R327 to R330, R332). -/

namespace Sys2Proof.Machine

/-! ### Partitions (R23, R218, R325) -/

/-- Whether a pair is fit for a new delivery of a function: an enabled capture pair with none bound (R325, R340). -/
def State.ringFree (s : State) (f n : Nat) : Bool := decide (n < 8) && s.captureEn f n && (s.pair f n).delivery.isNone

/-- The owner's delivery of a partition is bound to a pair. -/
def bindOwner (f n p : Nat) (queue : List Nat) (s : State) : State :=
  let s := modPair f n (fun x => { x with delivery := some { part := p, queue := queue } }) s
  modPart p (fun x => { x with ownerPair := some (f * 8 + n) }) s

/-- PART_OWNER names a function as the owner (R325). -/
def setOwner (f p : Nat) (s : State) : State :=
  setF (F.partOwnerFunction p) (f % 128) (setF (F.partOwnerPort p) (f / 128) s)

/-- PARTITION_CREATE (R23, R218, R325, R466). A bank that stays stopped after a fault and now belongs to a partition drives
FAULT# (R133, R494). Before the first partition is created, a sample PLL that has been powered
off is powered on and relocks: the command waits for its lock (R64). -/
def execPartitionCreate (c : Cmd) (p : Nat) (banks : BitVec 8) (ring : Nat) (mode : BitVec 8) (contFrames : Nat)
    (pretrig posttrig : Nat) (s : State) : Host.Outcome State Fault Refusal :=
  let bs := (List.range 8).filter banks.getLsbD
  if 7 < p then done s (finish c 0x01 stInvalidField 0 0 s)
  else if s.exists_ p ∨ (s.mgmt.orphans.any fun e => e.1 == p) = true then done s (finish c 0x01 stNoResource 0 0 s)
  else if bs = [] ∨ bs.any (fun b => (s.partOf b).isSome) ∨ s.ringFree c.fn ring = false ∨ 64 ≤ mode.toNat
      ∨ contFrames = 0 ∨ 32000 < contFrames ∨ 2 ^ 48 ≤ pretrig ∨ 2 ^ 48 ≤ posttrig then
    done s (finish c 0x01 stInvalidField 0 0 s)
  else if bs.any s.bankDisabled then done s (finish c 0x01 stDomainDown 0 0 s)
  else if s.anyPart = false ∧ (s.domainOff 28 = true ∨ s.clk.creating ≠ []) then
    done s (modClk (fun k => { k with
      creating := k.creating ++ [.partitionCreate c p banks ring mode contFrames pretrig posttrig] }) (powerOn 28 s))
  else
    let s1 := setF (F.partOwnerExists p) 1 (setF (F.partOwnerBanks p) banks.toNat (setOwner c.fn p s))
    let s1 := stage (.partMode p) (BitVec.ofNat 32 (mode.toNat + contFrames * 2 ^ 16)) s1
    let s1 := stage (.partPretrigHi p) (BitVec.ofNat 32 (pretrig / 2 ^ 32)) (stage (.partPretrigLo p) (BitVec.ofNat 32 pretrig) s1)
    let s1 := stage (.partPosttrigHi p) (BitVec.ofNat 32 (posttrig / 2 ^ 32))
      (stage (.partPosttrigLo p) (BitVec.ofNat 32 posttrig) s1)
    let s1 := bindOwner c.fn ring p [] s1
    let s1 := if bs.any fun b => (s.bank b).stuck && (s.bank b).faulted then setCause 2 s1 else s1
    done s (finish c 0x01 stOk 0 0 (tryFetch c.fn ring s1))

/-- PARTITION_DESTROY (R218). -/
def execPartitionDestroy (c : Cmd) (p : Nat) (s : State) : Host.Outcome State Fault Refusal :=
  match s.partGate c.fn p true with
  | some st => done s (finish c 0x02 st 0 0 s)
  | none => done s (finish c 0x02 stOk 0 0 (destroyPart p 0x1306 s))

/-! ### BANK_CONFIG (R327) -/

/-- Whether a function may configure or calibrate a bank: the owner of its partition, or a PF (R324). -/
def State.mayConfig (s : State) (f b : Nat) : Bool :=
  isPf f || match s.partOf b with | some p => s.owns f p | none => false

/-- Registers that a BANK_CONFIG stages, in the order of their offsets. -/
def bankRegs (b : Nat) (flags : BitVec 8) (mask : BitVec 64) : List Reg :=
  (if flags.getLsbD 0 then [.feBankCtrl b, .feStclkCfg b, .feAtCfg b] else []) ++
  (if flags.getLsbD 1 then ((List.range 64).filter mask.getLsbD).flatMap fun c => [.chThr b c, .chCfg b c] else [])

/-- The word that a write of the RW fields of a register lands: the others keep what they hold, and write-only bits are
not written. -/
def State.landing (s : State) (r : Reg) (w : Word) : Word :=
  s.merged r w &&& ~~~fieldMask (fun x => x.access == .wo) r.fields

/-- Writes of a command, the last of which ends it. -/
def markLast (c : Cmd) : List (Nat × Word) → List (Nat × Word × Option Cmd)
  | [] => []
  | [(o, w)] => [(o, w, some c)]
  | (o, w) :: r => (o, w, none) :: markLast c r

/-- BANK_CONFIG (R327): every word is checked, then the writes go through slow access; the command completes when the
last one has landed. -/
def execBankConfig (c : Cmd) (bank : Nat) (flags : BitVec 8) (mask : BitVec 64) (image : List Word) (s : State) :
    Host.Outcome State Fault Refusal :=
  let s1 := takeParams c s
  let base := 0x10000 + bank * 0x2000
  let ws := (bankRegs bank flags mask).map fun r => (r, image.getD ((r.off - base) / 4) 0)
  if 7 < bank ∨ flags.toNat = 0 ∨ 4 ≤ flags.toNat then done s (finish c 0x03 stInvalidField 0 0 s1)
  else if s1.mayConfig c.fn bank = false then done s (finish c 0x03 stNotOwner 0 0 s1)
  else if s1.reducedService ∧ 2 ≤ bank then done s (finish c 0x03 stBringup 0 0 s1)
  else if s1.bankDisabled bank ∨ s1.domainOff (10 + bank) then done s (finish c 0x03 stDomainDown 0 0 s1)
  else match ws.find? fun e => !e.1.rangeOk e.2 with
    | some e => done s (finish c 0x03 stInvalidField (e.1.off - base) 0 s1)
    | none =>
      if ws = [] then done s (finish c 0x03 stOk 0 0 s1)
      else
        let l := markLast c (ws.map fun e => (e.1.off, s1.landing e.1 e.2))
        done s (tryFetch c.fn c.pair { s1 with slow := { s1.slow with writes := s1.slow.writes ++ l } })

/-! ### DETECTOR_LOAD (R167, R168) -/

/-- The block of a detector's registers. -/
def detBase (n : Nat) : Nat := if n < 128 then 0x20000 + n * 0x100 else 0x28000 + (n - 128) * 0x100

/-- A detector's image is staged; a global pattern detector is assigned to the partition whatever its image says. -/
def stageDet (p n : Nat) (image : List Word) (s : State) : State :=
  let s := stageAll (imageRegs (detBase n) 0 (imageWords image 0 64)) s
  if n < 128 then s else setF (F.gpCfgPartition (n - 128)) p (setF (F.gpCfgAssigned (n - 128)) 1 s)

/-- The status with which an entry of a DETECTOR_LOAD is refused, if it is; `names` are the detectors named before. -/
def detEntryStatus (p n : Nat) (image : List Word) (reserved : Bool) (names : List Nat) (s : State) : Option Nat :=
  if reserved ∨ 136 ≤ n ∨ names.contains n then some stInvalidField
  else if s.reducedService ∧ 32 ≤ n then some stBringup
  else if n < 128 ∧ (s.banksOf p).contains (n / 16) = false then some stInvalidField
  else if 128 ≤ n ∧ s.gpAssigned (n - 128) (fun q => q != p && s.exists_ q) = true then some stNoResource
  else if (imageRegs (detBase n) 0 (imageWords image 0 64)).any fun e => !e.2.1.rangeOk e.2.2 then some stInvalidField
  else if (stageDet p n image s).detOk p n then none else some stInvalidField

/-- The first entry of a DETECTOR_LOAD that is refused, with its status. -/
def firstBadDet (p : Nat) (bad : Option Nat) (s : State) : Nat → List Nat → List (Nat × List Word) → Option (Nat × Nat)
  | _, _, [] => none
  | i, names, (n, image) :: r =>
    match detEntryStatus p n image (bad == some i) names s with
    | some st => some (i, st)
    | none => firstBadDet p bad s (i + 1) (n :: names) r

/-- EN of a detector is cleared in staging. -/
def clearDetEn (n : Nat) (s : State) : State :=
  if n < 128 then markStaged (.detCfg n) (setF (F.detCfgEn n) 0 s)
  else markStaged (.gpCfg (n - 128)) (setF (F.gpCfgEn (n - 128)) 0 s)

/-- DETECTOR_LOAD (R167, R168): all entries are staged, or none. `bad` is the first entry whose reserved bytes are not 0. -/
def execDetectorLoad (c : Cmd) (p : Nat) (flags : BitVec 8) (entries : List (Nat × List Word)) (bad : Option Nat)
    (s : State) : Host.Outcome State Fault Refusal :=
  let s1 := takeParams c s
  if 2 ≤ flags.toNat ∨ entries = [] ∨ 136 < entries.length then done s (finish c 0x04 stInvalidField 0 0 s1)
  else match s1.partGate c.fn p false with
    | some st => done s (finish c 0x04 st 0 0 s1)
    | none => match firstBadDet p bad s1 0 [] entries with
      | some (i, st) => done s (finish c 0x04 st i 0 s1)
      | none =>
        let names := entries.map Prod.fst
        let others := (s1.detsOfPart p).filter fun n => !names.contains n
        let s2 := if flags.getLsbD 0 then each clearDetEn others s1 else s1
        done s (finish c 0x04 stOk 0 0 (each (fun e => stageDet p e.1 e.2) entries s2))

/-! ### SEQUENCER_LOAD (R205, R206) -/

/-- Registers and words that a SEQUENCER_LOAD stages, in the order of their offsets. -/
def seqImage (p : Nat) (flags : BitVec 8) (levels : BitVec 16) (image : List Word) : List (Nat × Reg × Word) :=
  let part (lo n : Nat) : List (Nat × Reg × Word) := imageRegs (0x30000 + p * 0x2000) lo (imageWords image lo n)
  let ls := (List.range 16).filter levels.getLsbD
  (if flags.getLsbD 0 then part 0 0x80 else []) ++
  (if flags.getLsbD 1 then ls.flatMap (fun l => part (0x200 + l * 0x10) 4) ++ ls.flatMap (fun l => part (0x1000 + l * 0x100) 0x40)
   else [])

/-- SEQUENCER_LOAD (R205, R206): all loaded words are staged, or none. -/
def execSequencerLoad (c : Cmd) (p : Nat) (flags : BitVec 8) (levels : BitVec 16) (image : List Word) (s : State) :
    Host.Outcome State Fault Refusal :=
  let s1 := takeParams c s
  if flags.toNat = 0 ∨ 4 ≤ flags.toNat then done s (finish c 0x05 stInvalidField 0xFFFF 0 s1)
  else match s1.partGate c.fn p false with
    | some st => done s (finish c 0x05 st (if st = stInvalidField then 0xFFFF else 0) 0 s1)
    | none =>
      let ws := seqImage p flags levels image
      let s2 := stageAll ws s1
      -- the first refused word: one that holds a reserved encoding, or that breaks a rule of R201
      match ((ws.filter fun e => !e.2.1.rangeOk e.2.2).map Prod.fst ++ (s2.seqBadWord p).toList).min? with
      | some o => done s (finish c 0x05 stInvalidField o 0 s1)
      | none => done s (finish c 0x05 stOk 0 0 s2)

/-! ### TIME_SET (R88, R330) -/

/-- TIME_SET (R330): TIME_SET_LO and TIME_SET_HI are written with SET_REQ; it completes after the load. -/
def execTimeSet (c : Cmd) (seconds : Nat) (s : State) : Host.Outcome State Fault Refusal :=
  if isPf c.fn = false then done s (finish c 0x0D stNotOwner 0 0 s)
  else if 2 ^ 40 ≤ seconds then done s (finish c 0x0D stInvalidField 0 0 s)
  else
    let s1 := setF F.timeSetHiSetSecondsHi (seconds / 2 ^ 32) (setF F.timeSetLoSetSecondsLo seconds s)
    done s (tryFetch c.fn c.pair (requestSet (some c) s1))

/-! ### CALIBRATE (R126, R328, R332) -/

/-- A bank calibrates for a CALIBRATE: its domains are on while it does (R123). -/
def calibrateBank (steps : Nat) (ext : Bool) (timeout b : Nat) (s : State) : State :=
  let s := powerOn (10 + b) (powerOn (2 + b) s)
  let s := setF (F.feCalCtrlSteps b) steps s
  let s := if steps.testBit 4 then setF (F.feCalCtrlExtEdge b) (bit ext) (setF (F.feCalCtrlExtTimeout b) timeout s) else s
  startCal b steps s

/-- CALIBRATE (R328): every bank named calibrates, or none; it waits while Scarab is down. -/
def execCalibrate (c : Cmd) (banks steps : BitVec 8) (extEdge : Bool) (extTimeout : Nat) (s : State) :
    Host.Outcome State Fault Refusal :=
  let bs := (List.range 8).filter banks.getLsbD
  if bs = [] ∨ steps.toNat = 0 ∨ 32 ≤ steps.toNat ∨ (steps.getLsbD 4 ∧ (extTimeout = 0 ∨ 255 < extTimeout)) then
    done s (finish c 0x0E stInvalidField 0 0 s)
  else if bs.any fun b => !s.mayConfig c.fn b then done s (finish c 0x0E stNotOwner 0 0 s)
  else if s.reducedService then done s (finish c 0x0E stBringup 0 0 s)
  else if s.mgmt.scarabDown then
    done s { s with waiting := s.waiting ++ [.calibrate c banks steps extEdge extTimeout] }
  else if bs.any s.bankDisabled then done s (finish c 0x0E stDomainDown 0 0 s)
  else if bs.any fun b => !s.calAllowed b then done s (finish c 0x0E stBusy 0 0 s)
  else
    let s1 := { s with cals := s.cals ++ [{ cmd := c, left := banks.toNat }] }
    done s (tryFetch c.fn c.pair (each (calibrateBank steps.toNat extEdge extTimeout) bs s1))

/-! ### POLICY_SET (R293, R329) -/

/-- Words of a POLICY_SET block with the register each stages and the offset at which it stands. -/
def policyWords (p : Nat) (select : BitVec 8) (bs : List Nat) (w : Nat → Word) : List (Nat × Reg × Word) :=
  (if select.getLsbD 0 then [(0, .partPretrigLo p, w 0), (4, .partPretrigHi p, w 1), (8, .partPosttrigLo p, w 2),
      (12, .partPosttrigHi p, w 3)] else []) ++
  (if select.getLsbD 1 then [(16, .partMode p, w 4), (20, .partEarlyCfg p, w 5)] else []) ++
  (if select.getLsbD 2 then [(24, .memPartRing p, w 6), (28, .memPartPolicy p, w 7)] else []) ++
  (if select.getLsbD 3 then [(32, .memPartLimits p, w 8)] else []) ++
  (if select.getLsbD 4 then bs.map fun b => (64 + 4 * b, .encCtrl b, w (16 + b)) else [])

/-- Whether a word of a POLICY_SET block obeys the refusal rules of its register. -/
def State.policyOk (s : State) (p : Nat) (e : Nat × Reg × Word) : Bool :=
  match e.2.1 with
  | .partPretrigHi _ => decide (e.2.2.toNat < 2 ^ 16)
  | .partPosttrigHi _ => decide (e.2.2.toNat < 2 ^ 16)
  | .memPartLimits _ => (wr e.2.1 (s.merged e.2.1 e.2.2) s).limitsOk p
  | r => r.rangeOk e.2.2

/-- The offset of the first word of a POLICY_SET block that is refused. -/
def State.policyBad (s : State) (p : Nat) (ws : List (Nat × Reg × Word)) (w : Nat → Word) : Option Nat :=
  let zeros := ((List.range 7).map (9 + ·) ++ (List.range 8).map (24 + ·)).filter fun k => w k != 0
  let bad := (ws.filter fun e => !s.policyOk p e).map Prod.fst ++ zeros.map (4 * ·)
  bad.min?

/-- POLICY_SET (R329): all selected words are staged, or none. -/
def execPolicySet (c : Cmd) (p : Nat) (select : BitVec 8) (block : List Word) (s : State) :
    Host.Outcome State Fault Refusal :=
  let s1 := takeParams c s
  let w (k : Nat) : Word := block.getD k 0
  if select.toNat = 0 ∨ 32 ≤ select.toNat then done s (finish c 0x0F stInvalidField 0 0 s1)
  else match s1.partGate c.fn p true with
    | some st => done s (finish c 0x0F st 0 0 s1)
    | none =>
      let ws := policyWords p select (s1.banksOf p) w
      if select.getLsbD 3 ∧ isPf c.fn = false then done s (finish c 0x0F stNotOwner 0 0 s1)
      else match s1.policyBad p ws w with
        | some o => done s (finish c 0x0F stInvalidField o 0 s1)
        | none => done s (finish c 0x0F stOk 0 0 (settle p (stageAll ws s1)))

end Sys2Proof.Machine
end

