-- ==== Sys2Proof/Machine/Deliveries.lean ====
section
/-! DEFINITION. Machine/Deliveries.lean: the commands about who receives a partition's data: grants, subscriptions,
claims, READ_BACK, and QUERY (R237, R240, R304, R305, R331, R338 to R342). -/

namespace Sys2Proof.Machine

/-! ### Grant tokens (R338) -/

/-- The first token value from `k` on that is not 0 and not live. -/
def freshToken : Nat → Nat → List Token → Nat
  | 0, k, _ => k % 65536
  | n + 1, k, ts =>
    if k % 65536 = 0 ∨ ts.any (fun t => t.value == k % 65536) then freshToken n (k + 1) ts else k % 65536

/-- Whether a TARGET names a function or every function (R338). -/
def targetOk (t : Nat) : Bool := t == 0xFFFF || bitsOf t 7 8 == 0

/-- GRANT ISSUE (R338). -/
def execGrantIssue (c : Cmd) (p : Nat) (modes : BitVec 8) (target : BitVec 16) (s : State) :
    Host.Outcome State Fault Refusal :=
  match s.partGate c.fn p true with
  | some st => done s (finish c 0x0B st 0 0 s)
  | none =>
    let ts := (s.part p).tokens
    if modes.toNat = 0 ∨ 4 ≤ modes.toNat ∨ targetOk target.toNat = false then done s (finish c 0x0B stInvalidField 0 0 s)
    else if 8 ≤ ts.length then done s (finish c 0x0B stNoResource 0 0 s)
    else
      let v := freshToken (ts.length + 1) (Config.grantToken s.free).toNat ts
      let s1 := modPart p (fun x => { x with
        tokens := { value := v, modes := modes.toNat, target := target.toNat } :: x.tokens }) (spend s)
      done s (finish c 0x0B stOk v 0 s1)

/-- GRANT REVOKE (R338). -/
def execGrantRevoke (c : Cmd) (p token : Nat) (s : State) : Host.Outcome State Fault Refusal :=
  match s.partGate c.fn p true with
  | some st => done s (finish c 0x0B st 0 0 s)
  | none =>
    if (s.part p).tokens.any fun t => t.value == token then
      done s (finish c 0x0B stOk 0 0 (modPart p (fun x => { x with tokens := x.tokens.filter fun t => t.value != token }) s))
    else done s (finish c 0x0B stInvalidField 0 0 s)

/-- GRANT REVOKE_ALL (R338). -/
def execGrantRevokeAll (c : Cmd) (p : Nat) (s : State) : Host.Outcome State Fault Refusal :=
  match s.partGate c.fn p true with
  | some st => done s (finish c 0x0B st 0 0 s)
  | none => done s (finish c 0x0B stOk 0 0 (modPart p (fun x => { x with tokens := [] }) s))

/-! ### SUBSCRIBE (R237, R339, R340) -/

/-- Whether a function's SUBSCRIBEs are locked out (R339). -/
def State.lockedOut (s : State) (f : Nat) : Bool :=
  decide (16 ≤ (s.fn f).badGrants) && decide (s.elapsed < (s.fn f).badGrantAt + ticksPerSecond)

/-- A SUBSCRIBE ends with BAD_GRANT: it counts against its function, the sixteenth within a second locks it out
(R339). -/
def badGrant (c : Cmd) (s : State) : State :=
  let f := c.fn.val
  let x := s.fn f
  let fresh := x.badGrants = 0 ∨ x.badGrantAt + ticksPerSecond ≤ s.elapsed
  let n := if fresh then 1 else x.badGrants + 1
  let s := setFn f { x with badGrants := n, badGrantAt := if fresh then s.elapsed else x.badGrantAt } s
  let s := if n = 16 then post (portPf f) 0x1605 f s else s
  finish c 0x09 stBadGrant 0 0 s

/-- Subscriber bindings in use, device-wide (R340). -/
def State.bindings (s : State) : Nat := ((List.range 8).map fun p => (s.part p).subs.length).sum

/-- A capture pair of a function is bound to a partition as a subscription (R237). -/
def bindSub (f n p : Nat) (lossy : Bool) (s : State) : State :=
  let s := modPair f n (fun x => { x with delivery := some { part := p, lossy := lossy, subscriber := true } }) s
  modPart p (fun x => { x with subs := x.subs ++ [f * 8 + n] }) s

/-- SUBSCRIBE without CLAIM (R339, R340). -/
def execSubscribe (c : Cmd) (p ring mode token : Nat) (s : State) : Host.Outcome State Fault Refusal :=
  let f := c.fn.val
  if s.lockedOut f then done s (badGrant c s)
  else if s.exists_ p = false ∨ 7 < p then done s (finish c 0x09 stInvalidField 0 0 s)
  else if s.owns f p ∨ s.ringFree f ring = false ∨ 2 ≤ mode then done s (finish c 0x09 stInvalidField 0 0 s)
  else if ((s.part p).tokens.any fun t => t.value == token && t.modes.testBit mode
      && (t.target == 0xFFFF || t.target == fnCode f)) = false then done s (badGrant c s)
  else if 256 ≤ s.bindings then done s (finish c 0x09 stNoResource 0 0 s)
  else done s (finish c 0x09 stOk 0 0 (tryFetch f ring (bindSub f ring p (mode == 1) s)))

/-! ### The end of a subscription (R237, R342) -/

/-- A subscription ends at once: buffers taken complete with ABANDONED, the binding is free; an UNSUBSCRIBE that waited
for its end completes. -/
def endSub (id p : Nat) (s : State) : State :=
  match s.delivery id with
  | none => s
  | some d =>
    let g := d.now.bind (s.part p).seg?
    let s := if d.now.isSome then abandonTaken id p ((g.bind Seg.id).getD 0xFFFFFFFF) ((g.map Seg.epoch).getD 0) s else s
    let s := unbind id s
    match d.ending with
    | some c => finish c 0x0A stOk 0 0 s
    | none => s

/-- UNSUBSCRIBE (R342): it ends after the segment being delivered; larval data is abandoned at once. It completes after the
last completion of the delivery (`endDone`). -/
def execUnsubscribe (c : Cmd) (p ring : Nat) (s : State) : Host.Outcome State Fault Refusal :=
  let id := c.fn.val * 8 + ring
  let bound := match s.delivery id with
    | some d => decide (ring < 8) && d.subscriber && d.part == p && d.ending.isNone
    | none => false
  if s.exists_ p = false ∨ 7 < p ∨ bound = false then done s (finish c 0x0A stInvalidField 0 0 s)
  else
    let now := ((s.delivery id).bind Delivery.now).bind (s.part p).seg?
    match now.bind Seg.id with
    | some _ =>
      let k := (now.map Seg.key).getD 0
      let s1 := modDelivery id (fun d => { d with ending := some c, queue := [] }) s
      let s1 := modPart p (fun x => { x with
        segs := x.segs.map fun g => if g.key = k then g else { g with needed := g.needed.filter fun e => e.1 != id } }) s1
      done s (settle p s1)
    | none =>
      let s1 := if now.isSome then abandonTaken id p 0xFFFFFFFF ((now.map Seg.epoch).getD 0) s else s
      let s1 := modDelivery id (fun d => { d with ending := some c, queue := [], now := none, words := 0, early := 0,
                                                  larvalHead := false, x07 := [] }) s1
      let s1 := modPart p (fun x => { x with
        segs := x.segs.map fun g => { g with needed := g.needed.filter fun e => e.1 != id } }) s1
      done s (settle p s1)

/-! ### Claims (R240, R341) -/

/-- A segment takes its place among others in the order of their commits. -/
def insertCommit (g : Seg) : List Seg → List Seg
  | [] => [g]
  | h :: r => if g.ord ≤ h.ord then g :: h :: r else h :: insertCommit g r
/-- Segments in the order of their commits. -/
def byCommit (gs : List Seg) : List Seg := gs.foldr insertCommit []

/-- PARTITION_CLAIM (R240, R341): the claimant becomes the owner of an orphan, and its delivery begins with the oldest
committed segment that the former owner did not receive in full. -/
def execPartitionClaim (c : Cmd) (p ring token : Nat) (s : State) : Host.Outcome State Fault Refusal :=
  let f := c.fn.val
  if s.lockedOut f then done s (badGrant c s)
  else if s.exists_ p = false ∨ 7 < p then done s (finish c 0x09 stInvalidField 0 0 s)
  else if s.orphan p = false ∨ s.ringFree f ring = false then done s (finish c 0x09 stInvalidField 0 0 s)
  else if ((s.part p).tokens.head?.map Token.value) ≠ some token then done s (badGrant c s)
  else
    let own := (s.part p).subs.filter fun id => id / 8 == f
    let s1 := each (fun id => endSub id p) own s
    let id := f * 8 + ring
    let wanted := (byCommit ((s1.part p).segs.filter fun g => g.needed.any fun e => e.1 == claimant)).map Seg.key
    let s1 := modPart p (fun x => { x with
      orphanAt := 0,
      segs := x.segs.map fun g => { g with needed := g.needed.map fun e => if e.1 = claimant then (id, 0) else e } }) s1
    let s1 := setF (F.partStatusOrphan p) 0 (setOwner f p s1)
    let s1 := postPart p 0x1304 p (bindOwner f ring p wanted s1)
    done s (finish c 0x09 stOk 0 0 (settle p (tryFetch f ring s1)))

/-! ### READ_BACK (R304, R305) -/

/-- The pages of the stream from byte `lo` to byte `hi` of a partition are pinned; none where the limit is reached. -/
def pinPages (p : Nat) : List Nat → State → Option State
  | [], s => some s
  | n :: r, s =>
    if (s.part p).unheld.contains n then if s.canHold p then pinPages p r (holdPage p n s) else none
    else pinPages p r s

/-- Pages from stream position `lo` to `hi`. -/
def pageSpan (lo hi : Nat) : List Nat :=
  if hi ≤ lo then [] else (List.range (pageOf (hi - 1) + 1 - pageOf lo)).map (pageOf lo + ·)

/-- A READ_BACK is accepted: its pages are pinned, and it waits on its ring. Where pinning meets the limit the command ends
with NO_RESOURCE (R305), and the partition is at its limit and its policy acts (R295). -/
def startReadBack (c : Cmd) (r : ReadBack) (ring : Nat) (s : State) : State :=
  match pinPages r.part r.pages s with
  | none =>
    finish c 0x0C stNoResource 0 0
      (settle r.part (limitActs (fun t => t.canHold r.part) (s.limitSteps r.part) r.part s))
  | some s =>
    let s := modPart r.part (fun x => { x with pins := x.pins ++ [r.pages] }) s
    let s := modPair c.fn ring (fun x => { x with readBacks := x.readBacks ++ [r] }) s
    tryFetch c.fn c.pair (tryFetch c.fn ring s)

/-- The checks that both modes share: partition, ring, service, four in progress. -/
def State.readBackGate (s : State) (f p ring : Nat) (allowed : Bool) : Option Nat :=
  if s.exists_ p = false ∨ 7 < p ∨ 7 < ring ∨ s.captureEn f ring = false then some stInvalidField
  else if allowed = false then some stNotOwner
  else if s.reducedService then some stBringup
  else if 4 ≤ (s.part p).pins.length then some stBusy
  else none

/-- Whether a function holds a subscription to a partition. -/
def State.subscribes (s : State) (f p : Nat) : Bool := (s.part p).subs.any fun id => id / 8 == f

/-- READ_BACK of a segment (R305). -/
def execReadBackSegment (c : Cmd) (p ring segId epoch : Nat) (s : State) : Host.Outcome State Fault Refusal :=
  let x := s.part p
  match s.readBackGate c.fn p ring (s.owns c.fn p || s.subscribes c.fn p) with
  | some st => done s (finish c 0x0C st 0 0 s)
  | none =>
    match x.segs.find? fun g => g.imago && g.id == some segId && g.epoch % 65536 == epoch && x.whole g with
    | none => done s (finish c 0x0C stInvalidField 0 0 s)
    | some g =>
      let pages := if g.empty then [] else pageSpan (x.segFrom g) (x.segTo g)
      done s (startReadBack c { cmd := c, part := p, recs := x.segPlaced g, key := some g.key, pages := pages, segId := segId, epoch := epoch,
                                trunc := g.truncated } ring s)

/-- READ_BACK of a range of the stream (R292, R305). -/
def execReadBackRange (c : Cmd) (p ring start len : Nat) (s : State) : Host.Outcome State Fault Refusal :=
  let x := s.part p
  match s.readBackGate c.fn p ring (s.owns c.fn p || isPf c.fn) with
  | some st => done s (finish c 0x0C st 0 0 s)
  | none =>
    let lo := x.base + start
    let hi := lo + len * 64
    if start % 64 ≠ 0 ∨ len = 0 ∨ 2 ^ 32 ≤ len ∨ lo < x.oldestPos ∨ x.writePos < hi then
      done s (finish c 0x0C stInvalidField 0 0 s)
    else
      let es := x.recs.filter fun e => decide (lo ≤ e.1) && decide (e.1 < hi)
      let top := max hi ((es.getLast?.map fun e => e.1 + e.2.bytes).getD hi)
      done s (startReadBack c { cmd := c, part := p, recs := es, pages := pageSpan lo top, range := true } ring s)

/-! ### QUERY (R331) -/

/-- The result block of a QUERY is written before its completion, which gives the bytes written. -/
def answer (c : Cmd) (addr : Nat) (bs : List Byte) (s : State) : State :=
  finishPre c 0x10 stOk 256 0 [(addr, bs ++ List.replicate (256 - bs.length) 0)] s

/-- A set of numbers below 8 as a byte. -/
def byteMask (c : Nat → Bool) : Nat := (((List.range 8).filter c).map (2 ^ ·)).sum

/-- QUERY FUNCTION (R331). -/
def execQueryFunction (c : Cmd) (addr : Nat) (s : State) : Host.Outcome State Fault Refusal :=
  let f := c.fn.val
  let held := ((List.range 8).map fun p => ((s.part p).subs.filter fun id => id / 8 == f).length).sum
  done s (answer c addr
    (leBytes 2 (fnCode f) ++ leBytes 1 (byteMask (s.pairEn f))
      ++ leBytes 1 (byteMask fun n => s.pairEn f n && s.getF (F.rcCfgType f n) == 0)
      ++ leBytes 2 (byteMask fun n => (s.pair f n).delivery.isSome) ++ leBytes 2 (if isPf f then 256 else 32)
      ++ leBytes 2 held ++ leBytes 2 (256 - s.bindings) ++ leBytes 1 (bit (!s.reducedService && !s.mgmt.portLow.contains (f / 128)))
      ++ leBytes 1 (byteMask fun p => s.owns f p) ++ leBytes 2 (byteMask fun p => s.subscribes f p)
      ++ leBytes 4 (s.getF F.memCapPagesAlloc)) s)

/-- QUERY PARTITION (R331). -/
def execQueryPartition (c : Cmd) (addr p : Nat) (s : State) : Host.Outcome State Fault Refusal :=
  let f := c.fn.val
  if s.exists_ p = false ∨ 7 < p then done s (finish c 0x10 stInvalidField 0 0 s)
  else if (s.owns f p || s.subscribes f p || isPf f) = false then done s (finish c 0x10 stNotOwner 0 0 s)
  else
    let ws := (List.range 12).map fun k => match Reg.ofOff 0 (0x40000 + p * 0x400 + 4 * k) with
      | some r => s.view r
      | none => 0
    done s (answer c addr ((ws ++ [s.view (.memPartStatus p), s.view (.memPartHeld p)]).flatMap fun w => leBytes 4 w.toNat) s)

/-- Whether an item's value is drawn as a free value when it is taken. -/
def itemOpen (code : Nat) : Bool := code == 0x8100 || code == 0x8101

/-- QUERY COUNTER (R331). -/
def execQueryCounter (c : Cmd) (addr item : Nat) (s : State) : Host.Outcome State Fault Refusal :=
  let f := c.fn.val
  match if timeItem item then none else s.item (f / 128) item with
  | none => done s (finish c 0x10 stInvalidField 0 0 s)
  | some ws =>
    let mine := match s.itemPart item with
      | some p => s.owns f p || s.subscribes f p
      | none => false
    if (isPf f || mine) = false then done s (finish c 0x10 stNotOwner 0 0 s)
    else if ((itemDomain item).map s.domainOff) = some true then done s (finish c 0x10 stDomainDown 0 0 s)
    else done s (answer c addr ((ws.flatMap fun w => leBytes 4 w.toNat) ++ leBytes 4 item) (when_ (itemOpen item) spend s))

end Sys2Proof.Machine
end

