-- ==== Sys2Proof/Machine/Bar.lean ====
section
/-! DEFINITION. Machine/Bar.lean: what every access to BAR0 and BAR2 passes through: which register an offset names,
Unsupported Request, containment, domains that are off (R364, R369, R398, R524, R525, R539). -/

namespace Sys2Proof.Machine

/-- Whether a function is present: those of port B only in dual-port mode (R353, R359). -/
def State.present (s : State) (f : Nat) : Bool :=
  if f < 128 then s.mgmt.dualPort == false || decide (f < 64) else s.mgmt.dualPort && decide (f < 192)

/-- Whether a function's BARs answer: Memory Space Enable set and not in D3hot (R364, R378). -/
def State.barOpen (s : State) (f : Nat) : Bool := s.present f && (s.fn f).mse && !(s.fn f).d3

/-- Whether the device is in recovery (R442). -/
def State.recovery (s : State) : Bool := s.getF F.bootStatusPhase == 3
/-- Whether configuration requests are carried out: in reduced service, full service and recovery; before them they
complete with Request Retry Status (R443). -/
def State.cfgAnswers (s : State) : Bool := [3, 5, 6].contains (s.getF F.bootStatusPhase)

/-- The first word of a function's configuration space (R12): Vendor ID 0x1E57, Device ID 0xA512 for a physical function
and 0xA513 for a virtual one. -/
def idWord (f : Nat) : Word := BitVec.ofNat 32 (0x1E57 + (if isPf f then 0xA512 else 0xA513) * 2 ^ 16)
/-- What a configuration read of Vendor ID and Device ID answers; none while configuration requests complete with Request
Retry Status, and for a function that is not present (R12, R443). -/
def State.readIds (s : State) (f : Nat) : Option Word :=
  if s.present f && s.cfgAnswers then some (idWord f) else none

/-- A write that is Unsupported Request: dropped, logged, reported through AER (R364). -/
def urWrite (f : Nat) (bar2 : Bool) (off : Nat) (s : State) : State :=
  emit (.aer f 0x02) (logErr f 0x02 0 0 (barDetail bar2 off) s)

/-- A read that is Unsupported Request (R364). -/
def urRead (f : Nat) (bar2 : Bool) (off : Nat) (s : State) : State :=
  emit (.unsupported f) (logErr f 0x01 0 0 (barDetail bar2 off) s)

/-- The register that an offset of a function's BAR0 names; its blocks in a VF follow R539. -/
def barReg (f off : Nat) : Option Reg :=
  if isPf f then Reg.ofOff f off
  else if off < 0x1000 ∨ (0x2000 ≤ off ∧ off < 0x4800) then Reg.ofOff f off
  else if 0x6000 ≤ off ∧ off < 0x6200 then Reg.ofOff f (off + 0x5A000)
  else if 0xA000 ≤ off ∧ off < 0xC000 then Reg.ofOff f (off + 0x36000)
  else none

/-- A write dropped in containment is logged, at most once per millisecond for each code (R369). -/
def containedWrite (f code : Nat) (bar2 : Bool) (off : Nat) (s : State) : State :=
  limited (rateKey (0xE00 + code) f) ticksPerMs (logErr f code 0 0 (barDetail bar2 off)) s

/-- A write to a register of BAR0: `g` acts where the access is executed, the device is not in recovery (R442), the
function is not in containment and the register's domain is on; PF registers do not exist in a VF. -/
def hostWrite (f off : Nat) (g : State → State) (s : State) : State :=
  if s.barOpen f = false ∨ (barReg f off).isNone then urWrite f false off s
  else if s.recovery then s
  else if s.contained f then containedWrite f 0x0C false off s
  else match ((barReg f off).bind Reg.powerDomain).filter s.domainOff with
    | some d => domainDown f d off true s
    | none => g s

/-- A BAR0 request `c` is carried out by `g`; while the system PLL relocks it waits, and it is completed after the relock
(R40). -/
def bar0 (c : Instr) (g : State → State) (s : State) : Host.Outcome State Fault Refusal :=
  done s (if s.clk.sysHeld then modClk (fun k => { k with held := k.held ++ [c] }) s else g s)

/-- The keep bits of a register after an accepted write of `v` (R7, R394): where the write changes one, they are test
controls and their content is a free value. -/
def keepWrite (r : Reg) (v : Word) (s : State) : State :=
  let m := fieldMask (fun x => x.access == .kp) r.fields
  if v &&& m = s.rd r &&& m then s
  else wr r ((s.rd r &&& ~~~m) ||| (Config.keepBits s.free &&& m)) (spend s)

end Sys2Proof.Machine
end

