-- ==== Sys2Proof/Machine/Mailbox.lean ====
section
/-! DEFINITION. Machine/Mailbox.lean: mailbox channels, acknowledge records, the host mailbox and its notices (R411 to
R425, R431, R432, R455). -/

namespace Sys2Proof.Machine

/-! ### Channels and records (R411 to R417) -/

/-- A function's acknowledge record for a channel (R415): STATE 1 PENDING, 2 TAKEN, 3 DONE. -/
def setRecord (f c state status seq : Nat) (s : State) : State :=
  let s := setF (F.mbxAckStatus f c) status (setF (F.mbxAckSeq f c) seq s)
  setF (F.mbxAckStateState f c) state (setF (F.mbxAckStateSeq f c) seq s)

/-- The record follows a post, unless its function has posted again on the channel since (R415). -/
def postRecord (p : Post) (c state status : Nat) (s : State) : State :=
  match (s.chan c).untaken with
  | some q => if q.fn = p.fn ∧ q ≠ p then s else setRecord p.fn c state status p.seq s
  | none => setRecord p.fn c state status p.seq s

/-- The address in a function's latch for a channel (R412). -/
def State.latch (s : State) (f c : Nat) : Nat :=
  (s.rd (.mbxPtrLo f c)).toNat / 64 * 64 + (s.rd (.mbxPtrHi f c)).toNat * 2 ^ 32

/-- The read for a function's post on a channel has ended. -/
def dropMbxTag (f c : Nat) (s : State) : State :=
  match s.mbxTag f c with
  | some t => endTag f t.num s
  | none => s

/-- A post joins a channel; an untaken one is superseded (R412, R416). -/
def joinPost (c : Nat) (p : Post) (s : State) : State :=
  let s := match (s.chan c).untaken with
    | some q =>
      let s := bump (0x7001 + 4 * c) 1 (setF (F.mbxChanMbxCollision c) 1 (dropMbxTag q.fn c s))
      post q.fn 0x1804 (c + q.seq * 2 ^ 16) (setRecord q.fn c 3 stSuperseded q.seq s)
    | none => s
  let s := modChan c (fun x => { x with untaken := some p }) s
  readBlock c (setRecord p.fn c 1 0 p.seq s)

/-- A doorbell of a function on a channel (R412, R414, R416, R417). -/
def doorbell (f c seq : Nat) (s : State) : State :=
  if s.chanDown c then
    let d := if s.toFirefly c then 27 else 26
    let s := wr (.regDownLog f) (BitVec.ofNat 32 (2 ^ 31 + 2 ^ 30 + d * 2 ^ 25 + (0x3008 + c * 0x20))) s
    post f 0x1805 (c + seq * 2 ^ 16) (setRecord f c 3 stDomainDown seq s)
  else
    let s := if s.toFirefly c then powerOn 27 (wake 27 s) else s
    joinPost c { fn := f, ptr := s.latch f c, seq := seq } (bump (0x7000 + 4 * c) 1 s)

/-- MBX_DOORBELL (R412). -/
def execMbxDoorbell (f : FnId) (ch : MbxId) (seq : BitVec 16) (s : State) : Host.Outcome State Fault Refusal :=
  bar0 (.mbxDoorbell f ch seq) (fun s => hostWrite f (0x3008 + ch.val * 0x20) (doorbell f ch seq.toNat) s) s

/-- The status of a message block by R413 and R414: message types of the receiver the channel targets. -/
def blockStatus (firefly : Bool) (ptr : Nat) (b : List Byte) : Nat :=
  let len := leAt b 0 4
  let type := leAt b 4 2
  let rmax := leAt b 16 4
  if ptr = 0 ∨ len % 64 ≠ 0 ∨ len < 64 ∨ 4096 < len ∨ leAt b 6 2 ≠ 0 ∨ leAt b 20 4 ≠ 0 ∨ leAt b 8 8 % 64 ≠ 0
      ∨ rmax % 64 ≠ 0 ∨ 4096 < rmax then stInvalidField
  else if (firefly && decide (0x100 ≤ type) && decide (type ≤ 0x103)) || (!firefly && (type == 1 || type == 2)) then stOk
  else stInvalidOpcode

/-- MBX_TAKE (R414): the message block has arrived, and the receiver takes the post. While the sender's function is frozen
or held the block is discarded, and is read again (R372, R374). -/
def execMbxTake (ch : MbxId) (block : List Byte) (s : State) : Host.Outcome State Fault Refusal :=
  match (s.chan ch).untaken with
  | none => done s s
  | some p =>
    if s.dmaOn p.fn = false then done s (dropMbxTag p.fn ch s)
    else if (s.chan ch).taken.isSome || s.chanDown ch || (p.ptr != 0 && (s.mbxTag p.fn ch).isNone) then done s s
    else
      let bad := p.ptr == 0
      let q : Post := { p with
        type := if bad then 0 else leAt block 4 2, replyAddr := if bad then 0 else leAt block 8 8,
        replyMax := if bad then 0 else leAt block 16 4, status := blockStatus (s.toFirefly ch) p.ptr block }
      let s1 := setChan ch { untaken := none, taken := some q } (dropMbxTag p.fn ch s)
      done s (postRecord q ch 2 0 s1)

/-- MBX_DONE (R414): the reply is written, then the record reads DONE with the status. A reply waits while its function
sends nothing (R420). -/
def execMbxDone (ch : MbxId) (s : State) : Host.Outcome State Fault Refusal :=
  match (s.chan ch).taken with
  | none => done s s
  | some p =>
    let wants := p.replyAddr ≠ 0 ∧ p.reply ≠ [] ∧ p.mute = false
    if s.chanDown ch ∨ (wants ∧ s.dmaOn p.fn = false) then done s s
    else
      let cut := decide (p.replyMax < p.reply.length)
      let s1 := if wants then emit (.hostWrite p.fn p.replyAddr (p.reply.take p.replyMax) false) s else s
      let st := if wants ∧ cut = true ∧ p.status = stOk then stPartial else p.status
      let s1 := modChan ch (fun x => { x with taken := none }) s1
      let s1 := if p.mute then s1 else postRecord p ch 3 st s1
      done s (readBlock ch s1)

/-- The receiver's answer to the message it has taken from a function: status and reply. -/
def answerMsg (f c type : Nat) (g : State → State × Nat × List Byte) (s : State) : State :=
  match (s.chan c).taken with
  | some p =>
    if p.fn = f ∧ p.type = type ∧ p.status = stOk ∧ p.answered = false then
      let (s, st, reply) := g s
      modChan c (fun x => { x with taken := some { p with status := st, reply := reply, answered := true } }) s
    else s
  | none => s

/-- A reply block (R413): the words of its payload, padded to a multiple of 64 bytes. -/
def replyBlock (type : Nat) (ws : List Nat) : List Byte :=
  let len := (24 + 4 * ws.length + 63) / 64 * 64
  leBytes 4 len ++ leBytes 2 type ++ List.replicate 18 0 ++ ws.flatMap (leBytes 4) ++
    List.replicate (len - 24 - 4 * ws.length) 0

/-! ### A receiver's reset (R419) and an FLR of a sender (R420) -/

/-- A post is cleared by a reset of its receiver. -/
def losePost (c : Nat) (p : Post) (s : State) : State :=
  if p.mute then s
  else
    let s := bump (0x7002 + 4 * c) 1 (postRecord p c 3 stResetLost (dropMbxTag p.fn c s))
    post p.fn 0x1806 (c + p.seq * 2 ^ 16) s

/-- The posts on the channels of a receiver are cleared (R419). -/
def losePosts (firefly : Bool) (s : State) : State :=
  each (fun c s =>
    if s.toFirefly c != firefly then s
    else
      let x := s.chan c
      let s := each (losePost c) (x.taken.toList ++ x.untaken.toList) s
      setChan c {} s) (List.range 16) s

/-- The receiver runs again: its channels accept posts (R419). -/
def targetUp (firefly : Bool) (s : State) : State := postPfs 0x1807 (bit firefly) s

/-- An FLR of a sender (R420). -/
def flrMailbox (f : Nat) (s : State) : State :=
  let own (p : Post) : Bool := p.fn == f
  let s := each (fun c s =>
    let x := s.chan c
    setChan c { untaken := x.untaken.filter fun p => !own p,
                taken := x.taken.map fun p => if own p then { p with mute := true } else p } s) (List.range 16) s
  let s := each (fun c s => each resetReg [.mbxPtrLo f c, .mbxPtrHi f c, .mbxAck f c, .mbxAckState f c] s) (List.range 16) s
  let s := each resetReg [.mbxHostBaseLo f, .mbxHostBaseHi f, .mbxHostCfg f, .mbxHostAck f, .mbxHostStatus f] s
  let s := modFn f (fun x => { x with notices := [], noticeLost := false, reposts := [] }) s
  each readBlock (List.range 16) s

/-- The posts that a failed block read removed are made again (R420). -/
def repost (f : Nat) (s : State) : State :=
  let rs := (s.fn f).reposts
  each (fun r => joinPost r.1 { fn := f, ptr := r.2.1, seq := r.2.2 }) rs (modFn f (fun x => { x with reposts := [] }) s)

/-- A failed read of a message block removes the post; it is made again at release (R420). -/
def dropPost (f c : Nat) (s : State) : State :=
  match (s.chan c).untaken with
  | some p =>
    if p.fn = f then
      modFn f (fun x => { x with reposts := x.reposts ++ [(c, p.ptr, p.seq)] })
        (modChan c (fun x => { x with untaken := none }) s)
    else s
  | none => s

/-! ### Notices (R421 to R423, R455) -/

/-- A notice for a function's host mailbox: held until it can be written, at most 256 of them (R423). -/
def notify (f : Nat) (n : Notice) (s : State) : State :=
  let x := s.fn f
  if 256 ≤ x.notices.length then
    let s := bump (0x6200 + f) 1 (setFn f { x with noticeLost := true } s)
    limited (rateKey 0x1809 f) ticksPerMs (post f 0x1809 f) s
  else setFn f { x with notices := x.notices ++ [n] } s

/-- Functions whose host mailbox is enabled. -/
def State.mailboxes (s : State) : List Nat :=
  (List.range 256).filter fun f => s.present f && s.flag (F.mbxHostCfgEn f)

/-- A notice for every enabled host mailbox. -/
def notifyAll (n : Notice) (s : State) : State := each (fun f => notify f n) s.mailboxes s

/-- NOTICE_WRITE (R421, R422): the oldest held notice is written where its mailbox is enabled, its function may send and
its slot is free. -/
def execNoticeWrite (f : FnId) (s : State) : Host.Outcome State Fault Refusal :=
  let x := s.fn f
  let last := s.getF (F.mbxHostStatusLastSeq f)
  let size := 16 * 2 ^ s.getF (F.mbxHostCfgSize f)
  let ack := s.getF (F.mbxHostAckAckSeq f)
  match x.notices with
  | [] => done s s
  | n :: r =>
    if s.flag (F.mbxHostCfgEn f) && s.dmaOn f && decide ((last + 65536 - ack) % 65536 < size) then
      let seq := (last + 1) % 65536
      let at_ := s.addr (.mbxHostBaseLo f) (.mbxHostBaseHi f) + (seq + 65535) % 65536 % size * 64
      let head := leBytes 2 seq ++ leBytes 2 n.type ++ leBytes 1 (bit x.noticeLost) ++ List.replicate 3 0
      let bs := head ++ n.payload ++ List.replicate (56 - n.payload.length) 0
      let s1 := setFn f { x with notices := r, noticeLost := false } s
      let s1 := emit (.hostWrite f at_ (bs.take 16) false) (emit (.hostWrite f (at_ + 16) (bs.drop 16) false) s1)
      done s (msix f (s.getF (F.mbxHostCfgVec f)) (setF (F.mbxHostStatusLastSeq f) seq s1))
    else done s s

/-- A write of MBX_HOST_CFG (R421): SIZE and VEC do not change while EN is 1; a rise of EN starts SEQ anew. -/
def hostEnable (f : Nat) (v : Word) (s : State) : State :=
  let old := s.rd (.mbxHostCfg f)
  let same := bitsOf v.toNat 8 8 = bitsOf old.toNat 8 8 ∧ bitsOf v.toNat 16 4 = bitsOf old.toNat 16 4
  let vecs := if isPf f then 256 else 32
  if (s.flag (F.mbxHostCfgEn f) = true ∧ ¬same) ∨ 4 < bitsOf v.toNat 16 4 ∨ vecs ≤ bitsOf v.toNat 8 8 then
    cfgRefused f 0x3208 s
  else
    let rise := s.flag (F.mbxHostCfgEn f) = false ∧ v.getLsbD 31 = true
    let s := keepWrite (.mbxHostCfg f) v s
    let s := wr (.mbxHostCfg f) (s.merged (.mbxHostCfg f) v) s
    if rise then setF (F.mbxHostStatusLastSeq f) 0 (setF (F.mbxHostAckAckSeq f) 0 s) else s

/-- MBX_HOST_ENABLE (R421). -/
def execMbxHostEnable (f : FnId) (v : Word) (s : State) : Host.Outcome State Fault Refusal :=
  bar0 (.mbxHostEnable f v) (fun s => hostWrite f 0x3208 (hostEnable f v) s) s

/-- A write of MBX_HOST_ACK (R423): accepted from after the present one up to the last written SEQ. -/
def hostAck (f v : Nat) (s : State) : State :=
  let ack := s.getF (F.mbxHostAckAckSeq f)
  let d := (v + 65536 - ack) % 65536
  if 1 ≤ d ∧ d ≤ (s.getF (F.mbxHostStatusLastSeq f) + 65536 - ack) % 65536 then setF (F.mbxHostAckAckSeq f) v s
  else post f 0x1808 (v % 65536 * 2 ^ 16) s

/-- MBX_HOST_ACK (R423). -/
def execMbxHostAck (f : FnId) (v : BitVec 16) (s : State) : Host.Outcome State Fault Refusal :=
  bar0 (.mbxHostAck f v) (fun s => hostWrite f 0x320C (hostAck f v.toNat) s) s

end Sys2Proof.Machine
end

