-- ==== Sys2Proof/Machine/Endpoint.lean ====
section
/-! DEFINITION. Machine/Endpoint.lean: failed reads, containment and release, Bus Master Enable and Memory Space Enable,
function-level reset, power states, link and port events (R354 to R385, R488). -/

namespace Sys2Proof.Machine

/-! ### A function stops sending (R369, R372, R374) -/

/-- The index before `i` (R315). -/
def idxPrev (size i : Nat) : Nat :=
  if idxPos i = 0 then (1 - idxWrap i) * 0x10000 + (size - 1) else i - 1

/-- The submission head goes back by `k` entries. -/
def rewind : Nat → Nat → Nat → State → State
  | 0, _, _, s => s
  | k + 1, f, n, s =>
    rewind k f n (setF (F.rcSqHeadSqHead f n) (idxPrev (s.sqSize f n) (s.getF (F.rcSqHeadSqHead f n))) s)

/-- A pair is frozen (R372): descriptors fetched and not used, and the command that awaits its parameter block, are read
again; what is being delivered starts again from its start, into the same buffers. -/
def freezePair (f n : Nat) (s : State) : State :=
  let x := s.pair f n
  let k := x.fetched.length + (if x.await.isSome then 1 else 0)
  let started := if x.await.isSome then x.started.dropLast else x.started
  let last := x.started.getLast?
  let y := { x with
    fetched := [], fetchTag := none, await := none, paramTag := none, started := started,
    longs := if x.await.isSome then x.longs.filter fun i => some i != last else x.longs,
    taken := x.taken.map fun b => { b with used := 0, poison := false }, progBytes := 0,
    delivery := x.delivery.map fun d => { d with words := 0, early := 0, larvalHead := false, x07 := [] },
    readBacks := x.readBacks.map fun r => { r with done := 0, x07 := [] } }
  rewind k f n (setPair f n y s)

/-- Every pair of a function is frozen. -/
def freezeFn (f : Nat) (s : State) : State := each (fun n => freezePair f n) (List.range 8) s

/-- A function may send again: pending messages, held completions and fetches, mailbox blocks (R372, R374, R420). -/
def resume (f : Nat) (s : State) : State :=
  if s.dmaOn f then settleAll (each readBlock (List.range 16) (repost f (resumeFn f (sendPending f s)))) else s

/-! ### Containment (R368 to R373) -/

/-- A function enters containment for a logged cause; in containment already, nothing changes. -/
def contain (f code : Nat) (s : State) : State :=
  if s.contained f then s
  else
    let s := freezeFn f s
    let s := setF (F.containStatusCause f) code (setF (F.containStatusContained f) 1 s)
    let s := setF (F.containEpochEpoch f) (s.getF (F.containEpochEpoch f) + 1) s
    modFn f (fun x => { x with containEventDue := true }) s

/-- EP_CONTAINED to the function and its port's PF (R370): one message on vector 0 whatever else is masked by
containment. -/
def containEvent (f : Nat) (s : State) : State :=
  if (s.fn f).containEventDue then
    let s := setF (F.epEventsContained f) 1 (modFn f (fun x => { x with containEventDue := false }) s)
    let pend := (s.fn f).pendVec
    let pay := f + s.getF (F.containStatusCause f) * 2 ^ 16
    let s := modFn f (fun x => { x with pendVec := pend }) (post f 0x1700 pay s)
    let s := msixNow f 0 s
    if isPf f then s else post (portPf f) 0x1700 pay s
  else s

/-- EP_CONTAINED (R370, R373): the function's DMA has stopped. -/
def execEpContained (f : FnId) (s : State) : Host.Outcome State Fault Refusal := done s (containEvent f s)

/-- The outstanding read of a function with a tag. -/
def State.outTag (s : State) (f k : Nat) : Option Tag := (s.fn f).tags.find? fun t => t.num == k && !t.quarantined

/-- What a failed read means for its use: a mailbox post is removed (R420); the rest follows from containment. -/
def failedRead (f : Nat) (t : Tag) (s : State) : State := if t.source = 3 then dropPost f t.detail s else s

/-- COMPLETION_TIMEOUT (R366). -/
def execCompletionTimeout (f : FnId) (tag : Nat) (s : State) : Host.Outcome State Fault Refusal :=
  match s.outTag f tag with
  | none => done s s
  | some t =>
    let s1 := modFn f (fun x => { x with
      tags := x.tags.map fun u => if u.num = tag then { u with quarantined := true } else u }) s
    let s1 := logErr f 0x05 tag t.source t.detail (emit (.aer f 0x05) s1)
    done s (serveReads (contain f 0x05 (failedRead f t s1)))

/-- A completion is discarded and logged as UNEXPECTED_COMPLETION (R366). -/
def unexpectedCpl (f tag source detail : Nat) (s : State) : State :=
  let s := logErr f 0x09 tag source detail (emit (.aer f 0x09) s)
  post f 0x1703 f (setF (F.epEventsUnexpectedCpl f) 1 s)

/-- UNEXPECTED_COMPLETION (R366, R376): the completion of a read whose timeout was reported is discarded and ends its tag's
quarantine; after an FLR without log. A later one, whose quarantine has ended, is discarded and logged as well: the read
that its SOURCE and DETAIL name is forgotten, so they are free values. While a read with this tag is outstanding, a
completion with the tag is that read's own, and none of this command. -/
def execUnexpectedCompletion (f : FnId) (tag : Nat) (s : State) : Host.Outcome State Fault Refusal :=
  match (s.fn f).tags.find? fun t => t.num == tag with
  | none => done s (unexpectedCpl f tag (s.freeN % 16) ((spend s).freeN % 2 ^ 28) (spend (spend s)))
  | some t =>
    if t.quarantined = false then done s s
    else if t.silent then done s (endTag f tag s)
    else done s (unexpectedCpl f tag t.source t.detail (endTag f tag s))

/-- TAG_QUARANTINE_END (R366). -/
def execTagQuarantineEnd (f : FnId) (tag : Nat) (s : State) : Host.Outcome State Fault Refusal :=
  if (s.fn f).tags.any fun t => t.num == tag && t.quarantined then done s (endTag f tag s) else done s s

/-- COMPLETION_ERROR (R367): while Bus Master Enable is clear it is discarded without error or log (R374). -/
def execCompletionError (f : FnId) (tag : Nat) (e : CplError) (s : State) : Host.Outcome State Fault Refusal :=
  match s.outTag f tag with
  | none => done s s
  | some t =>
    if s.bmeOn f = false then done s (endTag f tag s)
    else
    let code := match e with | .ur => 0x06 | .ca => 0x07 | .poisoned => 0x08
    let s1 := logErr f code tag t.source t.detail (dropTag f tag s)
    done s (serveReads (contain f code (failedRead f t s1)))

/-- POISONED_REQUEST (R368): the write is dropped. -/
def execPoisonedRequest (f : FnId) (bar2 : Bool) (off : Nat) (s : State) : Host.Outcome State Fault Refusal :=
  if s.barOpen f = false then done s (urWrite f bar2 off s)
  else if s.recovery then done s s
  else done s (contain f 0x03 (logErr f 0x03 0 0 (barDetail bar2 off) (emit (.aer f 0x03) s)))

/-- MALFORMED_REQUEST (R368): one whose target cannot be decoded contains the port's PF. -/
def execMalformedRequest (port : PortId) (f : Option FnId) (s : State) : Host.Outcome State Fault Refusal :=
  let g := match f with | some g => g.val | none => port.val * 128
  if s.present g then done s (contain g 0x04 (logErr g 0x04 0 0 0 (emit (.aer g 0x04) s))) else done s s

/-- ATS_FAULT (R358, R368): a translation is refused or lacks a permission. -/
def execAtsFault (f : FnId) (tag : Nat) (s : State) : Host.Outcome State Fault Refusal :=
  let s1 := match s.outTag f tag with | some t => failedRead f t s | none => s
  done s (serveReads (contain f 0x0A (logErr f 0x0A tag 4 0 (dropTag f tag s1))))

/-- ATS_INVALIDATION (R358): it completes after every write issued with the translations. -/
def execAtsInvalidation (f : FnId) (s : State) : Host.Outcome State Fault Refusal :=
  done s (emit (.atsInvalidationDone f) s)

/-- A write of CONTAIN_RELEASE (R371). -/
def containRelease (f : Nat) (v : Word) (s : State) : State :=
  if s.contained f = false then s
  else if v.toNat % 65536 = s.getF (F.containEpochEpoch f) then setF (F.containStatusReleasePending f) 1 s
  else
    let s := logErr f 0x0D 0 0 (barDetail false 0x4008) s
    post f 0x1702 f (setF (F.epEventsStaleRelease f) 1 s)

/-- CONTAIN_RELEASE (R371): the one register write that containment lets through. -/
def execContainRelease (f : FnId) (v : Word) (s : State) : Host.Outcome State Fault Refusal :=
  bar0 (.containRelease f v) (fun s =>
    if s.barOpen f then (if s.recovery then s else containRelease f v s) else urWrite f false 0x4008 s) s

/-- CONTAIN_RELEASE_DONE (R371, R372): no tag of the function is outstanding or quarantined, and it resumes. -/
def execContainReleaseDone (f : FnId) (s : State) : Host.Outcome State Fault Refusal :=
  if s.contained f && s.flag (F.containStatusReleasePending f) && (s.fn f).tags.isEmpty then
    let s1 := containEvent f s
    let s1 := setF (F.containStatusContained f) 0 (setF (F.containStatusReleasePending f) 0 s1)
    let s1 := postAll (if isPf f then [f.val] else [f.val, portPf f]) 0x1701 f s1
    done s (resume f s1)
  else done s s

/-! ### Bus Master Enable, Memory Space Enable, MSI-X (R361, R374, R382) -/

/-- A function's requests stop; what its outstanding reads bring is discarded (R374). -/
def holdFn (f : Nat) (s : State) : State := freezeFn f s

/-- Port reduced service ends when the port's PF has Memory Space Enable and Bus Master Enable set (R382). -/
def portReady (port : Nat) (s : State) : State :=
  let f := port * 128
  if s.mgmt.portLow.contains port && (s.fn f).mse && (s.fn f).bme then
    let s := { s with mgmt := { s.mgmt with portLow := s.mgmt.portLow.filter (· ≠ port) } }
    post f 0x1707 f (setF (F.epLinkStatusPortReady f) 1 s)
  else s

/-- BME_CLEAR (R374). -/
def execBmeClear (f : FnId) (s : State) : Host.Outcome State Fault Refusal :=
  if s.cfgAnswers && (s.fn f).bme then done s (holdFn f (modFn f (fun x => { x with bme := false }) s)) else done s s

/-- BME_SET (R374, R382). -/
def execBmeSet (f : FnId) (s : State) : Host.Outcome State Fault Refusal :=
  if s.cfgAnswers && s.present f && !(s.fn f).bme then
    done s (portReady (f.val / 128) (resume f (modFn f (fun x => { x with bme := true }) s)))
  else done s s

/-- MEMORY_SPACE_ENABLE_WRITE (R364, R382). -/
def execMemorySpaceEnableWrite (f : FnId) (on : Bool) (s : State) : Host.Outcome State Fault Refusal :=
  if s.cfgAnswers && s.present f then done s (portReady (f.val / 128) (modFn f (fun x => { x with mse := on }) s)) else done s s

/-- MSIX_VECTOR_UNMASK (R361): one vector, or the function mask. -/
def execMsixVectorUnmask (f : FnId) (vec : Option (Fin 256)) (s : State) : Host.Outcome State Fault Refusal :=
  let g (x : Fn) : Fn := match vec with
    | some v => { x with unmasked := if x.unmasked.contains v.val then x.unmasked else x.unmasked ++ [v.val] }
    | none => { x with fnMask := false }
  done s (sendPending f (modFn f g s))

/-- DEVCTL2_CTO_WRITE (R365): the Completion Timeout Value loads EP_CTO; a value that the table does not name leaves it. -/
def execDevctl2CtoWrite (f : FnId) (v : Fin 16) (s : State) : Host.Outcome State Fault Refusal :=
  let n := match v.val with
    | 0 => 1600 | 1 => 10 | 2 => 1000 | 5 => 5500 | 6 => 21000 | 9 => 90000 | 10 => 350000 | 13 => 1300000 | 14 => 6400000
    | _ => s.getF (F.epCtoCto f)
  if s.cfgAnswers then done s (setF (F.epCtoCto f) n s) else done s s

/-! ### Function-level reset (R240, R375 to R377, R420) -/

/-- Registers whose key satisfies `c` (function or 256, and offset) are at reset. -/
def dropRegs (c : Nat → Nat → Bool) (s : State) : State :=
  let keep (e : Nat × Word) : Bool := !c (e.1 / 0x100000) (e.1 % 0x100000)
  { s with regs := s.regs.filter keep, live := s.live.filter keep }

/-- A partition is orphaned by the reset of its owner (R240): committed segments whose completions the owner did not
receive are held for a claimant. -/
def orphanPart (p : Nat) (s : State) : State :=
  let s := match (s.part p).ownerPair with
    | some id => modPart p (fun x => { x with
        ownerPair := none,
        segs := x.segs.map fun g => { g with needed := g.needed.map fun e => if e.1 = id then (claimant, 0) else e } }) s
    | none => s
  let s := modPart p (fun x => { x with orphanAt := s.elapsed + 1 }) s
  let s := setF (F.partStatusOrphan p) 1 (setF (F.partEventsOrphaned p) 1 s)
  postAll ((s.pfs ++ (s.part p).subs.map (· / 8)).eraseDups) 0x1303 p s

/-- Commands of a function that are in progress elsewhere complete nothing (R375). -/
def forgetCmds (f : Nat) (s : State) : State :=
  let g (c : Cmd) : Cmd := if c.fn.val = f then goneCmd c else c
  let mine (i : Instr) : Bool := match i with
    | .calibrate c .. | .powerPinRelease c _ | .powerPinOn c _ | .powerForbidOff c _ | .partitionCreate c .. => c.fn.val == f
    | _ => false
  { s with
    parts := s.parts.map fun e => (e.1, { e.2 with arming := e.2.arming.map g }),
    seqs := s.seqs.map fun e => (e.1, { e.2 with force := e.2.force.map g }),
    cic := { s.cic with setCmd := s.cic.setCmd.map g },
    cals := s.cals.map fun e => { e with cmd := g e.cmd },
    slow := { s.slow with writes := s.slow.writes.map fun e => (e.1, e.2.1, e.2.2.map g) },
    clk := { s.clk with creating := s.clk.creating.filter fun i => !mine i },
    waiting := s.waiting.filter fun i => !mine i }

/-- What a pair of a function holds of partitions is given back: its subscription ends without completions, the pins of
its read-backs are released (R237, R305). -/
def clearPair (f n : Nat) (s : State) : State :=
  let x := s.pair f n
  let s := each (fun (r : ReadBack) => unpin r.part r.pages) x.readBacks s
  let s := each (fun (c : Cpl) s => match c.unpins with
    | some (p, pages) => unpin p pages s
    | none => s) x.heldCpl s
  match x.delivery with
  | some d => if d.subscriber then unbind (f * 8 + n) s else s
  | none => s

/-- The state that an FLR of one function clears (R375). EP_LINK_STATUS reports the port's link, which it does not
change. -/
def flrOne (f : Nat) (s : State) : State :=
  let owned := (List.range 8).filter fun p => s.owns f p
  let s := forgetCmds f (each (fun n => clearPair f n) (List.range 8) s)
  let s := each orphanPart owned s
  let s := flrMailbox f s
  let x := s.fn f
  let s := setFn f { nextTag := x.nextTag, pmeStatus := x.pmeStatus, pmeEn := x.pmeEn,
                     tags := x.tags.map fun t => { t with quarantined := true, silent := true } } s
  let s := dropRegs (fun g o => g == f && ((decide (0x2000 ≤ o) && decide (o < 0x4800) && o != 0x4024)
    || (decide (0x60000 ≤ o) && decide (o < 0x60200)))) s
  serveReads (settleAll s)

/-- Whether a function is enabled: a PF, or a VF whose Command register has been used. -/
def State.enabledFn (s : State) (f : Nat) : Bool := s.present f && (isPf f || (s.fn f).mse || (s.fn f).bme)

/-- The device enters or leaves its low-power mode (R378): entered when every enabled function is in D3hot and no
partition is armed; HBM is then in self-refresh. -/
def lowPower (s : State) : State :=
  let fs := (List.range 256).filter s.enabledFn
  let on := fs.all (fun f => (s.fn f).d3) && !(List.range 8).any fun p => (s.part p).armed
  if on = s.mgmt.lowPower then s
  else
    let s := { s with mgmt := { s.mgmt with lowPower := on } }
    let s := setF F.pwrModeMode (if on then 2 else bit s.reducedService) s
    let s := if on then each (fun d s => if s.domainOff d then s else setDomain d 2 s) [21, 22] s else wake 22 (wake 21 s)
    event F.pwrEventsLowPower 0x1A02 (bit on) s

/-- ORPHAN_TIMEOUT (R240): 60 s without a claim destroy the orphaned partition; the device may then enter its low-power
mode (R378). -/
def execOrphanTimeout (p : PartId) (s : State) : Host.Outcome State Fault Refusal :=
  if s.exists_ p = true ∧ s.orphan p = true then done s (lowPower (destroyPart p 0x1305 s)) else done s s

/-- VFs of a port. -/
def portVfs (port : Nat) : List Nat := (List.range 127).map fun n => port * 128 + n + 1

/-- An FLR of a VF, reported to its PF (R376). -/
def flrVf (f : Nat) (s : State) : State :=
  let on := s.enabledFn f
  let s := flrOne f s
  if on then post (portPf f) 0x1708 f s else s

/-- The VFs of a port are reset (R377). -/
def flrVfs (port : Nat) (s : State) : State := each flrVf ((portVfs port).filter s.present) s

/-- FLR (R375 to R377). -/
def execFlr (f : FnId) (s : State) : Host.Outcome State Fault Refusal :=
  if s.present f = false ∨ s.cfgAnswers = false then done s s
  else if isPf f then done s (lowPower (flrVfs (f.val / 128) (flrOne f s)))
  else done s (lowPower (flrVf f s))

/-- VF_ENABLE_CLEAR (R377). -/
def execVfEnableClear (port : PortId) (s : State) : Host.Outcome State Fault Refusal :=
  if s.cfgAnswers then done s (lowPower (flrVfs port s)) else done s s

/-! ### Power states (R378, R379) -/

/-- D3HOT_ENTRY (R378). -/
def execD3hotEntry (f : FnId) (s : State) : Host.Outcome State Fault Refusal :=
  if s.cfgAnswers && s.present f && !(s.fn f).d3 then done s (lowPower (holdFn f (modFn f (fun x => { x with d3 := true }) s))) else done s s

/-- D0_RETURN (R378): the function's state is kept, and it resumes. -/
def execD0Return (f : FnId) (s : State) : Host.Outcome State Fault Refusal :=
  if s.cfgAnswers && (s.fn f).d3 then done s (resume f (lowPower (modFn f (fun x => { x with d3 := false }) s))) else done s s

/-- WAKE_TRIGIN_EDGE (R379): a wake-enabled edge asserts WAKE# in D3cold, and sends a PME on each port whose PF is in
D3hot with PME_En set. -/
def execWakeTriginEdge (n : Fin 4) (rising : Bool) (s : State) : Host.Outcome State Fault Refusal :=
  let wakes (f : Nat) : Bool := (s.getF (F.epWakeCfgWakeTrigin f)).testBit n
    && (s.getF (F.epWakeCfgWakeEdge f)).testBit n == !rising
  if (s.pfs.any wakes) = false then done s s
  else if s.mgmt.d3cold then
    if s.mgmt.wakePin then done s s
    else done s (emit (.wake true) { s with mgmt := { s.mgmt with wakePin := true } })
  else
    done s (each (fun f s =>
      if (s.fn f).d3 then
        let s := modFn f (fun x => { x with pmeStatus := true }) s
        if (s.fn f).pmeEn then emit (.pme (f / 128)) s else s
      else s) s.pfs s)

/-! ### Links and ports (R354, R380 to R382, R488) -/

/-- The functions of a port are reset as by their own FLR (R381). -/
def portReset (port : Nat) (s : State) : State :=
  let s := flrVfs port (flrOne (port * 128) s)
  let s := { s with mgmt := { s.mgmt with portLow := s.mgmt.portLow.filter (· ≠ port) } }
  lowPower (resetReg (.epLinkStatus (port * 128)) s)

/-- PORT_LINK_UP (R354, R382). -/
def execPortLinkUp (port : PortId) (speed : Fin 8) (width : Nat) (tags : TagWidth) (s : State) :
    Host.Outcome State Fault Refusal :=
  let f := port.val * 128
  if s.present f = false then done s s
  else
    let full := if s.mgmt.dualPort then 8 else 16
    let low := decide (speed.val < 6) || decide (width < full)
    let s1 := setF (F.epLinkStatusSpeed f) speed (setF (F.epLinkStatusWidth f) width (setF (F.epLinkStatusL0pWidth f) width s))
    let s1 := { s1 with mgmt := { s1.mgmt with tagWidth := spSet .bits14 port.val tags s1.mgmt.tagWidth } }
    let s1 := setF (F.epLinkStatusFlit f) (bit (tags == .bits14)) (setF (F.epLinkStatusDegraded f) (bit low) s1)
    let s1 := if low then post f 0x1705 f (setF (F.epEventsLinkDegraded f) 1 s1) else s1
    let s1 := if s1.mgmt.eclosed then
        setF (F.epLinkStatusPortReady f) 0 { s1 with mgmt := { s1.mgmt with
          portLow := if s1.mgmt.portLow.contains port then s1.mgmt.portLow else s1.mgmt.portLow ++ [port.val] } }
      else s1
    done s (portReady port s1)

/-- Whether a delivery of a port has data pending (R380). -/
def State.portBusy (s : State) (port : Nat) : Bool :=
  (List.range 8).any fun p => (s.part p).deliveries.any fun id => decide (id / 8 / 128 = port) &&
    (match s.delivery id with | some d => d.now.isSome || !d.queue.isEmpty | none => false)

/-- The latency tolerance in µs that LTR reports for a port: none while no delivery of it has data pending (R380). -/
def State.ltr (s : State) (port : Nat) : Option Nat := if s.portBusy port then some 10 else none

/-- ASPM_L1_ENTRY (R380): the port enters L1 unless a delivery of it has data pending. -/
def execAspmL1Entry (port : PortId) (s : State) : Host.Outcome State Fault Refusal :=
  if s.portBusy port then done s s else done s (emit (.aspmL1 port) s)

end Sys2Proof.Machine
end

