-- ==== Sys2Proof/Machine/RingRegs.lean ====
section
/-! DEFINITION. Machine/RingRegs.lean: ring contexts and doorbells (R314 to R319, R346 to R349). -/

namespace Sys2Proof.Machine

/-! ### Ring contexts (R316, R348, R349) -/

/-- A refused write of a ring context (R316): RING_CFG_REFUSED. -/
def ringRefused (f n : Nat) (s : State) : State := post f 0x1603 n (setF (F.rcEventsCfgRefused f n) 1 s)

/-- Whether a pair holds a fetched command descriptor, or a taken capture buffer, that has not been completed. -/
def Pair.holds (x : Pair) : Bool := !x.started.isEmpty || x.await.isSome || !x.taken.isEmpty || !x.heldCpl.isEmpty

/-- Whether a write of RC_CFG is refused (R316, R349). -/
def State.rcCfgBad (s : State) (f n : Nat) (v : Word) : Bool :=
  let old := s.rd (.rcCfg f n)
  let m : Word := 0x70FF0000
  let prov := v.getLsbD 28
  let on := v.getLsbD 31
  let x := s.pair f n
  !(Reg.rcCfg f n).rangeOk v || (s.pairEn f n && v &&& m != old &&& m)
    || (prov && bitsOf v.toNat 29 2 == 0)
    || (prov && on && !s.pairEn f n && (s.rd (.rcProgLo f n)).toNat / 16 == 0 && s.rd (.rcProgHi f n) == 0)
    || (s.pairEn f n && !on && (x.delivery.isSome || x.holds))

/-- EN rises: heads and tails are at 0 with wrap 0 (R316). -/
def ringUp (f n : Nat) (s : State) : State :=
  let s := modPair f n (fun x => { x with sqTail := 0, cqHead := 0, fetched := [], unsignalled := 0 }) s
  setF (F.rcSqHeadSqHead f n) 0 (setF (F.rcCqTailCqTail f n) 0 (setF (F.rcStatusCqFull f n) 0 s))

/-- EN falls: posted descriptors not fetched, and capture descriptors fetched and not taken, are discarded (R316). -/
def ringDown (f n : Nat) (s : State) : State :=
  let x := s.pair f n
  setPair f n { x with fetched := [], fetchTag := none, sqTail := s.getF (F.rcSqHeadSqHead f n) } s

/-- A write of RC_CFG: its fields apply, then EN (R349). -/
def rcCfgWrite (f n : Nat) (v : Word) (s : State) : State :=
  if s.rcCfgBad f n v then ringRefused f n s
  else
    let was := s.pairEn f n
    let s := keepWrite (.rcCfg f n) v s
    let s := wr (.rcCfg f n) (s.merged (.rcCfg f n) v) s
    if v.getLsbD 31 && !was then ringUp f n s
    else if !v.getLsbD 31 && was then ringDown f n s
    else s

/-- Where RC_CFG of a pair stands in BAR0 of its function: 0x60010 on in a PF, 0x6010 on in a VF (R349, R539). -/
def rcPlace (f n : Nat) : Nat := (if isPf f then 0x60010 else 0x6010) + n * 0x40

/-- RING_ENABLE (R316, R349): a write of RC_CFG with EN set. -/
def execRingEnable (f : FnId) (pair : PairId) (v : Word) (s : State) : Host.Outcome State Fault Refusal :=
  bar0 (.ringEnable f pair v) (fun s => hostWrite f (rcPlace f pair) (rcCfgWrite f pair (v ||| 0x80000000)) s) s

/-- RING_DISABLE (R316): a write of RC_CFG with EN clear. -/
def execRingDisable (f : FnId) (pair : PairId) (v : Word) (s : State) : Host.Outcome State Fault Refusal :=
  bar0 (.ringDisable f pair v) (fun s => hostWrite f (rcPlace f pair) (rcCfgWrite f pair (v &&& 0x7FFFFFFF)) s) s

/-! ### Doorbells (R317, R318) -/

/-- RING_DB_ERR (R318), at most once per millisecond for a pair. -/
def dbErr (f n : Nat) (s : State) : State :=
  let s := setF (F.rcEventsDbErr f n) 1 s
  limited (2 ^ 32 + f * 8 + n) ticksPerMs (post f 0x1600 n) s

/-- A write of BAR2 that is executed: in containment it is dropped and logged (R369). -/
def doorbellWrite (f off : Nat) (g : State → State) (s : State) : State :=
  if s.barOpen f = false then urWrite f true off s
  else if s.recovery then s
  else if s.contained f then containedWrite f 0x0B true off s
  else g s

/-- A submission-tail doorbell (R317, R318). -/
def sqDoorbell (f n : Nat) (v : DWord) (s : State) : State :=
  let size := s.sqSize f n
  let i := v.toNat
  if s.pairEn f n = false then post f 0x1601 n s
  else if i < 2 ^ 17 ∧ idxPos i < size ∧ (idxDist size (s.getF (F.rcSqHeadSqHead f n)) i).isSome then
    tryFetch f n (modPair f n (fun x => { x with sqTail := i, dbTail := i }) s)
  else dbErr f n s

/-- A completion-head doorbell (R317 to R319): slots are released, and held completions are written. -/
def cqDoorbell (f n : Nat) (v : DWord) (s : State) : State :=
  let size := s.cqSize f n
  let i := v.toNat
  if s.pairEn f n = false then post f 0x1601 n s
  else
    match idxDist size (s.pair f n).cqHead i with
    | some d =>
      if i < 2 ^ 17 ∧ idxPos i < size ∧ d ≤ s.cqUsed f n then
        let s := modPair f n (fun x => { x with cqHead := i, dbHead := i }) s
        let s := if s.cqFull f n then s else setF (F.rcStatusCqFull f n) 0 s
        settleAll (tryFetch f n (flushPair f n s))
      else dbErr f n s
    | none => dbErr f n s

/-- DB_SQ_TAIL (R317, R318). -/
def execDbSqTail (f : FnId) (pair : PairId) (v : DWord) (s : State) : Host.Outcome State Fault Refusal :=
  done s (doorbellWrite f (pair.val * 16) (sqDoorbell f pair v) s)

/-- DB_CQ_HEAD (R317 to R319). -/
def execDbCqHead (f : FnId) (pair : PairId) (v : DWord) (s : State) : Host.Outcome State Fault Refusal :=
  done s (doorbellWrite f (pair.val * 16 + 8) (cqDoorbell f pair v) s)

end Sys2Proof.Machine
end

