-- ==== Sys2Proof/Machine/Reset.lean ====
section
/-! DEFINITION. Machine/Reset.lean: what PERST#, a hot reset and a loss of power do to the state, and the rebuilding of
partitions after a reset (R129, R240, R241, R379, R469 to R474, R512). -/

namespace Sys2Proof.Machine

/-! ### Steps 1 to 3 of R472 -/

/-- Segments in POST whose fill has reached E become imago as usual. -/
def finishFills (p : Nat) (s : State) : State :=
  let cause := if s.continuous p then 5 else 0
  each (fun (g : Seg) s => if g.fillEnd < (s.part p).blockAt then makeImago p g.key cause false s else s) (s.part p).posts s

/-- Packers of a partition stop storing at the first block boundary from now on; segments in POST end at their last
stored sample, larval ones are discarded (R241, R472). -/
def haltPart (p : Nat) (s : State) : State :=
  if (s.part p).armed = false then s
  else
    let s := blocksTo p s.now s
    let x := s.part p
    let upto := if x.begun.isNone ∨ s.noCore = true then x.blockAt
      else if s.onBlock p s.now then s.now else s.nextBlock p s.now
    endArmed p 4 upto (finishFills p s)

/-- Whether a segment is owed: it is committed, and not all its completions to the owner, to a lossless subscriber or to a
claimant are written (R241, R472). -/
def Seg.owed (g : Seg) : Bool := g.id.isSome && !g.needed.isEmpty

/-- What capture memory keeps of a partition through a reset (R241): the segments owed, their pages, the claim token. -/
def Part.kept (x : Part) : Part :=
  let segs := (x.segs.filter Seg.owed).map fun g => { g with needed := [(claimant, 0)] }
  { commits := x.commits, nextKey := x.nextKey, nextId := x.nextId, nextCand := x.nextCand, recs := x.recs, base := x.base,
    writePos := x.writePos, held := x.unheld.foldl (fun l n => insertPage n l) x.held, segs := segs,
    tokens := x.tokens.take 1 }

/-- Partitions that are rebuilt after a reset that keeps capture memory: those with segments owed, in HBM. -/
def State.rebuilt (s : State) : List Nat :=
  (List.range 8).filter fun p => (s.exists_ p || s.mgmt.orphans.any fun e => e.1 == p) && !s.inStaging p
    && (s.part p).segs.any Seg.owed

/-! ### What a reset keeps (R471) -/

/-- Registers that PERST# and a hot reset keep: those of PD1, the fault logs, counts and FAULT# (R493, R494, R503), the
sensors and thermal steps, which the table of R471 does not name. -/
def Reg.survives (r : Reg) : Bool :=
  match r with
  | .rstStatus | .timeXoLearned | .thermStatus | .telTemp _ | .telVolt _ | .fltPinCause | .fltPinMask | .fltCtrl
  | .fltCount _ | .fltCfg _ | .fltStatus _ | .pwrStat _ => true
  | _ => false

/-- Registers that a hot reset keeps beside them: Cicada, clock synthesis, retired pseudo-channels, RESTARTS. -/
def Reg.survivesHot (r : Reg) : Bool :=
  let o := r.off
  match r with
  | .memCap | .memRetiredLo | .memRetiredHi | .hbmStackStatus _ | .hbmPcStatus _ _ | .hbmPcTrain _ _ | .mgmtStatus => true
  | _ => decide (0x8000 ≤ o) && decide (o < 0xA000) && r.powerDomain.isNone && (Reg.ofOff 0 o == some r)

/-- Statistics counters that a reset keeps: residency (PD1) and the totals of management; a hot reset keeps those of
Cicada and clock synthesis. -/
def keepsCtr (hot : Bool) (code : Nat) : Bool :=
  (decide (0x8000 ≤ code) && decide (code < 0x9007)) || (hot && decide (code < 0x1000))

/-- The word that a register holds after a reset. -/
def State.afterReset (s : State) (hot kept : Bool) (r : Reg) (w : Word) : Word :=
  if r.survives || (hot && r.survivesHot) then w
  else
    let m := if kept then s.coefficients r else 0
    (w &&& m) ||| (r.reset &&& ~~~m)

/-- Register words after a reset. -/
def State.regsAfter (s : State) (hot kept : Bool) (m : Sp Word) : Sp Word :=
  m.filterMap fun e => match Reg.ofOff (e.1 / 0x100000 % 256) (e.1 % 0x100000) with
    | some r => some (e.1, s.afterReset hot kept r e.2)
    | none => none

/-- A bank after a reset: its comparator states follow the pins. -/
def bankAfter (x : Bank) : Bank :=
  { lvlU := x.lvlU, lvlL := x.lvlL, startU := x.lvlU, startL := x.lvlL, fedU := x.lvlU, fedL := x.lvlL }

/-- The power domains after a reset: on, but for what the port mode and the thermal step hold off. The comparators of a
bank whose domains were off start low (R113). -/
def domainsUp (s : State) : State :=
  each (fun d s =>
    let off := s.domainOff d
    let s := setDomain d (if (d = 24 ∧ s.mgmt.dualPort = false) ∨ s.mayBeOn d = false then 3 else 0) s
    let s := match domainBank d with | some b => if off then comparatorsLow b s else s | none => s
    setF (F.pwrStatThermalOff d) (bit (s.thermallyOff d)) (setF (F.pwrStatForbidden d) 0 (setF (F.pwrStatPinned d) 0 s)))
    ((List.range 29).map (· + 2)) s

/-- Fields that show straps and fuses. -/
def showStraps (s : State) : State :=
  let s := setF F.timeDevidDevidSrc (bit s.mgmt.devidSrc) s
  setF F.secStatusFusedEpoch s.mgmt.fusedEpoch (setF F.secStatusRevoked s.mgmt.revoked.toNat s)

/-- PERST# or a hot reset (R470 to R472): `kind` as LAST_RESET, `kept` when VDD_HBM and VDDQ_HBM stay within limits. -/
def deviceReset (kind : Nat) (kept : Bool) (s : State) : State :=
  let hot := kind == 3
  -- DMA stops, packers stop; a retirement that runs completes on a hot reset, and is abandoned on PERST# (R474)
  let s := { s with fns := s.fns.map fun e => (e.1, { e.2 with bme := false }) }
  let s := each haltPart (List.range 8) s
  let s := if hot then each remapOne (s.mgmt.retiring.map Prod.fst) s else s
  let running := (List.range 8).filter fun b => s.flag (F.feBankStatusCalRunning b)
  let ps := if kept then s.rebuilt else []
  let words (p : Nat) : Nat × Word × Word := match s.mgmt.orphans.find? fun e => e.1 == p with
    | some e => e
    | none => (p, s.rd (.partOwner p), s.rd (.partEpoch p))
  let valid := kept && (List.range 8).any fun b => s.getF (F.feBankStatusStepsValid b) != 0
  let m := s.mgmt
  let cic : Cicada := if hot then { s.cic with setCmd := none } else
    { keepAlive := s.cic.keepAlive, learnedXo := s.cic.learnedXo, everPps := s.cic.everPps }
  let t : State := { s with
    regs := s.regsAfter hot kept s.regs, live := s.regsAfter hot kept s.live,
    ctrs := s.ctrs.filter fun e => keepsCtr hot e.1, since := s.since.filter fun e => keepsCtr hot e.1,
    cic := cic, clk := if hot then { s.clk with held := [], creating := [] } else { sysHeld := s.clk.sysHeld },
    banks := s.banks.map fun e => (e.1, bankAfter e.2), dets := [], seqs := [],
    flags := { triginLevel := s.flags.triginLevel, cycle := s.flags.cycle },
    parts := (s.parts.filter fun e => ps.contains e.1).map fun e => (e.1, e.2.kept),
    fns := [], chans := [], snaps := [], slow := {}, cals := [], waiting := [], readWait := [], stamps := [],
    mgmt := { fusedEpoch := m.fusedEpoch, revoked := m.revoked, flashA := m.flashA, flashB := m.flashB,
              dualPort := m.dualPort, devidSrc := m.devidSrc, retired := if hot then m.retired else [], vaux := m.vaux, rails := m.rails, perst := m.perst || !hot,
              railFault := m.railFault, d3cold := m.d3cold, tripped := m.tripped, wakePin := m.wakePin,
              faultPin := m.faultPin, orphans := ps.map words } }
  let t := each releasePages ps t
  let t := setF F.csStatusSyspllLocked (s.getF F.csStatusSyspllLocked) (domainsUp (showStraps t))
  let t := each (fun b => setF (F.feCalStatusAbortReason b) 2) running t
  let t := setF F.rstStatusLastReset kind (setF F.rstStatusHbmKept (bit kept) (setF F.rstStatusOrphans 0 t))
  setF F.rstStatusCalAborted (bit !running.isEmpty) (setF F.rstStatusCoeffRestored (bit valid) t)

/-- Main power is gone: every domain but PD1 is off, capture memory and coefficients are lost (R33, R379, R453); the
wake enables are in PD1. -/
def powerLost (s : State) : State :=
  let wake := [0, 128].map fun f => (f, s.rd (.epWakeCfg f))
  let last := s.getF F.rstStatusLastReset
  let s := setF F.rstStatusLastReset last (deviceReset 2 false s)
  let s := setF F.csStatusSyspllLocked 0 { s with mgmt := { s.mgmt with rails := false }, clk := {} }
  each (fun e => wr (.epWakeCfg e.1) e.2) wake (each (fun d => setDomain d 3) ((List.range 29).map (· + 2)) s)

/-! ### The commands -/

/-- PERST_ASSERT (R470 to R472): PERST# in single-port mode, both pins together in dual-port mode. -/
def execPerstAssert (s : State) : Host.Outcome State Fault Refusal :=
  if s.mgmt.perst then done s s else done s (deviceReset 2 true s)

/-- D3COLD_ENTRY (R379): main power is removed; only the AON domain runs. -/
def execD3coldEntry (s : State) : Host.Outcome State Fault Refusal :=
  done s (powerLost { s with mgmt := { s.mgmt with d3cold := true, perst := true } })

/-- VAUX_POWER_ON (R76, R469): PD1 powers up, the fuses are read, the keep-alive counter and the residency start. -/
def execVauxPowerOn (s : State) : Host.Outcome State Fault Refusal :=
  if s.mgmt.vaux then done s s
  else done s (startResidency (showStraps { s with mgmt := { s.mgmt with vaux := true, perst := true } }))

/-- VAUX_LOSS (R512): every state is lost but the fuses and what is fused or written outside the device. -/
def execVauxLoss (s : State) : Host.Outcome State Fault Refusal :=
  let m := s.mgmt
  done s { (State.reset : State) with
    mgmt := { fusedEpoch := m.fusedEpoch, revoked := m.revoked, flashA := m.flashA, flashB := m.flashB },
    free := s.free, out := s.out }

/-- MAIN_RAILS_VALID (R39, R113, R353, R469, R509): straps are sampled, the domains power on, every comparator starts low,
the system PLL starts and locks. -/
def execMainRailsValid (portMode devidSrc : Bool) (s : State) : Host.Outcome State Fault Refusal :=
  if s.mgmt.rails ∧ s.mgmt.tripped = false then done s s
  else
    let m := { s.mgmt with dualPort := portMode, devidSrc := devidSrc, rails := true, perst := true, d3cold := false,
                           tripped := false }
    let s1 := setF F.thermStatusSteps (s.getF F.thermStatusSteps % 8) { s with mgmt := m }
    done s (setF F.csStatusSyspllLocked 1 (each comparatorsLow (List.range 8) (domainsUp (showStraps s1))))

/-- RAIL_FAULT (R512): a main rail out of its limits acts as PERST#; VAUX is no main rail. -/
def execRailFault (rail : Fin 8) (s : State) : Host.Outcome State Fault Refusal :=
  if rail.val = 7 ∨ s.mgmt.rails = false then done s s
  else
    let kept := rail.val ≠ 3 ∧ rail.val ≠ 4
    let perst := s.mgmt.perst
    let s1 := if perst ∧ kept then s else deviceReset 2 (decide kept) s
    done s { s1 with mgmt := { s1.mgmt with railFault := true, perst := perst } }

end Sys2Proof.Machine
end

