-- ==== Sys2Proof/Machine/Boot.lean ====
section
/-! DEFINITION. Machine/Boot.lean: the boot ROM, reduced service, HBM training, eclosion, restarts of the cores, telemetry
and thermal steps (R118, R434 to R439, R447 to R455, R470, R472, R512), and CAPTURE_RESUME, at which eclosion ends. -/

namespace Sys2Proof.Machine

/-! ### The boot ROM (R434, R439, R442) -/

/-- A section entry that R436 allows in an image of `len` bytes. -/
def sectionOk (len : Nat) (e : Section) : Bool :=
  [1, 2, 3].contains e.type && e.pad == 0 && decide (0x2000 ≤ e.offset) && decide (e.offset + e.length ≤ len)

/-- Two sections that share no byte (R436). -/
def sectionsApart (a b : Section) : Bool :=
  decide (a.offset + a.length ≤ b.offset) || decide (b.offset + b.length ≤ a.offset)

/-- The pairs of a list satisfy `c`, earlier element first. -/
def pairwise (c : Section → Section → Bool) : List Section → Bool
  | [] => true
  | a :: r => r.all (c a) && pairwise c r

/-- Whether a header obeys R435 and R436: lengths and counts in range, every section within the payload and apart from the
others, SCARAB_CODE and BOARD_CONFIG once, FIREFLY_CODE at most once, the entries beyond SECTION_COUNT all 0. -/
def imageLayoutOk (i : ImageCopy) : Bool :=
  let entry (k : Nat) : Section := i.sections.getD k {}
  let used := (List.range i.sectionCount).map entry
  let number (t : Nat) : Nat := (used.filter fun e => e.type == t).length
  decide (8192 ≤ i.imageLength) && decide (i.imageLength ≤ 4194304) && decide (1 ≤ i.sectionCount)
    && decide (i.sectionCount ≤ 8) && decide (i.keySlot < 4) && used.all (sectionOk i.imageLength)
    && pairwise sectionsApart used && number 1 == 1 && number 3 == 1 && decide (number 2 ≤ 1)
    && ((List.range 8).filter fun k => decide (i.sectionCount ≤ k)).all fun k => entry k == {}

/-- The code of the first of the checks 0x2 to 0x6 of R439 that a header fails, by the fuses as they are; 0 if it passes. -/
def State.signedCheck (s : State) (i : ImageCopy) : Nat :=
  if imageLayoutOk i = false then 2
  else if i.keyHashOk = false ∨ s.mgmt.revoked.getLsbD i.keySlot = true then 3
  else if i.epoch < s.mgmt.fusedEpoch then 4
  else if i.edSigOk = false then 5
  else if i.mldsaSigOk = false then 6
  else 0

/-- The code of the first check of R439 that a copy's header fails: 0x8 where its read fails, since nothing else can then
be checked. -/
def State.headerCheck (s : State) (i : ImageCopy) : Nat :=
  if i.headerRead = false then 8
  else if i.magic ≠ 0x454E5242 ∨ i.format ≠ 1 then 1
  else s.signedCheck i

/-- The code of the payload's digest check (R439). -/
def digestCheck (i : ImageCopy) : Nat := if i.digestOk then 0 else 7

/-- The code of the payload's checks: 0x8 and 0x7 of R439. -/
def payloadCheck (i : ImageCopy) : Nat := if i.payloadRead then digestCheck i else 8

/-- Whether copy B comes first: a higher SECURITY_EPOCH, then a higher FW_VERSION; copy A on a tie. -/
def bFirst (a b : ImageCopy) : Bool :=
  decide (a.epoch < b.epoch) || (a.epoch == b.epoch && decide (a.version.toNat < b.version.toNat))

/-- Recovery (R442). -/
def enterRecovery (s : State) : State :=
  let s := { s with mgmt := { s.mgmt with booting := none, other := none, received := [] } }
  setF F.bootStatusPhase 3 (setF F.secStatusSecState 2 (setF (F.identCapRecovery 0) 1 s))

/-- The payload of a copy is read next. -/
def readCopy (i : ImageCopy) (copyB : Bool) (other : Option ImageCopy) (s : State) : State :=
  let s := { s with mgmt := { s.mgmt with booting := some i, bootCopyB := copyB, other := other } }
  setF F.bootStatusPhase (if copyB then 2 else 1) s

/-- The boot ROM reads the headers of both copies and chooses (R434). A copy that the flash does not hold fails check
0x1. -/
def bootRom (s : State) : State :=
  let m := s.mgmt
  let ca := match m.flashA with | some i => s.headerCheck i | none => 1
  let cb := match m.flashB with | some i => s.headerCheck i | none => 1
  let s := { s with mgmt := { m with releasedAt := s.elapsed, fireflyDown := false } }
  let s := setF F.bootStatusFailA ca (setF F.bootStatusFailB cb s)
  match m.flashA.filter fun _ => ca == 0, m.flashB.filter fun _ => cb == 0 with
  | some a, some b => if bFirst a b then readCopy b true (some a) s else readCopy a false (some b) s
  | some a, none => readCopy a false none s
  | none, some b => readCopy b true none s
  | none, none => enterRecovery s

/-- An image boots from `source` (0 copy A, 1 copy B, 2 host): Scarab is released (R434, R442, R461). -/
def bootImage (i : ImageCopy) (source : Nat) (s : State) : State :=
  let s := { s with mgmt := { s.mgmt with booting := none, other := none, running := some i, certsRead := false,
                                          received := [] } }
  let s := setF F.secStatusSecState 1 (setF F.secStatusSource source (setF F.secStatusKeySlot i.keySlot s))
  let s := setF F.bootStatusBoardId i.boardId (setF F.fwVersionVersion i.version.toNat s)
  let s := if s.mgmt.devidSrc then setF F.timeDevidDeviceId i.deviceId s else s
  setF F.bootStatusPhase 4 (setF (F.identCapRecovery 0) 0 s)

/-- PERST_RELEASE (R434): with main power good Firefly runs its boot ROM on the copies that the flash holds; WAKE# is
released (R379). -/
def execPerstRelease (a b : ImageCopy) (s : State) : Host.Outcome State Fault Refusal :=
  if s.mgmt.perst = false then done s s
  else
    let s1 := { s with mgmt := { s.mgmt with flashA := some a, flashB := some b, perst := false, wakePin := false } }
    let s1 := if s.mgmt.wakePin then emit (.wake false) s1 else s1
    if s.mgmt.rails ∧ s.mgmt.railFault = false then done s (bootRom s1) else done s s1

/-- RAIL_FAULT_RESTART (R512): 100 ms after every main rail is within tolerance the device restarts as at PERST#
release, provided PERST# is released. -/
def execRailFaultRestart (s : State) : Host.Outcome State Fault Refusal :=
  if s.mgmt.railFault = false then done s s
  else
    let s1 := { s with mgmt := { s.mgmt with railFault := false } }
    if s.mgmt.perst then done s s1 else done s (bootRom s1)

/-- A hot reset of the device in single-port mode, from its assertion to its release (R470 to R472). -/
def hotReset (s : State) : State := bootRom (deviceReset 3 true s)

/-- HOT_RESET (R381, R470): in dual-port mode a hot reset on one port is a port reset (PORT_LINK_DOWN). -/
def execHotReset (s : State) : Host.Outcome State Fault Refusal :=
  if s.mgmt.perst ∨ s.mgmt.railFault ∨ s.mgmt.rails = false ∨ s.mgmt.dualPort then done s s else done s (hotReset s)

/-- PORT_LINK_DOWN (R381): in dual-port mode the port's functions are reset and the other port's PF hears of it; in
single-port mode the loss of the link is a hot reset. -/
def execPortLinkDown (port : PortId) (s : State) : Host.Outcome State Fault Refusal :=
  if s.present (port.val * 128) = false ∨ s.mgmt.perst ∨ s.mgmt.rails = false then done s s
  else if s.mgmt.dualPort = false then done s (hotReset s)
  else done s (post ((1 - port.val) * 128) 0x1706 (port.val * 128) (portReset port s))

/-- BOOT_IMAGE_VERIFIED (R434, R439): the payload of the copy being read has been read and checked. -/
def execBootImageVerified (copyB : Bool) (s : State) : Host.Outcome State Fault Refusal :=
  match s.mgmt.booting with
  | none => done s s
  | some i =>
    if s.mgmt.bootCopyB ≠ copyB then done s s
    else
      let c := payloadCheck i
      if c = 0 then done s (bootImage i (bit copyB) s)
      else
        let s1 := if copyB then setF F.bootStatusFailB c s else setF F.bootStatusFailA c s
        match s.mgmt.other with
        | some j => done s (readCopy j (!copyB) none s1)
        | none => done s (enterRecovery s1)

/-- Whether the certificate area passes Firefly's checks (R438). -/
def certAreaOk (a : CertArea) : Bool :=
  a.magic == 0x54524543 && a.length % 4 == 0 && decide (64 ≤ a.length) && decide (a.length ≤ 65536)
    && decide (2 ≤ a.count) && decide (a.count ≤ 16) && a.crcOk && a.keysOk

/-- CERT_AREA_READ_DONE (R438): Firefly has read the certificate area, and checks it. -/
def execCertAreaReadDone (area : CertArea) (s : State) : Host.Outcome State Fault Refusal :=
  if s.mgmt.running.isNone then done s s
  else done s (setF F.bootStatusCertsInvalid (bit !certAreaOk area) { s with mgmt := { s.mgmt with certsRead := true } })

/-! ### Reduced service, training (R447 to R449) -/

/-- Coefficients that fail their CRC at the restore are treated as absent (R129). -/
def dropCoefficients (b : Nat) (s : State) : State :=
  let s := if (s.getF (F.feBankStatusStepsValid b)).testBit 4 then
      each (fun c s => setL (F.chCfgDeskew b c) 0 (setF (F.chCfgDeskew b c) 0 s)) (List.range 64) s
    else s
  setF (F.feBankStatusTempAtCal b) 0 (setValid b 0 s)

/-- Banks 0 and 1 sample as reduced service gives it (R132). -/
def slowBank (b : Nat) (s : State) : State := lowL b (modBank b (fun x => { x with slow := true }) s)

/-- REDUCED_SERVICE_DECLARED (R129, R132, R447, R449, R473): Scarab runs, and has restored the coefficients but those of
the banks in `bad`, which fail their CRC; banks 0 and 1 sample in reduced service; the calibration of bring-up begins,
once the sample PLL is locked. -/
def execReducedServiceDeclared (s : State) (bad : BitVec 8 := 0) : Host.Outcome State Fault Refusal :=
  if s.getF F.bootStatusPhase ≠ 4 then done s s
  else
    let s1 := { s with mgmt := { s.mgmt with scarabDown := false, calDue := true } }
    let s1 := each slowBank [0, 1] (each dropCoefficients ((List.range 8).filter bad.getLsbD) s1)
    let left := (List.range 8).any fun b => s1.getF (F.feBankStatusStepsValid b) != 0
    let s1 := setF F.rstStatusCoeffRestored (bit (s1.flag F.rstStatusCoeffRestored && left)) s1
    done s (bringUp (setF F.bootStatusPhase 5 (setF F.mgmtStatusRunning 1 s1)))

/-- HBM_TRAINING_DONE (R448): a stack is trained; or it has failed, which leaves fewer than 42 pseudo-channels, so that
Scarab cannot retire its pseudo-channels (R311): SEC_STATE HALTED, FAULT#. TRAIN_ATTEMPTS counts the attempts; how long a
training took is a free value (R535, R536). -/
def execHbmTrainingDone (stack : Fin 2) (ok : Bool) (attempts : Nat) (s : State) : Host.Outcome State Fault Refusal :=
  if s.getF F.bootStatusPhase ≠ 5 then done s s
  else
    let s1 := setF (F.hbmStackStatusTrainAttempts stack) (min 255 (s.getF (F.hbmStackStatusTrainAttempts stack) + attempts)) s
    if ok then
      let l := s.mgmt.trained
      let s1 := each (fun q s => pcTrained stack q (s.freeN % 65536) s) (List.range 32) s1
      done s { s1 with mgmt := { s1.mgmt with trained := if l.contains stack.val then l else stack.val :: l } }
    else done s (setCause 4 (setF F.secStatusSecState 3 (logFault 0x12 stack attempts s1)))

/-! ### Eclosion (R306, R448 to R450, R472) -/

/-- Whether a bank's part of bring-up is complete: steps 0 to 3 of its calibration are valid, calibrated or restored. -/
def State.bankReady (s : State) (b : Nat) : Bool :=
  !s.flag (F.feBankStatusCalRunning b) && s.getF (F.feBankStatusStepsValid b) % 16 == 15

/-- The conditions of eclosion (R448). -/
def State.mayEclose (s : State) : Bool :=
  s.getF F.bootStatusPhase == 5 && s.getF F.secStatusSecState != 3 && !s.mgmt.scarabDown && !s.mgmt.eclosing
    && s.mgmt.trained.contains 0 && s.mgmt.trained.contains 1 && !s.mgmt.calDue && s.coveredBanks.all s.bankReady

/-- The ring of a partition armed in reduced service moves to HBM: the staged ring fields take effect, the ring is taken
as at ARM, the staging pages are copied in stream order (R306, R450 step 2). -/
def moveRing (p : Nat) (s : State) : State :=
  if (s.part p).armed = false then s
  else
    let s := applyReg .arm (.memPartRing p) s
    let s := limitActs (fun t => decide (t.getL (F.memPartRingRingMin p) ≤ t.ringFor p)) (s.limitSteps p) p s
    let n := s.ringFor p
    modPart p (fun x =>
      { x with ringNow := n, unheld := x.unheld.drop (x.unheld.length - n) }.trim) s

/-- A partition rebuilt after the reset becomes visible: IDLE with ORPHAN set (R241, R472). Banks that another partition
has taken since stay with that partition. -/
def showOrphan (e : Nat × Word × Word) (s : State) : State :=
  let p := e.1
  let free := (List.range 8).filter fun b => e.2.1.getLsbD b && (s.partOf b).isNone
  let s := wr (.partEpoch p) e.2.2 (wr (.partOwner p) e.2.1 s)
  let s := setF (F.partOwnerBanks p) ((free.map fun b => 2 ^ b).sum) (setF (F.partOwnerExists p) 1 s)
  setF (F.partStatusOrphan p) 1 (modPart p (fun x => { x with orphanAt := s.elapsed + 1 }) s)

/-- Milliseconds since PERST# release (R455, R458). -/
def State.sinceRelease (s : State) : Nat := (s.elapsed - s.mgmt.releasedAt) / ticksPerMs

/-- Steps 2 to 5 of R450: rings move to HBM, IDENT_CAP shows full service, orphans become visible, ECLOSION. -/
def eclose (s : State) : State :=
  let ps := (List.range 8).filter s.inStaging
  let s := { s with mgmt := { s.mgmt with eclosed := true, eclosing := false } }
  let s := each moveRing ps (setF F.memStatusTrained 1 s)
  let s := setF (F.identCapFullService 0) 1 (setF (F.identCapCaptureMem 0) 1 (setF (F.identCapAllBanks 0) 1 s))
  let s := loadCtr 0x9007 (s.elapsed - s.mgmt.releasedAt) (setF F.bootStatusPhase 6 (setF F.pwrModeMode 0 s))
  let os := s.mgmt.orphans
  let s := each showOrphan os { s with mgmt := { s.mgmt with orphans := [] } }
  let s := if s.flag F.rstStatusHbmKept then
      event F.pwrEventsRecovered 0x1A03 os.length (setF F.rstStatusOrphans os.length s)
    else s
  let ms := s.sinceRelease
  let s := setF F.secEventsEclosion 1 s
  let s := postAll ((List.range 256).filter s.enabledFn) 0x1900 (min 65535 ms * 2 ^ 16) s
  settleAll (notifyAll { type := 1, payload := leBytes 4 ms ++ leBytes 4 (s.getF F.fwVersionVersion) } s)

/-- Step 1 of R450 for a partition in the staging store: it stops storing at the next block boundary; while thermal step
STOP holds, this waits until storing would resume (R457). -/
def stopForEclosion (p : Nat) (s : State) : State :=
  if (s.getF F.thermStatusSteps).testBit 2 then s
  else if (s.part p).blockAt = s.now ∧ s.noCore = false then stopStoring p 7 0 s.now s
  else stopAtBlock p 7 0 s

/-- ECLOSION (R448, R450): Scarab declares full service at `t`. A partition that stores in reduced service stops first,
and eclosion ends when it resumes; without one it ends at once. -/
def execEclosion (t : Label) (s : State) : Host.Outcome State Fault Refusal :=
  let s1 := advanceTo t s
  if s1.mayEclose = false then done s s1
  else
    let ps := s1.begunParts.filter s1.inStaging
    if ps = [] then done s (eclose s1)
    else
      let s1 := each (fun p => blocksTo p t) ps { s1 with mgmt := { s1.mgmt with eclosing := true } }
      done s (each stopForEclosion ps s1)

/-- Whether a partition waits in the interruption of eclosion. -/
def State.inEclosion (s : State) (p : Nat) : Bool := (s.part p).gaps.any fun g => g.reason == 7

/-- CAPTURE_RESUME (R59, R301, R450, R453): at block boundary `t` storing resumes when no cause of the interruption lasts.
While eclosion is under way, a partition still in the staging store resumes in HBM. -/
def execCaptureResume (p : PartId) (t : Label) (s : State) : Host.Outcome State Fault Refusal :=
  let s1 := blocksTo p t (advanceTo t s)
  if (s1.part p).begun.isNone ∨ (s1.part p).gaps = [] ∨ s1.onBlock p t = false ∨ s1.heldBack p = true then done s s1
  else if s1.mgmt.eclosing && s1.inStaging p then
    if s1.inEclosion p then
      let s2 := eclose s1
      if (s2.part p).begun.isSome ∧ s2.heldBack p = false then done s (resumePart p t s2) else done s s2
    else done s (stopStoring p 7 0 t s1)
  else done s (resumePart p t s1)

/-! ### The domains of the banks under the thermal step GATE (R453, R465) -/

/-- GATE rises: a bank's domain goes off, whatever pins it (R453, R465). -/
def gateDomain (d : Nat) (s : State) : State :=
  if s.thermallyOff d = false ∨ s.domainOff d = true then s
  else
    let s := if 10 ≤ d then abortCal (d - 10) 5 s else s
    let s := setF (F.pwrStatThermalOff d) 1 (powerOff d s)
    if s.pinned d then event F.pwrEventsPinOverridden 0x1A00 d s else s

/-- GATE has cleared: domains that are wanted power on again. -/
def ungateDomain (d : Nat) (s : State) : State :=
  if s.flag (F.pwrStatThermalOff d) = false then s
  else
    let s := setF (F.pwrStatThermalOff d) 0 s
    if s.pinned d ∨ s.forbidden d ∨ s.offCondition d = false then powerOn d s else s

/-- The domains of the banks, PD10 to PD17 first. -/
def bankDomains : List Nat := (List.range 8).map (10 + ·) ++ (List.range 8).map (2 + ·)

/-- The domains of the banks follow the GATE step and its override; Scarab acts it, and while it is down they stay as they
are (R36, R451, R453). -/
def followGate (s : State) : State :=
  if s.mgmt.scarabDown then s
  else each (fun d s => if s.thermallyOff d then gateDomain d s else ungateDomain d s) bankDomains s

/-! ### Restarts of the cores (R419, R451, R452, R482) -/

/-- The number that stands for a cause (R455, R492). -/
def CoreFault.code : CoreFault → Nat
  | .watchdog => 0
  | .lockStep => 1
  | .memory => 2

/-- SCARAB_WATCHDOG_EXPIRY (R419, R451, R452): Scarab goes down; a fourth restart within 60 s holds it in reset. -/
def execScarabWatchdogExpiry (cause : CoreFault) (s : State) : Host.Outcome State Fault Refusal :=
  if s.mgmt.scarabDown then done s s
  else
    let times := s.mgmt.restartTimes.filter fun t => decide (s.elapsed < t + 60 * ticksPerSecond)
    let halt := decide (3 ≤ times.length)
    let s1 := { s with mgmt := { s.mgmt with
      scarabDown := true, restartTimes := s.elapsed :: times,
      restartCause := if halt then none else some (CoreFault.code cause) } }
    let s1 := losePosts false (logFault 0x0D 0 (CoreFault.code cause) (setF F.mgmtStatusRunning 0 s1))
    if halt then
      let s1 := event F.secEventsHalted 0x1902 0 (setF F.mgmtStatusHalted 1 s1)
      done s (setCause 3 (logFault 0x0E 0 0 s1))
    else done s s1

/-- A command that waited for Scarab is carried out (R332, R451). -/
def runWaiting (i : Instr) (s : State) : State :=
  let r := match i with
    | .calibrate c banks steps ext timeout => execCalibrate c banks steps ext timeout s
    | .powerPinRelease c d => execPowerPinRelease c d s
    | .powerPinOn c d => execPowerPinOn c d s
    | .powerForbidOff c d => execPowerForbidOff c d s
    | _ => done s s
  match r with
  | .next t => t
  | _ => s

/-- A calibration of bring-up that ran starts again (R451). -/
def restartBringUp (s : State) : State :=
  if s.getF F.bootStatusPhase = 5 then
    each (fun b s => if s.flag (F.feBankStatusCalRunning b) then startCal b (s.bringUpSteps b) s else s) s.coveredBanks s
  else s

/-- A restart of Scarab holds PREF: the AUTO evaluation starts again at the next frame (R282). -/
def restartEval (b : Nat) (s : State) : State :=
  modBank b (fun x => { x with holdCount := 0, holdWords := 0, holdBlocks := 0, prefDue := none, evalOff := true }) s

/-- SCARAB_RESTARTED (R282, R419 step 3, R451): Scarab runs again. -/
def execScarabRestarted (s : State) : Host.Outcome State Fault Refusal :=
  match s.mgmt.restartCause with
  | none => done s s
  | some c =>
    let s1 := { s with mgmt := { s.mgmt with scarabDown := false, restartCause := none }, waiting := [] }
    let s1 := each restartEval (List.range 8) s1
    let n := min 65535 (s.getF F.mgmtStatusRestarts + 1)
    let s1 := bump 0x9000 1 (setF F.mgmtStatusRestarts n (setF F.mgmtStatusRunning 1 s1))
    let s1 := targetUp false (event F.secEventsRestart 0x1901 (c + n * 2 ^ 16) s1)
    let s1 := followGate (notifyAll { type := 3, payload := leBytes 2 n ++ leBytes 1 c } s1)
    done s (each readBlock (List.range 16) (each runWaiting s.waiting (restartBringUp s1)))

/-- FIREFLY_RESTART (R419, R482): a warm restart of the boot ROM, after which Firefly's channels accept posts again. -/
def execFireflyRestart (cause : CoreFault) (s : State) : Host.Outcome State Fault Refusal :=
  if s.mgmt.fireflyDown then done s s
  else done s (targetUp true (losePosts true (logFault 0x0F 0 (CoreFault.code cause) s)))

/-! ### Telemetry (R118, R454) -/

/-- The die temperature: the highest of sensors 0 to 11, in 0.125 °C (R453). -/
def State.dieTemp (s : State) : Int :=
  ((List.range 12).map fun k => signed 16 (s.getF (F.telTempTemp k))).foldl max (-32768)

/-- The temperature of a bank's tile in 0.125 °C: the higher of its two sensors (R454). -/
def State.tileTemp (s : State) (b : Nat) : Int :=
  let k := if b < 4 then 0 else 2
  max (signed 16 (s.getF (F.telTempTemp k))) (signed 16 (s.getF (F.telTempTemp (k + 1))))

/-- TEMP_DRIFT of a bank follows its tile temperature (R118). -/
def tempDrift (b : Nat) (s : State) : State :=
  if (s.getF (F.feBankStatusStepsValid b)).testBit 2 = false then s
  else
    let out := decide (80 < (s.tileTemp b - 8 * signed 8 (s.getF (F.feBankStatusTempAtCal b))).natAbs)
    let was := s.flag (F.feBankStatusTempDrift b)
    let s := setF (F.feBankStatusTempDrift b) (bit out) s
    if out && !was then feEvent b 0x1007 b (F.feBankEventsTempDrift b) s else s

/-- TELEMETRY_SAMPLE (R454): sensors in 0.125 °C, rails in mV; with PD30 off the ADC samples nothing. -/
def execTelemetrySample (temps : List Int) (volts : List Nat) (s : State) : Host.Outcome State Fault Refusal :=
  if s.domainOff 30 then done s s
  else
    let s1 := each (fun (e : Int × Nat) => setF (F.telTempTemp e.2) (twos 16 e.1)) ((temps.take 13).zipIdx) s
    let s1 := each (fun (e : Nat × Nat) => setF (F.telVoltMv e.2) e.1) ((volts.take 8).zipIdx) s1
    done s (each tempDrift (List.range 8) (setF F.thermStatusDieTemp (twos 16 s1.dieTemp) s1))

/-! ### Thermal steps (R453, R455) -/

/-- The die temperature as THERM_STATUS shows it, in 0.125 °C. -/
def State.shownTemp (s : State) : Int := signed 16 (s.getF F.thermStatusDieTemp)

/-- A thermal step changes: STEPS, THERM_STEP, the notice, the count of rises. -/
def thermReport (k : Nat) (rise : Bool) (s : State) : State :=
  let steps := s.getF F.thermStatusSteps
  let s := setF F.thermStatusSteps (if rise then steps + 2 ^ k else steps - 2 ^ k) s
  let s := if rise then bump (0x9001 + k) 1 s else s
  let s := event F.secEventsTherm 0x1903 (k + bit rise * 2 ^ 8 + twos 16 (s.shownTemp / 8) * 2 ^ 16) s
  if k = 3 then s
  else notifyAll { type := 2, payload := leBytes 1 k ++ leBytes 1 (bit rise) ++ leBytes 2 (s.getF F.thermStatusDieTemp) } s

/-- Whether a step rises or clears at the present die temperature (°C). -/
def State.thermMove (s : State) (k : Nat) (rises clears : Int) : Option Bool :=
  let on := (s.getF F.thermStatusSteps).testBit k
  if on = false ∧ rises * 8 ≤ s.shownTemp then some true
  else if on = true ∧ s.shownTemp < clears * 8 then some false
  else none

/-- THERM_GATE (R453): the step of 100 °C follows the die temperature; Scarab acts it. -/
def execThermGate (s : State) : Host.Outcome State Fault Refusal :=
  match (s.thermMove 0 100 95).filter fun _ => !s.mgmt.scarabDown with
  | none => done s s
  | some true => done s (followGate (bringUpAgain (thermReport 0 true s)))
  | some false => done s (bringUp (followGate (thermReport 0 false s)))

/-- A write of THERM_CTRL (R453): GATE_OVERRIDE acts on a GATE step that holds. -/
def thermCtrlWrite (s : State) : State := bringUp (followGate s)

/-- THERM_WARN (R453): the step of 110 °C; early shipping stops while it holds; Scarab acts it. -/
def execThermWarn (s : State) : Host.Outcome State Fault Refusal :=
  match (s.thermMove 1 110 105).filter fun _ => !s.mgmt.scarabDown with
  | none => done s s
  | some b => done s (thermReport 1 b s)

/-- The sensor that shows the die temperature. -/
def State.hotSensor (s : State) : Nat :=
  ((List.range 12).find? fun k => decide (signed 16 (s.getF (F.telTempTemp k)) = s.shownTemp)).getD 0

/-- THERM_STOP (R135, R453): at 118 °C every armed partition stops storing at its next block boundary and calibrations
abort; below 113 °C storing may resume. -/
def execThermStop (s : State) : Host.Outcome State Fault Refusal :=
  match s.thermMove 2 118 113 with
  | none => done s s
  | some true =>
    let deg := twos 8 (s.shownTemp / 8)
    let s1 := abortAllCal 5 (bringUpAgain (startInterval 0x9005 (thermReport 2 true s)))
    let s1 := each (fun p => stopAtBlock p 5 deg) s1.begunParts s1
    done s (logFault 0x11 s.hotSensor deg s1)
  | some false => done s (bringUp (stopInterval 0x9005 (thermReport 2 false s)))

/-- THERM_TRIP (R453): at 125 °C THTRIP# is asserted and every domain but PD1 goes off. -/
def execThermTrip (s : State) : Host.Outcome State Fault Refusal :=
  match s.thermMove 3 125 (-32768) with
  | some true =>
    let s1 := emit .thtrip (thermReport 3 true s)
    done s (powerLost { s1 with mgmt := { s1.mgmt with tripped := true } })
  | _ => done s s

end Sys2Proof.Machine
end

