-- ==== Sys2Proof/Machine/Security.lean ====
section
/-! DEFINITION. Machine/Security.lean: the messages to Firefly and Scarab, attestation over DOE, and the image transfer in
recovery (R438 to R446, R455, R456, R459). -/

namespace Sys2Proof.Machine

/-! ### Messages to Firefly (R441) -/

/-- The code of the first check of R439 that an image fails; `host` leaves out checks 0x1 and 0x8 (R442). -/
def State.imageCheck (s : State) (host : Bool) (i : ImageCopy) : Nat :=
  let h := if host then s.signedCheck i else s.headerCheck i
  if h ≠ 0 then h else if host then digestCheck i else payloadCheck i

/-- The status of FW_UPDATE for a code of R439. -/
def imageStatus (c : Nat) : Nat :=
  if c = 0 then stOk else if c = 4 then stRollback else if c = 5 ∨ c = 6 then stSignatureFail else stInvalidField

/-- An image has passed and is written to the copy that did not boot (copy B when the host's image runs). -/
def stageImage (i : ImageCopy) (s : State) : State :=
  let copyB := s.getF F.secStatusSource != 1
  let s := { s with mgmt := if copyB then { s.mgmt with flashB := some i } else { s.mgmt with flashA := some i } }
  let s := postPfs 0x1904 (bit copyB) s
  notifyAll { type := 4, payload := leBytes 4 (bit copyB) ++ leBytes 4 i.version.toNat } s

/-- FW_UPDATE (R441): the image is checked by R439 and staged. -/
def execFwUpdate (f : FnId) (ch : MbxId) (img : ImageCopy) (s : State) : Host.Outcome State Fault Refusal :=
  done s (answerMsg f ch 0x100 (fun s =>
    let c := s.imageCheck false img
    if isPf f = false then (s, stNotOwner, [])
    else if c = 0 then (stageImage img s, stOk, [])
    else (s, imageStatus c, [])) s)

/-- Fuses blow up to the running image's SECURITY_EPOCH. -/
def advanceEpoch (s : State) : State :=
  let e := min 256 ((s.mgmt.running.map ImageCopy.epoch).getD 0)
  if s.mgmt.fusedEpoch < e then
    event F.secEventsEpoch 0x1905 (e * 2 ^ 16) (showStraps { s with mgmt := { s.mgmt with fusedEpoch := e } })
  else s

/-- EPOCH_ADVANCE (R441). -/
def execEpochAdvance (f : FnId) (ch : MbxId) (s : State) : Host.Outcome State Fault Refusal :=
  done s (answerMsg f ch 0x101 (fun s => if isPf f then (advanceEpoch s, stOk, []) else (s, stNotOwner, [])) s)

/-- KEY_REVOKE (R440, R441): not for the slot that booted the running image. -/
def execKeyRevoke (f : FnId) (ch : MbxId) (slot : Byte) (s : State) : Host.Outcome State Fault Refusal :=
  done s (answerMsg f ch 0x102 (fun s =>
    if isPf f = false then (s, stNotOwner, [])
    else if 4 ≤ slot.toNat ∨ slot.toNat = s.getF F.secStatusKeySlot then (s, stInvalidField, [])
    else
      let m := { s.mgmt with revoked := s.mgmt.revoked ||| BitVec.ofNat 4 (2 ^ slot.toNat) }
      (showStraps { s with mgmt := m }, stOk, [])) s)

/-- SEC_INFO (R441). -/
def execSecInfo (f : FnId) (ch : MbxId) (s : State) : Host.Outcome State Fault Refusal :=
  done s (answerMsg f ch 0x103 (fun s => (s, stOk, replyBlock 0x103
    [s.mgmt.fusedEpoch, s.mgmt.revoked.toNat, s.getF F.secStatusSource, s.getF F.fwVersionVersion])) s)

/-! ### Messages to Scarab (R456) -/

/-- GET_INFO (R456). -/
def execGetInfo (f : FnId) (ch : MbxId) (s : State) : Host.Outcome State Fault Refusal :=
  done s (answerMsg f ch 1 (fun s => (s, stOk, replyBlock 1
    [s.getF F.fwVersionVersion, (s.rd .bootStatus).toNat, s.getF F.mgmtStatusRestarts, s.sinceRelease])) s)

/-- TELEMETRY_READ (R456): every TEL register, temperatures first. -/
def execTelemetryRead (f : FnId) (ch : MbxId) (s : State) : Host.Outcome State Fault Refusal :=
  done s (answerMsg f ch 2 (fun s => (s, stOk, replyBlock 2
    ((List.range 13).map (fun k => (s.rd (.telTemp k)).toNat) ++ (List.range 8).map fun r => (s.rd (.telVolt r)).toNat))) s)

/-! ### Attestation over DOE (R438, R444 to R446) -/

/-- An SPDM response of a port. -/
def spdm (port : Nat) (code : Nat) (data : List Byte) (s : State) : State := emit (.doe port (BitVec.ofNat 8 code) data) s

/-- An SPDM ERROR response. -/
def spdmError (port code : Nat) (s : State) : State := spdm port 0x7F [BitVec.ofNat 8 code] s

/-- Whether slot 0 is populated: the certificate area has passed its checks, and an image has booted (R438, R445). -/
def State.certsOk (s : State) : Bool := !s.flag F.bootStatusCertsInvalid && !s.recovery

/-- An SPDM request arrives on a port (R443, R444): it is counted; Firefly is on; until the certificate area is read the
answer is ERROR with Busy; `g` answers otherwise. -/
def spdmRequest (port : PortId) (g : State → State) (s : State) : Host.Outcome State Fault Refusal :=
  if s.present (port.val * 128) = false ∨ s.cfgAnswers = false then done s s
  else
    let s1 := bump 0x9006 1 (powerOn 27 (wake 27 s))
    if s.recovery = false ∧ s.mgmt.certsRead = false then done s (spdmError port 0x03 s1) else done s (g s1)

/-- GET_VERSION (R444): SPDM 1.3. -/
def execGetVersion (port : PortId) (s : State) : Host.Outcome State Fault Refusal :=
  spdmRequest port (spdm port 0x04 [0x13#8]) s

/-- GET_CAPABILITIES (R444): CERT_CAP, CHAL_CAP and MEAS_CAP with signatures. -/
def execGetCapabilities (port : PortId) (s : State) : Host.Outcome State Fault Refusal :=
  spdmRequest port (spdm port 0x61 (leBytes 4 0x16)) s

/-- NEGOTIATE_ALGORITHMS (R444): Ed25519, SHA-384 as base and measurement hash. -/
def execNegotiateAlgorithms (port : PortId) (offersEd25519 offersSha384 : Bool) (s : State) :
    Host.Outcome State Fault Refusal :=
  spdmRequest port (fun s =>
    if offersEd25519 && offersSha384 then spdm port 0x63 (leBytes 4 4 ++ leBytes 4 0x400 ++ leBytes 4 2) s
    else spdmError port 0x01 s) s

/-- The certificate chain of slot 0 (R445). -/
def State.chain (s : State) : List Byte := Config.certChain (s.rd .fwVersion)

/-- GET_DIGESTS (R438, R444): the digest of slot 0, unless it is unpopulated. -/
def execGetDigests (port : PortId) (s : State) : Host.Outcome State Fault Refusal :=
  spdmRequest port (fun s =>
    if s.certsOk then spdm port 0x01 (1#8 :: Config.sha384 s.chain) s else spdm port 0x01 [0#8] s) s

/-- GET_CERTIFICATE (R438, R445): a part of slot 0's chain, its length and what remains after it. -/
def execGetCertificate (port : PortId) (slot : Fin 8) (offset length : Nat) (s : State) :
    Host.Outcome State Fault Refusal :=
  spdmRequest port (fun s =>
    let rest := s.chain.drop offset
    let part := rest.take length
    if s.certsOk = false then spdmError port 0x05 s
    else if slot.val ≠ 0 ∨ rest = [] then spdmError port 0x01 s
    else spdm port 0x02 (leBytes 2 part.length ++ leBytes 2 (rest.length - part.length) ++ part) s) s

/-- CHALLENGE (R438, R444, R445): signed with the Ed25519 alias key. -/
def execChallenge (port : PortId) (slot : Fin 8) (nonce : List Byte) (s : State) : Host.Outcome State Fault Refusal :=
  spdmRequest port (fun s =>
    if s.certsOk = false then spdmError port 0x05 s
    else if slot.val ≠ 0 then spdmError port 0x01 s
    else
      let body := Config.sha384 s.chain
      spdm port 0x03 (body ++ Config.edSign (nonce ++ body)) s) s

/-- A measurement block: its index, its length, its content (R446). -/
def block (i : Nat) (bs : List Byte) : List Byte := leBytes 1 i ++ leBytes 2 bs.length ++ bs

/-- The measurement blocks but 0xF0, by index (R438, R446). -/
def State.blocks (s : State) : List (Nat × List Byte) :=
  let v := s.rd .fwVersion
  let fuse := leBytes 2 s.mgmt.fusedEpoch ++ leBytes 1 s.mgmt.revoked.toNat ++ leBytes 1 (s.getF F.secStatusKeySlot)
    ++ [Config.variant]
  [(1, Config.measurement 1 v)] ++
  (if s.mgmt.running.isSome then [(2, Config.measurement 2 v), (3, Config.measurement 3 v)] else []) ++
  [(4, fuse), (5, leBytes 4 (s.rd .secStatus).toNat ++ leBytes 4 v.toNat)] ++
  (if s.certsOk then [(0xF1, Config.mldsaChain v)] else [])

/-- The bytes of measurement blocks, in index order. -/
def blockBytes (l : List (Nat × List Byte)) : List Byte := l.flatMap fun e => block e.1 e.2

/-- GET_MEASUREMENTS (R438, R446): one block, or all of them for index 0xFF, with block 0xF0 when they are signed; index
0 asks for their number. -/
def execGetMeasurements (port : PortId) (index : Fin 256) (signed : Bool) (nonce : List Byte) (s : State) :
    Host.Outcome State Fault Refusal :=
  spdmRequest port (fun s =>
    let all := s.blocks
    let one := all.filter fun e => e.1 == index.val
    if signed && !s.certsOk then spdmError port 0x05 s
    else if index.val ≠ 0 ∧ index.val ≠ 0xFF ∧ one = [] then spdmError port 0x01 s
    else
      let plain := if index.val = 0 then leBytes 1 all.length
        else if index.val = 0xFF then
          let co := block 0xF0 (Config.mldsaSign (Config.sha384 (nonce ++ blockBytes all)))
          let lo := blockBytes (all.filter fun e => decide (e.1 < 0xF0))
          let hi := blockBytes (all.filter fun e => decide (0xF0 < e.1))
          if signed then lo ++ co ++ hi else blockBytes all
        else blockBytes one
      spdm port 0x60 (plain ++ if signed then Config.edSign (nonce ++ plain) else []) s) s

/-- SPDM_UNSUPPORTED_REQUEST (R444): ERROR with UnsupportedRequest. -/
def execSpdmUnsupportedRequest (port : PortId) (code : Byte) (s : State) : Host.Outcome State Fault Refusal :=
  spdmRequest port (spdm port 0x7F [0x07#8, code]) s

/-! ### Recovery (R442) -/

/-- RECOVERY_IMAGE_OBJECT (R442): image bytes arrive as a DOE object. -/
def execRecoveryImageObject (offset : Nat) (data : List Byte) (s : State) : Host.Outcome State Fault Refusal :=
  if s.recovery = true ∧ data.length ≤ 65536 then
    done s { s with mgmt := { s.mgmt with received := s.mgmt.received ++ [(offset, data)] } }
  else done s s

/-- RECOVERY_IMAGE_END (R442): the received image is checked without checks 0x1 and 0x8, and boots when it passes. -/
def execRecoveryImageEnd (img : ImageCopy) (s : State) : Host.Outcome State Fault Refusal :=
  if s.recovery = false then done s s
  else
    let c := s.imageCheck true img
    let s1 := setF F.bootStatusFailHost c s
    if c = 0 then done s (bootImage img 2 s1)
    else done s { s1 with mgmt := { s1.mgmt with received := [] } }

end Sys2Proof.Machine
end

