-- ==== Sys2Proof/Machine/Access.lean ====
section
/-! DEFINITION. Machine/Access.lean: accesses to BAR0 and BAR2: what a read returns, what a write of each register does,
refused writes, slow access, the snapshot window, the voters (R7, R8, R44, R47, R52, R99, R165, R198, R293, R316, R364,
R390 to R406, R421, R426 to R432, R465, R539, R540). -/

namespace Sys2Proof.Machine

/-! ### What a 32-bit read returns (R364, R397, R398, R417, R442, R539) -/

/-- Whether an access of a VF to its partition window reads the partition: it owns it or subscribes to it (R539). -/
def State.seesPart (s : State) (f p : Nat) : Bool := s.owns f p || (s.part p).subs.any fun id => id / 8 == f

/-- What the primary offset of a register returns to a function. -/
def State.viewFor (s : State) (f : Nat) (r : Reg) : Word :=
  match r with
  | .evqPopLo _ => ((s.fn f).evq.headD 0).setWidth 32
  | .epErrPopLo _ => ((s.fn f).err.headD 0).setWidth 32
  | .fltPopLo _ => ((spGet [] f s.fltLog).headD (0, 0)).1.setWidth 32
  | _ =>
    let o := r.off
    if isPf f = false ∧ 0x40000 ≤ o ∧ o < 0x42000 ∧ s.seesPart f ((o - 0x40000) / 0x400) = false then 0 else s.view r

/-- What the live mirror returns for a register: the live value of a staged field, no pop (R397). -/
def State.liveView (s : State) (f : Nat) (r : Reg) : Word :=
  match r with
  | .evqPopLo _ | .evqPopHi _ | .epErrPopLo _ | .epErrPopHi _ | .fltPopLo _ | .fltPopHi _ => 0
  | _ =>
    let m := fieldMask (fun x => [Apply.frame, .segment, .second, .arm].contains x.apply) r.fields
    (s.viewFor f r &&& ~~~m) ||| (s.rdLive r &&& m)

/-- Whether a read in recovery is answered: identity and security blocks only (R442). -/
def recoveryReads (off : Nat) : Bool := decide (off < 0x1000) || (decide (0x78000 ≤ off) && decide (off < 0x79000))

/-- What aborts a read of a register: recovery, a domain that is off, a mailbox channel that is down (R398, R417,
R442). -/
def State.readAborts (s : State) (off : Nat) (r : Reg) : Bool :=
  (s.recovery && !recoveryReads off) || (match r.powerDomain with | some d => s.domainOff d | none => false)
    || (match r with | .mbxDoorbell _ c => s.chanDown c | .mbxChan c => s.chanDown c | _ => false)

/-- A read of a BAR0 register that has an effect: `g` acts where the read is executed (R364, R398, R442). -/
def hostRead (f off : Nat) (g : State → State) (s : State) : State :=
  if s.barOpen f = false ∨ (barReg f off).isNone then urRead f false off s
  else if s.recovery then emit (.completerAbort f) s
  else match ((barReg f off).bind Reg.powerDomain).filter s.domainOff with
    | some d => emit (.completerAbort f) (domainDown f d off false s)
    | none => g s

/-! ### Refused writes -/

/-- PART_CFG_REFUSED and the like of a detector: to its partition's owner where it has a partition (R170). -/
def postDet (n code payload : Nat) (s : State) : State :=
  if n < 128 then postBank (n / 16) code payload s
  else if s.flagL (F.gpCfgAssigned (n - 128)) then postPart (s.getL (F.gpCfgPartition (n - 128))) code payload s
  else postPfs code payload s

/-- A refused write of a register: the status bit and the event of its block (R44, R102, R136, R165, R198, R243, R283,
R308, R316, R385, R429, R475, R499). -/
def refused (f : Nat) (r : Reg) (s : State) : State :=
  let o := r.off
  if o < 0x4000 then cfgRefused f o s
  else if o < 0x4800 then post f 0x1709 f (setF (F.epEventsCfgRefused f) 1 s)
  else if o < 0x5000 then
    postPfs 0x1B04 (o % 2 ^ 16 * 2 ^ 16) (each (fun g => setF (F.fltStatusCfgRefused g) 1) s.pfs s)
  else if o < 0x9000 then eventOpen F.timeEventsCfgRefused 0x080F s
  else if o < 0x10000 then eventOpen F.csEventsCfgRefused 0x0908 s
  else if o < 0x20000 then
    let b := (o - 0x10000) / 0x2000
    feEvent b 0x100A b (F.feBankEventsCfgRefused b) s
  else if o < 0x28000 then
    let n := (o - 0x20000) / 0x100
    postDet n 0x1102 n (setF (F.detStatusCfgRefused n) 1 s)
  else if o < 0x2C000 then
    let g := (o - 0x28000) / 0x100
    postDet (128 + g) 0x1102 (128 + g) (setF (F.gpStatusCfgRefused g) 1 s)
  else if o < 0x30000 then postPart 0 0x1201 0 (setF (F.seqEventsCfgRefused 0) 1 s)
  else if o < 0x40000 then
    let p := (o - 0x30000) / 0x2000
    let k := o % 0x2000
    let place := if 0x1000 ≤ k then (k - 0x1000) / 0x100 * 2 ^ 8 + k / 0x40 % 4 * 2 ^ 12 else 0
    postPart p 0x1201 (p + place) (setF (F.seqEventsCfgRefused p) 1 s)
  else if o < 0x44000 then
    let p := (o - 0x40000) / 0x400
    postPart p 0x1308 p (setF (F.partEventsCfgRefused p) 1 s)
  else if o < 0x50000 then
    let b := (o - 0x44000) / 0x20
    oncePerFrame (rateKey 0x1402 b) (postBank b 0x1402 b) (setF (F.encEventsCfgRefused b) 1 s)
  else if 0x50100 ≤ o ∧ o < 0x50200 then event F.memEventsCfgRefused 0x1508 ((o - 0x50100) / 0x20) s
  else if o < 0x60000 then eventOpen F.memEventsCfgRefused 0x1508 s
  else if o < 0x70000 then ringRefused f ((o - 0x60000) / 0x40) s
  else powerRefused o s

/-! ### Accepted writes -/

/-- A write that is accepted: keep bits, W1C bits, then the RW fields (R7, R8). -/
def plainWrite (r : Reg) (v : Word) (s : State) : State :=
  let s := keepWrite r v s
  let s := wr r (s.rd r &&& ~~~(v &&& fieldMask (fun x => x.access == .w1c) r.fields)) s
  stage r v s

/-- CLKOUT's frequency is 12.8 GHz / (DIV × POSTDIV), DIV 0 standing for 256 and POSTDIV for its value + 1 (R44, R75). -/
def clkoutOk (w : Word) : Bool :=
  let div := if bitsOf w.toNat 8 8 = 0 then 256 else bitsOf w.toNat 8 8
  let k := div * (bitsOf w.toNat 16 3 + 1)
  decide (16 ≤ k) && decide (k ≤ 1280)

/-- Whether a write of a register breaks a range, or a rule of state (R44, R47, R52, R99, R198, R293, R316, R411, R421,
R429, R465). -/
def State.writeRefused (s : State) (r : Reg) (v : Word) : Bool :=
  let old := s.rd r
  let new := s.merged r v
  !r.rangeOk v || match r with
  | .csOutCtrl n => (n == 4 && !clkoutOk new) || (decide (n ≤ 3) && s.captureHeld && new.getLsbD 0 != old.getLsbD 0)
  | .csOutDelay n => decide (n ≤ 3) && s.captureHeld && new != old
  | .csSyncoutCtrl => decide (s.getF F.csSyncoutPeriodSoPeriod ≤ bitsOf v.toNat 8 8)
  | .csSyncoutPeriod => decide (v.toNat ≤ s.getF F.csSyncoutCtrlSoWidth)
  | .timeDevid => !s.mgmt.devidSrc && s.captureHeld && new != old
  | .triginCfg | .triginDeskew _ => s.captureHeld
  | .memPartLimits p => !(wr r new s).limitsOk p
  | .rcSqBaseLo f n | .rcSqBaseHi f n | .rcCqBaseLo f n | .rcCqBaseHi f n | .rcProgLo f n | .rcProgHi f n => s.pairEn f n
  | .mbxHostBaseLo f | .mbxHostBaseHi f => s.flag (F.mbxHostCfgEn f) && new != old
  | .mbxChan c => new.getLsbD 31 != old.getLsbD 31 && ((s.chan c).untaken.isSome || (s.chan c).taken.isSome)
  | .slowAddr _ => !slowWindow (bitsOf v.toNat 2 18 * 4)
  | .pwrCtl d => d == 1 || ((v.getLsbD 0 || v.getLsbD 1) && s.pinRefused d)
  | _ => false

/-- A write of CS_CTRL (R44, R55, R58, R60): its fields apply, then RELOCK acts. -/
def csCtrlWrite (v : Word) (s : State) : State :=
  let source := bitsOf v.toNat 4 2
  let s := keepWrite .csCtrl v s
  let s := if source = s.getF F.csCtrlLockSource then s else modClk (fun c => { c with analogUsed := false }) s
  let s := setF F.csCtrlTrimRelock (bitsOf v.toNat 6 1) (setF F.csCtrlLockSource source s)
  let s := (refSelWrite (bitsOf v.toNat 0 2) (bitsOf v.toNat 2 2) s).1
  if v.getLsbD 7 then relockWrite s else s

/-- A write of TIME_CTRL (R80, R82, R103). -/
def timeCtrlWrite (v : Word) (s : State) : State :=
  let was := s.flag F.timeCtrlPpsEn
  let s := plainWrite .timeCtrl v s
  if v.getLsbD 5 && was then s else ppsEnWrite (v.getLsbD 5) s

/-- A write of CS_OUT_DELAYn (R45): the delay of an enabled output moves from what it is. -/
def outDelayWrite (n : Nat) (v : Word) (s : State) : State :=
  let old := s.outDelay n
  let s := modClk (fun c => { c with delayFrom := spSet 0 n old c.delayFrom,
                                     delayAt := spSet 0 n (s.elapsed + 1) c.delayAt }) s
  plainWrite (.csOutDelay n) v s

/-- A change of TRIGIN_POL turns the levels of the inputs it inverts (R198). -/
def triginCfgWrite (v : Word) (s : State) : State :=
  let turned := BitVec.ofNat 4 (bitsOf v.toNat 4 4) ^^^ BitVec.ofNat 4 (s.getF F.triginCfgTriginPol)
  let s := plainWrite .triginCfg v s
  { s with flags := { s.flags with
      triginLevel := s.flags.triginLevel ^^^ turned,
      triginEdges := s.flags.triginEdges.filter fun e => !turned.getLsbD e.2.1 } }

/-- A write of TRIGOUT_CFGn (R197, R214): a disabled output holds the inactive level, pulses of it end; the pin follows
POLARITY. -/
def trigoutCfgWrite (n : Nat) (v : Word) (s : State) : State :=
  let was := s.trigoutHigh n
  let s := plainWrite (.trigoutCfg n) v s
  let s := if s.flag (F.trigoutCfgEn n) then s
    else { s with flags := { s.flags with trigoutEnd := spSet 0 n 0 s.flags.trigoutEnd,
                                          trigoutLead := spSet 0 n 0 s.flags.trigoutLead } }
  if s.trigoutHigh n = was then s else emit (.trigoutPin n (s.trigoutHigh n)) s

/-- Every fault count is 0 (R501). -/
def clearCounts (s : State) : State := each (fun c => setF (F.fltCountCount (c + 1)) 0) (List.range 18) s

/-- A write of FLT_CTRL (R493, R501). -/
def fltCtrlWrite (v : Word) (s : State) : State :=
  let s := plainWrite .fltCtrl v s
  pinUpdate (if v.getLsbD 0 then clearCounts s else s)

/-- The held causes of FAULT# whose condition lasts (R494). -/
def State.heldCauses (s : State) : Nat :=
  bit (s.getF F.csStatusRelockState == 5) * 2
    + bit ((List.range 8).any fun b => (s.bank b).stuck && (s.bank b).faulted && (s.partOf b).isSome) * 4
    + bit (s.flag F.mgmtStatusHalted) * 8 + bit (s.getF F.secStatusSecState == 3) * 16

/-- A write of FLT_PIN_CAUSE (R391, R494): causes written 1 clear, and held ones whose condition lasts are set again. -/
def pinCauseWrite (v : Word) (s : State) : State :=
  let s := plainWrite .fltPinCause v s
  pinUpdate (wr .fltPinCause (s.rd .fltPinCause ||| BitVec.ofNat 32 s.heldCauses) s)

/-- A write of REG_DOWN_LOG (R428): VALID 1 clears the whole register. -/
def downLogWrite (f : Nat) (v : Word) (s : State) : State :=
  let s := keepWrite (.regDownLog f) v s
  if v.getLsbD 31 then
    wr (.regDownLog f) (s.rd (.regDownLog f) &&& fieldMask (fun x => x.access == .kp) (Reg.regDownLog f).fields) s
  else s

/-- A write of FE_BANK_CTRL (R134, R137). -/
def bankCtrlWrite (b : Nat) (v : Word) (s : State) : State :=
  let s := plainWrite (.feBankCtrl b) v s
  if v.getLsbD 7 then softReset b s else s

/-- A write of FE_CAL_CTRL (R126, R141). -/
def calCtrlWrite (f b : Nat) (v : Word) (s : State) : State :=
  let t := calWrite b v (keepWrite (.feCalCtrl b) v s)
  if t.2 then refused f (.feCalCtrl b) s else t.1

/-- A write of MEM_RETIRE_CMD (R300, R311); a refused one names the pseudo-channel. -/
def retireCmdWrite (v : Word) (s : State) : State :=
  let t := retireWrite v (keepWrite .memRetireCmd v s)
  if t.2 then event F.memEventsCfgRefused 0x1508 (bitsOf v.toNat 0 6) s else t.1

/-- A write of PWR_CTLd (R465, R477). -/
def pwrCtlWrite (d : Nat) (v : Word) (s : State) : State :=
  powerPins d (v.getLsbD 0) (v.getLsbD 1) (plainWrite (.pwrCtl d) v s)

/-! ### The snapshot window (R399 to R402) -/

/-- A write of SNAP_SELECT by the PF of port `port` (R399, R401): a capture that runs is abandoned, the item is taken,
and READ_CLEAR or LOAD act on it. -/
def snapSelect (port : Nat) (v : Word) (s : State) : State :=
  let f := port * 128
  let code := bitsOf v.toNat 0 16
  let action := bitsOf v.toNat 30 2
  let s := plainWrite (.snapSelect f) v s
  let s := setF (F.snapStatusBusy f) 1 (setF (F.snapStatusSnapValid f) 0 s)
  let take (result : Nat) (ws : List Word) (s : State) : State :=
    { s with snaps := spSet none port (some { result := result, words := ws }) s.snaps }
  match s.item port code with
  | none => take 1 [0, 0, 0, 0] s
  | some ws =>
    let s := if code = 0x8100 ∨ code = 0x8101 then spend s else s
    if ((itemDomain code).filter s.domainOff).isSome then take 2 [0, 0, 0, 0] s
    else if action = 0 then take 0 ws s
    else if clearable code = false then take 3 ws s
    else
      let load := s.getF (F.snapLoadLoLoad f) + s.getF (F.snapLoadHiLoad f) * 2 ^ 32
      take 0 ws (loadItem code (if action = 2 then load else 0) s)

/-- SNAPSHOT_CAPTURE_DONE (R399 step 3). -/
def execSnapshotCaptureDone (port : PortId) (s : State) : Host.Outcome State Fault Refusal :=
  let f := port.val * 128
  match spGet none port.val s.snaps with
  | none => done s s
  | some x =>
    let s1 := { s with snaps := spSet none port.val none s.snaps }
    let s1 := each (fun e s => setF (F.snapDataData f e.2) e.1.toNat s) x.words.zipIdx s1
    let s1 := setF (F.snapStatusResult f) x.result (setF (F.snapStatusSnapSeq f) (s.getF (F.snapStatusSnapSeq f) + 1) s1)
    done s (setF (F.snapStatusSnapValid f) 1 (setF (F.snapStatusBusy f) 0 s1))

/-! ### Every register -/

/-- What an accepted write of a register does. -/
def acceptWrite (f : Nat) (r : Reg) (v : Word) (s : State) : State :=
  match r with
  | .snapSelect g => snapSelect (g / 128) v s
  | .regDownLog g => downLogWrite g v s
  | .fltPinCause => pinCauseWrite v s
  | .fltPinMask => pinUpdate (plainWrite r v s)
  | .fltCtrl => fltCtrlWrite v s
  | .timeCtrl => timeCtrlWrite v s
  | .timeSetHi => let s := plainWrite r v s; if v.getLsbD 31 then requestSet none s else s
  | .timeDevid => if s.mgmt.devidSrc then keepWrite r v s else plainWrite r v s
  | .csCtrl => csCtrlWrite v s
  | .csOutDelay n => outDelayWrite n v s
  | .thermCtrl => thermCtrlWrite (plainWrite r v s)
  | .timeSteerCfg => retarget none (plainWrite r v s)
  | .csTrim => trimWrite (v.toNat % 2 ^ 24) (keepWrite r v s)
  | .csSyncoutCtrl => let s := plainWrite r v s; if v.getLsbD 2 then soFireWrite s else s
  | .feBankCtrl b => bankCtrlWrite b v s
  | .feCalCtrl b => calCtrlWrite f b v s
  | .triginCfg => triginCfgWrite v s
  | .trigoutCfg n => trigoutCfgWrite n v s
  | .xfState => xfStateWrite v s
  | .memRetireCmd => retireCmdWrite v s
  | .pwrCtl d => pwrCtlWrite d v s
  | .pwrBankEn => bankEnWrite (v.toNat % 256) (keepWrite r v s)
  | .containRelease g => containRelease g v (keepWrite r v s)
  | .mbxDoorbell g c => doorbell g c (v.toNat % 2 ^ 16) (keepWrite r v s)
  | .mbxHostCfg g => hostEnable g v s
  | .mbxHostAck g => hostAck g (v.toNat % 2 ^ 16) (keepWrite r v s)
  | .rcCfg g n => rcCfgWrite g n v s
  | _ => plainWrite r v s

/-- A write of a register reaches it: it is refused, or it acts. -/
def regWrite (f : Nat) (r : Reg) (v : Word) (s : State) : State :=
  if s.writeRefused r v then refused f r s else acceptWrite f r v s

/-! ### Slow access (R403 to R406) -/

/-- A slow access that is dropped (R404): OVERRUN_CAUSE 0 BUSY, 1 MODE. -/
def slowOverrun (f cause : Nat) (s : State) : State :=
  let s := setF (F.slowStatusOverrunCause f) cause (setF (F.slowStatusSlowOverrun f) 1 s)
  limited (rateKey 0x1802 f) ticksPerMs (post f 0x1802 (cause * 2 ^ 16)) s

/-- A host write of a slow register: it joins the slow-access unit, or is dropped. A write to a PHY window has no effect
(R535). Answers whether it was carried out. -/
def slowWrite (f : Nat) (direct : Bool) (off : Nat) (v : Word) (s : State) : Bool × State :=
  if 0x58000 ≤ off ∧ off < 0x60000 then (true, s)
  else if direct && s.flag (F.slowCtrlSlowAccessMode f) then (false, slowOverrun f 1 s)
  else if s.slowBusy then (false, slowOverrun f 0 s)
  else (true, { s with slow := { s.slow with writes := [(off, v, none)] } })

/-- The write in flight lands (R404): its register takes it. -/
def landWrite (s : State) : State :=
  match s.slow.writes with
  | [] => s
  | (off, v, c) :: rest =>
    let s := { s with slow := { s.slow with writes := rest } }
    let s := match Reg.ofOff 0 off with
      | some r => if (r.powerDomain.filter s.domainOff).isSome then s else regWrite 0 r v s
      | none => s
    match c with
    | some c => finish c 0x03 stOk 0 0 s
    | none => s

/-- What an aligned 32-bit read of a BAR0 offset answers. In a slow window it waits for a write in flight (R404). -/
def State.readBar (u : State) (f off : Nat) : Out :=
  let s := if slowWindow (off % 0x80000) then landWrite u else u
  let image := isPf f && decide (0x80000 ≤ off) && decide (off < 0x100000)
  let o := if image then off - 0x80000 else off
  if s.barOpen f = false ∨ o % 4 ≠ 0 then .unsupported f
  else match barReg f o with
    | none => .unsupported f
    | some r =>
      if s.readAborts o r then .completerAbort f
      else .readData f ((if image then s.liveView f r else s.viewFor f r).setWidth 64)

/-- What an aligned 32-bit read of a BAR2 offset answers (R317): the last value accepted at a doorbell, whose upper word is
0; outside the block 0x000–0x07F Unsupported Request (R540). -/
def State.readBar2 (s : State) (f off : Nat) : Out :=
  let n := off / 16
  let x := s.pair f n
  if s.barOpen f = false ∨ off % 4 ≠ 0 ∨ 0x80 ≤ off then .unsupported f
  else if s.recovery then .completerAbort f
  else .readData f (match off % 16 with
    | 0 => BitVec.ofNat 64 x.dbTail
    | 8 => BitVec.ofNat 64 x.dbHead
    | _ => 0)

/-- SLOW_WRITE_LANDED (R404, R327). -/
def execSlowWriteLanded (s : State) : Host.Outcome State Fault Refusal := done s (landWrite s)

/-- SLOW_ADDR after an access that was carried out (R405): it stays inside its window. -/
def slowNext (f : Nat) (s : State) : State :=
  let a := s.getF (F.slowAddrAddr f) * 4
  if s.flag (F.slowCtrlAutoInc f) = true ∧ a ≠ 0x1FFFC ∧ a ≠ 0x5BFFC ∧ a ≠ 0x5FFFC ∧ a ≠ 0x77FFC then
    setF (F.slowAddrAddr f) (a / 4 + 1) s
  else s

/-- A write of SLOW_DATA (R404, R405). -/
def slowDataWrite (f : Nat) (v : Word) (s : State) : State :=
  if s.flag (F.slowCtrlSlowAccessMode f) = false then slowOverrun f 1 s
  else
    let a := s.getF (F.slowAddrAddr f) * 4
    match ((barReg f a).bind Reg.powerDomain).filter s.domainOff with
    | some d => domainDown f d a true s
    | none =>
      let t := slowWrite f false a v s
      if t.1 then slowNext f t.2 else t.2

/-- A read of SLOW_DATA (R404, R405): it waits for a write in flight, then reads the addressed register. -/
def slowDataRead (f : Nat) (s : State) : State :=
  if s.flag (F.slowCtrlSlowAccessMode f) = false then emit (.readData f 0) s
  else
    let a := s.getF (F.slowAddrAddr f) * 4
    let s := landWrite s
    match ((barReg f a).bind Reg.powerDomain).filter s.domainOff with
    | some d => emit (.completerAbort f) (domainDown f d a false s)
    | none =>
      let v := match barReg f a with | some r => s.view r | none => 0
      slowNext f (emit (.readData f (v.setWidth 64)) s)

/-! ### Writes of the host -/

/-- A write of one 32-bit word of BAR0 that is executed. In a VF, MBX_CHAN, EP_WAKE_CFG and the partitions are
read-only (R539). -/
def wordWrite (f off : Nat) (v : Word) (s : State) : State :=
  match barReg f off with
  | none => s
  | some r =>
    let o := r.off
    if isPf f = false ∧ ((0x40000 ≤ o ∧ o < 0x42000) ∨ (0x3000 ≤ o ∧ o < 0x3200 ∧ o % 0x20 = 0x14) ∨ o = 0x4028) then s
    else if slowWindow o then (slowWrite f true o v s).2
    else if o = 0x104C then slowDataWrite f v s
    else regWrite f r v s

/-- A write of one word of BAR0; CONTAIN_RELEASE passes in containment (R369, R371). -/
def bar0Word (f off : Nat) (v : Word) (s : State) : State :=
  if off = 0x4008 ∧ s.barOpen f = true ∧ s.recovery = false then wordWrite f off v s
  else hostWrite f off (wordWrite f off v) s

/-- A write of the doorbell page (R317, R364, R540). -/
def bar2Write (f off : Nat) (w : Access.Width) (v : DWord) (s : State) : State :=
  let wide := w == .w64
  if w == .w8 || w == .w16 || off % 4 != 0 || (wide && off % 8 != 0) || !s.barOpen f then urWrite f true off s
  else if 0x80 ≤ off then
    let s := urWrite f true off s
    if s.recovery then s else post f 0x1601 (s.freeN % 2 ^ 32) (spend s)
  else
    let v := if wide then v else v &&& 0xFFFFFFFF
    doorbellWrite f off (fun s =>
      if off % 8 ≠ 0 then post f 0x1601 (s.freeN % 2 ^ 32) (spend s)
      else if off % 16 = 0 then sqDoorbell f (off / 16) v s
      else cqDoorbell f (off / 16) v s) s

/-- A write of BAR0 (R364): 32 bits, or 64 bits as the low word and then the high word. -/
def bar0Write (f off : Nat) (w : Access.Width) (v : DWord) (s : State) : State :=
  let lo : Word := v.setWidth 32
  let hi : Word := (v >>> 32).setWidth 32
  match w with
  | .w8 | .w16 => urWrite f false off s
  | .w32 => if off % 4 = 0 then bar0Word f off lo s else urWrite f false off s
  | .w64 =>
    if off % 8 = 0 ∧ (barReg f off).isSome = true ∧ s.barOpen f = true then bar0Word f (off + 4) hi (bar0Word f off lo s)
    else urWrite f false off s

/-- REGISTER_WRITE (R8, R364). -/
def execRegisterWrite (f : FnId) (bar2 : Bool) (off : Nat) (w : Access.Width) (v : DWord) (s : State) :
    Host.Outcome State Fault Refusal :=
  if bar2 then done s (bar2Write f off w v s) else bar0 (.registerWrite f bar2 off w v) (bar0Write f off w v) s

/-- SLOW_WINDOW_WRITE (R404): a 32-bit write inside a slow window. -/
def execSlowWindowWrite (f : FnId) (off : Nat) (v : Word) (s : State) : Host.Outcome State Fault Refusal :=
  if slowWindow off then bar0 (.slowWindowWrite f off v) (bar0Write f off .w32 (v.setWidth 64)) s else done s s

/-- SLOW_DATA_WRITE (R405). -/
def execSlowDataWrite (f : FnId) (v : Word) (s : State) : Host.Outcome State Fault Refusal :=
  bar0 (.slowDataWrite f v) (fun s => hostWrite f 0x104C (slowDataWrite f v) s) s

/-- SLOW_DATA_READ (R405). -/
def execSlowDataRead (f : FnId) (s : State) : Host.Outcome State Fault Refusal :=
  bar0 (.slowDataRead f) (fun s => hostRead f 0x104C (slowDataRead f) s) s

/-! ### Writes that have a row of their own -/

/-- RELOCK (R60): a write of 1 to RELOCK. -/
def execRelock (f : FnId) (s : State) : Host.Outcome State Fault Refusal := 
  bar0 (.relock f) (fun s => hostWrite f 0x9000 relockWrite s) s

/-- TRIM_WRITE (R53, R55): a write of CS_TRIM. -/
def execTrimWrite (f : FnId) (v : Word) (s : State) : Host.Outcome State Fault Refusal :=
  bar0 (.trimWrite f v) (fun s => hostWrite f 0x9010 (fun s => acceptWrite f .csTrim v s) s) s

/-- REF_SEL_WRITE (R44, R60): a write of REF_SEL and REF_FREQ. -/
def execRefSelWrite (f : FnId) (refSel refFreq : Fin 4) (s : State) : Host.Outcome State Fault Refusal :=
  bar0 (.refSelWrite f refSel refFreq) (fun s => hostWrite f 0x9000 (fun s =>
    let t := refSelWrite refSel refFreq s
    if t.2 then refused f .csCtrl s else t.1) s) s

/-- SO_FIRE (R52): a write of 1 to SO_FIRE. -/
def execSoFire (f : FnId) (s : State) : Host.Outcome State Fault Refusal := 
  bar0 (.soFire f) (fun s => hostWrite f 0x9028 soFireWrite s) s

/-- SET_REQ (R88): a write of 1 to SET_REQ. -/
def execSetReq (f : FnId) (s : State) : Host.Outcome State Fault Refusal :=
  bar0 (.setReq f) (fun s => hostWrite f 0x802C (requestSet none) s) s

/-- PPS_EN_WRITE (R82). -/
def execPpsEnWrite (f : FnId) (en : Bool) (s : State) : Host.Outcome State Fault Refusal :=
  bar0 (.ppsEnWrite f en) (fun s => hostWrite f 0x8000 (ppsEnWrite en) s) s

/-- CAL_START (R126): a write of FE_CAL_CTRL that has landed. -/
def execCalStart (f : FnId) (b : BankId) (v : Word) (s : State) : Host.Outcome State Fault Refusal :=
  bar0 (.calStart f b v) (fun s => hostWrite f (0x10010 + b.val * 0x2000) (calCtrlWrite f b v) s) s

/-- SOFT_RESET (R134): a write of 1 to SOFT_RESET that has landed. -/
def execSoftReset (f : FnId) (b : BankId) (s : State) : Host.Outcome State Fault Refusal :=
  bar0 (.softReset f b) (fun s => hostWrite f (0x10000 + b.val * 0x2000) (softReset b) s) s

/-- XF_STATE_WRITE (R196, R214). -/
def execXfStateWrite (f : FnId) (v : Word) (s : State) : Host.Outcome State Fault Refusal :=
  bar0 (.xfStateWrite f v) (fun s => hostWrite f 0x2C040 (xfStateWrite v) s) s

/-- MEM_RETIRE_CMD (R300, R311). -/
def execMemRetireCmd (f : FnId) (v : Word) (s : State) : Host.Outcome State Fault Refusal :=
  bar0 (.memRetireCmd f v) (fun s => hostWrite f 0x50018 (retireCmdWrite v) s) s

/-- PWR_BANK_EN_WRITE (R466): a write of PWR_BANK_EN. -/
def execPwrBankEnWrite (f : FnId) (v : Word) (s : State) : Host.Outcome State Fault Refusal :=
  bar0 (.pwrBankEnWrite f v) (fun s => hostWrite f 0x70100 (fun s => acceptWrite f .pwrBankEn v s) s) s

/-- A write of SNAP_SELECT by a function; only a PF has the window. -/
def snapWrite (f : FnId) (action : Nat) (item : BitVec 16) (s : State) : State :=
  hostWrite f 0x1000 (snapSelect (f.val / 128)
    ((s.rd (.snapSelect f) &&& 0x3FFF0000) ||| BitVec.ofNat 32 (item.toNat + action * 2 ^ 30))) s

/-- SNAP_READ (R401). -/
def execSnapRead (f : FnId) (item : BitVec 16) (s : State) : Host.Outcome State Fault Refusal :=
  bar0 (.snapRead f item) (fun s => snapWrite f 0 item s) s

/-- SNAP_READ_CLEAR (R401). -/
def execSnapReadClear (f : FnId) (item : BitVec 16) (s : State) : Host.Outcome State Fault Refusal :=
  bar0 (.snapReadClear f item) (fun s => snapWrite f 1 item s) s

/-- SNAP_LOAD (R401). -/
def execSnapLoad (f : FnId) (item : BitVec 16) (s : State) : Host.Outcome State Fault Refusal :=
  bar0 (.snapLoad f item) (fun s => snapWrite f 2 item s) s

/-! ### Voters (R395, R396) -/

/-- Whether a BAR0 offset of a PF and a lowest bit name a voted field (R395). -/
def votedField (off lsb : Nat) : Bool :=
  (off == 0x9000 && lsb == 4) || (off == 0x8000 && lsb == 0) || (off == 0x4000 && lsb == 0) || (off == 0x70100 && lsb == 0)
    || (off == 0x78000 && lsb == 0) || (decide (0x9040 ≤ off) && decide (off < 0x9070) && off % 8 == 0 && lsb == 0)
    || (decide (0x40000 ≤ off) && decide (off < 0x42000) && off % 0x400 == 0 && (lsb == 0 || lsb == 7))

/-- VOTE_SCRUB (R396, R482): a voter rewrites one copy of a voted field from the majority. -/
def execVoteScrub (off : Nat) (lsb : Fin 32) (s : State) : Host.Outcome State Fault Refusal :=
  if votedField off lsb = false then done s s
  else
    let s1 := bump 0x0030 1 (setF F.voteLastLsb lsb (setF F.voteLastOffset (off / 4) s))
    let s1 := each (fun f => setF (F.regEventsVoteScrub f) 1) s1.pfs s1
    let s1 := limited (2 ^ 33 + off) ticksPerMs (postPfs 0x1800 (off + lsb.val * 2 ^ 24)) s1
    done s (logFault 0x01 0 0 s1)

/-! ### Pops (R384, R387, R407, R526) -/

/-- EVQ_POP (R407): a 32-bit read of EVQ_POP_LO, or an aligned 64-bit read of the pair. -/
def execEvqPop (f : FnId) (wide : Bool) (s : State) : Host.Outcome State Fault Refusal :=
  bar0 (.evqPop f wide) (fun s => hostRead f 0x2000 (fun s =>
    let x := s.fn f
    let e := x.evq.headD 0
    let s := setFn f { x with evq := x.evq.drop 1, evqHold := (e >>> 32).setWidth 32 } s
    emit (.readData f (if wide then e else e &&& 0xFFFFFFFF)) s) s) s

/-- EP_ERR_POP (R384, R387). -/
def execEpErrPop (f : FnId) (wide : Bool) (s : State) : Host.Outcome State Fault Refusal :=
  bar0 (.epErrPop f wide) (fun s => hostRead f 0x4010 (fun s =>
    let x := s.fn f
    let e := x.err.headD 0
    let s := setFn f { x with err := x.err.drop 1, errHold := (e >>> 32).setWidth 32 } s
    emit (.readData f (if wide then e else e &&& 0xFFFFFFFF)) s) s) s

end Sys2Proof.Machine
end

