-- ==== Sys2Proof/Machine/Faults.lean ====
section
/-! DEFINITION. Machine/Faults.lean: the patrol of the configuration memories, the fault log, FAULT#, link recovery and
the SMBus target (R484, R488 to R503, R521). -/

namespace Sys2Proof.Machine

/-! ### Configuration memories (R484) -/

/-- The fault log and FLT_CFG_UE report an uncorrectable word of block offset `off` in memory `mem` (R484, R492, R499).
A detector of no partition has no partition to name: a free value. -/
def cfgUe (mem off : Nat) (part : Option Nat) (s : State) : State :=
  match part with
  | some p => setCause 5 (postPart p 0x1B02 (p + off * 2 ^ 16) (logFault 0x03 mem p s))
  | none =>
    let p := s.freeN % 8
    setCause 5 (postPfs 0x1B02 (p + off * 2 ^ 16) (logFault 0x03 mem p (spend s)))

/-- A detector is disabled until the next ARM: its open measurement is discarded. -/
def killDet (n : Nat) (s : State) : State :=
  modDet n (fun d => { lastTime := d.lastTime, lastAux := d.lastAux, events := d.events, ue := true }) s

/-- What an uncorrectable word of a sequencer disables: branches, or the sequencer. -/
def killSeq (p k : Nat) (s : State) : State :=
  if 0x1000 ≤ k then modSeq p (fun q => { q with deadBranches := (k - 0x1000) / 0x40 :: q.deadBranches }) s
  else if 0x200 ≤ k then
    let l := (k - 0x200) / 0x10
    modSeq p (fun q => { q with deadBranches := [4 * l, 4 * l + 1, 4 * l + 2, 4 * l + 3] ++ q.deadBranches }) s
  else modSeq p (fun q => { q with stopped := true }) s

/-- Whether a BAR0 offset names a word that holds applied configuration of a detector or sequencer. -/
def configWord (off : Nat) : Bool :=
  match Reg.ofOff 0 off with
  | some r => r.fields.any fun x => x.apply == .arm
  | none => false

/-- One upset that the patrol, or a use, finds: `ue` where it cannot be corrected (R484). -/
def cfgUpset (off : Nat) (ue : Bool) (s : State) : State :=
  if configWord off = false then s
  else if 0x20000 ≤ off ∧ off < 0x28000 then
    let n := (off - 0x20000) / 0x100
    if s.domainOff (10 + n / 16) then s
    else if ue then cfgUe 0 (off % 0x100) (s.partOf (n / 16)) (killDet n s) else logFault 0x02 0 0 s
  else if 0x28000 ≤ off ∧ off < 0x28800 then
    let g := (off - 0x28000) / 0x100
    if s.domainOff 18 then s
    else if ue then
      cfgUe 1 (off % 0x100) (if s.flagL (F.gpCfgAssigned g) then some (s.getL (F.gpCfgPartition g)) else none)
        (killDet (128 + g) s)
    else logFault 0x02 1 0 s
  else if 0x30000 ≤ off ∧ off < 0x40000 then
    let p := (off - 0x30000) / 0x2000
    if s.domainOff 18 then s
    else if ue then cfgUe 2 (off % 0x2000) (some p) (killSeq p (off % 0x2000) s) else logFault 0x02 2 0 s
  else s

/-- CFG_PATROL (R484): the patrol reads every word; `upsets` are the words it finds upset. -/
def execCfgPatrol (upsets : List (Nat × Bool)) (s : State) : Host.Outcome State Fault Refusal :=
  done s (each (fun e => cfgUpset e.1 e.2) upsets s)

/-! ### The fault log and FAULT# (R489 to R503) -/

/-- FLT_POP (R489, R500): a 32-bit read of FLT_POP_LO, or an aligned 64-bit read of the pair, by a PF. -/
def execFltPop (port : PortId) (wide : Bool) (s : State) : Host.Outcome State Fault Refusal :=
  let f := port.val * 128
  bar0 (.fltPop port wide) (fun s => hostRead f 0x4800 (fun s =>
    let log := spGet [] f s.fltLog
    let e := log.headD (0, 0)
    let s := { s with fltLog := spSet [] f (log.drop 1) s.fltLog, fltHold := spSet (0, 0) f e s.fltHold }
    emit (.readData f (if wide then e.1 else e.1 &&& 0xFFFFFFFF)) s) s) s

/-- FLT_PIN_CAUSE_CLEAR (R494, R502). -/
def execFltPinCauseClear (f : FnId) (v : Word) (s : State) : Host.Outcome State Fault Refusal :=
  bar0 (.fltPinCauseClear f v) (fun s => hostWrite f 0x4818 (pinCauseWrite v) s) s

/-- FAULT_TEST (R493, R501): a write of FAULT_TEST. -/
def execFaultTest (f : FnId) (on : Bool) (s : State) : Host.Outcome State Fault Refusal :=
  bar0 (.faultTest f on) (fun s => hostWrite f 0x4820 (fun s => pinUpdate (setF F.fltCtrlFaultTest (bit on) s)) s) s

/-- CLEAR_COUNTS (R501): a write of 1 to CLEAR_COUNTS. -/
def execClearCounts (f : FnId) (s : State) : Host.Outcome State Fault Refusal :=
  bar0 (.clearCounts f) (fun s => hostWrite f 0x4820 clearCounts s) s

/-- LINK_RECOVERY (R482, R488, R492): the recovery of a port's link is logged. -/
def execLinkRecovery (port : PortId) (s : State) : Host.Outcome State Fault Refusal :=
  let f := port.val * 128
  if s.present f then done s (logFault 0x10 port (s.getF (F.epLinkStatusSpeed f)) s) else done s s

/-! ### SMBus (R521) -/

/-- SMBUS_READ_BYTE (R521). -/
def execSmbusReadByte (code : Byte) (s : State) : Host.Outcome State Fault Refusal :=
  let down := s.mgmt.scarabDown || s.mgmt.d3cold
  let answer (v : Nat) : Option Byte := some (if down then 0xFF else BitVec.ofNat 8 v)
  let v : Option Byte := match code.toNat with
    | 0 => answer (wholeDegrees (s.getF F.thermStatusDieTemp))
    | 1 => answer (s.getF F.thermStatusSteps)
    | 2 => some (BitVec.ofNat 8 (s.getF F.fltPinCauseCause))
    | 3 => answer (s.getF F.secStatusSecState + s.getF F.pwrModeMode * 4)
    | _ => none
  done s (emit (.smbus v) s)

end Sys2Proof.Machine
end

