-- ==== Sys2Proof/Machine/Held.lean ====
section
/-! DEFINITION. Machine/Held.lean: the ends of the two relocks, with the requests and commands that waited for them: the
BAR0 requests that a relock of the system PLL held (R40), the partitions to be created once the sample PLL has lock
(R64). -/

namespace Sys2Proof.Machine

/-- The state a command goes on with. -/
def after (s : State) (r : Host.Outcome State Fault Refusal) : State :=
  match r with
  | .next t => t
  | _ => s

/-- A BAR0 request that was held is completed (R40). -/
def runHeld (i : Instr) (s : State) : State :=
  after s <| match i with
    | .registerWrite a b c d e => execRegisterWrite a b c d e s
    | .evqPop a b => execEvqPop a b s
    | .relock a => execRelock a s
    | .trimWrite a b => execTrimWrite a b s
    | .refSelWrite a b c => execRefSelWrite a b c s
    | .soFire a => execSoFire a s
    | .setReq a => execSetReq a s
    | .ppsEnWrite a b => execPpsEnWrite a b s
    | .calStart a b c => execCalStart a b c s
    | .softReset a b => execSoftReset a b s
    | .xfStateWrite a b => execXfStateWrite a b s
    | .memRetireCmd a b => execMemRetireCmd a b s
    | .ringEnable a b c => execRingEnable a b c s
    | .ringDisable a b c => execRingDisable a b c s
    | .epErrPop a b => execEpErrPop a b s
    | .containRelease a b => execContainRelease a b s
    | .snapRead a b => execSnapRead a b s
    | .snapReadClear a b => execSnapReadClear a b s
    | .snapLoad a b => execSnapLoad a b s
    | .slowWindowWrite a b c => execSlowWindowWrite a b c s
    | .slowDataWrite a b => execSlowDataWrite a b s
    | .slowDataRead a => execSlowDataRead a s
    | .mbxDoorbell a b c => execMbxDoorbell a b c s
    | .mbxHostEnable a b => execMbxHostEnable a b s
    | .mbxHostAck a b => execMbxHostAck a b s
    | .pwrBankEnWrite a b => execPwrBankEnWrite a b s
    | .fltPop a b => execFltPop a b s
    | .fltPinCauseClear a b => execFltPinCauseClear a b s
    | .faultTest a b => execFaultTest a b s
    | .clearCounts a => execClearCounts a s
    | _ => done s s

/-- SYSPLL_RELOCK_DONE (R40): the system PLL has lock, and the BAR0 requests that arrived during the relock are completed
in their order. -/
def execSysPllRelockDone (s : State) : Host.Outcome State Fault Refusal :=
  done s (each runHeld s.clk.held (sysRelocked s))

/-- A PARTITION_CREATE that waited for the sample PLL is carried out (R64). -/
def runCreate (i : Instr) (s : State) : State :=
  after s <| match i with
    | .partitionCreate c p banks ring mode contFrames pretrig posttrig =>
      execPartitionCreate c p banks ring mode contFrames pretrig posttrig s
    | _ => done s s

/-- RELOCK_COMPLETE (R59 step 5, R56, R60, R64): once lock has been declared, `xoCycles` XO cycles after the last handover
to the keep-alive counter, the dividers restart, Cicada reloads and the outputs are ungated. -/
def execRelockComplete (xoCycles : Nat) (s : State) : Host.Outcome State Fault Refusal :=
  let st := s.getF F.csStatusRelockState
  if s.flag F.csStatusOutputsGated = false ∨ (st ≠ 1 ∧ st ≠ 2) ∨ s.lockDeclared = false then done s s
  else
    let s1 := relockDone xoCycles s
    done s (each runCreate s1.clk.creating (modClk (fun c => { c with creating := [] }) s1))

end Sys2Proof.Machine
end

