-- ==== Sys2Proof/Machine/Dispatch.lean ====
section
/-! DEFINITION. Machine/Dispatch.lean: one arm per command, each a direct call of its meaning. -/

namespace Sys2Proof.Machine

def exec (i : Instr) (s : State) : Host.Outcome State Fault Refusal :=
  match i with
  | .registerWrite x0 x1 x2 x3 x4 => Sys2Proof.Machine.execRegisterWrite x0 x1 x2 x3 x4 s
  | .evqPop x0 x1 => Sys2Proof.Machine.execEvqPop x0 x1 s
  | .secondBoundary => Sys2Proof.Machine.execSecondBoundary s
  | .frameStart x0 => Sys2Proof.Machine.execFrameStart x0 s
  | .blockBoundary x0 x1 x2 => Sys2Proof.Machine.execBlockBoundary x0 x1 s x2
  | .sysPllLockLoss => Sys2Proof.Machine.execSysPllLockLoss s
  | .sysPllRelockDone => Sys2Proof.Machine.execSysPllRelockDone s
  | .refclkQualified x0 => Sys2Proof.Machine.execRefclkQualified x0 s
  | .refclkLost => Sys2Proof.Machine.execRefclkLost s
  | .refFreqAutoMeasure x0 x1 => Sys2Proof.Machine.execRefFreqAutoMeasure x0 x1 s
  | .lockFiltPinTest x0 => Sys2Proof.Machine.execLockFiltPinTest x0 s
  | .spllLockDeclared x0 x1 x2 x3 => Sys2Proof.Machine.execSpllLockDeclared x0 s x1 x2 x3
  | .spllLockLoss x0 x1 x2 => Sys2Proof.Machine.execSpllLockLoss x0 s x1 x2
  | .relockComplete x0 => Sys2Proof.Machine.execRelockComplete x0 s
  | .relockFailed => Sys2Proof.Machine.execRelockFailed s
  | .relockRetryTimeout => Sys2Proof.Machine.execRelockRetryTimeout s
  | .relock x0 => Sys2Proof.Machine.execRelock x0 s
  | .trimWrite x0 x1 => Sys2Proof.Machine.execTrimWrite x0 x1 s
  | .refSelWrite x0 x1 x2 => Sys2Proof.Machine.execRefSelWrite x0 x1 x2 s
  | .syncInEdge x0 => Sys2Proof.Machine.execSyncInEdge s x0
  | .syncRestart x0 x1 => Sys2Proof.Machine.execSyncRestart x0 x1 s
  | .soFire x0 => Sys2Proof.Machine.execSoFire x0 s
  | .syncOutPulse x0 => Sys2Proof.Machine.execSyncOutPulse x0 s
  | .ppsEdge x0 x1 => Sys2Proof.Machine.execPpsEdge x0 x1 s
  | .ppsIntervalEnd => Sys2Proof.Machine.execPpsIntervalEnd s
  | .setReq x0 => Sys2Proof.Machine.execSetReq x0 s
  | .ppsEnWrite x0 x1 => Sys2Proof.Machine.execPpsEnWrite x0 x1 s
  | .ktcFrame x0 x1 x2 => Sys2Proof.Machine.execKtcFrame x0 x1 x2 s
  | .channelCrossing x0 x1 x2 x3 x4 => Sys2Proof.Machine.execChannelCrossing x0 x1 x2 x3 x4 s
  | .stclkEdge x0 x1 x2 => Sys2Proof.Machine.execStclkEdge x0 x1 x2 s
  | .triginEdge x0 x1 x2 => Sys2Proof.Machine.execTriginEdge x0 x1 x2 s
  | .calStart x0 x1 x2 => Sys2Proof.Machine.execCalStart x0 x1 x2 s
  | .calStepDone x0 x1 x2 => Sys2Proof.Machine.execCalStepDone x0 x1 x2 s
  | .calExtTimeout x0 => Sys2Proof.Machine.execCalExtTimeout x0 s
  | .autoThresholdDone x0 x1 => Sys2Proof.Machine.execAutoThresholdDone x0 x1 s
  | .bankFault x0 x1 x2 => Sys2Proof.Machine.execBankFault x0 x1 x2 s
  | .softReset x0 x1 => Sys2Proof.Machine.execSoftReset x0 x1 s
  | .softResetDone x0 => Sys2Proof.Machine.execSoftResetDone x0 s
  | .bankResume x0 x1 => Sys2Proof.Machine.execBankResume x0 x1 s
  | .detectorEvent x0 => Sys2Proof.Machine.execDetectorEvent x0 s
  | .timeoutExpiry x0 => Sys2Proof.Machine.execTimeoutExpiry x0 s
  | .skewExpiry x0 => Sys2Proof.Machine.execSkewExpiry x0 s
  | .patternLongerExpiry x0 => Sys2Proof.Machine.execPatternLongerExpiry x0 s
  | .sequencerSample x0 x1 => Sys2Proof.Machine.execSequencerSample x0 x1 s
  | .tmrExpiry x0 x1 => Sys2Proof.Machine.execTmrExpiry x0 x1 s
  | .xfStateWrite x0 x1 => Sys2Proof.Machine.execXfStateWrite x0 x1 s
  | .firstSampleFixed x0 => Sys2Proof.Machine.execFirstSampleFixed x0 s
  | .fillComplete x0 => Sys2Proof.Machine.execFillComplete x0 s
  | .rearmIntervalEnd x0 => Sys2Proof.Machine.execRearmIntervalEnd x0 s
  | .continuousSegmentEnd x0 x1 => Sys2Proof.Machine.execContinuousSegmentEnd x0 x1 s
  | .earlyShipWrite x0 x1 x2 x3 => Sys2Proof.Machine.execEarlyShipWrite x0 x1 x2 s x3
  | .earlyThrottleChange x0 => Sys2Proof.Machine.execEarlyThrottleChange x0 s
  | .segmentDeliveryWrite x0 x1 x2 x3 => Sys2Proof.Machine.execSegmentDeliveryWrite x0 x1 x2 s x3
  | .segmentDeliveryDone x0 x1 => Sys2Proof.Machine.execSegmentDeliveryDone x0 x1 s
  | .modTimeExpiry x0 x1 => Sys2Proof.Machine.execModTimeExpiry x0 x1 s
  | .orphanTimeout x0 => Sys2Proof.Machine.execOrphanTimeout x0 s
  | .rebalanceTick => Sys2Proof.Machine.execRebalanceTick s
  | .scrubPass x0 x1 => Sys2Proof.Machine.execScrubPass x0 x1 s
  | .pcRetireDetect x0 x1 => Sys2Proof.Machine.execPcRetireDetect x0 x1 s
  | .memRetireCmd x0 x1 => Sys2Proof.Machine.execMemRetireCmd x0 x1 s
  | .remapDone => Sys2Proof.Machine.execRemapDone s
  | .captureResume x0 x1 => Sys2Proof.Machine.execCaptureResume x0 x1 s
  | .mirrorRebuildDone => Sys2Proof.Machine.execMirrorRebuildDone s
  | .descriptorFetchDone x0 x1 x2 x3 => Sys2Proof.Machine.execDescriptorFetchDone x0 x1 x2 s x3
  | .partitionCreate x0 x1 x2 x3 x4 x5 x6 x7 => Sys2Proof.Machine.execPartitionCreate x0 x1 x2 x3 x4 x5 x6 x7 s
  | .partitionDestroy x0 x1 => Sys2Proof.Machine.execPartitionDestroy x0 x1 s
  | .bankConfig x0 x1 x2 x3 x4 => Sys2Proof.Machine.execBankConfig x0 x1 x2 x3 x4 s
  | .detectorLoad x0 x1 x2 x3 x4 => Sys2Proof.Machine.execDetectorLoad x0 x1 x2 x3 x4 s
  | .sequencerLoad x0 x1 x2 x3 x4 => Sys2Proof.Machine.execSequencerLoad x0 x1 x2 x3 x4 s
  | .arm x0 x1 => Sys2Proof.Machine.execArm x0 x1 s
  | .disarm x0 x1 => Sys2Proof.Machine.execDisarm x0 x1 s
  | .forceTrigger x0 x1 => Sys2Proof.Machine.execForceTrigger x0 x1 s
  | .subscribe x0 x1 x2 x3 x4 => Sys2Proof.Machine.execSubscribe x0 x1 x2 x3 x4 s
  | .partitionClaim x0 x1 x2 x3 => Sys2Proof.Machine.execPartitionClaim x0 x1 x2 x3 s
  | .unsubscribe x0 x1 x2 => Sys2Proof.Machine.execUnsubscribe x0 x1 x2 s
  | .grantIssue x0 x1 x2 x3 => Sys2Proof.Machine.execGrantIssue x0 x1 x2 x3 s
  | .grantRevoke x0 x1 x2 => Sys2Proof.Machine.execGrantRevoke x0 x1 x2 s
  | .grantRevokeAll x0 x1 => Sys2Proof.Machine.execGrantRevokeAll x0 x1 s
  | .readBackSegment x0 x1 x2 x3 x4 => Sys2Proof.Machine.execReadBackSegment x0 x1 x2 x3 x4 s
  | .readBackRange x0 x1 x2 x3 x4 => Sys2Proof.Machine.execReadBackRange x0 x1 x2 x3 x4 s
  | .timeSet x0 x1 => Sys2Proof.Machine.execTimeSet x0 x1 s
  | .calibrate x0 x1 x2 x3 x4 => Sys2Proof.Machine.execCalibrate x0 x1 x2 x3 x4 s
  | .policySet x0 x1 x2 x3 => Sys2Proof.Machine.execPolicySet x0 x1 x2 x3 s
  | .queryFunction x0 x1 => Sys2Proof.Machine.execQueryFunction x0 x1 s
  | .queryPartition x0 x1 x2 => Sys2Proof.Machine.execQueryPartition x0 x1 x2 s
  | .queryCounter x0 x1 x2 => Sys2Proof.Machine.execQueryCounter x0 x1 x2 s
  | .powerPinRelease x0 x1 => Sys2Proof.Machine.execPowerPinRelease x0 x1 s
  | .powerPinOn x0 x1 => Sys2Proof.Machine.execPowerPinOn x0 x1 s
  | .powerForbidOff x0 x1 => Sys2Proof.Machine.execPowerForbidOff x0 x1 s
  | .dbSqTail x0 x1 x2 => Sys2Proof.Machine.execDbSqTail x0 x1 x2 s
  | .dbCqHead x0 x1 x2 => Sys2Proof.Machine.execDbCqHead x0 x1 x2 s
  | .ringEnable x0 x1 x2 => Sys2Proof.Machine.execRingEnable x0 x1 x2 s
  | .ringDisable x0 x1 x2 => Sys2Proof.Machine.execRingDisable x0 x1 x2 s
  | .epErrPop x0 x1 => Sys2Proof.Machine.execEpErrPop x0 x1 s
  | .completionTimeout x0 x1 => Sys2Proof.Machine.execCompletionTimeout x0 x1 s
  | .unexpectedCompletion x0 x1 => Sys2Proof.Machine.execUnexpectedCompletion x0 x1 s
  | .tagQuarantineEnd x0 x1 => Sys2Proof.Machine.execTagQuarantineEnd x0 x1 s
  | .completionError x0 x1 x2 => Sys2Proof.Machine.execCompletionError x0 x1 x2 s
  | .poisonedRequest x0 x1 x2 => Sys2Proof.Machine.execPoisonedRequest x0 x1 x2 s
  | .malformedRequest x0 x1 => Sys2Proof.Machine.execMalformedRequest x0 x1 s
  | .atsFault x0 x1 => Sys2Proof.Machine.execAtsFault x0 x1 s
  | .atsInvalidation x0 => Sys2Proof.Machine.execAtsInvalidation x0 s
  | .epContained x0 => Sys2Proof.Machine.execEpContained x0 s
  | .containRelease x0 x1 => Sys2Proof.Machine.execContainRelease x0 x1 s
  | .containReleaseDone x0 => Sys2Proof.Machine.execContainReleaseDone x0 s
  | .bmeClear x0 => Sys2Proof.Machine.execBmeClear x0 s
  | .bmeSet x0 => Sys2Proof.Machine.execBmeSet x0 s
  | .devctl2CtoWrite x0 x1 => Sys2Proof.Machine.execDevctl2CtoWrite x0 x1 s
  | .flr x0 => Sys2Proof.Machine.execFlr x0 s
  | .vfEnableClear x0 => Sys2Proof.Machine.execVfEnableClear x0 s
  | .d3hotEntry x0 => Sys2Proof.Machine.execD3hotEntry x0 s
  | .d0Return x0 => Sys2Proof.Machine.execD0Return x0 s
  | .d3coldEntry => Sys2Proof.Machine.execD3coldEntry s
  | .wakeTriginEdge x0 x1 => Sys2Proof.Machine.execWakeTriginEdge x0 x1 s
  | .portLinkDown x0 => Sys2Proof.Machine.execPortLinkDown x0 s
  | .portLinkUp x0 x1 x2 x3 => Sys2Proof.Machine.execPortLinkUp x0 x1 x2 x3 s
  | .linkRecovery x0 => Sys2Proof.Machine.execLinkRecovery x0 s
  | .snapRead x0 x1 => Sys2Proof.Machine.execSnapRead x0 x1 s
  | .snapReadClear x0 x1 => Sys2Proof.Machine.execSnapReadClear x0 x1 s
  | .snapLoad x0 x1 => Sys2Proof.Machine.execSnapLoad x0 x1 s
  | .snapshotCaptureDone x0 => Sys2Proof.Machine.execSnapshotCaptureDone x0 s
  | .voteScrub x0 x1 => Sys2Proof.Machine.execVoteScrub x0 x1 s
  | .slowWindowWrite x0 x1 x2 => Sys2Proof.Machine.execSlowWindowWrite x0 x1 x2 s
  | .slowDataWrite x0 x1 => Sys2Proof.Machine.execSlowDataWrite x0 x1 s
  | .slowDataRead x0 => Sys2Proof.Machine.execSlowDataRead x0 s
  | .slowWriteLanded => Sys2Proof.Machine.execSlowWriteLanded s
  | .mbxDoorbell x0 x1 x2 => Sys2Proof.Machine.execMbxDoorbell x0 x1 x2 s
  | .mbxTake x0 x1 => Sys2Proof.Machine.execMbxTake x0 x1 s
  | .mbxDone x0 => Sys2Proof.Machine.execMbxDone x0 s
  | .mbxHostEnable x0 x1 => Sys2Proof.Machine.execMbxHostEnable x0 x1 s
  | .noticeWrite x0 => Sys2Proof.Machine.execNoticeWrite x0 s
  | .mbxHostAck x0 x1 => Sys2Proof.Machine.execMbxHostAck x0 x1 s
  | .fwUpdate x0 x1 x2 => Sys2Proof.Machine.execFwUpdate x0 x1 x2 s
  | .epochAdvance x0 x1 => Sys2Proof.Machine.execEpochAdvance x0 x1 s
  | .keyRevoke x0 x1 x2 => Sys2Proof.Machine.execKeyRevoke x0 x1 x2 s
  | .secInfo x0 x1 => Sys2Proof.Machine.execSecInfo x0 x1 s
  | .getInfo x0 x1 => Sys2Proof.Machine.execGetInfo x0 x1 s
  | .telemetryRead x0 x1 => Sys2Proof.Machine.execTelemetryRead x0 x1 s
  | .getVersion x0 => Sys2Proof.Machine.execGetVersion x0 s
  | .getCapabilities x0 => Sys2Proof.Machine.execGetCapabilities x0 s
  | .negotiateAlgorithms x0 x1 x2 => Sys2Proof.Machine.execNegotiateAlgorithms x0 x1 x2 s
  | .getDigests x0 => Sys2Proof.Machine.execGetDigests x0 s
  | .getCertificate x0 x1 x2 x3 => Sys2Proof.Machine.execGetCertificate x0 x1 x2 x3 s
  | .challenge x0 x1 x2 => Sys2Proof.Machine.execChallenge x0 x1 x2 s
  | .getMeasurements x0 x1 x2 x3 => Sys2Proof.Machine.execGetMeasurements x0 x1 x2 x3 s
  | .spdmUnsupportedRequest x0 x1 => Sys2Proof.Machine.execSpdmUnsupportedRequest x0 x1 s
  | .recoveryImageObject x0 x1 => Sys2Proof.Machine.execRecoveryImageObject x0 x1 s
  | .recoveryImageEnd x0 => Sys2Proof.Machine.execRecoveryImageEnd x0 s
  | .perstAssert => Sys2Proof.Machine.execPerstAssert s
  | .perstRelease x0 x1 => Sys2Proof.Machine.execPerstRelease x0 x1 s
  | .hotReset => Sys2Proof.Machine.execHotReset s
  | .bootImageVerified x0 => Sys2Proof.Machine.execBootImageVerified x0 s
  | .certAreaReadDone x0 => Sys2Proof.Machine.execCertAreaReadDone x0 s
  | .reducedServiceDeclared x0 => Sys2Proof.Machine.execReducedServiceDeclared s x0
  | .hbmTrainingDone x0 x1 x2 => Sys2Proof.Machine.execHbmTrainingDone x0 x1 x2 s
  | .eclosion x0 => Sys2Proof.Machine.execEclosion x0 s
  | .scarabWatchdogExpiry x0 => Sys2Proof.Machine.execScarabWatchdogExpiry x0 s
  | .scarabRestarted => Sys2Proof.Machine.execScarabRestarted s
  | .fireflyRestart x0 => Sys2Proof.Machine.execFireflyRestart x0 s
  | .telemetrySample x0 x1 => Sys2Proof.Machine.execTelemetrySample x0 x1 s
  | .thermGate => Sys2Proof.Machine.execThermGate s
  | .thermWarn => Sys2Proof.Machine.execThermWarn s
  | .thermStop => Sys2Proof.Machine.execThermStop s
  | .thermTrip => Sys2Proof.Machine.execThermTrip s
  | .domainIdleTimeout x0 => Sys2Proof.Machine.execDomainIdleTimeout x0 s
  | .domainWake x0 => Sys2Proof.Machine.execDomainWake x0 s
  | .domainPowerOff x0 => Sys2Proof.Machine.execDomainPowerOff x0 s
  | .domainPowerOn x0 => Sys2Proof.Machine.execDomainPowerOn x0 s
  | .pwrBankEnWrite x0 x1 => Sys2Proof.Machine.execPwrBankEnWrite x0 x1 s
  | .vauxPowerOn => Sys2Proof.Machine.execVauxPowerOn s
  | .mainRailsValid x0 x1 => Sys2Proof.Machine.execMainRailsValid x0 x1 s
  | .railFault x0 => Sys2Proof.Machine.execRailFault x0 s
  | .cfgPatrol x0 => Sys2Proof.Machine.execCfgPatrol x0 s
  | .fltPop x0 x1 => Sys2Proof.Machine.execFltPop x0 x1 s
  | .fltPinCauseClear x0 x1 => Sys2Proof.Machine.execFltPinCauseClear x0 x1 s
  | .faultTest x0 x1 => Sys2Proof.Machine.execFaultTest x0 x1 s
  | .clearCounts x0 => Sys2Proof.Machine.execClearCounts x0 s
  | .smbusReadByte x0 => Sys2Proof.Machine.execSmbusReadByte x0 s
  | .memorySpaceEnableWrite x0 x1 => Sys2Proof.Machine.execMemorySpaceEnableWrite x0 x1 s
  | .msixVectorUnmask x0 x1 => Sys2Proof.Machine.execMsixVectorUnmask x0 x1 s
  | .vauxLoss => Sys2Proof.Machine.execVauxLoss s
  | .railFaultRestart => Sys2Proof.Machine.execRailFaultRestart s
  | .refReturnComplete x0 => Sys2Proof.Machine.execRefReturnComplete x0 s
  | .aspmL1Entry x0 => Sys2Proof.Machine.execAspmL1Entry x0 s
  | .hbmPhyRetrain x0 x1 => Sys2Proof.Machine.execHbmPhyRetrain x0 x1 s

end Sys2Proof.Machine
end

