-- ==== Sys2Proof/Safety.lean ====
section
/-! DEFINITION. Safety.lean: what counts as a safe run: no command stops with a fault or a refusal, and the state keeps
its canonical form. -/

namespace Sys2Proof.Machine

/-- The sparse maps of the state are in canonical form: keys strictly rising. -/
def State.wf (s : State) : Bool :=
  spWf s.regs && spWf s.live && spWf s.ctrs && spWf s.banks && spWf s.dets && spWf s.seqs && spWf s.parts && spWf s.fns
    && spWf s.chans && spWf s.snaps && spWf s.fltLog && spWf s.fltHold && spWf s.fltSeen && spWf s.stamps && spWf s.since

/-- The states that answer after each of the commands waiting, oldest first, as long as each answers a next state. -/
def State.run : Nat → State → Option State
  | 0, s => some s
  | n + 1, s => match step s with
    | .next t => State.run n t
    | _ => none

/-- From `s` to `t` a command has completed (R320, R322): its completion entry has been written to host memory, as bytes
0 to 14 and the byte that holds PHASE, or it is the last of those its pair holds back (R319, R369). -/
def Completed (s t : State) (c : Cmd) (opcode status result resultHi : Nat) : Prop :=
  (∃ new place phase, t.out = new ++ s.out ∧
    Out.hostWrite c.fn place ((cmdEntry result resultHi c.index status c.tag opcode).take 15 ++ [phase]) false ∈ new) ∨
  (t.pair c.fn c.pair).heldCpl.getLast?.map Cpl.words = some (cmdEntry result resultHi c.index status c.tag opcode)

/-- Registers a write of which does more than R7 says of their fields: their rule gives the action. -/
def Reg.actsOnWrite : Reg → Bool
  | .snapSelect _ | .regDownLog _ | .fltPinCause | .fltPinMask | .fltCtrl | .timeCtrl | .timeSetHi | .timeDevid | .csCtrl
  | .csOutDelay _ | .thermCtrl | .timeSteerCfg | .csTrim | .csSyncoutCtrl | .feBankCtrl _ | .feCalCtrl _ | .triginCfg
  | .trigoutCfg _ | .xfState | .memRetireCmd | .pwrCtl _ | .pwrBankEn | .containRelease _ | .mbxDoorbell _ _
  | .mbxHostCfg _ | .mbxHostAck _ | .rcCfg _ _ | .slowData _ => true
  | _ => false

/-- The bits of a register's fields of one access code (R7). -/
def Reg.bitsWith (r : Reg) (a : Access) : Word := fieldMask (fun x => x.access == a) r.fields

/-- A write of a function to an offset of BAR0 reaches its register: the BAR answers, a register stands there, the device
is not in recovery, the function not in containment, the register's power domain on (R364, R369, R398, R442), and no
relock of the system PLL holds the requests (R40). -/
def State.carriesOut (s : State) (f off : Nat) : Bool :=
  s.barOpen f && (barReg f off).isSome && !s.recovery && !s.contained f
    && (((barReg f off).bind Reg.powerDomain).filter s.domainOff).isNone && !s.clk.sysHeld

/-- Offsets of the registers that reports write: EVQ_STATUS, TIME_EVENTS, EP_EVENTS, FLT_STATUS, the fault counts and the
ring contexts. -/
def reportOff (o : Nat) : Bool :=
  o == 0x200C || o == 0x8008 || o == 0x401C || o == 0x4814 || (decide (0x4840 ≤ o) && decide (o < 0x4900))
    || (decide (0x60000 ≤ o) && decide (o < 0x60200))

/-- What reports leave of a function: all but its queues, its tags and its ring pairs. -/
def Fn.core (x : Fn) : Fn :=
  { x with evq := [], evqLost := false, err := [], pendVec := [], pairs := [], tags := [], nextTag := 0 }

/-- What reports leave of a partition: all but which words of a segment a delivery still needs, and the pins that a
completion of READ_BACK ends. -/
def Part.core (x : Part) : Part := { x with segs := [], pins := [] }

/-- `t` follows `s` by reports alone. -/
structure Quiet (s t : State) : Prop where
  pending : t.pending = s.pending
  live : t.live = s.live
  now : t.now = s.now
  elapsed : t.elapsed = s.elapsed
  cic : t.cic = s.cic
  clk : t.clk = s.clk
  banks : t.banks = s.banks
  dets : t.dets = s.dets
  seqs : t.seqs = s.seqs
  flags : t.flags = s.flags
  chans : t.chans = s.chans
  snaps : t.snaps = s.snaps
  slow : t.slow = s.slow
  mgmt : t.mgmt = s.mgmt
  cals : t.cals = s.cals
  waiting : t.waiting = s.waiting
  regs : ∀ r : Reg, reportOff (r.key % 0x100000) = false → t.rd r = s.rd r
  fns : ∀ f, (t.fn f).core = (s.fn f).core
  parts : ∀ p, (t.part p).core = (s.part p).core
  out : s.out <:+ t.out

/-- A command makes a function enter containment for a cause (R369): CONTAINED and CAUSE, the next EPOCH, and EP_CONTAINED
falls due. -/
def EntersContainment (i : Instr) (s : State) (f cause : Nat) : Prop :=
  ∃ t, exec i s = .next t ∧ t.contained f = true ∧ t.getF (F.containStatusCause f) = cause ∧
    t.getF (F.containEpochEpoch f) = (s.getF (F.containEpochEpoch f) + 1) % 65536 ∧ (t.fn f).containEventDue = true

/-- The receiver of a mailbox channel has answered the message it has taken from a function (R414). -/
def Answered (t : State) (c status : Nat) (reply : List Byte) : Prop :=
  ∃ q, (t.chan c).taken = some q ∧ q.answered = true ∧ q.status = status ∧ q.reply = reply

/-- The receiver of a channel holds a message of a type from a function, not answered yet. -/
def State.holdsMessage (s : State) (f c type : Nat) : Prop :=
  ∃ q, (s.chan c).taken = some q ∧ q.fn = f ∧ q.type = type ∧ q.status = stOk ∧ q.answered = false

/-- An SPDM request of a port is answered (R444). -/
def State.answersSpdm (s : State) (port : Nat) : Bool :=
  s.present (port * 128) && s.cfgAnswers && (s.recovery || s.mgmt.certsRead)

/-- A command's answer on a port is one SPDM response (R444). -/
def Responds (i : Instr) (s : State) (port : Nat) (code : Byte) (data : List Byte) : Prop :=
  ∃ t, exec i s = .next t ∧ t.out.head? = some (.doe port code data)

end Sys2Proof.Machine
end

