-- ==== Sys2Proof/Certificates/Slice0/Obligations.lean ====
section
/-! DEFINITION. Certificates/Slice0/Obligations.lean: the statements for the provers. -/

open Sys2Proof Sys2Proof.Machine

/-! ### The queue and the step -/

/-- A step with a command at the front of the queue is that command's effect on the state with the rest of the queue; on
an empty queue the block idles (DESIGN CHOICE, log entry 1). -/
def Obligations.StepRunsTheFrontCommand : Prop :=
  (∀ (c : Instr) (r : List Instr) (s : State), step { s with pending := c :: r } = exec c { s with pending := r }) ∧
  (∀ s : State, s.pending = [] → step s = .next s)

/-- Every command of the block completes in every state, with every operand: it answers a next state in which the same
commands wait. None stops with a fault or a refusal. -/
def Obligations.EveryCommandCompletes : Prop :=
  ∀ (i : Instr) (s : State), ∃ t, exec i s = .next t ∧ t.pending = s.pending

/-- Commands are taken in the order in which they wait: whatever a step with its command does, the queue is the former one
without its front, and after `n` steps exactly the first `n` commands have gone. None of the steps stops. -/
def Obligations.QueueDrainsInOrder : Prop :=
  (∀ s t : State, step s = .next t → t.pending = s.pending.tail) ∧
  ∀ (s : State) (n : Nat), n ≤ s.pending.length → ∃ t, State.run n s = some t ∧ t.pending = s.pending.drop n

/-- After reset nothing waits, every table of the state is in its canonical form, and the registers hold the reset values
of their register tables: here some whose value is not 0. -/
def Obligations.ResetHoldsTheResetValues : Prop :=
  State.reset.pending = [] ∧ State.reset.wf = true ∧
  (∀ f, State.reset.getF (F.epCtoCto f) = 1600) ∧ State.reset.getF F.timePpsCfgPpsWindow = 512000 ∧
  (∀ n, State.reset.getF (F.trigoutCfgWidth n) = 16) ∧ (∀ f, State.reset.contained f = false) ∧
  State.reset.getF F.pwrBankEnBankEn = 255

/-- Every command keeps the tables of the state (registers, live copies, counters, banks, detectors, sequencers, partitions,
functions, channels, logs) in their canonical form: keys strictly rising, so that equal states are equal data. -/
def Obligations.StepsKeepTheCanonicalForm : Prop :=
  ∀ s t : State, s.wf = true → step s = .next t → t.wf = true

/-! ### Frames -/

/-- Commands that only report (R331, R344, R358, R366, R380, R488, R521): whatever answers them, nothing but queues, logs,
tags, ring pairs and the registers that show those has changed: no other register and no live value, no bank, detector,
sequencer, partition but the words still owed, no channel, no time. -/
def Obligations.ReportingCommandsAreQuiet : Prop :=
  ∀ (i : Instr) (c : Cmd) (f : FnId) (n : PairId) (port : PortId) (a p k : Nat) (code : Byte) (s t : State),
    i ∈ [Instr.queryFunction c a, .queryPartition c a p, .queryCounter c a k, .modTimeExpiry f n, .atsInvalidation f,
      .unexpectedCompletion f k, .tagQuarantineEnd f k, .linkRecovery port, .aspmL1Entry port, .smbusReadByte code] →
    exec i s = .next t → Quiet s t

/-- Commands with one narrow effect: GRANT changes only its partition's tokens (R338), and the commands that show their
effect in one register (R365, R463) change no other; all else is as the reports leave it. -/
def Obligations.NarrowCommandsChangeNoOther : Prop :=
  (∀ (i : Instr) (c : Cmd) (p token : Nat) (modes : BitVec 8) (target : BitVec 16) (s t : State),
    i ∈ [Instr.grantIssue c p modes target, .grantRevoke c p token, .grantRevokeAll c p] → exec i s = .next t →
    Quiet (modPart p (fun x => { x with tokens := (t.part p).tokens }) s) t) ∧
  ∀ (i : Instr) (r : Reg) (d : DomId) (f : FnId) (v : Fin 16) (s t : State),
    (i, r) ∈ [(Instr.domainIdleTimeout d, Reg.pwrStat d), (.domainWake d, .pwrStat d), (.devctl2CtoWrite f v, .epCto f)] →
    exec i s = .next t → Quiet (wr r (t.rd r) s) t

/-! ### Register accesses -/

/-- A 32-bit write by a PF of a register that is in no slow window and whose write has no action of its own (R7): the bits
of RW fields take the written bits, the bits of W1C fields clear where 1 is written, every other bit but a keep bit is as
it was; no other register changes, and no live value (R8). -/
def Obligations.RegisterWriteStores : Prop :=
  ∀ (f : FnId) (off : Nat) (v : DWord) (r : Reg) (s : State), isPf f = true → off % 4 = 0 → s.carriesOut f off = true →
    barReg f off = some r → slowWindow r.off = false → r.actsOnWrite = false → s.writeRefused r (v.setWidth 32) = false →
    ∃ t, exec (.registerWrite f false off .w32 v) s = .next t ∧ t.live = s.live ∧
      (∀ q : Reg, q.key ≠ r.key → t.rd q = s.rd q) ∧
      ∀ i, i < 32 → (r.bitsWith .kp).getLsbD i = false → (t.rd r).getLsbD i =
        if (r.bitsWith .rw).getLsbD i then v.getLsbD i
        else if (r.bitsWith .w1c).getLsbD i && v.getLsbD i then false else (s.rd r).getLsbD i

/-- A write by a VF of its partition window, of MBX_CHAN or of EP_WAKE_CFG has no effect (R539). -/
def Obligations.VfWritesNoPartition : Prop :=
  ∀ (f : FnId) (off : Nat) (v : DWord) (r : Reg) (s : State), isPf f = false → off % 4 = 0 → s.carriesOut f off = true →
    barReg f off = some r → ((0x40000 ≤ r.off ∧ r.off < 0x42000) ∨ r.off = 0x4028 ∨
      (0x3000 ≤ r.off ∧ r.off < 0x3200 ∧ r.off % 0x20 = 0x14)) →
    exec (.registerWrite f false off .w32 v) s = .next s

/-- In containment a register write changes no register but those that report it (R369). -/
def Obligations.ContainmentDropsWrites : Prop :=
  ∀ (f : FnId) (off : Nat) (v : DWord) (s : State), s.clk.sysHeld = false → s.barOpen f = true → s.recovery = false →
    s.contained f = true → off % 4 = 0 → off ≠ 0x4008 → (barReg f off).isSome = true →
    ∃ t, exec (.registerWrite f false off .w32 v) s = .next t ∧ t.live = s.live ∧ t.slow = s.slow ∧
      ∀ q : Reg, ¬ q.key % 0x100000 ∈ [0x200C, 0x401C, 0x8008] → t.rd q = s.rd q

/-- A pop of the event queue, of the error log and of the fault log returns the oldest entry and removes it, and holds its
upper word (R384, R407, R489, R500); an empty queue returns 0 and pops nothing. -/
def Obligations.PopsReturnTheOldestEntry : Prop :=
  (∀ (f : FnId) (wide : Bool) (s : State), s.clk.sysHeld = false → s.barOpen f = true → s.recovery = false →
    ∃ t, exec (.evqPop f wide) s = .next t ∧ (t.fn f).evq = (s.fn f).evq.tail ∧
      t.out = .readData f (if wide then (s.fn f).evq.headD 0 else (s.fn f).evq.headD 0 &&& 0xFFFFFFFF) :: s.out ∧
      (t.fn f).evqHold = (((s.fn f).evq.headD 0) >>> 32).setWidth 32) ∧
  (∀ (f : FnId) (wide : Bool) (s : State), s.clk.sysHeld = false → s.barOpen f = true → s.recovery = false →
    ∃ t, exec (.epErrPop f wide) s = .next t ∧ (t.fn f).err = (s.fn f).err.tail ∧
      t.out = .readData f (if wide then (s.fn f).err.headD 0 else (s.fn f).err.headD 0 &&& 0xFFFFFFFF) :: s.out ∧
      (t.fn f).errHold = (((s.fn f).err.headD 0) >>> 32).setWidth 32) ∧
  (∀ (port : PortId) (wide : Bool) (s : State), s.clk.sysHeld = false → s.barOpen (port.val * 128) = true →
    s.recovery = false →
    ∃ t, exec (.fltPop port wide) s = .next t ∧
      spGet [] (port.val * 128) t.fltLog = (spGet [] (port.val * 128) s.fltLog).tail ∧
      t.out = .readData (port.val * 128) (if wide then ((spGet [] (port.val * 128) s.fltLog).headD (0, 0)).1
        else ((spGet [] (port.val * 128) s.fltLog).headD (0, 0)).1 &&& 0xFFFFFFFF) :: s.out ∧
      spGet (0, 0) (port.val * 128) t.fltHold = (spGet [] (port.val * 128) s.fltLog).headD (0, 0))

/-- The slow-access unit (R404, R405): a direct write inside a slow window and a write of SLOW_DATA wait in it, one at a
time; a read of SLOW_DATA returns data; a write that lands reaches its register. -/
def Obligations.SlowAccessesGoThroughTheUnit : Prop :=
  (∀ (f : FnId) (off : Nat) (v : Word) (r : Reg) (s : State), isPf f = true → slowWindow off = true → off % 4 = 0 →
    s.carriesOut f off = true → barReg f off = some r → slowWindow r.off = true → (r.off < 0x58000 ∨ 0x60000 ≤ r.off) →
    s.flag (F.slowCtrlSlowAccessMode f) = false → s.slow.writes = [] →
    ∃ t, exec (.slowWindowWrite f off v) s = .next t ∧ t.slow.writes = [(r.off, v, none)] ∧ t.regs = s.regs) ∧
  (∀ (f : FnId) (v : Word) (s : State), s.carriesOut f 0x104C = true → s.flag (F.slowCtrlSlowAccessMode f) = true →
    (((barReg f (s.getF (F.slowAddrAddr f) * 4)).bind Reg.powerDomain).filter s.domainOff) = none →
    (s.getF (F.slowAddrAddr f) * 4 < 0x58000 ∨ 0x60000 ≤ s.getF (F.slowAddrAddr f) * 4) → s.slow.writes = [] →
    ∃ t, exec (.slowDataWrite f v) s = .next t ∧ t.slow.writes = [(s.getF (F.slowAddrAddr f) * 4, v, none)]) ∧
  (∀ (f : FnId) (s : State), s.carriesOut f 0x104C = true → s.flag (F.slowCtrlSlowAccessMode f) = true →
    s.slow.writes = [] → (((barReg f (s.getF (F.slowAddrAddr f) * 4)).bind Reg.powerDomain).filter s.domainOff) = none →
    ∃ t, exec (.slowDataRead f) s = .next t ∧ t.out = .readData f ((match barReg f (s.getF (F.slowAddrAddr f) * 4) with
      | some r => s.view r
      | none => 0).setWidth 64) :: s.out) ∧
  (∀ (off : Nat) (v : Word) (rest : List (Nat × Word × Option Cmd)) (r : Reg) (s : State),
    s.slow.writes = (off, v, none) :: rest → Reg.ofOff 0 off = some r → (r.powerDomain.filter s.domainOff) = none →
    r.actsOnWrite = false → s.writeRefused r v = false →
    ∃ t, exec .slowWriteLanded s = .next t ∧ t.slow.writes = rest ∧
      ∀ i, i < 32 → (r.bitsWith .rw).getLsbD i = true → (t.rd r).getLsbD i = v.getLsbD i)

/-- The snapshot window of a PF (R399, R401): SNAP_SELECT clears SNAP_VALID and sets BUSY and the item is taken; the end of
the capture shows the words taken, counts SNAP_SEQ, clears BUSY and sets SNAP_VALID. READ_CLEAR and LOAD act on the item
named: a statistics counter that is not an interval then reads 0, or the value of SNAP_LOAD. -/
def Obligations.SnapshotsRun : Prop :=
  (∀ (f : FnId) (item : BitVec 16) (s : State), isPf f = true → s.carriesOut f 0x1000 = true →
    ∀ i ∈ [Instr.snapRead f item, .snapReadClear f item, .snapLoad f item],
      ∃ t, exec i s = .next t ∧ t.flag (F.snapStatusBusy f) = true ∧ t.flag (F.snapStatusSnapValid f) = false ∧
        t.getF (F.snapSelectItem f) = item.toNat ∧ (spGet none (f.val / 128) t.snaps).isSome = true) ∧
  (∀ (port : PortId) (x : Snap) (s : State), spGet none port.val s.snaps = some x → x.words.length = 4 →
    ∃ t, exec (.snapshotCaptureDone port) s = .next t ∧ t.flag (F.snapStatusBusy (port.val * 128)) = false ∧
      t.flag (F.snapStatusSnapValid (port.val * 128)) = true ∧ spGet none port.val t.snaps = none ∧
      t.getF (F.snapStatusSnapSeq (port.val * 128)) = (s.getF (F.snapStatusSnapSeq (port.val * 128)) + 1) % 65536 ∧
      ∀ k : Fin 4, t.rd (.snapData (port.val * 128) k) = x.words.getD k 0) ∧
  ∀ (f : FnId) (item : BitVec 16) (s : State), isPf f = true → s.carriesOut f 0x1000 = true →
    clearable item.toNat = true → intervalItem item.toNat = false → (s.item (f.val / 128) item.toNat).isSome = true →
    ((itemDomain item.toNat).filter s.domainOff).isNone = true →
    (∃ t, exec (.snapReadClear f item) s = .next t ∧ t.ctr item.toNat = 0) ∧
    ∃ t, exec (.snapLoad f item) s = .next t ∧
      t.ctr item.toNat = s.getF (F.snapLoadLoLoad f) + s.getF (F.snapLoadHiLoad f) * 2 ^ 32

/-- A voter that repairs a copy (R396, R482): VOTE_LAST names the field, VOTE_SCRUBS counts it; a place that holds no
voted field changes nothing. -/
def Obligations.VoteScrubRecordsTheField : Prop :=
  (∀ (off : Nat) (lsb : Fin 32) (s : State), votedField off lsb = true →
    ∃ t, exec (.voteScrub off lsb) s = .next t ∧ t.getF F.voteLastLsb = lsb ∧ t.getF F.voteLastOffset = off / 4) ∧
  ∀ (off : Nat) (lsb : Fin 32) (s : State), votedField off lsb = false → exec (.voteScrub off lsb) s = .next s

/-- While any partition is in a state other than IDLE, a write of TRIGIN_CFG or TRIGIN_DESKEWn is refused: the previous
value stays, CFG_REFUSED of sequencer 0 is set and SEQ_CFG_REFUSED is posted. A write of TRIGOUT_CFGn takes effect in any
state, unless it makes WIDTH 0: that one is refused (R198). -/
def Obligations.TriginWritesWaitForIdle : Prop :=
  (∀ (f : FnId) (v : DWord) (r : Reg) (p : Nat) (s : State), isPf f = true → s.carriesOut f r.off = true →
    (r = .triginCfg ∨ ∃ n, n < 4 ∧ r = .triginDeskew n) → p < 8 → 1 < s.partState p →
    exec (.registerWrite f false r.off .w32 v) s =
      .next { postPart 0 0x1201 0 (setF (F.seqEventsCfgRefused 0) 1 s) with pending := s.pending } ∧
    ∃ t, exec (.registerWrite f false r.off .w32 v) s = .next t ∧ t.rd r = s.rd r ∧
      t.flag (F.seqEventsCfgRefused 0) = true) ∧
  (∀ (f : FnId) (v : DWord) (n : Nat) (s : State), isPf f = true → n < 4 → s.carriesOut f (Reg.trigoutCfg n).off = true →
    bitsOf v.toNat 24 8 ≠ 0 → ∃ t, exec (.registerWrite f false (Reg.trigoutCfg n).off .w32 v) s = .next t ∧
      ∀ i, i < 32 → ((Reg.trigoutCfg n).bitsWith .rw).getLsbD i = true → (t.rd (.trigoutCfg n)).getLsbD i = v.getLsbD i) ∧
  ∀ (f : FnId) (v : DWord) (n : Nat) (s : State), isPf f = true → n < 4 → s.carriesOut f (Reg.trigoutCfg n).off = true →
    bitsOf v.toNat 24 8 = 0 → ∃ t, exec (.registerWrite f false (Reg.trigoutCfg n).off .w32 v) s = .next t ∧
      t.rd (.trigoutCfg n) = s.rd (.trigoutCfg n) ∧ t.flag (F.seqEventsCfgRefused 0) = true

/-! ### Clock synthesis -/

/-- Relocks start (R58 to R63): a relock that the host causes, or a loss of lock, leaves RELOCK_STATE FAST, FULL where a
full one is owed, or WAIT_REF under REF_SEL REFCLK without REFCLK; without lock RELOCK is ignored. A change of REF_SEL
or REF_FREQ starts one, with lock or without; the reserved REF_SEL 3 is refused and changes neither. Loss of lock by
phase needs an error above the loss threshold, loss by LOCK_FILT a voltage below 0.6 V on a path that declared lock.
RELOCK without lock outside a relock, and a change of the nominal that ends the qualification, are the model's choice
(log entry 61). -/
def Obligations.RelocksStart : Prop :=
  (∀ (f : FnId) (s : State), s.carriesOut f 0x9000 = true →
    (s.flag F.csStatusSpllLocked = true → ∃ t, exec (.relock f) s = .next t ∧ t.getF F.csStatusRelockState ∈ [1, 2, 4]) ∧
    (s.flag F.csStatusSpllLocked = false → exec (.relock f) s = .next s)) ∧
  (∀ (f : FnId) (sel freq : Fin 4) (s : State), s.carriesOut f 0x9000 = true → sel ≠ 3 →
    ∃ t, exec (.refSelWrite f sel freq) s = .next t ∧
      (sel.val ≠ s.getF F.csCtrlRefSel → t.getF F.csStatusRelockState ∈ [1, 2, 4]) ∧
      (s.flag F.csStatusSpllLocked = false → t.getF F.csCtrlRefSel = sel ∧ t.getF F.csCtrlRefFreq = freq)) ∧
  (∀ (f : FnId) (freq : Fin 4) (s : State), s.carriesOut f 0x9000 = true →
    ∃ t, exec (.refSelWrite f 3 freq) s = .next t ∧ t.getF F.csCtrlRefSel = s.getF F.csCtrlRefSel ∧
      t.getF F.csCtrlRefFreq = s.getF F.csCtrlRefFreq ∧ t.flag F.csEventsCfgRefused = true) ∧
  ∀ (cause : LossCause) (err mv : Nat) (s : State), ∃ t, exec (.spllLockLoss cause err mv) s = .next t ∧
    (s.flag F.csStatusSpllLocked = true → (cause = .phase → s.lossThreshold < err) →
      (cause = .lockFilt → (s.getF F.csCtrlLockSource = 0 ∨ s.getF F.csCtrlLockSource = 2) ∧ s.clk.analogUsed = true ∧
        mv < 600) →
      t.getF F.csStatusRelockState ∈ [1, 2, 4] ∧ t.flag F.csEventsLossOfLock = true ∧ t.clk.hostRelock = false ∧
        t.clk.attempts = 0) ∧
    (s.flag F.csStatusSpllLocked = false → t = s)

/-- The end of a relock (R57, R59, R60, R62 to R64): after lock has been declared, completion gives lock and ungated
outputs, and the partitions that waited for it are created; a failed fast attempt is followed by a full one; a failed
full one is FAILED, and under AUTO disqualifies REFCLK and is followed by a full one on XO_IN at once, else the next
attempt, a full one, is due and then starts; outside a relock nothing fails; a pin test result is shown. That a retry
is a full relock is the model's reading (log entry 61). -/
def Obligations.RelockOutcomes : Prop :=
  (∀ (n : Nat) (s : State), s.flag F.csStatusOutputsGated = true →
    (s.getF F.csStatusRelockState = 1 ∨ s.getF F.csStatusRelockState = 2) → s.lockDeclared = true →
    ∃ u, exec (.relockComplete n) s =
        .next { each runCreate s.clk.creating (modClk (fun c => { c with creating := [] }) u) with pending := s.pending } ∧
      u.flag F.csStatusSpllLocked = true ∧ u.flag F.csStatusOutputsGated = false ∧ u.getF F.csStatusRelockState = 0) ∧
  (∀ (n : Nat) (s : State), s.flag F.csStatusOutputsGated = false ∨ s.lockDeclared = false →
    exec (.relockComplete n) s = .next s) ∧
  (∀ s : State, ∃ t, exec .relockFailed s = .next t ∧
    (s.getF F.csStatusRelockState = 1 → t.getF F.csStatusRelockState = 2 ∧ t.clk.attempts = s.clk.attempts + 1) ∧
    (s.getF F.csStatusRelockState = 2 → s.getF F.csCtrlRefSel ≠ 2 → t.getF F.csStatusRelockState = 5 ∧
      t.clk.retryDue = true ∧ t.getF F.fltPinCauseCause = (s.getF F.fltPinCauseCause ||| 2)) ∧
    (s.getF F.csStatusRelockState = 2 → s.getF F.csCtrlRefSel = 2 → t.getF F.csStatusRelockState = 2 ∧
      t.flag F.csStatusRefQualified = false ∧ t.flag F.csEventsRelockFailed = true) ∧
    (s.getF F.csStatusRelockState ≠ 1 → s.getF F.csStatusRelockState ≠ 2 → t = s)) ∧
  (∀ s : State, ∃ t, exec .relockRetryTimeout s = .next t ∧
    (s.getF F.csStatusRelockState = 5 → s.clk.retryDue = true → t.clk.retryDue = false ∧
      (t.getF F.csStatusRelockState = 2 ∨ t.getF F.csStatusRelockState = 4)) ∧
    (s.getF F.csStatusRelockState ≠ 5 ∨ s.clk.retryDue = false → t = s)) ∧
  ∀ (r : PinTest) (s : State), ∃ t, exec (.lockFiltPinTest r) s = .next t ∧
    t.getF F.csStatusLockFiltState = match r with | .ok => 1 | .open => 2 | .short => 3

/-- Declaration of lock (R56): a path whose condition holds during a relock or with lock has declared; when that makes the
path or paths that LOCK_SOURCE selects complete, LOCK_PATH names it. A write of TRIM stores it and the ramp follows,
or, under TRIM_RELOCK with a jump of more than 1 ppm and with lock, a relock takes the jump (R53, R55). A loss of lock
of the system PLL stops X04 from draining until it has lock again; BAR0 requests that arrive meanwhile wait, and are
completed then in their order (R40). The operands of a declaration are the model's (log entry 61). -/
def Obligations.LockPathTrimAndSystemPll : Prop :=
  (∀ (analog : Bool) (mv err cycles : Nat) (s : State), ∃ t, exec (.spllLockDeclared analog mv err cycles) s = .next t ∧
    (∀ q : Reg, q.key ≠ Reg.csStatus.key → t.rd q = s.rd q) ∧
    ((s.flag F.csStatusSpllLocked = true ∨ s.getF F.csStatusRelockState = 1 ∨ s.getF F.csStatusRelockState = 2) →
      (analog = true → 800 < mv) → (analog = false → err ≤ 2 * s.getF F.csLockDetLockWin ∧
        s.getF F.csLockDetLockCount ≤ cycles) →
      t.clk.declaredA = (s.clk.declaredA || analog) ∧ t.clk.declaredD = (s.clk.declaredD || !analog) ∧
      t.clk.analogUsed = (s.clk.analogUsed || (analog && decide (s.getF F.csCtrlLockSource ≠ 1))) ∧
      (s.lockDeclared = false → t.lockDeclared = true → t.flag F.csStatusLockPath = !analog)) ∧
    ((analog = true → mv ≤ 800) → (analog = false → 2 * s.getF F.csLockDetLockWin < err) → t = s)) ∧
  (∀ (f : FnId) (v : Word) (s : State), s.carriesOut f 0x9010 = true →
    let jump := s.flag F.csCtrlTrimRelock = true ∧ s.flag F.csStatusSpllLocked = true ∧
      4295 < (signed 24 (v.toNat % 2 ^ 24) - s.trim).natAbs
    ∃ t, exec (.trimWrite f v) s = .next t ∧ (¬ jump → t.getF F.csTrimTrim = v.toNat % 2 ^ 24) ∧
      (jump → t.getF F.csStatusRelockState ∈ [1, 2, 4] ∧ t.clk.trimJump = some (signed 24 (v.toNat % 2 ^ 24)))) ∧
  (∀ s : State, ∃ t, exec .sysPllLockLoss s = .next t ∧ t.flag F.csStatusSyspllLocked = false ∧ t.clk.sysHeld = true ∧
    t.flag F.csEventsSyspllLoss = true) ∧
  (∀ s : State, ∃ u, exec .sysPllRelockDone s = .next { each runHeld s.clk.held u with pending := s.pending } ∧
    u.flag F.csStatusSyspllLocked = true ∧ u.clk.sysHeld = false ∧ u.clk.held = [] ∧ ∀ b, b < 8 → (u.bank b).x04 = 0) ∧
  ∀ (i : Instr) (f : FnId) (p : PortId) (n : PairId) (b : BankId) (c : MbxId) (off : Nat) (w : Access.Width) (d : DWord)
    (v : Word) (h : BitVec 16) (x y : Fin 4) (e : Bool) (s : State), s.clk.sysHeld = true →
    i ∈ [Instr.registerWrite f false off w d, .evqPop f e, .relock f, .trimWrite f v, .refSelWrite f x y, .soFire f,
      .setReq f, .ppsEnWrite f e, .calStart f b v, .softReset f b, .xfStateWrite f v, .memRetireCmd f v, .ringEnable f n v,
      .ringDisable f n v, .epErrPop f e, .containRelease f v, .snapRead f h, .snapReadClear f h, .snapLoad f h,
      .slowDataWrite f v, .slowDataRead f, .mbxDoorbell f c h, .mbxHostEnable f v, .mbxHostAck f h, .pwrBankEnWrite f v,
      .fltPop p e, .fltPinCauseClear f v, .faultTest f e, .clearCounts f] →
    exec i s = .next (modClk (fun k => { k with held := k.held ++ [i] }) s)

/-- The reference (R41, R42, R61, R65, R96): REFCLK qualifies: a wait for it ends in a relock; under AUTO a relock toward
XO_IN turns to it, and a locked PLL on XO_IN returns to it, without unlocking where its phase is near or the phase is
to be slewed away, else through a relock; elsewhere the PLL goes on. Its loss disqualifies it, and is a loss of lock
where it is the input of a locked PLL; under AUTO the measured nominal is adopted, a change of it by a full relock;
the end of a hitless return. A relock toward XO_IN that turns to REFCLK, and a measurement without a nominal, are the
model's choice (log entry 61); the phase is an operand (log entry 94). -/
def Obligations.ReferenceChangesAreFollowed : Prop :=
  (∀ (e : Int) (s : State), s.flag F.csStatusRefQualified = true → exec (.refclkQualified e) s = .next s) ∧
  (∀ (e : Int) (s : State), s.flag F.csStatusRefQualified = false →
    let st := s.getF F.csStatusRelockState
    let auto := s.getF F.csCtrlRefSel = 2 ∧ s.flag F.csStatusSpllInput = false
    let near := e.natAbs ≤ 256 ∨ s.flag F.timeCtrlRefReturn = false
    ∃ t, exec (.refclkQualified e) s = .next t ∧
      (st = 4 → t.getF F.csStatusRelockState ∈ [1, 2] ∧ t.flag F.csStatusRefQualified = true) ∧
      (st ≠ 4 → auto → (st = 1 ∨ st = 2) → t.getF F.csStatusRelockState ∈ [1, 2] ∧ t.flag F.csStatusSpllInput = true) ∧
      (st ≠ 4 → ¬ auto → t.getF F.csStatusRelockState = st ∧ t.flag F.csStatusRefQualified = true) ∧
      (st = 0 → auto → s.flag F.csStatusSpllLocked = true → near → t.getF F.csStatusRelockState = 3 ∧
        t.flag F.csStatusSpllInput = true ∧ t.flag F.csStatusSpllLocked = true) ∧
      (st = 0 → auto → s.flag F.csStatusSpllLocked = true → ¬ near → t.getF F.csStatusRelockState ∈ [1, 2, 4])) ∧
  (∀ s : State, s.flag F.csStatusRefQualified = true →
    ∃ t, exec .refclkLost s = .next t ∧ t.flag F.csStatusRefQualified = false ∧ t.flag F.csEventsLossOfRef = true ∧
      (s.flag F.csStatusSpllInput = true → s.flag F.csStatusSpllLocked = true →
        t.flag F.csEventsLossOfLock = true ∧ t.getF F.csStatusRelockState ∈ [1, 2, 4])) ∧
  (∀ s : State, s.flag F.csStatusRefQualified = false → exec .refclkLost s = .next s) ∧
  (∀ (n : Fin 3) (offset : Int) (s : State), s.getF F.csCtrlRefFreq = 3 →
    let same := s.getF F.csStatusRefFreqActive = 3 ∨ s.getF F.csStatusRefFreqActive = n
    ∃ t, exec (.refFreqAutoMeasure (some n) offset) s = .next t ∧
      (same → t.getF F.csStatusRefFreqActive = n ∧
        (-10000 ≤ offset → offset ≤ 10000 → signed 16 (t.getF F.csRefMeasRefOffset) = offset)) ∧
      (¬ same → t.getF F.csStatusRelockState ∈ [2, 4])) ∧
  (∀ (offset : Int) (s : State), exec (.refFreqAutoMeasure none offset) s = .next s) ∧
  (∀ (n : Option (Fin 3)) (offset : Int) (s : State), s.getF F.csCtrlRefFreq ≠ 3 →
    exec (.refFreqAutoMeasure n offset) s = .next s) ∧
  ∀ (err : Int) (s : State), ∃ t, exec (.refReturnComplete err) s = .next t ∧
    (s.getF F.csStatusRelockState = 3 → err.natAbs ≤ 10 → t.getF F.csStatusRelockState = 0 ∧ t.cic.returning = false ∧
      t.cic.slewing = false ∧ (s.cic.slewing = true → t.flag F.timeEventsReconverged = true)) ∧
    (s.getF F.csStatusRelockState ≠ 3 ∨ 10 < err.natAbs → t = s)

/-- Divider alignment and SYNC_OUT (R48 to R52): an edge of SYNC_IN that the mode takes waits for its restart, (8 +
SYNC_LATENCY) VCO cycles after the next reference edge; the restart is counted and ends the wait; in mode ONCE it
needs SYNC_ARM. SO_FIRE waits for its pulse; a pulse that the mode gives leaves with its width and delay, and at no
other instant does one leave. SO_FIRE outside ONCE, and the outputs that a restart moves, are the model's choice (log
entry 93). -/
def Obligations.SyncInAndOut : Prop :=
  (∀ (u : Label) (s : State), ∃ t, exec (.syncInEdge u) s = .next t ∧ t.regs = s.regs ∧
    (s.getF F.csCtrlRefSel ≠ 0 → s.flag F.csStatusSpllInput = true → s.flag F.csStatusOutputsGated = false →
      s.getF F.csStatusRelockState ≠ 1 → s.getF F.csStatusRelockState ≠ 2 →
      (s.flag F.csSyncCtrlSyncMode = true ∨ s.flag F.csSyncCtrlSyncArm = true) →
      t.clk.syncDue = s.clk.syncDue ++ [s.elapsed + (u - s.now) + (8 + s.getF F.csSyncCtrlSyncLatency) * 40]) ∧
    (s.getF F.csCtrlRefSel = 0 ∨ s.flag F.csStatusSpllInput = false ∨ s.flag F.csStatusOutputsGated = true ∨
      (s.flag F.csSyncCtrlSyncMode = false ∧ s.flag F.csSyncCtrlSyncArm = false) → t = s)) ∧
  (∀ (moved : BitVec 6) (d : Int) (s : State), s.clk.syncDue = [] ∨ s.flag F.csStatusOutputsGated = true →
    exec (.syncRestart moved d) s = .next s) ∧
  (∀ (moved : BitVec 6) (d : Int) (due : Nat) (r : List Nat) (s : State), s.clk.syncDue = due :: r →
    s.flag F.csStatusOutputsGated = false →
    ∃ t, exec (.syncRestart moved d) s = .next t ∧ t.clk.syncDue = r ∧
      (s.flag F.csSyncCtrlSyncMode = true ∨ s.flag F.csSyncCtrlSyncArm = true →
        t.getF F.csSyncStatusSyncAppliedCount = (s.getF F.csSyncStatusSyncAppliedCount + 1) % 65536 ∧
        t.flag F.csSyncStatusLastRefused = s.captureHeld ∧
        (s.flag F.csSyncCtrlSyncMode = false → t.flag F.csSyncCtrlSyncArm = false)) ∧
      (s.flag F.csSyncCtrlSyncMode = false → s.flag F.csSyncCtrlSyncArm = false → t.regs = s.regs)) ∧
  (∀ (f : FnId) (s : State), s.carriesOut f 0x9028 = true →
    ∃ t, exec (.soFire f) s = .next t ∧ t.regs = s.regs ∧
      t.clk.soFire = if s.getF F.csSyncoutCtrlSoMode = 3 then s.elapsed + 1 else s.clk.soFire) ∧
  (∀ (u : Label) (per : Nat) (s : State), s.outPeriod 5 = some per → (advanceTo u s).syncOutDue per = true →
    ∃ t, exec (.syncOutPulse u) s = .next t ∧
      t.out = .syncOut u (s.getF F.csSyncoutCtrlSoWidth) ((advanceTo u s).outDelay 5) :: s.out ∧
      t.clk.soFire = 0 ∧ t.regs = s.regs) ∧
  ∀ (u : Label) (s : State), (∀ per, s.outPeriod 5 = some per → (advanceTo u s).syncOutDue per = false) →
    exec (.syncOutPulse u) s = .next { advanceTo u s with pending := s.pending }

/-! ### Time -/

/-- PPS (R80 to R84): an edge of the selected polarity is measured: in the window, or as the first one, it is accepted; a
second one of an interval, or one outside the window, is an outlier. The next interval begins anew; one without an
accepted edge is reported, and without a measured one PPS_ALIGNED clears; PPS_EN takes the value written. SET_REQ and
TIME_SET (R88, R330): the load of SECONDS is pending for a second boundary at least 1,280 ticks later; a VF may not.
Counting of the edges and the value that a pending load takes are the model's choice (log entry 57). -/
def Obligations.PpsEdgesAndSecondsLoads : Prop :=
  (∀ (e : Label) (rising : Bool) (s : State), s.flag F.timeCtrlPpsEn = true → s.flag F.csStatusOutputsGated = false →
    (rising = true ↔ s.getF F.timeCtrlPpsEdge = 0) →
    let near := s.flag F.timeStatusPpsAligned = false ∨ (s.ppsError e).natAbs ≤ s.getF F.timePpsCfgPpsWindow
    ∃ t, exec (.ppsEdge e rising) s = .next t ∧ t.cic.measured = true ∧
      (s.cic.accepted = false → near → t.cic.accepted = true ∧ t.cic.lastPps = e ∧ t.cic.outliers = []) ∧
      (s.cic.accepted = true ∨ ¬ near → t.flag F.timeEventsPpsOutlier = true)) ∧
  (∀ (e : Label) (rising : Bool) (s : State), (s.flag F.timeCtrlPpsEn = false ∨ s.flag F.csStatusOutputsGated = true ∨
      ¬ (rising = true ↔ s.getF F.timeCtrlPpsEdge = 0)) →
    exec (.ppsEdge e rising) s = .next { advanceTo e s with pending := s.pending }) ∧
  (∀ s : State, ∃ t, exec .ppsIntervalEnd s = .next t ∧ t.cic.accepted = false ∧ t.cic.measured = false ∧
    (s.flag F.timeCtrlPpsEn = true → s.cic.accepted = false → t.flag F.timeEventsPpsMissing = true ∧
      (s.cic.measured = false → t.flag F.timeStatusPpsAligned = false))) ∧
  (∀ (f : FnId) (en : Bool) (s : State), s.carriesOut f 0x8000 = true →
    ∃ t, exec (.ppsEnWrite f en) s = .next t ∧ t.flag F.timeCtrlPpsEn = en ∧
      (en = false → t.flag F.timeStatusPpsAligned = false ∧ t.cic.accepted = false)) ∧
  (∀ (f : FnId) (s : State), s.carriesOut f 0x802C = true →
    ∃ t, exec (.setReq f) s = .next t ∧ t.cic.setAt = some (s.setSeconds, s.elapsed + 1280) ∧
      t.flag F.timeStatusSetPending = true) ∧
  (∀ (c : Cmd) (seconds : Nat) (s : State), isPf c.fn = true → seconds < 2 ^ 40 →
    ∃ t, exec (.timeSet c seconds) s = .next t ∧ t.cic.setAt = some (seconds, s.elapsed + 1280) ∧
      t.cic.setCmd = some c ∧ t.flag F.timeStatusSetPending = true) ∧
  ∀ (c : Cmd) (seconds : Nat) (s : State), isPf c.fn = false → c.index < 65536 →
    ∃ t, exec (.timeSet c seconds) s = .next t ∧ t.cic = s.cic ∧ Completed s t c 0x0D stNotOwner 0 0

/-- A good frame of the Karing time code is shown in TIME_KTC_STATUS (R90, R91); one whose delimiter, length or CRC fails
is counted as bad and changes nothing of it. At a second boundary the keep-alive counter takes the main counter (R32),
and the present boundary is marked. VERSION other than 1 and the marking of the boundary are the model's (log entries
58 and 91). -/
def Obligations.KaringFramesAndSecondBoundaries : Prop :=
  (∀ (at_ : Label) (frame : List Byte) (s : State), frame.length = 11 →
    leAt frame 9 2 = (karingCrc (frame.take 9)).toNat → leAt frame 0 1 = 1 →
    51200000000 ≤ subsecOf at_ → subsecOf at_ ≤ 460800000000 →
    ∃ t, exec (.ktcFrame at_ frame true) s = .next t ∧ t.getF F.timeKtcStatusKtcVersion = 1 ∧
      t.getF F.timeKtcStatusEpoch = leAt frame 6 2 ∧ t.getF F.timeKtcStatusLeap = leAt frame 8 1 % 4 ∧
      t.cic.ktcNow = true) ∧
  (∀ (at_ : Label) (frame : List Byte) (ok : Bool) (s : State),
    (ok = false ∨ frame.length ≠ 11 ∨ leAt frame 9 2 ≠ (karingCrc (frame.take 9)).toNat) →
    ∃ t, exec (.ktcFrame at_ frame ok) s = .next t ∧ t.flag F.timeEventsKtcBad = true ∧
      t.rd .timeKtcStatus = s.rd .timeKtcStatus ∧ t.cic = s.cic) ∧
  ∀ s : State, ∃ t, exec .secondBoundary s = .next t ∧ (t.noCore = false → t.cic.keepAlive = t.now) ∧
    (t.now % ticksPerSecond = 0 → t.cic.boundaryAt = t.now + 1)


/-- The CRC of a Karing frame (R90): bit by bit, the most significant bit of each byte first, the register shifts up and takes
0x1021 where the bit that leaves it differs from the byte's; it begins at 0xFFFF and is not inverted. "123456789" in ASCII gives
0x29B1. -/
def Obligations.KaringCrcIsTheRules : Prop :=
  (∀ bs : List Byte, karingCrc bs = bs.foldl (fun c b => (List.range 8).foldl (fun (c : BitVec 16) k =>
    (c <<< 1) ^^^ (if c.getLsbD 15 ≠ b.getLsbD (7 - k) then 0x1021 else 0)) c) 0xFFFF) ∧
  karingCrc [0x31, 0x32, 0x33, 0x34, 0x35, 0x36, 0x37, 0x38, 0x39] = 0x29B1

/-! ### Front end -/

/-- A crossing of an input (R110, R113, R115, R116): the comparator's state follows it, unless the bank is in single mode and the
comparator is L, its inputs are disconnected or its domain is off. Where the capture outputs run and the bank is not stopped, a
change at 3.2 GS/s is labelled, and enters the crossing stream, or, less than 160 ticks after the one before, is removed with
it: TDC_MERGE is set. No other crossing enters the stream. -/
def Obligations.CrossingsAreLabelled : Prop :=
  ∀ (b : BankId) (c : ChanId) (cmp : Cmp) (rising : Bool) (tPin : Label) (s : State),
    let lvl (u : State) : Bool := (match cmp with | .u => (u.bank b).lvlU | .l => (u.bank b).lvlL).getLsbD c
    let dead := ((s.flagL (F.feBankCtrlCmpMode b) = true ∨ (s.bank b).slow = true) ∧ cmp = .l) ∨ s.disconnected b = true ∨
      s.domainOff (10 + b) = true
    let quiet := s.noSample = true ∨ s.flag (F.feBankStatusStopped b) = true
    let label := s.crossLabel b c tPin
    let last := spGet 0 (cmpKey c cmp) (s.bank b).lastX
    ∃ t, exec (.channelCrossing b c cmp rising tPin) s = .next t ∧
      (dead → lvl t = lvl s) ∧ (¬ dead → lvl t = rising) ∧
      (¬ dead → ¬ quiet → lvl s = !rising → (s.bank b).slow = false → (last = 0 ∨ last - 1 + 160 ≤ label) →
        ({ label := label, chan := c, cmp := cmp, rising := rising } : Crossing) ∈ (t.bank b).cross) ∧
      (¬ dead → ¬ quiet → lvl s = !rising → (s.bank b).slow = false → last ≠ 0 → label < last - 1 + 160 →
        t.flag (F.feBankEventsTdcMerge b) = true ∧ ∀ e ∈ (t.bank b).cross, e ∈ (s.bank b).cross) ∧
      (s.bankBegun b = true → (dead ∨ quiet ∨ lvl s = rising) → (t.bank b).cross = (s.bank b).cross)

/-- Edges of a state clock and of TRIGIN are labelled with their deskew (R119, R120, R179): a bank of a state-mode partition that
samples keeps the label of the last edge, unless the two edges of a phase of 99 ticks or fewer are removed; elsewhere the edge
changes no bank. The level of TRIGIN follows the pin; where the capture outputs run its event goes to every armed partition. -/
def Obligations.ClockAndTriggerEdgesAreLabelled : Prop :=
  (∀ (b : BankId) (rising : Bool) (tPin : Label) (s : State),
    let label := tPin + s.getL (F.feStclkCfgStclkDeskew b)
    let last := (s.bank b).stEdge
    let takes := (∃ p, s.partOf b = some p ∧ s.stateMode p = true) ∧ s.noSample = false ∧
      s.flag (F.feBankStatusStopped b) = false ∧ s.disconnected b = false
    ∃ t, exec (.stclkEdge b rising tPin) s = .next t ∧
      (takes → (last = 0 ∨ last - 1 + 100 ≤ label) → (t.bank b).stEdge = label + 1) ∧
      (takes → last ≠ 0 → label < last - 1 + 100 → (t.bank b).stEdge = 0 ∧ t.flag (F.feBankEventsStclkMerge b) = true) ∧
      (¬ takes → t.banks = s.banks ∧ t.regs = s.regs)) ∧
  ∀ (n : Fin 4) (rising : Bool) (tPin : Label) (s : State), ∃ t, exec (.triginEdge n rising tPin) s = .next t ∧
    t.flags.triginLevel.getLsbD n = (rising != (s.getF F.triginCfgTriginPol).testBit n) ∧
    (s.noCore = true → t.seqs = s.seqs) ∧
    (s.noCore = false → ∀ p, p < 8 → ((s.part p).armed = true → ∃ e : Ev, (t.seq p).inbox = (s.seq p).inbox ++ [e] ∧
        e.time = tPin + s.getF (F.triginDeskewDeskew n) ∧ e.exact = true ∧ e.sel % 4 = n) ∧
      ((s.part p).armed = false → t.seq p = s.seq p))

/-- Calibration (R125 to R128): a write with START and a mask that is not 0 runs the lowest step of the mask, or is
refused where none may start; a write without START only sets the fields; EXT_TIMEOUT 0 is refused. A step that
completes is valid and the next one of the mask runs; after the last the calibration ends. Step 4 aborts without 64
channels with edges, or where a DESKEW exceeds 2,047, and else gives every channel its DESKEW; without its edges in
time it aborts. The unit of the means, and that fewer than 64 of them abort step 4, are the model's choice (log entry
39). -/
def Obligations.CalibrationRuns : Prop :=
  (∀ (f : FnId) (b : BankId) (v : Word) (s : State), s.carriesOut f (0x10010 + b.val * 0x2000) = true →
    let starts := v.getLsbD 5 = true ∧ bitsOf v.toNat 0 5 ≠ 0
    ∃ t, exec (.calStart f b v) s = .next t ∧
      (bitsOf v.toNat 8 8 ≠ 0 → starts → s.calAllowed b = true → t.flag (F.feBankStatusCalRunning b) = true ∧
        t.getF (F.feCalStatusStepsDone b) = 0 ∧ ∀ k, k < 5 → (bitsOf v.toNat 0 5).testBit k = true →
          (∀ j, j < k → (bitsOf v.toNat 0 5).testBit j = false) → t.getF (F.feCalStatusStepRunning b) = 2 ^ k) ∧
      (bitsOf v.toNat 8 8 ≠ 0 → ¬ starts → t.getF (F.feCalCtrlSteps b) = bitsOf v.toNat 0 5 ∧
        t.getF (F.feCalCtrlExtTimeout b) = bitsOf v.toNat 8 8 ∧
        t.flag (F.feBankStatusCalRunning b) = s.flag (F.feBankStatusCalRunning b)) ∧
      (bitsOf v.toNat 8 8 = 0 ∨ (starts ∧ s.calAllowed b = false) → t.flag (F.feBankEventsCfgRefused b) = true ∧
        t.rd (.feCalCtrl b) = s.rd (.feCalCtrl b) ∧
        t.flag (F.feBankStatusCalRunning b) = s.flag (F.feBankStatusCalRunning b))) ∧
  (∀ (b : BankId) (temp : Int) (means : List Nat) (s : State),
    let run := s.getF (F.feCalStatusStepRunning b)
    let ds := means.map (deskewOf (means.max?.getD 0))
    let fails := run = 16 ∧ (ds.length < 64 ∨ ds.any (fun d => decide (2047 < d)) = true)
    ∃ t, exec (.calStepDone b temp means) s = .next t ∧
      (s.flag (F.feBankStatusCalRunning b) = false → t = s) ∧
      (s.flag (F.feBankStatusCalRunning b) = true → ¬ fails → means.length ≤ 64 →
        (∀ k, k < 5 → run = 2 ^ k → (t.getF (F.feBankStatusStepsValid b)).testBit k = true) ∧
        (∀ j r, (s.bank b).calSteps = j :: r → j < 5 → t.getF (F.feCalStatusStepRunning b) = 2 ^ j ∧
          (t.bank b).calSteps = r ∧ t.flag (F.feBankStatusCalRunning b) = true) ∧
        ((s.bank b).calSteps = [] → t.getF (F.feCalStatusStepRunning b) = 0 ∧
          t.flag (F.feBankStatusCalRunning b) = false ∧ t.flag (F.feBankEventsCalDone b) = true) ∧
        (run = 16 → ds.length = 64 → ∀ c : ChanId, t.getF (F.chCfgDeskew b c) = ds.getD c 0)) ∧
      (s.flag (F.feBankStatusCalRunning b) = true → fails → t.flag (F.feBankStatusCalRunning b) = false ∧
        t.getF (F.feCalStatusAbortReason b) = if ds.length < 64 then 3 else 4)) ∧
  ∀ (b : BankId) (s : State), ∃ t, exec (.calExtTimeout b) s = .next t ∧
    (s.flag (F.feBankStatusCalRunning b) = true → s.getF (F.feCalStatusStepRunning b) = 16 →
      t.flag (F.feBankStatusCalRunning b) = false ∧ t.getF (F.feCalStatusAbortReason b) = 3 ∧ (t.bank b).calSteps = []) ∧
    (s.flag (F.feBankStatusCalRunning b) = false ∨ s.getF (F.feCalStatusStepRunning b) ≠ 16 → t = s)

/-- Bank faults and soft resets (R133, R134): a fault marks the bank; a soft reset runs, its end clears FAULT and what the
bank had in its crossing stream; a bank stopped for it resumes at the first frame boundary 9 core cycles or more
later: STOPPED clears, and at no other instant. A bank that is not armed goes through the same operations by the
model's choice (log entry 38). -/
def Obligations.BankFaultsAndSoftResets : Prop :=
  (∀ (b : BankId) (code : Fin 256) (chan : ChanId) (s : State), ∃ t, exec (.bankFault b code chan) s = .next t ∧
    (t.bank b).faulted = true ∧ (t.bank b).softDone = false) ∧
  (∀ (f : FnId) (b : BankId) (s : State), s.carriesOut f (0x10000 + b.val * 0x2000) = true →
    ∃ t, exec (.softReset f b) s = .next t ∧ (t.bank b).softRun = true ∧ (t.bank b).softDone = false) ∧
  (∀ (b : BankId) (s : State), ∃ t, exec (.softResetDone b) s = .next t ∧
    ((s.bank b).softRun = true → (t.bank b).softRun = false ∧ t.flag (F.feBankStatusFault b) = false ∧
      (t.bank b).cross = [] ∧ (t.bank b).softDone = s.flag (F.feBankStatusStopped b) ∧
      (t.bank b).softAt = s.elapsed + 1) ∧
    ((s.bank b).softRun = false → t = s)) ∧
  ∀ (b : BankId) (x : Label) (s : State),
    let s1 := advanceTo x s
    let resumes := (s1.bank b).softDone = true ∧ frameOf x = x ∧
      (s1.bank b).softAt + 9 * ticksPerCore + (s1.now - x) ≤ s1.elapsed + 1
    ∃ t, exec (.bankResume b x) s = .next t ∧
      (resumes → (∀ p, s.partOf b = some p → (s.part p).begun = none) → t.flag (F.feBankStatusStopped b) = false ∧
        (t.bank b).softDone = false ∧ (t.bank b).faulted = false) ∧
      (resumes → ∀ p, s.partOf b = some p → (s.part p).begun.isSome = true → (s.part p).gaps = [] →
        ∃ u v, v = settle p (resumeBank p b x u) ∧ u.flag (F.feBankStatusStopped b) = false ∧ (u.bank b).softDone = false ∧
          t = { (if (s.bank b).faulted then postBank b 0x1001 b v else v) with pending := s.pending }) ∧
      (¬ resumes → t = { s1 with pending := s.pending })

/-! ### Detectors and sequencers -/

/-- A detector presents its earliest event to the sequencer of its partition, when that runs, and shows no further event
of the same sample (R149, R150). At the expiry that a detector's rule gives, the detectors of its bank have taken
every crossing up to that instant and have met every expiry up to it (R156, R158, R160); where none runs nothing
happens. That an expiry takes the crossings of its instant is the model's reading (log entries 37 and 42). -/
def Obligations.DetectorsPresentAndExpire : Prop :=
  (∀ (d : DetId) (s : State), ∃ t, exec (.detectorEvent d) s = .next t ∧
    (s.detPart d.val = none → t = s) ∧
    ∀ (p : Nat) (e : Ev) (r : List Ev), s.detPart d.val = some p → (s.det d.val).events = e :: r →
      (t.det d.val).events = r ∧ (t.det d.val).shown = some e.sample ∧
      (s.flag (F.seqStatusRunning p) = true → (t.seq p).inbox = (s.seq p).inbox ++ [e]) ∧
      (s.flag (F.seqStatusRunning p) = false → (t.seq p).inbox = (s.seq p).inbox)) ∧
  ∀ (d : DetId) (i : Instr) (at_ : Option Label) (s : State),
    (i, at_) ∈ [(Instr.timeoutExpiry d, s.timeoutAt d.val), (.skewExpiry d, s.skewAt d.val),
      (.patternLongerExpiry d, s.longerAt d.val)] →
    (at_ = none ∨ s.detOn d.val = false → exec i s = .next s) ∧
    ∀ x, at_ = some x → s.detOn d.val = true →
      exec i s = .next { detsTo (d.val / 16) x (advanceTo x s) with pending := s.pending }

/-- Sequencers (R190, R191, R196, R202): a sample goes to one only while it runs, is not stopped and its clock is there,
else time alone advances; a sample that it takes is the former one of the next. The instant of a timer's expiry comes.
A write of XF_STATE queues the host's value of every flag its mask selects for the core cycle that accepts it. That
flags move by core cycle is the model's reading (log entry 44). -/
def Obligations.SequencersTakeSamplesTimersAndFlags : Prop :=
  (∀ (p : PartId) (x : Label) (s : State), ((s.seq p).running = false ∨ (s.seq p).stopped = true ∨ s.noCore = true) →
    exec (.sequencerSample p x) s = .next { advanceTo x s with pending := s.pending }) ∧
  (∀ (p : PartId) (x : Label) (s : State), (s.seq p).running = true → (s.seq p).stopped = false → s.noCore = false →
    ∃ u, exec (.sequencerSample p x) s = .next { settle p u with pending := s.pending } ∧ (u.seq p).prev = some x) ∧
  (∀ (p : PartId) (k : Fin 4) (s : State), exec (.tmrExpiry p k) s =
    .next { (match s.tmrExpiry p k with | some x => advanceTo x s | none => s) with pending := s.pending }) ∧
  ∀ (f : FnId) (v : Word) (s : State), s.carriesOut f 0x2C040 = true →
    ∃ t, exec (.xfStateWrite f v) s = .next t ∧ t.regs = s.regs ∧
      ∀ k, k < 8 → ((max s.flags.cycle (s.now / ticksPerCore), k, v.getLsbD k) ∈ t.flags.host ↔
        v.getLsbD (16 + k) = true ∨ (max s.flags.cycle (s.now / ticksPerCore), k, v.getLsbD k) ∈ s.flags.host)

/-! ### Records -/

/-- An 80-bit time in a record (R256): SUBSEC[39:0] and SECONDS[23:0] in the first word of the pair, SECONDS[39:24] in bits
[15:0] of the second, whose other bits are the record type's, 0 where it names no field. A pair is absent when the first word
and bits [15:0] of the second are all ones, whatever the record type places beside them; no time reads as absent. -/
def Obligations.TimePairsSpellTheTime : Prop :=
  (∀ (t : Label) (rest : Nat), t < 2 ^ 40 * ticksPerSecond → rest < 2 ^ 48 →
    ∃ a b, timePair t rest = [a, b] ∧ optPair (some t) rest = [a, b] ∧
      bitsOf a.toNat 0 40 = subsecOf t ∧ bitsOf a.toNat 40 24 = secondsOf t % 2 ^ 24 ∧
      bitsOf b.toNat 0 16 = secondsOf t / 2 ^ 24 ∧ bitsOf b.toNat 16 48 = rest ∧
      ¬ (a = BitVec.allOnes 64 ∧ bitsOf b.toNat 0 16 = 0xFFFF)) ∧
  ∀ rest : Nat, rest < 2 ^ 48 → ∃ a b, absentPair rest = [a, b] ∧ optPair none rest = [a, b] ∧
    a = BitVec.allOnes 64 ∧ bitsOf b.toNat 0 16 = 0xFFFF ∧ bitsOf b.toNat 16 48 = rest

/-! ### Boundaries and segments -/

/-- At a boundary of its blocks an armed partition that waits begins its armed interval (R4, R259), unless a time step holds it
back; one that has begun ends the blocks up to the boundary, and words of them that fail parity stay poisoned (R30, R250);
elsewhere time alone advances. At a frame boundary the counts of removed pairs move on, and where no armed interval has begun the
staged values of ENC_CTRL apply (R8, R10). -/
def Obligations.BoundariesBeginIntervalsAndApplyFields : Prop :=
  (∀ (p : PartId) (x : Label) (l : List (CrossingId × Nat)) (s : State), (s.part p).armed = false ∨ s.noCore = true →
    exec (.blockBoundary p x l) s = .next { advanceTo x s with pending := s.pending }) ∧
  (∀ (p : PartId) (x : Label) (l : List (CrossingId × Nat)) (s : State), (s.part p).armed = true → s.noCore = false →
    (s.part p).begun = none →
    exec (.blockBoundary p x l) s = .next { (if (advanceTo x s).onBlock p x && s.cic.resumeAt.isNone then
      beginInterval p x (advanceTo x s) else advanceTo x s) with pending := s.pending }) ∧
  (∀ (p : PartId) (x : Label) (l : List (CrossingId × Nat)) (s : State), (s.part p).armed = true → s.noCore = false →
    (s.part p).begun ≠ none →
    exec (.blockBoundary p x l) s =
      .next { failWrites p (s.part p).writePos l (blocksTo p x (advanceTo x s)) with pending := s.pending }) ∧
  ∀ (x : Label) (s : State), ∃ t, exec (.frameStart x) s = .next t ∧
    (frameOf x ≠ x → t = { advanceTo x s with pending := s.pending }) ∧
    (frameOf x = x → (∀ p, p < 8 → (s.part p).begun = none ∧ (s.part p).gaps = []) → t.now = max s.now x ∧
      (∀ b, b < 8 → (t.bank b).merged = (s.bank b).mergedNext ∧ (t.bank b).mergedPrev = (s.bank b).merged ∧
        (t.bank b).mergedNext = 0) ∧
      (s.noCore = false → (∀ b, b < 8 → spGet 0 (stagedKey (.encCtrl b)) s.stamps = 0) →
        ∀ b, b < 8 → t.getL (F.encCtrlEncPolicy b) = s.getF (F.encCtrlEncPolicy b)))

/-- Marks of segments and deliveries (R217, R234, R240, R344): the end of the re-arm interval; early shipping is throttled
while the backlog of a port of the partition's deliveries is above EARLY_BACKLOG, or that is 0, and no more once all
are at half of it; a moderation time that ends signals; an orphan that waited long enough is destroyed. EARLY_BACKLOG
0 always throttles by the model's reading (log entry 52). -/
def Obligations.SegmentAndDeliveryMarks : Prop :=
  (∀ (p : PartId) (s : State), ∃ t, exec (.rearmIntervalEnd p) s = .next t ∧ (t.part p).rearm = false ∧
    ∀ q, q ≠ p.val → t.part q = s.part q) ∧
  (∀ (p : PartId) (s : State),
    let lim := s.getF (F.partEarlyCfgEarlyBacklog p)
    let ns := (s.earlyPorts p).map s.portBacklog
    let keeps := ns = [] ∨ s.mgmt.scarabDown = true ∨ s.flag (F.partEarlyCfgThrottleOverride p) = true
    ∃ t, exec (.earlyThrottleChange p) s = .next t ∧ (keeps → t = s) ∧
      (¬ keeps → (lim = 0 ∨ ∃ n ∈ ns, lim < n) → t.flag (F.partStatusEarlyThrottled p) = true) ∧
      (¬ keeps → lim ≠ 0 → (∀ n ∈ ns, n ≤ lim / 2) → t.flag (F.partStatusEarlyThrottled p) = false) ∧
      (lim ≠ 0 → (∀ n ∈ ns, n ≤ lim) → (∃ n ∈ ns, lim / 2 < n) → t = s)) ∧
  (∀ (f : FnId) (pair : PairId) (s : State), ∃ t, exec (.modTimeExpiry f pair) s = .next t ∧
    (s.getF (F.rcModModTime f pair) ≠ 0 → (t.pair f pair).unsignalled = 0) ∧
    (s.getF (F.rcModModTime f pair) = 0 ∨ (s.pair f pair).unsignalled = 0 → t = s)) ∧
  ∀ (p : PartId) (s : State),
    (s.exists_ p = true → s.orphan p = true →
      exec (.orphanTimeout p) s = .next { lowPower (destroyPart p 0x1305 s) with pending := s.pending }) ∧
    (s.exists_ p = false ∨ s.orphan p = false → exec (.orphanTimeout p) s = .next s)

/-- Segments move on by the shared rules of R217 to R235: a fixed first sample; the oldest complete fill, whose segment
becomes imago, empty where in state mode no sample was stored; the end of a continuous segment, at which the next one
opens; and the deliveries of what a segment or a read-back holds, where it is their turn on the read path (R290). That
turns count commands is the model's reading (log entry 96). -/
def Obligations.SegmentsMoveOn : Prop :=
  (∀ (p : PartId) (s : State),
    exec (.firstSampleFixed p) s = .next { settle p (fixReady p s) with pending := s.pending }) ∧
  (∀ (p : PartId) (s u : State), u = resolveEnds p (s.part p).blockAt s →
    ((u.part p).posts.find? (u.filled p) = none → exec (.fillComplete p) s = .next { u with pending := s.pending }) ∧
    ∀ g, (u.part p).posts.find? (u.filled p) = some g →
      exec (.fillComplete p) s = .next { settle p (fixReady p (makeImago p g.key (if u.continuous p then 5 else 0) false
        (if u.stateMode p = true ∧ g.start.isNone = true ∧ g.empty = false then emptySeg p g.key u else u)))
        with pending := s.pending }) ∧
  (∀ (p : PartId) (x : Label) (s : State),
    let opens := s.continuous p = true ∧ (s.part p).armed = true ∧ (∃ e, (s.part p).contE = some e ∧ e < x) ∧
      ∀ g ∈ (s.part p).posts, g.start.isSome = true
    (opens → exec (.continuousSegmentEnd p x) s =
      .next { settle p (openContinuous p x (advanceTo x s)) with pending := s.pending }) ∧
    (¬ opens → exec (.continuousSegmentEnd p x) s = .next { advanceTo x s with pending := s.pending })) ∧
  (∀ (f : FnId) (pair : PairId) (words : Nat) (e : ReadErrors) (s : State),
    let id := f.val * 8 + pair.val
    (∀ (d : Delivery) (g : Seg), s.servesEarly id = true → s.delivery id = some d → s.earlySeg id d = some g →
      exec (.earlyShipWrite f pair words e) s = .next { shipWords id d.part g.key words true e (modDelivery id
        (fun d => { d with now := some g.key }) (served 3 id (if d.now.isNone then writeSkip id s else s)))
        with pending := s.pending }) ∧
    (s.servesEarly id = false → exec (.earlyShipWrite f pair words e) s = .next s)) ∧
  (∀ (f : FnId) (pair : PairId) (words : Nat) (e : ReadErrors) (s : State),
    let id := f.val * 8 + pair.val
    (s.servesReadBack id = true → exec (.segmentDeliveryWrite f pair words e) s =
      .next { tryFetch f pair (shipReadBack f pair words e (served 2 id s)) with pending := s.pending }) ∧
    (s.servesReadBack id = false → s.servesCommitted id = false → exec (.segmentDeliveryWrite f pair words e) s = .next s) ∧
    ∀ d : Delivery, s.servesReadBack id = false → s.servesCommitted id = true → s.delivery id = some d →
      let u := takeNext id d.part (served 1 id s)
      exec (.segmentDeliveryWrite f pair words e) s = .next { (match (u.delivery id).bind Delivery.now with
        | some k => tryFetch f pair (shipWords id d.part k words false e u)
        | none => u) with pending := s.pending }) ∧
  ∀ (f : FnId) (pair : PairId) (s : State),
    let now := (s.delivery (f.val * 8 + pair.val)).bind Delivery.now
    (s.dmaOn f = false → exec (.segmentDeliveryDone f pair) s = .next s) ∧
    (s.dmaOn f = true → now = none →
      exec (.segmentDeliveryDone f pair) s = .next { tryFetch f pair (readBackDone f pair s) with pending := s.pending }) ∧
    ∀ (d : Delivery) (k : Nat), s.dmaOn f = true → s.delivery (f.val * 8 + pair.val) = some d → d.now = some k →
      exec (.segmentDeliveryDone f pair) s = .next { tryFetch f pair (settle d.part
        (deliverDone (f.val * 8 + pair.val) d.part k s)) with pending := s.pending }

/-! ### Capture memory -/

/-- A pseudo-channel that is found bad, by RETIRE_UE uncorrectable words within a second, by a command interface or a PHY
that does not answer, by a retrain that takes longer than 100 µs, and by the host, goes into retirement once (R300,
R301, R311); every retrain is counted (R536); the retirement ends with the page maps (R302), the mirror's rebuild
ends, a scrub pass is counted (R299). Nothing of it while HBM is not trained: the model's reading (log entry 62). -/
def Obligations.PseudoChannelsRetire : Prop :=
  (∀ (n : PcId) (cause : Fin 3) (s : State), ∃ t, exec (.pcRetireDetect n cause) s = .next t ∧
    let goes := s.flag F.memStatusTrained = true ∧ s.pcRetired n = false ∧ (∀ e ∈ s.mgmt.retiring, e.1 ≠ n.val) ∧
      (cause = 0 → s.getF F.memCtrlRetireUe ≤ s.ueCount n)
    (goes → t.mgmt.retiring = s.mgmt.retiring ++ [(n.val, cause.val)]) ∧ (¬ goes → t = s)) ∧
  (∀ (n : PcId) (us : Nat) (s : State), ∃ t, exec (.hbmPhyRetrain n us) s = .next t ∧
    let goes := s.flag F.memStatusTrained = true ∧ s.pcRetired n = false ∧ (∀ e ∈ s.mgmt.retiring, e.1 ≠ n.val) ∧ 100 < us
    t.getF (F.hbmPcTrainRetrains (n.val / 32) (n.val % 32)) =
      min 65535 (s.getF (F.hbmPcTrainRetrains (n.val / 32) (n.val % 32)) + 1) ∧
    (goes → t.mgmt.retiring = s.mgmt.retiring ++ [(n.val, 2)]) ∧ (¬ goes → t.mgmt.retiring = s.mgmt.retiring)) ∧
  (∀ (f : FnId) (v : Word) (s : State), s.carriesOut f 0x50018 = true →
    ∃ t, exec (.memRetireCmd f v) s = .next t ∧
      let n := bitsOf v.toNat 0 6
      let asks := v.getLsbD 31 = true ∧ s.flag F.memStatusTrained = true
      let refuses := s.pcRetired n = true ∨ s.getF F.memCapPcActive < 43 + s.mgmt.retiring.length
      (asks → ¬ refuses → (∀ e ∈ s.mgmt.retiring, e.1 ≠ n) → t.mgmt.retiring = s.mgmt.retiring ++ [(n, 3)]) ∧
      (asks → refuses → t.flag F.memEventsCfgRefused = true ∧ t.mgmt = s.mgmt) ∧
      (¬ asks → t.mgmt = s.mgmt)) ∧
  (∀ s : State, ∃ t, exec .mirrorRebuildDone s = .next t ∧ t.mgmt.mirrorDue = false ∧ t.regs = s.regs) ∧
  (∀ s : State, ∃ t, exec (.scrubPass [] []) s = .next t ∧ t.ctr 0x5080 =
    if s.flag F.memStatusTrained = true ∧ s.getF F.memCtrlScrubHours ≠ 0 then min ctrMax (s.ctr 0x5080 + 1)
    else s.ctr 0x5080) ∧
  (∀ (ce : List PcId) (ue : List (PcId × MemPlace)) (s : State),
    s.flag F.memStatusTrained = true → s.getF F.memCtrlScrubHours ≠ 0 → ∃ u, u = each (fun (e : PcId × MemPlace) s =>
        uncorrectable e.1 (e.2 == .reserved) (scrubPoison e.2 s)) ue (each (fun (n : PcId) => corrected n) ce s) ∧
      exec (.scrubPass ce ue) s = .next { bump 0x5080 1 u with pending := s.pending }) ∧
  ∀ s : State, (s.mgmt.retiring = [] → exec .remapDone s = .next s) ∧
    (s.mgmt.retiring ≠ [] → ∃ u, exec .remapDone s = .next { settleAll u with pending := s.pending } ∧
      u.mgmt.retiring = [] ∧ u.mgmt.mirrorDue = true ∧ u.flag F.memStatusRetiring = false)

/-- The allocator (R294) gives a starved partition pages of others; where every armed partition has its ring, each
partition only settles; without REBAL_EN, HBM or Scarab nothing happens. Storing resumes at a block boundary when no
cause of the interruption lasts (R59, R301, R453), while eclosion is under way in HBM only (R450); elsewhere the
blocks up to the boundary end. The eclosion clauses are the model's reading (log entry 79). -/
def Obligations.RebalanceAndResume : Prop :=
  (∀ s : State, (s.flag F.memCtrlRebalEn = false ∨ s.mgmt.scarabDown = true ∨ s.flag F.memStatusTrained = false) →
    exec .rebalanceTick s = .next s) ∧
  (∀ s : State, s.flag F.memCtrlRebalEn = true → s.mgmt.scarabDown = false → s.flag F.memStatusTrained = true →
    ∃ u, exec .rebalanceTick s = .next { settleAll u with pending := s.pending } ∧
      ((∀ p, p < 8 → (s.part p).armed = true → s.inStaging p = false → s.ringPages p ≤ (s.part p).ringNow) → u = s)) ∧
  ∀ (p : PartId) (x : Label) (s u : State), u = blocksTo p x (advanceTo x s) →
    let resumes := (u.part p).begun.isSome = true ∧ (u.part p).gaps ≠ [] ∧ u.onBlock p x = true ∧ u.heldBack p = false
    let waits := u.mgmt.eclosing = true ∧ u.inStaging p = true
    (¬ resumes → exec (.captureResume p x) s = .next { u with pending := s.pending }) ∧
    (resumes → ¬ waits → exec (.captureResume p x) s = .next { resumePart p x u with pending := s.pending }) ∧
    (resumes → waits → u.inEclosion p = false →
      exec (.captureResume p x) s = .next { stopStoring p 7 0 x u with pending := s.pending }) ∧
    (resumes → waits → u.inEclosion p = true → exec (.captureResume p x) s =
      .next { (if ((eclose u).part p).begun.isSome = true ∧ (eclose u).heldBack p = false then resumePart p x (eclose u)
        else eclose u) with pending := s.pending })

/-! ### Commands of the rings -/

/-- A command that names a partition that does not exist, or one that its function does not own (a PF passes where the
rule lets it), completes with INVALID_FIELD or NOT_OWNER and does nothing else (R218, R324). -/
def Obligations.PartitionCommandsAreGated : Prop :=
  ∀ (c : Cmd) (p st : Nat) (s : State), c.index < 65536 →
    (s.partGate c.fn p true = some st →
      (∃ t, exec (.partitionDestroy c p) s = .next t ∧ Completed s t c 0x02 st 0 0 ∧ Quiet s t) ∧
      (∃ t, exec (.disarm c p) s = .next t ∧ Completed s t c 0x07 st 0 0 ∧ Quiet s t) ∧
      (∀ modes target, ∃ t, exec (.grantIssue c p modes target) s = .next t ∧ Completed s t c 0x0B st 0 0 ∧ Quiet s t) ∧
      (∀ token, ∃ t, exec (.grantRevoke c p token) s = .next t ∧ Completed s t c 0x0B st 0 0 ∧ Quiet s t) ∧
      ∃ t, exec (.grantRevokeAll c p) s = .next t ∧ Completed s t c 0x0B st 0 0 ∧ Quiet s t) ∧
    (s.partGate c.fn p false = some st →
      ∃ t, exec (.forceTrigger c p) s = .next t ∧ Completed s t c 0x08 st 0 0 ∧ Quiet s t)

/-- PARTITION_CREATE (R64, R218, R325): with every field in range, its banks free and its ring fit, the partition exists,
owns its banks, and the command completes with OK; before the first partition, with the sample PLL off or relocking
for an earlier creation, the command waits for lock instead; in every other case it completes with the status of the
check that fails. The order of the checks is the model's reading (log entry 67). -/
def Obligations.PartitionsAreCreated : Prop :=
  ∀ (c : Cmd) (p : Nat) (banks : BitVec 8) (ring : Nat) (mode : BitVec 8) (contFrames pretrig posttrig : Nat) (s : State),
    c.index < 65536 →
    let fits := p ≤ 7 ∧ s.exists_ p = false ∧ (∀ e ∈ s.mgmt.orphans, e.1 ≠ p) ∧ banks ≠ 0 ∧
      (∀ b, b < 8 → banks.getLsbD b = true → s.partOf b = none ∧ s.bankDisabled b = false) ∧
      s.ringFree c.fn ring = true ∧ mode.toNat < 64 ∧ 1 ≤ contFrames ∧ contFrames ≤ 32000 ∧ pretrig < 2 ^ 48 ∧ posttrig < 2 ^ 48
    let waits := s.anyPart = false ∧ (s.domainOff 28 = true ∨ s.clk.creating ≠ [])
    ∃ t, exec (.partitionCreate c p banks ring mode contFrames pretrig posttrig) s = .next t ∧
      (fits → ¬ waits → t.exists_ p = true ∧ t.getF (F.partOwnerBanks p) = banks.toNat ∧
        (t.part p).ownerPair = some (c.fn * 8 + ring) ∧ Completed s t c 0x01 stOk 0 0) ∧
      (fits → waits → t.clk.creating =
        s.clk.creating ++ [.partitionCreate c p banks ring mode contFrames pretrig posttrig]) ∧
      (¬ fits → ∃ st, st ∈ [stInvalidField, stNoResource, stDomainDown] ∧ Completed s t c 0x01 st 0 0 ∧ Quiet s t)

/-- PARTITION_DESTROY, DISARM, FORCE_TRIGGER (R200, R218, R326): the destroyed partition's command completes after the
partition has gone; a disarmed one's after its armed interval has ended, and in IDLE at once; a FORCE_TRIGGER of an
armed partition waits for the next sample, and is refused in IDLE. That several FORCE_TRIGGERs share one trigger is
the model's choice (log entry 47). -/
def Obligations.PartitionsEndAndTrigger : Prop :=
  (∀ (c : Cmd) (p : Nat) (s : State), c.index < 65536 → s.partGate c.fn p true = none →
    ∃ t, exec (.partitionDestroy c p) s = .next t ∧ Completed (destroyPart p 0x1306 s) t c 0x02 stOk 0 0) ∧
  (∀ (c : Cmd) (p : Nat) (s : State), c.index < 65536 → s.partGate c.fn p true = none →
    let s1 := if (s.part p).armed then settle p (endArmed p 1 s.now s) else s
    ∃ t, exec (.disarm c p) s = .next t ∧ Completed s1 t c 0x07 stOk 0 0) ∧
  ∀ (c : Cmd) (p : Nat) (s : State), c.index < 65536 → s.partGate c.fn p false = none →
    ∃ t, exec (.forceTrigger c p) s = .next t ∧
      ((s.part p).armed = true → (t.seq p).force = (s.seq p).force ++ [c]) ∧
      ((s.part p).armed = false → Completed s t c 0x08 stInvalidField 0 0 ∧ Quiet s t)

/-- ARM (R64, R130, R218): a refused one completes with its status; an accepted one that needs no auto-threshold completes
when the partition is armed; one that does waits, and completes with the number of channels set once the sweeps end.
The order of the checks is the model's reading (log entry 65). -/
def Obligations.ArmCompletesOrWaits : Prop :=
  (∀ (c : Cmd) (p st : Nat) (s u : State), c.index < 65536 → armRefusal c.fn p (s.soon p) s = (some st, u) →
    ∃ t, exec (.arm c p) s = .next t ∧ Completed u t c 0x06 st 0 0 ∧ Quiet u t) ∧
  (∀ (c : Cmd) (p : Nat) (s u v : State), c.index < 65536 → armRefusal c.fn p (s.soon p) s = (none, u) →
    v = each clearAuto (u.banksOf p) (applyArm p u) →
    (v.autoBanks p = [] → ∃ t, exec (.arm c p) s = .next t ∧
      Completed (becomeArmed p ((s.soon p).ringFor p) v) t c 0x06 stOk 0 0) ∧
    (v.autoBanks p ≠ [] → ∃ t, exec (.arm c p) s = .next t ∧ (t.part p).arming = some c ∧
      (t.part p).armRing = (s.soon p).ringFor p ∧ t.regs = v.regs)) ∧
  (∀ (c : Cmd) (p : PartId) (swings : List (Nat × Option Nat × Option Nat)) (s u : State), c.index < 65536 →
    (s.part p).arming = some c → u = each (autoBank swings) (s.autoBanks p) s →
    ∃ t, exec (.autoThresholdDone p swings) s = .next t ∧
      Completed (becomeArmed p (s.part p).armRing u) t c 0x06 stOk ((s.autoBanks p).map u.autoSet).sum 0) ∧
  ∀ (p : PartId) (swings : List (Nat × Option Nat × Option Nat)) (s : State), (s.part p).arming = none →
    exec (.autoThresholdDone p swings) s = .next s

/-- BANK_CONFIG (R327): its checked words go through the slow-access unit, in order, and the last of them ends it; one that
fails a check, or selects no word, completes at once, and nothing is written. -/
def Obligations.BankConfigGoesThroughSlowAccess : Prop :=
  ∀ (c : Cmd) (bank : Nat) (flags : BitVec 8) (mask : BitVec 64) (image : List Word) (s : State), c.index < 65536 →
    let passes := bank ≤ 7 ∧ flags.toNat ≠ 0 ∧ flags.toNat < 4 ∧ s.mayConfig c.fn bank = true ∧
      (s.reducedService = false ∨ bank < 2) ∧ s.bankDisabled bank = false ∧ s.domainOff (10 + bank) = false ∧
      ∀ r ∈ bankRegs bank flags mask, r.rangeOk (image.getD ((r.off - (0x10000 + bank * 0x2000)) / 4) 0) = true
    ∃ t, exec (.bankConfig c bank flags mask image) s = .next t ∧
      (passes → t.slow.writes.map Prod.fst = s.slow.writes.map Prod.fst ++ (bankRegs bank flags mask).map Reg.off ∧
        (bankRegs bank flags mask ≠ [] → (t.slow.writes.getLast?.bind fun e => e.2.2) = some c) ∧
        (bankRegs bank flags mask = [] → Completed s t c 0x03 stOk 0 0)) ∧
      (¬ passes → Quiet s t ∧ ∃ st r, st ∈ [stInvalidField, stNotOwner, stBringup, stDomainDown] ∧
        Completed s t c 0x03 st r 0)

/-- Loads stage all their words or none (R167, R168, R205, R206, R329): a refused one changes no staged or live word and
completes with its status and the place of the first refused entry or word; an accepted one completes with OK. Which
of several refused words is named is the model's reading (log entry 99). -/
def Obligations.LoadsAreAllOrNone : Prop :=
  (∀ (c : Cmd) (p : Nat) (flags : BitVec 8) (entries : List (Nat × List Word)) (bad : Option Nat) (s : State),
    c.index < 65536 → ∃ t, exec (.detectorLoad c p flags entries bad) s = .next t ∧
      let fits := flags.toNat < 2 ∧ entries ≠ [] ∧ entries.length ≤ 136
      (¬ fits → Quiet s t ∧ Completed s t c 0x04 stInvalidField 0 0) ∧
      (∀ st, fits → s.partGate c.fn p false = some st → Quiet s t ∧ Completed s t c 0x04 st 0 0) ∧
      (∀ i st, fits → s.partGate c.fn p false = none →
        firstBadDet p bad (takeParams c s) 0 [] entries = some (i, st) → Quiet s t ∧ Completed s t c 0x04 st i 0) ∧
      (fits → s.partGate c.fn p false = none → firstBadDet p bad (takeParams c s) 0 [] entries = none →
        t.live = s.live ∧ Completed s t c 0x04 stOk 0 0)) ∧
  (∀ (c : Cmd) (p : Nat) (flags : BitVec 8) (levels : BitVec 16) (image : List Word) (s : State), c.index < 65536 →
    ∃ t, exec (.sequencerLoad c p flags levels image) s = .next t ∧
      let fits := flags.toNat ≠ 0 ∧ flags.toNat < 4 ∧ s.partGate c.fn p false = none
      let ws := seqImage p flags levels image
      let refusedAt := ((ws.filter fun e => !e.2.1.rangeOk e.2.2).map Prod.fst ++
        ((stageAll ws (takeParams c s)).seqBadWord p).toList).min?
      (¬ fits → Quiet s t ∧ ∃ st r, st ≠ stOk ∧ Completed s t c 0x05 st r 0) ∧
      (∀ o, fits → refusedAt = some o → Quiet s t ∧ Completed s t c 0x05 stInvalidField o 0) ∧
      (fits → refusedAt = none → Quiet (stageAll ws (takeParams c s)) t ∧ Completed s t c 0x05 stOk 0 0)) ∧
  ∀ (c : Cmd) (p : Nat) (select : BitVec 8) (block : List Word) (s : State), c.index < 65536 →
    ∃ t, exec (.policySet c p select block) s = .next t ∧
      let s1 := takeParams c s
      let fits := select.toNat ≠ 0 ∧ select.toNat < 32 ∧ s.partGate c.fn p true = none ∧
        (select.getLsbD 3 = false ∨ isPf c.fn = true)
      let ws := policyWords p select (s1.banksOf p) fun k => block.getD k 0
      (¬ fits → Quiet s t ∧ ∃ st, st ≠ stOk ∧ Completed s t c 0x0F st 0 0) ∧
      (∀ o, fits → s1.policyBad p ws (fun k => block.getD k 0) = some o → Quiet s t ∧
        Completed s t c 0x0F stInvalidField o 0) ∧
      (fits → s1.policyBad p ws (fun k => block.getD k 0) = none →
        Completed (settle p (stageAll ws s1)) t c 0x0F stOk 0 0)

/-- Grants (R338): ISSUE answers a token that is not 0 and was not live, and it is live from then on; REVOKE ends one,
REVOKE_ALL ends all; an ISSUE out of range is refused, a ninth token too, and a REVOKE of a token that is not live. A
TARGET with bits [14:7] set is refused by the model's reading (log entry 68). -/
def Obligations.GrantTokensLive : Prop :=
  (∀ (c : Cmd) (p : Nat) (modes : BitVec 8) (target : BitVec 16) (s : State), c.index < 65536 →
    s.partGate c.fn p true = none → ∃ t, exec (.grantIssue c p modes target) s = .next t ∧
      let fits := modes.toNat ≠ 0 ∧ modes.toNat < 4 ∧ targetOk target.toNat = true
      (¬ fits → Quiet s t ∧ Completed s t c 0x0B stInvalidField 0 0) ∧
      (fits → 8 ≤ (s.part p).tokens.length → Quiet s t ∧ Completed s t c 0x0B stNoResource 0 0) ∧
      (fits → (s.part p).tokens.length < 8 → ∃ v, v ≠ 0 ∧ v < 65536 ∧ (∀ k ∈ (s.part p).tokens, k.value ≠ v) ∧
        (t.part p).tokens = { value := v, modes := modes.toNat, target := target.toNat } :: (s.part p).tokens ∧
        Completed s t c 0x0B stOk v 0)) ∧
  (∀ (c : Cmd) (p token : Nat) (s : State), c.index < 65536 → s.partGate c.fn p true = none →
    ∃ t, exec (.grantRevoke c p token) s = .next t ∧ (∀ k ∈ (t.part p).tokens, k.value ≠ token) ∧
      Completed s t c 0x0B (if (s.part p).tokens.any fun k => k.value == token then stOk else stInvalidField) 0 0) ∧
  ∀ (c : Cmd) (p : Nat) (s : State), c.index < 65536 → s.partGate c.fn p true = none →
    ∃ t, exec (.grantRevokeAll c p) s = .next t ∧ (t.part p).tokens = [] ∧ Completed s t c 0x0B stOk 0 0

/-- Subscriptions and claims (R237, R240, R339 to R342): a fitting token binds a subscription, another, or the lockout,
gives BAD_GRANT; a command that ends a subscription ends it after the segment being delivered, and is refused where
none is bound; a claim with the newest token makes the claimant the owner of an orphan. The order of the checks is the
model's reading (log entry 67). -/
def Obligations.SubscriptionsBindAndEnd : Prop :=
  (∀ (c : Cmd) (p ring mode token : Nat) (s : State), c.index < 65536 →
    ∃ t, exec (.subscribe c p ring mode token) s = .next t ∧
      let names := s.exists_ p = true ∧ p ≤ 7 ∧ s.owns c.fn p = false ∧ s.ringFree c.fn ring = true ∧ mode < 2
      let grants := ((s.part p).tokens.any fun t => t.value == token && t.modes.testBit mode
        && (t.target == 0xFFFF || t.target == fnCode c.fn)) = true
      (s.lockedOut c.fn = true → Completed s t c 0x09 stBadGrant 0 0) ∧
      (s.lockedOut c.fn = false → ¬ names → Completed s t c 0x09 stInvalidField 0 0 ∧ Quiet s t) ∧
      (s.lockedOut c.fn = false → names → ¬ grants → Completed s t c 0x09 stBadGrant 0 0 ∧
        (t.part p).subs = (s.part p).subs) ∧
      (s.lockedOut c.fn = false → names → grants → 256 ≤ s.bindings → Completed s t c 0x09 stNoResource 0 0 ∧ Quiet s t) ∧
      (s.lockedOut c.fn = false → names → grants → s.bindings < 256 →
        (t.part p).subs = (s.part p).subs ++ [c.fn * 8 + ring] ∧ Completed s t c 0x09 stOk 0 0)) ∧
  (∀ (c : Cmd) (p ring : Nat) (s : State), c.index < 65536 →
    (s.exists_ p = false ∨ 7 < p ∨ 7 < ring ∨ ∀ d, s.delivery (c.fn * 8 + ring) = some d →
      ¬ (d.subscriber = true ∧ d.part = p ∧ d.ending = none)) →
    ∃ t, exec (.unsubscribe c p ring) s = .next t ∧ Completed s t c 0x0A stInvalidField 0 0 ∧ Quiet s t) ∧
  (∀ (c : Cmd) (p ring : Nat) (d : Delivery) (s : State), s.exists_ p = true → p ≤ 7 → ring < 8 →
    s.delivery (c.fn * 8 + ring) = some d → d.subscriber = true → d.part = p → d.ending = none →
    ∃ u e, exec (.unsubscribe c p ring) s = .next { settle p u with pending := s.pending } ∧
      u.delivery (c.fn * 8 + ring) = some e ∧ e.ending = some c ∧ e.queue = [] ∧ (d.now = none → e.now = none)) ∧
  ∀ (c : Cmd) (p ring token : Nat) (s : State), c.index < 65536 →
    ∃ t, exec (.partitionClaim c p ring token) s = .next t ∧
      let names := s.exists_ p = true ∧ p ≤ 7 ∧ s.orphan p = true ∧ s.ringFree c.fn ring = true
      let newest := (s.part p).tokens.head?.map Token.value = some token
      (s.lockedOut c.fn = true → Completed s t c 0x09 stBadGrant 0 0) ∧
      (s.lockedOut c.fn = false → ¬ names → Completed s t c 0x09 stInvalidField 0 0 ∧ Quiet s t) ∧
      (s.lockedOut c.fn = false → names → ¬ newest → Completed s t c 0x09 stBadGrant 0 0) ∧
      (s.lockedOut c.fn = false → names → newest → ∃ u, u.orphan p = false ∧ u.owns c.fn p = true ∧
        (u.part p).ownerPair = some (c.fn * 8 + ring) ∧ Completed (settle p u) t c 0x09 stOk 0 0)

/-- READ_BACK (R292, R304, R305): a request that its checks refuse completes with the status they give, one for what is
not in memory with INVALID_FIELD; one whose pages can be pinned waits on its ring; one whose pages cannot completes
with NO_RESOURCE. The order of the checks is the model's reading (log entry 67). -/
def Obligations.ReadBacksWaitOnTheirRing : Prop :=
  (∀ (c : Cmd) (p ring segId epoch : Nat) (s : State), c.index < 65536 →
    ∃ t, exec (.readBackSegment c p ring segId epoch) s = .next t ∧
      let gate := s.readBackGate c.fn p ring (s.owns c.fn p || s.subscribes c.fn p)
      let found := (s.part p).segs.find? fun g =>
        g.imago && g.id == some segId && g.epoch % 65536 == epoch && (s.part p).whole g
      (∀ st, gate = some st → Completed s t c 0x0C st 0 0 ∧ Quiet s t) ∧
      (gate = none → found = none → Completed s t c 0x0C stInvalidField 0 0 ∧ Quiet s t) ∧
      (∀ g, gate = none → found = some g →
        (pinPages p (if g.empty then [] else pageSpan ((s.part p).segFrom g) ((s.part p).segTo g)) s = none →
          ∃ u, Completed u t c 0x0C stNoResource 0 0) ∧
        ((pinPages p (if g.empty then [] else pageSpan ((s.part p).segFrom g) ((s.part p).segTo g)) s).isSome = true →
          ∃ r, (t.pair c.fn ring).readBacks = (s.pair c.fn ring).readBacks ++ [r] ∧ r.cmd = c ∧ r.part = p ∧
            r.segId = segId ∧ r.epoch = epoch ∧ r.recs = (s.part p).segPlaced g))) ∧
  ∀ (c : Cmd) (p ring start len : Nat) (s : State), c.index < 65536 →
    ∃ t, exec (.readBackRange c p ring start len) s = .next t ∧
      let gate := s.readBackGate c.fn p ring (s.owns c.fn p || isPf c.fn)
      let lo := (s.part p).base + start
      let held := start % 64 = 0 ∧ len ≠ 0 ∧ len < 2 ^ 32 ∧ (s.part p).oldestPos ≤ lo ∧ lo + len * 64 ≤ (s.part p).writePos
      (∀ st, gate = some st → Completed s t c 0x0C st 0 0 ∧ Quiet s t) ∧
      (gate = none → ¬ held → Completed s t c 0x0C stInvalidField 0 0 ∧ Quiet s t) ∧
      (gate = none → held → (s.part p).unheld = [] → ∃ r, (t.pair c.fn ring).readBacks =
        (s.pair c.fn ring).readBacks ++ [r] ∧ r.cmd = c ∧ r.part = p ∧ r.range = true ∧
        ∀ e ∈ r.recs, lo ≤ e.1 ∧ e.1 < lo + len * 64) ∧
      (gate = none → held → (∃ r, (t.pair c.fn ring).readBacks = (s.pair c.fn ring).readBacks ++ [r] ∧ r.cmd = c) ∨
        ∃ u, Completed u t c 0x0C stNoResource 0 0)

/-- CALIBRATE (R328): the banks named calibrate, and the command waits for all of them; while Scarab is down it waits for its
return; where a check fails it completes with the status of that check, and no bank starts. -/
def Obligations.CalibrateWaitsForItsBanks : Prop :=
  ∀ (c : Cmd) (banks steps : BitVec 8) (ext : Bool) (timeout : Nat) (s : State), c.index < 65536 →
    ∃ t, exec (.calibrate c banks steps ext timeout) s = .next t ∧
      let fits := banks ≠ 0 ∧ steps.toNat ≠ 0 ∧ steps.toNat < 32 ∧ (steps.getLsbD 4 = true → timeout ≠ 0 ∧ timeout ≤ 255) ∧
        (∀ b, b < 8 → banks.getLsbD b = true → s.mayConfig c.fn b = true) ∧ s.reducedService = false
      let free := ∀ b, b < 8 → banks.getLsbD b = true → s.bankDisabled b = false ∧ s.calAllowed b = true
      (¬ fits → Quiet s t ∧ ∃ st, st ∈ [stInvalidField, stNotOwner, stBringup] ∧ Completed s t c 0x0E st 0 0) ∧
      (fits → s.mgmt.scarabDown = true → t.waiting = s.waiting ++ [.calibrate c banks steps ext timeout] ∧
        t.cals = s.cals ∧ t.regs = s.regs) ∧
      (fits → s.mgmt.scarabDown = false → ¬ free → Quiet s t ∧ ∃ st, st ∈ [stDomainDown, stBusy] ∧
        Completed s t c 0x0E st 0 0) ∧
      (fits → s.mgmt.scarabDown = false → free → t.cals = s.cals ++ [{ cmd := c, left := banks.toNat }])

/-- QUERY (R331): the result block is written before the completion, which gives the 256 bytes written; what does not
exist, is off, or is not the function's to see is refused. That only enabled command pairs count is the model's
reading (log entry 69). -/
def Obligations.QueriesAnswer : Prop :=
  (∀ (c : Cmd) (addr : Nat) (s : State), c.index < 65536 →
    ∃ t, exec (.queryFunction c addr) s = .next t ∧ Completed s t c 0x10 stOk 256 0) ∧
  (∀ (c : Cmd) (addr p : Nat) (s : State), c.index < 65536 → ∃ t, exec (.queryPartition c addr p) s = .next t ∧
    let sees := s.owns c.fn p = true ∨ s.subscribes c.fn p = true ∨ isPf c.fn = true
    (s.exists_ p = false ∨ 7 < p → Completed s t c 0x10 stInvalidField 0 0) ∧
    (s.exists_ p = true → p ≤ 7 → ¬ sees → Completed s t c 0x10 stNotOwner 0 0) ∧
    (s.exists_ p = true → p ≤ 7 → sees → Completed s t c 0x10 stOk 256 0)) ∧
  ∀ (c : Cmd) (addr item : Nat) (s : State), c.index < 65536 → ∃ t, exec (.queryCounter c addr item) s = .next t ∧
    let sees := isPf c.fn = true ∨ ∃ p, s.itemPart item = some p ∧ (s.owns c.fn p = true ∨ s.subscribes c.fn p = true)
    let is := timeItem item = false ∧ (s.item (c.fn / 128) item).isSome = true
    (¬ is → Completed s t c 0x10 stInvalidField 0 0) ∧
    (is → ¬ sees → Completed s t c 0x10 stNotOwner 0 0) ∧
    (is → sees → (itemDomain item).map s.domainOff = some true → Completed s t c 0x10 stDomainDown 0 0) ∧
    (is → sees → (itemDomain item).map s.domainOff ≠ some true → Completed s t c 0x10 stOk 256 0)

/-- POWER_PIN (R332, R465): a VF may not; a PF's pins a domain, releases it or forbids it to go off, and its completion
gives the domain's state; while Scarab is down it waits; a domain that is not there, or may not be pinned, is refused, and a
release of PD1 changes nothing. -/
def Obligations.PowerPinsAct : Prop :=
  ∀ (c : Cmd) (d : Nat) (i : Instr) (s : State), c.index < 65536 →
    i ∈ [Instr.powerPinOn c d, .powerPinRelease c d, .powerForbidOff c d] →
    ∃ t, exec i s = .next t ∧
      (isPf c.fn = false → Completed s t c 0x11 stNotOwner 0 0 ∧ Quiet s t) ∧
      (isPf c.fn = true → (d = 0 ∨ 30 < d) → Completed s t c 0x11 stInvalidField 0 0 ∧ Quiet s t) ∧
      (isPf c.fn = true → 1 ≤ d → d ≤ 30 → s.mgmt.scarabDown = true → t.waiting = s.waiting ++ [i] ∧ t.regs = s.regs) ∧
      (isPf c.fn = true → 1 ≤ d → d ≤ 30 → s.mgmt.scarabDown = false → i ≠ .powerPinRelease c d → s.pinRefused d = true →
        Completed s t c 0x11 stInvalidField 0 0 ∧ Quiet s t) ∧
      (isPf c.fn = true → d = 1 → s.mgmt.scarabDown = false → i = .powerPinRelease c d →
        Completed s t c 0x11 stOk (t.domain d) 0 ∧ Quiet s t) ∧
      (isPf c.fn = true → 2 ≤ d → d ≤ 30 → s.mgmt.scarabDown = false →
        (i = .powerPinRelease c d ∨ s.pinRefused d = false) →
        Completed s t c 0x11 stOk (t.domain d) 0 ∧
        (i = .powerPinOn c d → t.pinned d = true ∧ t.forbidden d = s.forbidden d) ∧
        (i = .powerPinRelease c d → t.pinned d = false ∧ t.forbidden d = false) ∧
        (i = .powerForbidOff c d → t.forbidden d = true ∧ t.pinned d = s.pinned d))


/-! ### Rings -/

/-- Rings (R315 to R318, R321, R323, R333, R335, R349, R366, R369, R374, R382). A write of RC_CFG is refused or applies;
EN that rises starts the indexes anew, EN that falls discards what is fetched. A doorbell sets the index of its
enabled pair, or is refused with RING_DB_ERR; with EN clear, in containment, in recovery, or with the BAR closed it
only reports. What a fetch returns that its pair no longer wants only ends that read. Buffer descriptors join those of
their pair, and one that breaks its layout completes with INVALID_FIELD. A command with FENCE waits for the earlier
ones of its ring, a long one for a place among 16; one with an unknown opcode, or a reserved bit set, completes at
once; any other starts, and reads its parameter block. That a waiting descriptor is read again, and the order of the
checks, are the model's choice (log entries 66 and 70). -/
def Obligations.RingsRunAndFetch : Prop :=
  ((∀ (f : FnId) (n : PairId) (v : Word) (s : State), s.carriesOut f (rcPlace f n) = true →
      (∃ t, exec (.ringEnable f n v) s = .next t ∧
        (s.rcCfgBad f n (v ||| 0x80000000) = true → t.flag (F.rcEventsCfgRefused f n) = true ∧ t.pairEn f n = s.pairEn f n ∧
          t.pair f n = s.pair f n) ∧
        (s.rcCfgBad f n (v ||| 0x80000000) = false → t.pairEn f n = true ∧ (s.pairEn f n = false →
          (t.pair f n).sqTail = 0 ∧ (t.pair f n).cqHead = 0 ∧ t.getF (F.rcSqHeadSqHead f n) = 0 ∧
          t.getF (F.rcCqTailCqTail f n) = 0))) ∧
      ∃ t, exec (.ringDisable f n v) s = .next t ∧
        (s.rcCfgBad f n (v &&& 0x7FFFFFFF) = true → t.flag (F.rcEventsCfgRefused f n) = true ∧ t.pairEn f n = s.pairEn f n ∧
          t.pair f n = s.pair f n) ∧
        (s.rcCfgBad f n (v &&& 0x7FFFFFFF) = false → t.pairEn f n = false ∧ (s.pairEn f n = true →
          (t.pair f n).fetched = [] ∧ (t.pair f n).sqTail = s.getF (F.rcSqHeadSqHead f n)))) ∧
    (∀ (f : FnId) (n : PairId) (v : DWord) (s : State),
      let shut := s.barOpen f = false ∨ s.recovery = true ∨ s.contained f = true ∨ s.pairEn f n = false
      let fits := v.toNat < 2 ^ 17 ∧ idxPos v.toNat < s.sqSize f n ∧
        (idxDist (s.sqSize f n) (s.getF (F.rcSqHeadSqHead f n)) v.toNat).isSome = true
      ∃ t, exec (.dbSqTail f n v) s = .next t ∧ (shut → Quiet s t ∧ t.pair f n = s.pair f n) ∧
        (¬ shut → fits → (t.pair f n).sqTail = v.toNat ∧ (t.pair f n).cqHead = (s.pair f n).cqHead) ∧
        (¬ shut → ¬ fits → Quiet s t ∧ t.pair f n = s.pair f n ∧ t.flag (F.rcEventsDbErr f n) = true)) ∧
    ∀ (f : FnId) (n : PairId) (v : DWord) (s : State),
      let shut := s.barOpen f = false ∨ s.recovery = true ∨ s.contained f = true ∨ s.pairEn f n = false
      let fits := v.toNat < 2 ^ 17 ∧ idxPos v.toNat < s.cqSize f n ∧
        ∃ d, idxDist (s.cqSize f n) (s.pair f n).cqHead v.toNat = some d ∧ d ≤ s.cqUsed f n
      (shut → ∃ t, exec (.dbCqHead f n v) s = .next t ∧ Quiet s t ∧ t.pair f n = s.pair f n) ∧
      (¬ shut → fits → ∃ u, exec (.dbCqHead f n v) s =
        .next { settleAll (tryFetch f n (flushPair f n u)) with pending := s.pending } ∧ (u.pair f n).cqHead = v.toNat ∧
        (u.cqFull f n = false → u.flag (F.rcStatusCqFull f n) = false)) ∧
      (¬ shut → ¬ fits → ∃ t, exec (.dbCqHead f n v) s = .next t ∧ Quiet s t ∧ t.pair f n = s.pair f n ∧
        t.flag (F.rcEventsDbErr f n) = true)) ∧
  ∀ (f : FnId) (n : PairId) (k : Nat) (bs : List Byte) (s : State),
    let x := s.pair f n
    let head := s.getF (F.rcSqHeadSqHead f n)
    let mine := ∃ e ∈ (s.fn f).tags, e.num = k ∧ e.quarantined = false ∧ (e.source = 1 ∨ e.source = 2) ∧ e.detail = n
    (x.fetchTag ≠ some k → x.paramTag ≠ some k → mine →
      exec (.descriptorFetchDone f n k bs) s = .next { endTag f k s with pending := s.pending }) ∧
    (x.fetchTag ≠ some k → (x.paramTag = some k ∨ ¬ mine) → exec (.descriptorFetchDone f n k bs) s = .next s) ∧
    (x.fetchTag = some k → s.getF (F.rcCfgType f n) = 1 →
      let ds := chunks (min (bs.length / 32) (min (s.posted f n) (16 - x.fetched.length))) bs
      ∃ t, exec (.descriptorFetchDone f n k bs) s = .next t ∧
        ((∀ d ∈ ds, bufOk d = true) → (t.pair f n).fetched.map (fun b => (b.addr, b.size)) =
          x.fetched.map (fun b => (b.addr, b.size)) ++ ds.map fun d => (leAt d 0 8, leAt d 8 4)) ∧
        ∀ d, ds = [d] → bufOk d = false → (t.pair f n).fetched = x.fetched ∧
          t.getF (F.rcSqHeadSqHead f n) = idxNext (s.sqSize f n) head ∧ ∃ flags,
          let e := capEntry 0 0xFFFFFFFF (idxPos head) stInvalidField (s.boundEpoch f n) flags
          (∃ place phase, Out.hostWrite f place (e.take 15 ++ [phase]) false ∈ t.out) ∨
            (t.pair f n).heldCpl.getLast?.map Cpl.words = some e) ∧
    (x.fetchTag = some k → s.getF (F.rcCfgType f n) ≠ 1 →
      let op := leAt bs 0 1
      let fenced := (leAt bs 1 1).testBit 0 = true ∧ x.started ≠ []
      let excess := longOpcode op = true ∧ 16 ≤ s.longsOf f
      let bad := 4 ≤ leAt bs 1 1 ∨ zeroBytes bs 4 8 = false ∨ layoutOk bs = false
      let low := s.mgmt.portLow.contains (f.val / 128) = true ∧ op ≠ 0x10
      ∃ t, exec (.descriptorFetchDone f n k bs) s = .next t ∧
        (s.posted f n = 0 → t.getF (F.rcSqHeadSqHead f n) = head ∧ (t.pair f n).started = x.started) ∧
        (s.posted f n ≠ 0 → fenced → (t.pair f n).fence = true ∧ t.getF (F.rcSqHeadSqHead f n) = head) ∧
        (s.posted f n ≠ 0 → ¬ fenced → excess → (t.pair f n).excess = true ∧ t.getF (F.rcSqHeadSqHead f n) = head) ∧
        (s.posted f n ≠ 0 → ¬ fenced → ¬ excess → t.getF (F.rcSqHeadSqHead f n) = idxNext (s.sqSize f n) head ∧
          ∃ c : Cmd, c.fn = f ∧ c.pair = n ∧ c.tag = leAt bs 2 2 ∧ c.index = idxPos head ∧
            (op = 0 ∨ 0x11 < op → Completed s t c op stInvalidOpcode 0 0) ∧
            (1 ≤ op → op ≤ 0x11 → low → Completed s t c op stBringup 0 0) ∧
            (1 ≤ op → op ≤ 0x11 → ¬ low → bad →
              Completed s t c op stInvalidField (if op = 5 then 0xFFFF else 0) 0) ∧
            (1 ≤ op → op ≤ 0x11 → ¬ low → ¬ bad → (t.pair f n).started = x.started ++ [c.index] ∧
              (readsParams op = true → ∃ e, (t.pair f n).await = some e ∧ e = bs))))

/-! ### Endpoint -/

/-- Failed reads and bad requests contain their function (R366 to R368, R374): the error log's code is the CAUSE. A failed
completion ends its read, without containment while Bus Master Enable is clear. Where no such read is outstanding, the
BAR does not answer, or the function is absent, nothing is contained. The late completion of a read ends its tag's
quarantine and is logged, unless an FLR has silenced it; one for a tag that the function does not hold is discarded
and logged; the end of a quarantine frees the tag (R366, R376). The log of a completion whose tag the function does
not hold is the model's reading (log entry 74). -/
def Obligations.FailuresContainTheirFunction : Prop :=
  ((∀ (f : FnId) (k : Nat) (x : Tag) (s : State), s.contained f = false → s.outTag f k = some x →
      EntersContainment (.completionTimeout f k) s f 0x05 ∧
      (s.bmeOn f = true → EntersContainment (.completionError f k .ur) s f 0x06 ∧
        EntersContainment (.completionError f k .ca) s f 0x07 ∧ EntersContainment (.completionError f k .poisoned) s f 0x08) ∧
      (s.bmeOn f = false → ∀ e, exec (.completionError f k e) s = .next { endTag f k s with pending := s.pending })) ∧
    (∀ (f : FnId) (k : Nat) (x : Tag) (s : State), s.contained f = true → s.outTag f k = some x →
      ∃ t, exec (.completionTimeout f k) s = .next t ∧ t.contained f = true ∧
        t.rd (.containEpoch f) = s.rd (.containEpoch f)) ∧
    (∀ (f : FnId) (k : Nat) (s : State), s.outTag f k = none → exec (.completionTimeout f k) s = .next s ∧
      ∀ e, exec (.completionError f k e) s = .next s) ∧
    (∀ (f : FnId) (bar2 : Bool) (off : Nat) (s : State),
      (s.contained f = false → s.barOpen f = true → s.recovery = false →
        EntersContainment (.poisonedRequest f bar2 off) s f 0x03) ∧
      (s.barOpen f = false → ∃ t, exec (.poisonedRequest f bar2 off) s = .next t ∧ t.out.head? = some (.aer f 0x02) ∧
        Quiet s t) ∧
      (s.barOpen f = true → s.recovery = true → exec (.poisonedRequest f bar2 off) s = .next s)) ∧
    (∀ (port : PortId) (g : Option FnId) (f : FnId) (s : State), f.val = (g.map Fin.val).getD (port.val * 128) →
      (s.contained f = false → s.present f = true → EntersContainment (.malformedRequest port g) s f 0x04) ∧
      (s.present f = false → exec (.malformedRequest port g) s = .next s)) ∧
    ∀ (f : FnId) (k : Nat) (s : State), (s.contained f = false → EntersContainment (.atsFault f k) s f 0x0A) ∧
      (s.contained f = true → ∃ t, exec (.atsFault f k) s = .next t ∧ t.contained f = true ∧
        t.rd (.containEpoch f) = s.rd (.containEpoch f)) ∧
      ∃ t, exec (.atsInvalidation f) s = .next t ∧ t.out = .atsInvalidationDone f :: s.out ∧ t.regs = s.regs ∧ t.fns = s.fns) ∧
  (∀ (f : FnId) (k : Nat) (s : State), ((s.fn f).tags.find? fun t => t.num == k) = none →
    ∃ t, exec (.unexpectedCompletion f k) s = .next t ∧ t.flag (F.epEventsUnexpectedCpl f) = true ∧
      .aer f 0x09 ∈ t.out ∧ (t.fn f).tags = (s.fn f).tags) ∧
  (∀ (f : FnId) (k : Nat) (x : Tag) (s : State), ((s.fn f).tags.find? fun t => t.num == k) = some x →
    (x.quarantined = false → exec (.unexpectedCompletion f k) s = .next s) ∧
    (x.quarantined = true → x.silent = true →
      exec (.unexpectedCompletion f k) s = .next { endTag f k s with pending := s.pending }) ∧
    (x.quarantined = true → x.silent = false → ∃ t, exec (.unexpectedCompletion f k) s = .next t ∧
      t.flag (F.epEventsUnexpectedCpl f) = true ∧ .aer f 0x09 ∈ t.out ∧ (t.fn f).tags = ((endTag f k s).fn f).tags)) ∧
  (∀ (f : FnId) (k : Nat) (s : State),
    ((∃ x ∈ (s.fn f).tags, x.num = k ∧ x.quarantined = true) →
      exec (.tagQuarantineEnd f k) s = .next { endTag f k s with pending := s.pending }) ∧
    ((∀ x ∈ (s.fn f).tags, x.num = k → x.quarantined = false) → exec (.tagQuarantineEnd f k) s = .next s)) ∧
  ∀ (f k : Nat) (s : State), s.readWait = [] →
    (endTag f k s).fn f = { s.fn f with tags := (s.fn f).tags.filter fun x => decide (x.num ≠ k) }

/-- Containment is reported once, and ends when the present EPOCH is written and no tag is held (R370, R371). -/
def Obligations.ContainmentIsReportedAndReleased : Prop :=
  (∀ (f : FnId) (s : State), (s.fn f).containEventDue = true →
    ∃ t, exec (.epContained f) s = .next t ∧ (t.fn f).containEventDue = false ∧ t.flag (F.epEventsContained f) = true ∧
      ((s.fn f).fnMask = false → (s.fn f).unmasked.contains 0 = true → s.bmeOn f = true → .msix f 0 ∈ t.out)) ∧
  (∀ (f : FnId) (s : State), (s.fn f).containEventDue = false → exec (.epContained f) s = .next s) ∧
  (∀ (f : FnId) (v : Word) (s : State), s.clk.sysHeld = false →
    (s.barOpen f = true → s.recovery = false → s.contained f = true →
      ∃ t, exec (.containRelease f v) s = .next t ∧ t.contained f = true ∧
        (v.toNat % 65536 = s.getF (F.containEpochEpoch f) → t.flag (F.containStatusReleasePending f) = true) ∧
        (v.toNat % 65536 ≠ s.getF (F.containEpochEpoch f) → t.flag (F.epEventsStaleRelease f) = true ∧
          t.getF (F.containStatusReleasePending f) = s.getF (F.containStatusReleasePending f))) ∧
    (s.barOpen f = true → (s.recovery = true ∨ s.contained f = false) → exec (.containRelease f v) s = .next s)) ∧
  ∀ (f : FnId) (s : State),
    let due := s.contained f = true ∧ s.flag (F.containStatusReleasePending f) = true ∧ (s.fn f).tags = []
    (due → ∃ u, exec (.containReleaseDone f) s = .next { resume f u with pending := s.pending } ∧ u.contained f = false ∧
      u.flag (F.containStatusReleasePending f) = false ∧ (u.fn f).tags = []) ∧
    (¬ due → exec (.containReleaseDone f) s = .next s)

/-- The enables, power states and resets of a function (R361, R364, R365, R374 to R378): requests stop with BME or in
D3hot and go on after it; the BARs and messages follow their enables; Completion Timeout Value loads EP_CTO; no
configuration write acts where the device does not answer them yet (R443), or the function is absent. An FLR clears
its function's enables, queues and pairs and brings its registers to reset, silently keeping its tags, and what waited
goes on; that of a PF resets the VFs of its port, as VF_ENABLE_CLEAR does; that of a VF that was enabled is reported
to its PF. Reserved Completion Timeout values, and which VF counts as enabled, are the model's reading (log entries 72
and 73). -/
def Obligations.FunctionsAreEnabledAndReset : Prop :=
  ((∀ (f : FnId) (s : State),
      (s.cfgAnswers = true → (s.fn f).bme = true → ∃ t, exec (.bmeClear f) s = .next t ∧ (t.fn f).bme = false ∧
        (t.fn f).tags = (s.fn f).tags ∧ ∀ n, n < 8 → (t.pair f n).fetched = [] ∧ (t.pair f n).fetchTag = none) ∧
      (s.cfgAnswers = false ∨ (s.fn f).bme = false → exec (.bmeClear f) s = .next s)) ∧
    (∀ (f : FnId) (s : State),
      (s.cfgAnswers = true → s.present f = true → (s.fn f).bme = false → ∃ u, exec (.bmeSet f) s =
        .next { portReady (f.val / 128) (resume f u) with pending := s.pending } ∧ (u.fn f).bme = true ∧ u.regs = s.regs) ∧
      (s.cfgAnswers = false ∨ s.present f = false ∨ (s.fn f).bme = true → exec (.bmeSet f) s = .next s)) ∧
    (∀ (f : FnId) (on : Bool) (s : State),
      (s.cfgAnswers = true → s.present f = true → ∃ t, exec (.memorySpaceEnableWrite f on) s = .next t ∧
        (t.fn f).mse = on ∧ (t.fn f).bme = (s.fn f).bme) ∧
      (s.cfgAnswers = false ∨ s.present f = false → exec (.memorySpaceEnableWrite f on) s = .next s)) ∧
    (∀ (f : FnId) (s : State),
      (∀ v : Fin 256, ∃ t, exec (.msixVectorUnmask f (some v)) s = .next t ∧ v.val ∈ (t.fn f).unmasked ∧
        ∀ w ∈ (s.fn f).unmasked, w ∈ (t.fn f).unmasked) ∧
      ∃ t, exec (.msixVectorUnmask f none) s = .next t ∧ (t.fn f).fnMask = false ∧ (t.fn f).unmasked = (s.fn f).unmasked) ∧
    (∀ (f : FnId) (v : Fin 16) (s : State),
      (s.cfgAnswers = true → ∃ t, exec (.devctl2CtoWrite f v) s = .next t ∧
        (∀ n, (v.val, n) ∈ [(0, 1600), (1, 10), (2, 1000), (5, 5500), (6, 21000), (9, 90000), (10, 350000), (13, 1300000),
          (14, 6400000)] → t.getF (F.epCtoCto f) = n) ∧
        (v.val ∈ [3, 4, 7, 8, 11, 12, 15] → t.rd (.epCto f) = s.rd (.epCto f)) ∧
        ∀ r : Reg, r.key ≠ (Reg.epCto f).key → t.rd r = s.rd r) ∧
      (s.cfgAnswers = false → exec (.devctl2CtoWrite f v) s = .next s)) ∧
    ∀ (f : FnId) (s : State),
      (s.cfgAnswers = true → s.present f = true → (s.fn f).d3 = false → ∃ u, exec (.d3hotEntry f) s =
        .next { lowPower u with pending := s.pending } ∧ (u.fn f).d3 = true ∧ (u.fn f).tags = (s.fn f).tags ∧
        ∀ n, n < 8 → (u.pair f n).fetched = []) ∧
      (s.cfgAnswers = false ∨ s.present f = false ∨ (s.fn f).d3 = true → exec (.d3hotEntry f) s = .next s) ∧
      (s.cfgAnswers = true → (s.fn f).d3 = true → ∃ u, exec (.d0Return f) s =
        .next { resume f (lowPower u) with pending := s.pending } ∧ (u.fn f).d3 = false ∧ u.regs = s.regs) ∧
      (s.cfgAnswers = false ∨ (s.fn f).d3 = false → exec (.d0Return f) s = .next s)) ∧
  (∀ (f : FnId) (s : State), s.cfgAnswers = true → s.present f = true → exec (.flr f) s =
    .next { lowPower (if isPf f then flrVfs (f.val / 128) (flrOne f s) else flrVf f s) with pending := s.pending }) ∧
  (∀ (f : FnId) (s : State), s.cfgAnswers = false ∨ s.present f = false → exec (.flr f) s = .next s) ∧
  (∀ (f : FnId) (s : State), ∃ u, flrOne f s = serveReads (settleAll u) ∧
    flrVf f s = (if s.enabledFn f then post (portPf f) 0x1708 f (flrOne f s) else flrOne f s) ∧
    (u.fn f).mse = false ∧ (u.fn f).bme = false ∧ (u.fn f).d3 = false ∧ (u.fn f).evq = [] ∧ (u.fn f).err = [] ∧
    (u.fn f).pairs = [] ∧ (u.fn f).tags.map (fun x => (x.num, x.quarantined, x.silent)) =
      (s.fn f).tags.map (fun x => (x.num, true, true)) ∧
    ∀ r : Reg, r.key / 0x100000 = f.val → ((0x2000 ≤ r.key % 0x100000 ∧ r.key % 0x100000 < 0x4800 ∧
        r.key % 0x100000 ≠ 0x4024) ∨ (0x60000 ≤ r.key % 0x100000 ∧ r.key % 0x100000 < 0x60200)) → u.rd r = r.reset) ∧
  ∀ (port : PortId) (s : State),
    (s.cfgAnswers = true → exec (.vfEnableClear port) s = .next { lowPower (flrVfs port s) with pending := s.pending }) ∧
    (s.cfgAnswers = false → exec (.vfEnableClear port) s = .next s)

/-- Links, ports and wakes (R354, R363, R379 to R381, R488): EP_LINK_STATUS shows the link, and its tag width holds from then on;
in dual-port mode a port that goes down resets its functions, in single-port mode it is a hot reset; recoveries are counted; L1 waits
for deliveries; a wake-enabled edge asserts WAKE# in D3cold, and sends PMEs in D3hot. A port that is absent does nothing. -/
def Obligations.LinksGoUpAndDown : Prop :=
  (∀ (port : PortId) (speed : Fin 8) (width : Nat) (tags : TagWidth) (s : State), width ≤ 16 →
    let f := port.val * 128
    (s.present f = true → ∃ t, exec (.portLinkUp port speed width tags) s = .next t ∧ t.tagWidth port = tags ∧
      t.getF (F.epLinkStatusSpeed f) = speed ∧ t.getF (F.epLinkStatusWidth f) = width ∧
      t.flag (F.epLinkStatusFlit f) = (tags == .bits14) ∧ t.flag (F.epLinkStatusDegraded f) =
        (decide (speed.val < 6) || decide (width < if s.mgmt.dualPort then 8 else 16))) ∧
    (s.present f = false → exec (.portLinkUp port speed width tags) s = .next s)) ∧
  (∀ (port : PortId) (s : State),
    let f := port.val * 128
    let up := s.present f = true ∧ s.mgmt.perst = false ∧ s.mgmt.rails = true
    (up → s.mgmt.dualPort = true → (portReset port s).rd (.epLinkStatus f) = (Reg.epLinkStatus f).reset ∧
      exec (.portLinkDown port) s =
        .next { post ((1 - port.val) * 128) 0x1706 f (portReset port s) with pending := s.pending }) ∧
    (up → s.mgmt.dualPort = false → exec (.portLinkDown port) s = .next { hotReset s with pending := s.pending }) ∧
    (¬ up → exec (.portLinkDown port) s = .next s)) ∧
  (∀ (port : PortId) (s : State),
    (s.present (port.val * 128) = true → ∃ t, exec (.linkRecovery port) s = .next t ∧
      t.getF (F.fltCountCount 0x10) = min 0xFFFFFFFF (s.getF (F.fltCountCount 0x10) + 1)) ∧
    (s.present (port.val * 128) = false → exec (.linkRecovery port) s = .next s)) ∧
  (∀ (port : PortId) (s : State),
    (s.portBusy port = false → ∃ t, exec (.aspmL1Entry port) s = .next t ∧ t.out = .aspmL1 port :: s.out ∧
      t.regs = s.regs) ∧
    (s.portBusy port = true → exec (.aspmL1Entry port) s = .next s)) ∧
  ∀ (n : Fin 4) (rising : Bool) (s : State),
    let wakes := ∃ f ∈ s.pfs, (s.getF (F.epWakeCfgWakeTrigin f)).testBit n = true ∧
      (s.getF (F.epWakeCfgWakeEdge f)).testBit n = !rising
    (wakes → s.mgmt.d3cold = true → s.mgmt.wakePin = false → ∃ t, exec (.wakeTriginEdge n rising) s = .next t ∧
      t.mgmt.wakePin = true ∧ t.out = .wake true :: s.out) ∧
    (wakes → s.mgmt.d3cold = false → ∃ t, exec (.wakeTriginEdge n rising) s = .next t ∧ t.regs = s.regs ∧
      ∀ f ∈ s.pfs, ((s.fn f).d3 = true → (t.fn f).pmeStatus = true ∧ ((s.fn f).pmeEn = true → .pme (f / 128) ∈ t.out)) ∧
        ((s.fn f).d3 = false → t.fn f = s.fn f)) ∧
    (¬ wakes ∨ (s.mgmt.d3cold = true ∧ s.mgmt.wakePin = true) → exec (.wakeTriginEdge n rising) s = .next s)

/-! ### Mailboxes, messages, attestation -/

/-- Mailbox posts and notices (R412 to R417, R420 to R423): a doorbell posts to its channel, or, with the receiver down,
is done with DOMAIN_DOWN; the receiver takes the post when its block is read, and answers it once; a notice is written
where its slot is free; an acknowledgement releases slots. What has nothing to act on, or may not send, leaves the
channel as it is. What a read block that was superseded does is the model's reading (log entry 75). -/
def Obligations.MailboxesCarryPosts : Prop :=
  (∀ (f : FnId) (c : MbxId) (seq : BitVec 16) (s : State), s.carriesOut f (0x3008 + c.val * 0x20) = true →
    ∃ t, exec (.mbxDoorbell f c seq) s = .next t ∧
      (s.chanDown c = true → t.getF (F.mbxAckStateState f c) = 3 ∧ t.getF (F.mbxAckStatus f c) = stDomainDown ∧
        t.getF (F.mbxAckSeq f c) = seq.toNat ∧ t.chan c = s.chan c) ∧
      (s.chanDown c = false → (t.chan c).untaken = some { fn := f, ptr := s.latch f c, seq := seq.toNat } ∧
        t.getF (F.mbxAckStateState f c) = 1 ∧ t.getF (F.mbxAckStateSeq f c) = seq.toNat ∧
        ((s.chan c).untaken ≠ none → t.flag (F.mbxChanMbxCollision c) = true))) ∧
  (∀ (c : MbxId) (block : List Byte) (s : State), (s.chan c).untaken = none → exec (.mbxTake c block) s = .next s) ∧
  (∀ (c : MbxId) (block : List Byte) (p : Post) (s : State), (s.chan c).untaken = some p →
    let ready := (s.chan c).taken = none ∧ s.chanDown c = false ∧ (p.ptr = 0 ∨ (s.mbxTag p.fn c).isSome = true)
    (s.dmaOn p.fn = false → exec (.mbxTake c block) s = .next { dropMbxTag p.fn c s with pending := s.pending }) ∧
    (s.dmaOn p.fn = true → ¬ ready → exec (.mbxTake c block) s = .next s) ∧
    (s.dmaOn p.fn = true → ready → ∃ t q, exec (.mbxTake c block) s = .next t ∧ t.chan c = { untaken := none, taken := some q } ∧
      q.fn = p.fn ∧ q.seq = p.seq ∧ q.type = (if p.ptr = 0 then 0 else leAt block 4 2) ∧
      q.replyAddr = (if p.ptr = 0 then 0 else leAt block 8 8) ∧ q.status = blockStatus (s.toFirefly c) p.ptr block ∧
      t.getF (F.mbxAckStateState p.fn c) = 2)) ∧
  (∀ (c : MbxId) (s : State), (s.chan c).taken = none → exec (.mbxDone c) s = .next s) ∧
  (∀ (c : MbxId) (p : Post) (s : State), (s.chan c).taken = some p →
    let wants := p.replyAddr ≠ 0 ∧ p.reply ≠ [] ∧ p.mute = false
    let held := s.chanDown c = true ∨ (wants ∧ s.dmaOn p.fn = false)
    (held → exec (.mbxDone c) s = .next s) ∧
    (¬ held → ∃ t, exec (.mbxDone c) s = .next t ∧ t.chan c = { untaken := (s.chan c).untaken, taken := none } ∧
      (wants → .hostWrite p.fn p.replyAddr (p.reply.take p.replyMax) false ∈ t.out) ∧
      (p.mute = false → p.status < 65536 → (∀ q, (s.chan c).untaken = some q → q.fn ≠ p.fn) →
        t.getF (F.mbxAckStateState p.fn c) = 3 ∧ (¬ wants ∨ p.reply.length ≤ p.replyMax → t.getF (F.mbxAckStatus p.fn c) = p.status) ∧
        (wants → p.replyMax < p.reply.length → p.status = stOk → t.getF (F.mbxAckStatus p.fn c) = stPartial)) ∧
      (p.mute = true → t.regs = s.regs))) ∧
  (∀ (f : FnId) (v : Word) (s : State), s.carriesOut f 0x3208 = true →
    let bad := (s.flag (F.mbxHostCfgEn f) = true ∧ ¬ (bitsOf v.toNat 8 8 = s.getF (F.mbxHostCfgVec f) ∧
      bitsOf v.toNat 16 4 = s.getF (F.mbxHostCfgSize f))) ∨ 4 < bitsOf v.toNat 16 4 ∨
      (if isPf f then 256 else 32) ≤ bitsOf v.toNat 8 8
    ∃ t, exec (.mbxHostEnable f v) s = .next t ∧ (bad → t.rd (.mbxHostCfg f) = s.rd (.mbxHostCfg f)) ∧
      (¬ bad → t.flag (F.mbxHostCfgEn f) = v.getLsbD 31 ∧ t.getF (F.mbxHostCfgSize f) = bitsOf v.toNat 16 4 ∧
        (s.flag (F.mbxHostCfgEn f) = false → v.getLsbD 31 = true → t.getF (F.mbxHostStatusLastSeq f) = 0 ∧
          t.getF (F.mbxHostAckAckSeq f) = 0))) ∧
  (∀ (f : FnId) (s : State),
    let room := (s.getF (F.mbxHostStatusLastSeq f) + 65536 - s.getF (F.mbxHostAckAckSeq f)) % 65536 <
      16 * 2 ^ s.getF (F.mbxHostCfgSize f)
    let may := s.flag (F.mbxHostCfgEn f) = true ∧ s.dmaOn f = true ∧ room
    ((s.fn f).notices = [] ∨ ¬ may → exec (.noticeWrite f) s = .next s) ∧
    ∀ n r, (s.fn f).notices = n :: r → may → ∃ t, exec (.noticeWrite f) s = .next t ∧ (t.fn f).notices = r ∧
      t.getF (F.mbxHostStatusLastSeq f) = (s.getF (F.mbxHostStatusLastSeq f) + 1) % 65536) ∧
  ∀ (f : FnId) (v : BitVec 16) (s : State), s.carriesOut f 0x320C = true →
    ∃ t, exec (.mbxHostAck f v) s = .next t ∧
      let d := (v.toNat + 65536 - s.getF (F.mbxHostAckAckSeq f)) % 65536
      let last := (s.getF (F.mbxHostStatusLastSeq f) + 65536 - s.getF (F.mbxHostAckAckSeq f)) % 65536
      t.getF (F.mbxHostAckAckSeq f) = if 1 ≤ d ∧ d ≤ last then v.toNat else s.getF (F.mbxHostAckAckSeq f)

/-- The messages to Firefly (R441): each is answered once, with the status and the reply of its rule; only a PF updates,
revokes or advances. A command for a message that its channel's receiver does not hold changes nothing. The order of
the words of a reply is the model's choice (log entry 82). -/
def Obligations.FireflyAnswersItsMessages : Prop :=
  (∀ (f : FnId) (c : MbxId) (img : ImageCopy) (slot : Byte) (s : State),
    (¬ s.holdsMessage f c 0x100 → exec (.fwUpdate f c img) s = .next s) ∧
    (¬ s.holdsMessage f c 0x101 → exec (.epochAdvance f c) s = .next s) ∧
    (¬ s.holdsMessage f c 0x102 → exec (.keyRevoke f c slot) s = .next s) ∧
    (¬ s.holdsMessage f c 0x103 → exec (.secInfo f c) s = .next s)) ∧
  (∀ (f : FnId) (c : MbxId) (img : ImageCopy) (s : State), s.holdsMessage f c 0x100 →
    ∃ t, exec (.fwUpdate f c img) s = .next t ∧
      Answered t c (if isPf f then imageStatus (s.imageCheck false img) else stNotOwner) [] ∧
      (isPf f = true → s.imageCheck false img = 0 → (if s.getF F.secStatusSource = 1 then t.mgmt.flashA else t.mgmt.flashB)
        = some img) ∧
      (isPf f = false ∨ s.imageCheck false img ≠ 0 → t.mgmt = s.mgmt)) ∧
  (∀ (f : FnId) (c : MbxId) (s : State), s.holdsMessage f c 0x101 →
    ∃ t, exec (.epochAdvance f c) s = .next t ∧ Answered t c (if isPf f then stOk else stNotOwner) [] ∧
      t.mgmt.fusedEpoch = if isPf f then max s.mgmt.fusedEpoch (min 256 ((s.mgmt.running.map ImageCopy.epoch).getD 0))
        else s.mgmt.fusedEpoch) ∧
  (∀ (f : FnId) (c : MbxId) (slot : Byte) (s : State), s.holdsMessage f c 0x102 →
    let ok : Bool := decide (slot.toNat < 4) && decide (slot.toNat ≠ s.getF F.secStatusKeySlot)
    ∃ t, exec (.keyRevoke f c slot) s = .next t ∧
      Answered t c (if isPf f then (if ok then stOk else stInvalidField) else stNotOwner) [] ∧
      ∀ k, k < 4 → t.mgmt.revoked.getLsbD k = (s.mgmt.revoked.getLsbD k || (isPf f && ok && decide (k = slot.toNat)))) ∧
  ∀ (f : FnId) (c : MbxId) (s : State), s.holdsMessage f c 0x103 →
    ∃ t, exec (.secInfo f c) s = .next t ∧ Answered t c stOk (replyBlock 0x103
      [s.mgmt.fusedEpoch, s.mgmt.revoked.toNat, s.getF F.secStatusSource, s.getF F.fwVersionVersion])

/-- The messages to Scarab (R456): GET_INFO replies with FW_VERSION, the BOOT_STATUS word, RESTARTS and the milliseconds
since PERST# release; TELEMETRY_READ with every TEL register, temperatures first. The order of the words of a reply is
the model's choice (log entry 82). -/
def Obligations.ScarabAnswersItsMessages : Prop :=
  (∀ (f : FnId) (c : MbxId) (s : State),
    (¬ s.holdsMessage f c 0x0001 → exec (.getInfo f c) s = .next s) ∧
    (¬ s.holdsMessage f c 0x0002 → exec (.telemetryRead f c) s = .next s)) ∧
  (∀ (f : FnId) (c : MbxId) (s : State), s.holdsMessage f c 0x0001 →
    ∃ t, exec (.getInfo f c) s = .next t ∧ Answered t c stOk (replyBlock 0x0001
      [s.getF F.fwVersionVersion, (s.rd .bootStatus).toNat, s.getF F.mgmtStatusRestarts,
        (s.elapsed - s.mgmt.releasedAt) / ticksPerMs])) ∧
  ∀ (f : FnId) (c : MbxId) (s : State), s.holdsMessage f c 0x0002 →
    ∃ t r, exec (.telemetryRead f c) s = .next t ∧ Answered t c stOk r ∧ r.length = 128 ∧ leAt r 4 2 = 0x0002 ∧
      (∀ k, k < 13 → leAt r (24 + 4 * k) 4 = (s.rd (.telTemp k)).toNat) ∧
      ∀ k, k < 8 → leAt r (76 + 4 * k) 4 = (s.rd (.telVolt k)).toNat

/-- Attestation and recovery over DOE (R438, R442 to R446): each request has its response; until the certificate area is
read the answer is ERROR with Busy; a request on an absent port, or before configuration requests are answered, has
none. An image received in recovery boots when it passes; out of recovery no image is taken. The codes and places of
the responses are presumed from the SPDM standard (log entry 83). -/
def Obligations.AttestationAnswersAndRecoveryBoots : Prop :=
  (∀ (port : PortId) (ed sha : Bool) (slot : Fin 8) (offset length : Nat) (nonce : List Byte) (s : State),
    s.answersSpdm port = true →
    Responds (.getVersion port) s port 0x04 [0x13] ∧ Responds (.getCapabilities port) s port 0x61 [0x16, 0, 0, 0] ∧
    Responds (.negotiateAlgorithms port ed sha) s port (if ed && sha then 0x63 else 0x7F)
      (if ed && sha then [4, 0, 0, 0, 0, 4, 0, 0, 2, 0, 0, 0] else [0x01]) ∧
    Responds (.getDigests port) s port 0x01 (if s.certsOk then 1 :: Config.sha384 s.chain else [0]) ∧
    (s.certsOk = false → Responds (.getCertificate port slot offset length) s port 0x7F [0x05] ∧
      Responds (.challenge port slot nonce) s port 0x7F [0x05]) ∧
    (s.certsOk = true →
      let rest := s.chain.drop offset
      let part := rest.take length
      let refused := slot.val ≠ 0 ∨ rest = []
      Responds (.getCertificate port slot offset length) s port (if refused then 0x7F else 0x02)
        (if refused then [0x01] else leBytes 2 part.length ++ leBytes 2 (rest.length - part.length) ++ part)) ∧
    (s.certsOk = true → slot.val ≠ 0 → Responds (.challenge port slot nonce) s port 0x7F [0x01]) ∧
    (s.certsOk = true → slot.val = 0 → Responds (.challenge port slot nonce) s port 0x03
      (Config.sha384 s.chain ++ Config.edSign (nonce ++ Config.sha384 s.chain))) ∧
    ∀ code, Responds (.spdmUnsupportedRequest port code) s port 0x7F [0x07, code]) ∧
  (∀ (port : PortId) (index : Fin 256) (signed : Bool) (nonce : List Byte) (s : State), s.answersSpdm port = true →
    let i := Instr.getMeasurements port index signed nonce
    let one := s.blocks.filter fun e => e.1 == index.val
    let sig (d : List Byte) : List Byte := d ++ if signed then Config.edSign (nonce ++ d) else []
    (signed = true → s.certsOk = false → Responds i s port 0x7F [0x05]) ∧
    (signed = false ∨ s.certsOk = true →
      (index.val = 0 → Responds i s port 0x60 (sig (leBytes 1 s.blocks.length))) ∧
      (index.val ≠ 0 → index.val ≠ 0xFF → one = [] → Responds i s port 0x7F [0x01]) ∧
      (index.val ≠ 0 → index.val ≠ 0xFF → one ≠ [] → Responds i s port 0x60 (sig (blockBytes one))) ∧
      (index.val = 0xFF → signed = false → Responds i s port 0x60 (blockBytes s.blocks)) ∧
      (index.val = 0xFF → signed = true → Responds i s port 0x60
        (sig (blockBytes (s.blocks.filter fun e => decide (e.1 < 0xF0)) ++
          block 0xF0 (Config.mldsaSign (Config.sha384 (nonce ++ blockBytes s.blocks))) ++
          blockBytes (s.blocks.filter fun e => decide (0xF0 < e.1))))))) ∧
  (∀ (port : PortId) (ed sha : Bool) (slot : Fin 8) (offset length : Nat) (index : Fin 256) (signed : Bool) (code : Byte)
    (nonce : List Byte) (i : Instr) (s : State),
    i ∈ [Instr.getVersion port, .getCapabilities port, .negotiateAlgorithms port ed sha, .getDigests port,
      .getCertificate port slot offset length, .challenge port slot nonce, .getMeasurements port index signed nonce,
      .spdmUnsupportedRequest port code] →
    (s.present (port.val * 128) = true → s.cfgAnswers = true → s.recovery = false → s.mgmt.certsRead = false →
      Responds i s port 0x7F [0x03]) ∧
    (s.present (port.val * 128) = false ∨ s.cfgAnswers = false → exec i s = .next s)) ∧
  (∀ (offset : Nat) (data : List Byte) (s : State),
    (s.recovery = true → data.length ≤ 65536 → ∃ t, exec (.recoveryImageObject offset data) s = .next t ∧
      t.regs = s.regs ∧ t.mgmt.received = s.mgmt.received ++ [(offset, data)]) ∧
    (s.recovery = false ∨ 65536 < data.length → exec (.recoveryImageObject offset data) s = .next s)) ∧
  ∀ (img : ImageCopy) (s : State),
    (s.recovery = true → s.imageCheck true img = 0 → ∃ t, exec (.recoveryImageEnd img) s = .next t ∧
      t.mgmt.running = some img ∧ t.getF F.bootStatusPhase = 4 ∧ t.getF F.bootStatusFailHost = 0 ∧
      t.getF F.secStatusSource = 2) ∧
    (s.recovery = true → s.imageCheck true img ≠ 0 → ∃ t, exec (.recoveryImageEnd img) s = .next t ∧
      t.recovery = true ∧ t.mgmt.received = [] ∧ t.getF F.bootStatusFailHost = s.imageCheck true img) ∧
    (s.recovery = false → exec (.recoveryImageEnd img) s = .next s)

/-! ### Resets, boot, cores, power, faults -/

/-- Resets, supplies and the boot (R129, R132, R379, R434, R438, R439, R442, R447 to R450, R470 to R472, R512): LAST_RESET
names the reset; the boot ROM reads the better copy, then the other one, then enters recovery; each stage of bring-up
follows the one before. What meets the device in another stage changes nothing. What the rows of a reset stand for is
the model's reading (log entries 78 and 79). -/
def Obligations.ResetsLeadToBoot : Prop :=
  (∀ s : State,
    (s.mgmt.perst = false → ∃ t, exec .perstAssert s = .next t ∧ t.mgmt.perst = true ∧
      t.getF F.rstStatusLastReset = 2 ∧ t.flag F.rstStatusHbmKept = true) ∧
    (s.mgmt.perst = true → exec .perstAssert s = .next s)) ∧
  (∀ s : State,
    let may := s.mgmt.perst = false ∧ s.mgmt.railFault = false ∧ s.mgmt.rails = true ∧ s.mgmt.dualPort = false
    (may → exec .hotReset s = .next { hotReset s with pending := s.pending } ∧
      (hotReset s).getF F.rstStatusLastReset = 3) ∧
    (¬ may → exec .hotReset s = .next s)) ∧
  (∀ (a b : ImageCopy) (s : State),
    (s.mgmt.perst = false → exec (.perstRelease a b) s = .next s) ∧
    (s.mgmt.perst = true → ∃ t, exec (.perstRelease a b) s = .next t ∧ t.mgmt.perst = false ∧ t.mgmt.wakePin = false ∧
      t.mgmt.flashA = some a ∧ t.mgmt.flashB = some b ∧
      (s.mgmt.rails = false ∨ s.mgmt.railFault = true → t.regs = s.regs) ∧
      (s.mgmt.rails = true → s.mgmt.railFault = false →
        t.getF F.bootStatusFailA = s.headerCheck a ∧ t.getF F.bootStatusFailB = s.headerCheck b ∧
        (s.headerCheck a = 0 → (s.headerCheck b ≠ 0 ∨ bFirst a b = false) →
          t.mgmt.booting = some a ∧ t.mgmt.bootCopyB = false ∧ t.getF F.bootStatusPhase = 1) ∧
        (s.headerCheck b = 0 → (s.headerCheck a ≠ 0 ∨ bFirst a b = true) →
          t.mgmt.booting = some b ∧ t.mgmt.bootCopyB = true ∧ t.getF F.bootStatusPhase = 2) ∧
        (s.headerCheck a ≠ 0 → s.headerCheck b ≠ 0 → t.recovery = true)))) ∧
  (∀ (copyB : Bool) (s : State), (s.mgmt.booting = none ∨ s.mgmt.bootCopyB ≠ copyB) →
    exec (.bootImageVerified copyB) s = .next s) ∧
  (∀ (i : ImageCopy) (s : State), s.mgmt.booting = some i →
    ∃ t, exec (.bootImageVerified s.mgmt.bootCopyB) s = .next t ∧
      (payloadCheck i = 0 → t.mgmt.running = some i ∧ t.getF F.bootStatusPhase = 4 ∧
        t.getF F.secStatusSource = bit s.mgmt.bootCopyB) ∧
      (payloadCheck i ≠ 0 →
        t.getF (if s.mgmt.bootCopyB then F.bootStatusFailB else F.bootStatusFailA) = payloadCheck i ∧
        (s.mgmt.other = none → t.recovery = true) ∧
        ∀ j, s.mgmt.other = some j → t.mgmt.booting = some j ∧ t.mgmt.bootCopyB = !s.mgmt.bootCopyB)) ∧
  (∀ (area : CertArea) (s : State),
    (s.mgmt.running.isSome = true → ∃ t, exec (.certAreaReadDone area) s = .next t ∧ t.mgmt.certsRead = true ∧
      t.flag F.bootStatusCertsInvalid = !certAreaOk area) ∧
    (s.mgmt.running = none → exec (.certAreaReadDone area) s = .next s)) ∧
  (∀ (bad : BitVec 8) (s : State),
    (s.getF F.bootStatusPhase = 4 → ∃ u, exec (.reducedServiceDeclared bad) s =
      .next { bringUp u with pending := s.pending } ∧ u.getF F.bootStatusPhase = 5 ∧ u.mgmt.scarabDown = false ∧
      u.flag F.mgmtStatusRunning = true ∧ u.mgmt.calDue = true ∧ (∀ b, b < 2 → (u.bank b).slow = true) ∧
      ∀ b, b < 8 → u.getF (F.feBankStatusStepsValid b) = if bad.getLsbD b then 0 else s.getF (F.feBankStatusStepsValid b)) ∧
    (s.getF F.bootStatusPhase ≠ 4 → exec (.reducedServiceDeclared bad) s = .next s)) ∧
  (∀ (n : Fin 2) (k : Nat) (s : State),
    (s.getF F.bootStatusPhase = 5 →
      (∃ t, exec (.hbmTrainingDone n true k) s = .next t ∧ n.val ∈ t.mgmt.trained ∧
        t.getF (F.hbmStackStatusTrainAttempts n) = min 255 (s.getF (F.hbmStackStatusTrainAttempts n) + k)) ∧
      ∃ t, exec (.hbmTrainingDone n false k) s = .next t ∧ t.getF F.secStatusSecState = 3 ∧
        (t.getF F.fltPinCauseCause).testBit 4 = true ∧
        t.getF (F.hbmStackStatusTrainAttempts n) = min 255 (s.getF (F.hbmStackStatusTrainAttempts n) + k)) ∧
    (s.getF F.bootStatusPhase ≠ 5 → ∀ ok, exec (.hbmTrainingDone n ok k) s = .next s)) ∧
  (∀ (x : Label) (s : State),
    let u := advanceTo x s
    let ps := u.begunParts.filter u.inStaging
    (u.mayEclose = false → exec (.eclosion x) s = .next { u with pending := s.pending }) ∧
    (u.mayEclose = true → ps = [] → exec (.eclosion x) s = .next { eclose u with pending := s.pending }) ∧
    (u.mayEclose = true → ps ≠ [] → exec (.eclosion x) s = .next { each stopForEclosion ps
      (each (fun p => blocksTo p x) ps { u with mgmt := { u.mgmt with eclosing := true } }) with pending := s.pending })) ∧
  (∀ s : State, (s.mgmt.vaux = false → ∃ t, exec .vauxPowerOn s = .next t ∧ t.mgmt.vaux = true ∧ t.mgmt.perst = true ∧
      t.getF F.secStatusFusedEpoch = s.mgmt.fusedEpoch % 512) ∧
    (s.mgmt.vaux = true → exec .vauxPowerOn s = .next s)) ∧
  (∀ s : State, ∃ t, exec .vauxLoss s = .next t ∧ t.regs = State.reset.regs ∧ t.fns = State.reset.fns ∧
    t.mgmt.vaux = State.reset.mgmt.vaux ∧ t.mgmt.fusedEpoch = s.mgmt.fusedEpoch ∧ t.mgmt.revoked = s.mgmt.revoked ∧
    t.mgmt.flashA = s.mgmt.flashA ∧ t.mgmt.flashB = s.mgmt.flashB) ∧
  (∀ (dual src : Bool) (s : State),
    (s.mgmt.rails = false ∨ s.mgmt.tripped = true → ∃ t, exec (.mainRailsValid dual src) s = .next t ∧
      t.mgmt.rails = true ∧ t.mgmt.dualPort = dual ∧ t.mgmt.devidSrc = src ∧ t.mgmt.tripped = false ∧
      t.flag F.csStatusSyspllLocked = true) ∧
    (s.mgmt.rails = true → s.mgmt.tripped = false → exec (.mainRailsValid dual src) s = .next s)) ∧
  (∀ (rail : Fin 8) (s : State),
    (rail.val ≠ 7 → s.mgmt.rails = true → ∃ t, exec (.railFault rail) s = .next t ∧ t.mgmt.railFault = true ∧
      t.mgmt.perst = s.mgmt.perst ∧ (s.mgmt.perst = false ∨ rail.val = 3 ∨ rail.val = 4 →
        t.getF F.rstStatusLastReset = 2 ∧ t.flag F.rstStatusHbmKept = (decide (rail.val ≠ 3) && decide (rail.val ≠ 4)))) ∧
    (rail.val = 7 ∨ s.mgmt.rails = false → exec (.railFault rail) s = .next s)) ∧
  (∀ s : State,
    let u : State := { s with mgmt := { s.mgmt with railFault := false } }
    (s.mgmt.railFault = false → exec .railFaultRestart s = .next s) ∧
    (s.mgmt.railFault = true → s.mgmt.perst = true → exec .railFaultRestart s = .next u) ∧
    (s.mgmt.railFault = true → s.mgmt.perst = false →
      exec .railFaultRestart s = .next { bootRom u with pending := s.pending })) ∧
  ∀ s : State, ∃ t, exec .d3coldEntry s = .next t ∧ t.mgmt.rails = false ∧ t.mgmt.d3cold = true ∧
    ∀ d, 2 ≤ d → d ≤ 30 → t.domain d = 3

/-- Restarts of the cores, telemetry and thermal steps (R419, R451 to R454): a core that is down does not fail again; a
fourth restart within 60 s holds Scarab; the commands that waited for it are carried out; the steps follow the die
temperature, GATE and WARN while Scarab runs. The instants at which GATE acts are the model's choice (log entry 81).
-/
def Obligations.CoresRestartAndStepsFollowTheDie : Prop :=
  (∀ (cause : CoreFault) (s : State),
    let recent := (s.mgmt.restartTimes.filter fun t => decide (s.elapsed < t + 60 * ticksPerSecond)).length
    (s.mgmt.scarabDown = false → ∃ t, exec (.scarabWatchdogExpiry cause) s = .next t ∧ t.mgmt.scarabDown = true ∧
      t.flag F.mgmtStatusRunning = false ∧ (recent < 3 → t.mgmt.restartCause = some (Machine.CoreFault.code cause)) ∧
      (3 ≤ recent → t.mgmt.restartCause = none ∧ t.flag F.mgmtStatusHalted = true ∧
        (t.getF F.fltPinCauseCause).testBit 3 = true)) ∧
    (s.mgmt.scarabDown = true → exec (.scarabWatchdogExpiry cause) s = .next s)) ∧
  (∀ (c : Nat) (s : State), s.mgmt.restartCause = some c → ∃ u, exec .scarabRestarted s =
      .next { each readBlock (List.range 16) (each runWaiting s.waiting (restartBringUp (followGate u))) with
        pending := s.pending } ∧
      u.mgmt.scarabDown = false ∧ u.mgmt.restartCause = none ∧ u.waiting = [] ∧
      u.getF F.mgmtStatusRestarts = min 65535 (s.getF F.mgmtStatusRestarts + 1)) ∧
  (∀ s : State, s.mgmt.restartCause = none → exec .scarabRestarted s = .next s) ∧
  (∀ (cause : CoreFault) (s : State),
    (s.mgmt.fireflyDown = false → ∃ t, exec (.fireflyRestart cause) s = .next t ∧
      t.getF (F.fltCountCount 0x0F) = min 0xFFFFFFFF (s.getF (F.fltCountCount 0x0F) + 1) ∧
      ∀ c, c < 16 → (s.toFirefly c = true → t.chan c = { untaken := none, taken := none }) ∧
        (s.toFirefly c = false → t.chan c = s.chan c)) ∧
    (s.mgmt.fireflyDown = true → exec (.fireflyRestart cause) s = .next s)) ∧
  (∀ (temps : List Int) (volts : List Nat) (s : State),
    (s.domainOff 30 = false → ∃ t, exec (.telemetrySample temps volts) s = .next t ∧
      (∀ k (h : k < temps.length), k < 13 → t.getF (F.telTempTemp k) = twos 16 temps[k]) ∧
      ∀ k (h : k < volts.length), k < 8 → t.getF (F.telVoltMv k) = volts[k] % 65536) ∧
    (s.domainOff 30 = true → exec (.telemetrySample temps volts) s = .next s)) ∧
  (∀ s : State,
    (∀ b, s.thermMove 1 110 105 = some b → s.mgmt.scarabDown = false → ∃ t, exec .thermWarn s = .next t ∧
      (t.getF F.thermStatusSteps).testBit 1 = b ∧ (t.getF F.thermStatusSteps).testBit 0 =
        (s.getF F.thermStatusSteps).testBit 0) ∧
    (s.thermMove 1 110 105 = none ∨ s.mgmt.scarabDown = true → exec .thermWarn s = .next s)) ∧
  (∀ s : State,
    (s.thermMove 0 100 95 = some true → s.mgmt.scarabDown = false → ∃ u, exec .thermGate s =
      .next { followGate (bringUpAgain u) with pending := s.pending } ∧
      (u.getF F.thermStatusSteps).testBit 0 = true) ∧
    (s.thermMove 0 100 95 = some false → s.mgmt.scarabDown = false → ∃ u, exec .thermGate s =
      .next { bringUp (followGate u) with pending := s.pending } ∧ (u.getF F.thermStatusSteps).testBit 0 = false) ∧
    (s.thermMove 0 100 95 = none ∨ s.mgmt.scarabDown = true → exec .thermGate s = .next s)) ∧
  (∀ s : State,
    (s.thermMove 2 118 113 = some true → ∃ t, exec .thermStop s = .next t ∧
      ∀ p ∈ t.begunParts, (t.part p).stopDue.any (fun d => d.1 == 5) = true ∨
        (t.part p).gaps.any (fun g => g.reason == 5) = true) ∧
    (s.thermMove 2 118 113 = some false → ∃ u, exec .thermStop s =
      .next { bringUp (stopInterval 0x9005 u) with pending := s.pending } ∧
      (u.getF F.thermStatusSteps).testBit 2 = false) ∧
    (s.thermMove 2 118 113 = none → exec .thermStop s = .next s)) ∧
  ∀ s : State,
    (s.thermMove 3 125 (-32768) = some true → ∃ t, exec .thermTrip s = .next t ∧ t.mgmt.rails = false ∧
      t.mgmt.tripped = true ∧ ∀ d, 2 ≤ d → d ≤ 30 → t.domain d = 3) ∧
    (s.thermMove 3 125 (-32768) ≠ some true → exec .thermTrip s = .next s)

/-- The power domains (R463 to R466): an idle domain goes to GATED, then RETAIN, unless pinned; work brings it back; it is
off while its off condition holds and nothing pins it; a bank that BANK_EN disables is off. That domain states change
by commands only is the model's reading (log entry 34). -/
def Obligations.DomainsFollowTheirControllers : Prop :=
  (∀ (d : DomId) (s : State),
    let gate := s.domain d = 0 ∧ gates d = true
    let retain := s.domain d = 1 ∧ retains d = true ∧ s.flag (F.pwrCtlRetainEn d) = true
    (s.pinned d = false → gate → ∃ t, exec (.domainIdleTimeout d) s = .next t ∧ t.domain d = 1) ∧
    (s.pinned d = false → retain → ∃ t, exec (.domainIdleTimeout d) s = .next t ∧ t.domain d = 2) ∧
    (s.pinned d = true ∨ (¬ gate ∧ ¬ retain) → exec (.domainIdleTimeout d) s = .next s)) ∧
  (∀ (d : DomId) (s : State), ∃ t, exec (.domainWake d) s = .next t ∧
    t.domain d = if s.domain d = 3 then 3 else 0) ∧
  (∀ (d : DomId) (s : State),
    let may := s.offCondition d = true ∧ s.pinned d = false ∧ s.forbidden d = false
    (may → ∃ t, exec (.domainPowerOff d) s = .next t ∧ t.domain d = 3) ∧
    (¬ may → exec (.domainPowerOff d) s = .next s)) ∧
  (∀ (d : DomId) (s : State),
    let may := (s.offCondition d = false ∨ d.val = 30 ∨ s.pinned d = true ∨ s.forbidden d = true) ∧
      s.domainOff d = true ∧ s.mayBeOn d = true
    (may → ∃ t, exec (.domainPowerOn d) s = .next t ∧ t.domain d = 0) ∧
    (¬ may → exec (.domainPowerOn d) s = .next s)) ∧
  ∀ (f : FnId) (v : Word) (s : State), s.carriesOut f 0x70100 = true →
    let taken := ∃ b, b < 8 ∧ v.getLsbD b = false ∧ (s.partOf b).isSome = true
    (¬ taken → ∃ t, exec (.pwrBankEnWrite f v) s = .next t ∧ t.getF F.pwrBankEnBankEn = v.toNat % 256 ∧
      ∀ b, b < 8 → v.getLsbD b = false → t.domainOff (2 + b) = true ∧ t.domainOff (10 + b) = true) ∧
    (taken → ∃ t, exec (.pwrBankEnWrite f v) s = .next t ∧ t.flag F.pwrEventsCfgRefused = true ∧
      t.getF F.pwrBankEnBankEn = s.getF F.pwrBankEnBankEn)

/-- Faults (R484, R493, R494, R501, R521): the patrol takes each word that it finds upset: a correctable one is counted
and changes nothing, an uncorrectable one disables its detector, or the branches or the sequencer that it belongs to,
and sets cause 5; a domain that is off holds none. Causes clear where 1 is written, unless they last; CLEAR_COUNTS
brings every count to 0; an SMBus read answers its register, 0xFF while Scarab is down. The causes that last are the
model's reading (log entry 26). -/
def Obligations.FaultsAreRecorded : Prop :=
  (∀ (l : List (Nat × Bool)) (s : State),
    exec (.cfgPatrol l) s = .next { each (fun e => cfgUpset e.1 e.2) l s with pending := s.pending }) ∧
  (∀ (off : Nat) (s : State), configWord off = true →
    ((0x20000 ≤ off ∧ off < 0x28800) ∨ (0x30000 ≤ off ∧ off < 0x40000)) →
    let d := if off < 0x28000 then 10 + (off - 0x20000) / 0x1000 else 18
    let t := cfgUpset off true s
    let u := cfgUpset off false s
    (s.domainOff d = true → t = s ∧ u = s) ∧
    (s.domainOff d = false → (t.getF F.fltPinCauseCause).testBit 5 = true ∧
      t.getF (F.fltCountCount 3) = min 0xFFFFFFFF (s.getF (F.fltCountCount 3) + 1) ∧
      (off < 0x28000 → (t.det ((off - 0x20000) / 0x100)).ue = true) ∧
      (0x28000 ≤ off → off < 0x28800 → (t.det (128 + (off - 0x28000) / 0x100)).ue = true) ∧
      (0x30000 ≤ off → let k := off % 0x2000
        let q := t.seq ((off - 0x30000) / 0x2000)
        (k < 0x200 → q.stopped = true) ∧
        (0x200 ≤ k → k < 0x1000 → ∀ j, j < 4 → 4 * ((k - 0x200) / 0x10) + j ∈ q.deadBranches) ∧
        (0x1000 ≤ k → (k - 0x1000) / 0x40 ∈ q.deadBranches)) ∧
      u.dets = s.dets ∧ u.seqs = s.seqs ∧
      u.getF (F.fltCountCount 2) = min 0xFFFFFFFF (s.getF (F.fltCountCount 2) + 1))) ∧
  (∀ (f : FnId) (v : Word) (s : State), s.carriesOut f 0x4818 = true →
    ∃ t, exec (.fltPinCauseClear f v) s = .next t ∧ ∀ k, k < 6 → (t.getF F.fltPinCauseCause).testBit k =
      (((s.getF F.fltPinCauseCause).testBit k && !v.getLsbD k) || s.heldCauses.testBit k)) ∧
  (∀ (f : FnId) (on : Bool) (s : State), s.carriesOut f 0x4820 = true →
    ∃ t, exec (.faultTest f on) s = .next t ∧ t.flag F.fltCtrlFaultTest = on ∧
      t.mgmt.faultPin = (decide (s.pinCommon ≠ 0) || on)) ∧
  (∀ (f : FnId) (s : State), s.carriesOut f 0x4820 = true →
    ∃ t, exec (.clearCounts f) s = .next t ∧ ∀ c, 1 ≤ c → c ≤ 18 → t.getF (F.fltCountCount c) = 0) ∧
  ∀ (code : Byte) (s : State), ∃ t v, exec (.smbusReadByte code) s = .next t ∧ t.out = .smbus v :: s.out ∧
    t.regs = s.regs ∧ (4 ≤ code.toNat → v = none) ∧
    (code = 2 → v = some (BitVec.ofNat 8 (s.getF F.fltPinCauseCause))) ∧
    (code ≠ 2 → code.toNat < 4 → (s.mgmt.scarabDown = true ∨ s.mgmt.d3cold = true) → v = some 0xFF) ∧
    (s.mgmt.scarabDown = false → s.mgmt.d3cold = false →
      (code = 0 → v = some (BitVec.ofNat 8 (wholeDegrees (s.getF F.thermStatusDieTemp)))) ∧
      (code = 1 → v = some (BitVec.ofNat 8 (s.getF F.thermStatusSteps))) ∧
      (code = 3 → v = some (BitVec.ofNat 8 (s.getF F.secStatusSecState + s.getF F.pwrModeMode * 4))))
end

