-- ==== Sys2Proof/Laws/Sparse.lean ====
section
/-! SUPPORT. Laws/Sparse.lean: the laws of sparse maps: a look-up after a store at the same key and at another one, and
the canonical form that a store, a filter and a change of the values keep. -/

namespace Sys2Proof.Machine

variable {α β : Type}

theorem spGet_spErase_same (d : α) (k : Nat) (m : Sp α) : spGet d k (spErase k m) = d := by
  induction m with
  | nil => rfl
  | cons e r ih =>
    obtain ⟨k', v⟩ := e
    by_cases h : k' = k <;> simp [spErase, spGet, h, ih]

theorem spGet_spErase_ne (d : α) {k j : Nat} (h : j ≠ k) (m : Sp α) : spGet d j (spErase k m) = spGet d j m := by
  induction m with
  | nil => rfl
  | cons e r ih =>
    obtain ⟨k', v⟩ := e
    by_cases hk : k' = k
    · subst hk
      simp [spErase, spGet, ih, Ne.symm h]
    · simp [spErase, spGet, hk, ih]

theorem spGet_spInsert_same (d : α) (k : Nat) (v : α) (m : Sp α) (h : ∀ e ∈ m, e.1 ≠ k) :
    spGet d k (spInsert k v m) = v := by
  induction m with
  | nil => simp [spInsert, spGet]
  | cons e r ih =>
    obtain ⟨k', v'⟩ := e
    have hne : k' ≠ k := h (k', v') (by simp)
    by_cases hlt : k < k'
    · simp [spInsert, spGet, hlt]
    · simp [spInsert, spGet, hlt, hne, ih fun e he => h e (by simp [he])]

theorem spGet_spInsert_ne (d : α) {k j : Nat} (h : j ≠ k) (v : α) (m : Sp α) :
    spGet d j (spInsert k v m) = spGet d j m := by
  induction m with
  | nil => simp [spInsert, spGet, Ne.symm h]
  | cons e r ih =>
    obtain ⟨k', v'⟩ := e
    by_cases hlt : k < k'
    · simp [spInsert, spGet, hlt, Ne.symm h]
    · simp [spInsert, spGet, hlt, ih]

theorem mem_spErase_ne (k : Nat) (m : Sp α) : ∀ e ∈ spErase k m, e.1 ≠ k := by
  induction m with
  | nil => simp [spErase]
  | cons e r ih =>
    obtain ⟨k', v⟩ := e
    by_cases h : k' = k
    · simpa [spErase, h] using ih
    · intro e he
      simp only [spErase, if_neg h, List.mem_cons] at he
      rcases he with rfl | he
      · exact h
      · exact ih e he

/-- A look-up at the key stored to answers what was stored. -/
@[simp] theorem spGet_spSet_same [DecidableEq α] (d : α) (k : Nat) (v : α) (m : Sp α) :
    spGet d k (spSet d k v m) = v := by
  unfold spSet
  split
  · next h => rw [spGet_spErase_same, h]
  · exact spGet_spInsert_same d k v _ (mem_spErase_ne k m)

/-- A look-up at another key answers what it answered before, whatever the default of either. -/
theorem spGet_spSet_ne [DecidableEq α] (d d' : α) {k j : Nat} (h : j ≠ k) (v : α) (m : Sp α) :
    spGet d j (spSet d' k v m) = spGet d j m := by
  unfold spSet
  split
  · exact spGet_spErase_ne d h m
  · rw [spGet_spInsert_ne d h, spGet_spErase_ne d h]

@[simp] theorem spGet_nil (d : α) (k : Nat) : spGet d k ([] : Sp α) = d := rfl

/-! ### The canonical form -/

theorem spRising_mono {lo hi : Nat} (h : lo ≤ hi) (m : Sp α) (w : spRising hi m = true) : spRising lo m = true := by
  cases m with
  | nil => rfl
  | cons e r =>
    simp only [spRising, Bool.and_eq_true, decide_eq_true_eq] at w ⊢
    exact ⟨h.trans w.1, w.2⟩

theorem spRising_filter (c : Nat × α → Bool) : ∀ (lo : Nat) (m : Sp α), spRising lo m = true →
    spRising lo (m.filter c) = true
  | _, [], _ => rfl
  | lo, (k, v) :: r, w => by
    simp only [spRising, Bool.and_eq_true, decide_eq_true_eq] at w
    have ih := spRising_filter c (k + 1) r w.2
    by_cases h : c (k, v) = true
    · simp [h, spRising, w.1, ih]
    · simp only [h, List.filter_cons, Bool.false_eq_true, if_false]
      exact spRising_mono (by omega) _ ih

theorem spRising_map (g : Nat × α → β) : ∀ (lo : Nat) (m : Sp α), spRising lo m = true →
    spRising lo (m.map fun e => (e.1, g e)) = true
  | _, [], _ => rfl
  | lo, (k, v) :: r, w => by
    simp only [spRising, Bool.and_eq_true, decide_eq_true_eq] at w
    simp [spRising, w.1, spRising_map g (k + 1) r w.2]

theorem spErase_eq_filter (k : Nat) (m : Sp α) : spErase k m = m.filter fun e => decide (e.1 ≠ k) := by
  induction m with
  | nil => rfl
  | cons e r ih =>
    obtain ⟨k', v⟩ := e
    by_cases h : k' = k <;> simp [spErase, h, ih]

theorem spRising_spInsert (k : Nat) (v : α) : ∀ (lo : Nat) (m : Sp α), lo ≤ k → (∀ e ∈ m, e.1 ≠ k) →
    spRising lo m = true → spRising lo (spInsert k v m) = true
  | lo, [], h, _, _ => by simp [spInsert, spRising, h]
  | lo, (k', v') :: r, h, hm, w => by
    simp only [spRising, Bool.and_eq_true, decide_eq_true_eq] at w
    have hne : k' ≠ k := hm (k', v') (by simp)
    by_cases hlt : k < k'
    · simp only [spInsert, if_pos hlt, spRising, Bool.and_eq_true, decide_eq_true_eq]
      exact ⟨h, hlt, w.2⟩
    · simp only [spInsert, if_neg hlt, spRising, Bool.and_eq_true, decide_eq_true_eq]
      exact ⟨w.1, spRising_spInsert k v (k' + 1) r (by omega) (fun e he => hm e (by simp [he])) w.2⟩

/-- A store keeps the canonical form. -/
@[simp] theorem spWf_spSet [DecidableEq α] (d : α) (k : Nat) (v : α) (m : Sp α) (w : spWf m = true) :
    spWf (spSet d k v m) = true := by
  have we : spRising 0 (spErase k m) = true := by rw [spErase_eq_filter]; exact spRising_filter _ 0 m w
  unfold spWf spSet
  split
  · exact we
  · exact spRising_spInsert k v 0 _ (Nat.zero_le k) (mem_spErase_ne k m) we

/-- Dropping entries keeps the canonical form. -/
@[simp] theorem spWf_filter (c : Nat × α → Bool) (m : Sp α) (w : spWf m = true) : spWf (m.filter c) = true :=
  spRising_filter c 0 m w

/-- Changing the values keeps the canonical form. -/
@[simp] theorem spWf_map (g : Nat × α → β) (m : Sp α) (w : spWf m = true) :
    spWf (m.map fun e => (e.1, g e)) = true :=
  spRising_map g 0 m w

@[simp] theorem spWf_nil : spWf ([] : Sp α) = true := rfl

end Sys2Proof.Machine
end

