-- ==== Sys2Proof/Laws/State.lean ====
section
/-! SUPPORT. Laws/State.lean: what each update of one part of the state leaves alone: one lemma per update and part,
true by definition, so that no proof unfolds an update to pass it. -/

namespace Sys2Proof.Machine

variable (s : State)


/-! ### wr -/

@[simp] theorem wr_pending (r : Reg) (w : Word) : (wr r w s).pending = s.pending := rfl
@[simp] theorem wr_live (r : Reg) (w : Word) : (wr r w s).live = s.live := rfl
@[simp] theorem wr_ctrs (r : Reg) (w : Word) : (wr r w s).ctrs = s.ctrs := rfl
@[simp] theorem wr_now (r : Reg) (w : Word) : (wr r w s).now = s.now := rfl
@[simp] theorem wr_elapsed (r : Reg) (w : Word) : (wr r w s).elapsed = s.elapsed := rfl
@[simp] theorem wr_cic (r : Reg) (w : Word) : (wr r w s).cic = s.cic := rfl
@[simp] theorem wr_clk (r : Reg) (w : Word) : (wr r w s).clk = s.clk := rfl
@[simp] theorem wr_banks (r : Reg) (w : Word) : (wr r w s).banks = s.banks := rfl
@[simp] theorem wr_dets (r : Reg) (w : Word) : (wr r w s).dets = s.dets := rfl
@[simp] theorem wr_seqs (r : Reg) (w : Word) : (wr r w s).seqs = s.seqs := rfl
@[simp] theorem wr_flags (r : Reg) (w : Word) : (wr r w s).flags = s.flags := rfl
@[simp] theorem wr_parts (r : Reg) (w : Word) : (wr r w s).parts = s.parts := rfl
@[simp] theorem wr_fns (r : Reg) (w : Word) : (wr r w s).fns = s.fns := rfl
@[simp] theorem wr_chans (r : Reg) (w : Word) : (wr r w s).chans = s.chans := rfl
@[simp] theorem wr_snaps (r : Reg) (w : Word) : (wr r w s).snaps = s.snaps := rfl
@[simp] theorem wr_slow (r : Reg) (w : Word) : (wr r w s).slow = s.slow := rfl
@[simp] theorem wr_mgmt (r : Reg) (w : Word) : (wr r w s).mgmt = s.mgmt := rfl
@[simp] theorem wr_cals (r : Reg) (w : Word) : (wr r w s).cals = s.cals := rfl
@[simp] theorem wr_waiting (r : Reg) (w : Word) : (wr r w s).waiting = s.waiting := rfl
@[simp] theorem wr_readWait (r : Reg) (w : Word) : (wr r w s).readWait = s.readWait := rfl
@[simp] theorem wr_fltLog (r : Reg) (w : Word) : (wr r w s).fltLog = s.fltLog := rfl
@[simp] theorem wr_fltHold (r : Reg) (w : Word) : (wr r w s).fltHold = s.fltHold := rfl
@[simp] theorem wr_fltLost (r : Reg) (w : Word) : (wr r w s).fltLost = s.fltLost := rfl
@[simp] theorem wr_fltSeen (r : Reg) (w : Word) : (wr r w s).fltSeen = s.fltSeen := rfl
@[simp] theorem wr_stamps (r : Reg) (w : Word) : (wr r w s).stamps = s.stamps := rfl
@[simp] theorem wr_since (r : Reg) (w : Word) : (wr r w s).since = s.since := rfl
@[simp] theorem wr_out (r : Reg) (w : Word) : (wr r w s).out = s.out := rfl
@[simp] theorem wr_free (r : Reg) (w : Word) : (wr r w s).free = s.free := rfl

/-! ### wrLive -/

@[simp] theorem wrLive_pending (r : Reg) (w : Word) : (wrLive r w s).pending = s.pending := rfl
@[simp] theorem wrLive_regs (r : Reg) (w : Word) : (wrLive r w s).regs = s.regs := rfl
@[simp] theorem wrLive_ctrs (r : Reg) (w : Word) : (wrLive r w s).ctrs = s.ctrs := rfl
@[simp] theorem wrLive_now (r : Reg) (w : Word) : (wrLive r w s).now = s.now := rfl
@[simp] theorem wrLive_elapsed (r : Reg) (w : Word) : (wrLive r w s).elapsed = s.elapsed := rfl
@[simp] theorem wrLive_cic (r : Reg) (w : Word) : (wrLive r w s).cic = s.cic := rfl
@[simp] theorem wrLive_clk (r : Reg) (w : Word) : (wrLive r w s).clk = s.clk := rfl
@[simp] theorem wrLive_banks (r : Reg) (w : Word) : (wrLive r w s).banks = s.banks := rfl
@[simp] theorem wrLive_dets (r : Reg) (w : Word) : (wrLive r w s).dets = s.dets := rfl
@[simp] theorem wrLive_seqs (r : Reg) (w : Word) : (wrLive r w s).seqs = s.seqs := rfl
@[simp] theorem wrLive_flags (r : Reg) (w : Word) : (wrLive r w s).flags = s.flags := rfl
@[simp] theorem wrLive_parts (r : Reg) (w : Word) : (wrLive r w s).parts = s.parts := rfl
@[simp] theorem wrLive_fns (r : Reg) (w : Word) : (wrLive r w s).fns = s.fns := rfl
@[simp] theorem wrLive_chans (r : Reg) (w : Word) : (wrLive r w s).chans = s.chans := rfl
@[simp] theorem wrLive_snaps (r : Reg) (w : Word) : (wrLive r w s).snaps = s.snaps := rfl
@[simp] theorem wrLive_slow (r : Reg) (w : Word) : (wrLive r w s).slow = s.slow := rfl
@[simp] theorem wrLive_mgmt (r : Reg) (w : Word) : (wrLive r w s).mgmt = s.mgmt := rfl
@[simp] theorem wrLive_cals (r : Reg) (w : Word) : (wrLive r w s).cals = s.cals := rfl
@[simp] theorem wrLive_waiting (r : Reg) (w : Word) : (wrLive r w s).waiting = s.waiting := rfl
@[simp] theorem wrLive_readWait (r : Reg) (w : Word) : (wrLive r w s).readWait = s.readWait := rfl
@[simp] theorem wrLive_fltLog (r : Reg) (w : Word) : (wrLive r w s).fltLog = s.fltLog := rfl
@[simp] theorem wrLive_fltHold (r : Reg) (w : Word) : (wrLive r w s).fltHold = s.fltHold := rfl
@[simp] theorem wrLive_fltLost (r : Reg) (w : Word) : (wrLive r w s).fltLost = s.fltLost := rfl
@[simp] theorem wrLive_fltSeen (r : Reg) (w : Word) : (wrLive r w s).fltSeen = s.fltSeen := rfl
@[simp] theorem wrLive_stamps (r : Reg) (w : Word) : (wrLive r w s).stamps = s.stamps := rfl
@[simp] theorem wrLive_since (r : Reg) (w : Word) : (wrLive r w s).since = s.since := rfl
@[simp] theorem wrLive_out (r : Reg) (w : Word) : (wrLive r w s).out = s.out := rfl
@[simp] theorem wrLive_free (r : Reg) (w : Word) : (wrLive r w s).free = s.free := rfl

/-! ### setF -/

@[simp] theorem setF_pending (x : Fld) (v : Nat) : (setF x v s).pending = s.pending := rfl
@[simp] theorem setF_live (x : Fld) (v : Nat) : (setF x v s).live = s.live := rfl
@[simp] theorem setF_ctrs (x : Fld) (v : Nat) : (setF x v s).ctrs = s.ctrs := rfl
@[simp] theorem setF_now (x : Fld) (v : Nat) : (setF x v s).now = s.now := rfl
@[simp] theorem setF_elapsed (x : Fld) (v : Nat) : (setF x v s).elapsed = s.elapsed := rfl
@[simp] theorem setF_cic (x : Fld) (v : Nat) : (setF x v s).cic = s.cic := rfl
@[simp] theorem setF_clk (x : Fld) (v : Nat) : (setF x v s).clk = s.clk := rfl
@[simp] theorem setF_banks (x : Fld) (v : Nat) : (setF x v s).banks = s.banks := rfl
@[simp] theorem setF_dets (x : Fld) (v : Nat) : (setF x v s).dets = s.dets := rfl
@[simp] theorem setF_seqs (x : Fld) (v : Nat) : (setF x v s).seqs = s.seqs := rfl
@[simp] theorem setF_flags (x : Fld) (v : Nat) : (setF x v s).flags = s.flags := rfl
@[simp] theorem setF_parts (x : Fld) (v : Nat) : (setF x v s).parts = s.parts := rfl
@[simp] theorem setF_fns (x : Fld) (v : Nat) : (setF x v s).fns = s.fns := rfl
@[simp] theorem setF_chans (x : Fld) (v : Nat) : (setF x v s).chans = s.chans := rfl
@[simp] theorem setF_snaps (x : Fld) (v : Nat) : (setF x v s).snaps = s.snaps := rfl
@[simp] theorem setF_slow (x : Fld) (v : Nat) : (setF x v s).slow = s.slow := rfl
@[simp] theorem setF_mgmt (x : Fld) (v : Nat) : (setF x v s).mgmt = s.mgmt := rfl
@[simp] theorem setF_cals (x : Fld) (v : Nat) : (setF x v s).cals = s.cals := rfl
@[simp] theorem setF_waiting (x : Fld) (v : Nat) : (setF x v s).waiting = s.waiting := rfl
@[simp] theorem setF_readWait (x : Fld) (v : Nat) : (setF x v s).readWait = s.readWait := rfl
@[simp] theorem setF_fltLog (x : Fld) (v : Nat) : (setF x v s).fltLog = s.fltLog := rfl
@[simp] theorem setF_fltHold (x : Fld) (v : Nat) : (setF x v s).fltHold = s.fltHold := rfl
@[simp] theorem setF_fltLost (x : Fld) (v : Nat) : (setF x v s).fltLost = s.fltLost := rfl
@[simp] theorem setF_fltSeen (x : Fld) (v : Nat) : (setF x v s).fltSeen = s.fltSeen := rfl
@[simp] theorem setF_stamps (x : Fld) (v : Nat) : (setF x v s).stamps = s.stamps := rfl
@[simp] theorem setF_since (x : Fld) (v : Nat) : (setF x v s).since = s.since := rfl
@[simp] theorem setF_out (x : Fld) (v : Nat) : (setF x v s).out = s.out := rfl
@[simp] theorem setF_free (x : Fld) (v : Nat) : (setF x v s).free = s.free := rfl

/-! ### setL -/

@[simp] theorem setL_pending (x : Fld) (v : Nat) : (setL x v s).pending = s.pending := rfl
@[simp] theorem setL_regs (x : Fld) (v : Nat) : (setL x v s).regs = s.regs := rfl
@[simp] theorem setL_ctrs (x : Fld) (v : Nat) : (setL x v s).ctrs = s.ctrs := rfl
@[simp] theorem setL_now (x : Fld) (v : Nat) : (setL x v s).now = s.now := rfl
@[simp] theorem setL_elapsed (x : Fld) (v : Nat) : (setL x v s).elapsed = s.elapsed := rfl
@[simp] theorem setL_cic (x : Fld) (v : Nat) : (setL x v s).cic = s.cic := rfl
@[simp] theorem setL_clk (x : Fld) (v : Nat) : (setL x v s).clk = s.clk := rfl
@[simp] theorem setL_banks (x : Fld) (v : Nat) : (setL x v s).banks = s.banks := rfl
@[simp] theorem setL_dets (x : Fld) (v : Nat) : (setL x v s).dets = s.dets := rfl
@[simp] theorem setL_seqs (x : Fld) (v : Nat) : (setL x v s).seqs = s.seqs := rfl
@[simp] theorem setL_flags (x : Fld) (v : Nat) : (setL x v s).flags = s.flags := rfl
@[simp] theorem setL_parts (x : Fld) (v : Nat) : (setL x v s).parts = s.parts := rfl
@[simp] theorem setL_fns (x : Fld) (v : Nat) : (setL x v s).fns = s.fns := rfl
@[simp] theorem setL_chans (x : Fld) (v : Nat) : (setL x v s).chans = s.chans := rfl
@[simp] theorem setL_snaps (x : Fld) (v : Nat) : (setL x v s).snaps = s.snaps := rfl
@[simp] theorem setL_slow (x : Fld) (v : Nat) : (setL x v s).slow = s.slow := rfl
@[simp] theorem setL_mgmt (x : Fld) (v : Nat) : (setL x v s).mgmt = s.mgmt := rfl
@[simp] theorem setL_cals (x : Fld) (v : Nat) : (setL x v s).cals = s.cals := rfl
@[simp] theorem setL_waiting (x : Fld) (v : Nat) : (setL x v s).waiting = s.waiting := rfl
@[simp] theorem setL_readWait (x : Fld) (v : Nat) : (setL x v s).readWait = s.readWait := rfl
@[simp] theorem setL_fltLog (x : Fld) (v : Nat) : (setL x v s).fltLog = s.fltLog := rfl
@[simp] theorem setL_fltHold (x : Fld) (v : Nat) : (setL x v s).fltHold = s.fltHold := rfl
@[simp] theorem setL_fltLost (x : Fld) (v : Nat) : (setL x v s).fltLost = s.fltLost := rfl
@[simp] theorem setL_fltSeen (x : Fld) (v : Nat) : (setL x v s).fltSeen = s.fltSeen := rfl
@[simp] theorem setL_stamps (x : Fld) (v : Nat) : (setL x v s).stamps = s.stamps := rfl
@[simp] theorem setL_since (x : Fld) (v : Nat) : (setL x v s).since = s.since := rfl
@[simp] theorem setL_out (x : Fld) (v : Nat) : (setL x v s).out = s.out := rfl
@[simp] theorem setL_free (x : Fld) (v : Nat) : (setL x v s).free = s.free := rfl

/-! ### setFn -/

@[simp] theorem setFn_pending (f : Nat) (x : Fn) : (setFn f x s).pending = s.pending := rfl
@[simp] theorem setFn_regs (f : Nat) (x : Fn) : (setFn f x s).regs = s.regs := rfl
@[simp] theorem setFn_live (f : Nat) (x : Fn) : (setFn f x s).live = s.live := rfl
@[simp] theorem setFn_ctrs (f : Nat) (x : Fn) : (setFn f x s).ctrs = s.ctrs := rfl
@[simp] theorem setFn_now (f : Nat) (x : Fn) : (setFn f x s).now = s.now := rfl
@[simp] theorem setFn_elapsed (f : Nat) (x : Fn) : (setFn f x s).elapsed = s.elapsed := rfl
@[simp] theorem setFn_cic (f : Nat) (x : Fn) : (setFn f x s).cic = s.cic := rfl
@[simp] theorem setFn_clk (f : Nat) (x : Fn) : (setFn f x s).clk = s.clk := rfl
@[simp] theorem setFn_banks (f : Nat) (x : Fn) : (setFn f x s).banks = s.banks := rfl
@[simp] theorem setFn_dets (f : Nat) (x : Fn) : (setFn f x s).dets = s.dets := rfl
@[simp] theorem setFn_seqs (f : Nat) (x : Fn) : (setFn f x s).seqs = s.seqs := rfl
@[simp] theorem setFn_flags (f : Nat) (x : Fn) : (setFn f x s).flags = s.flags := rfl
@[simp] theorem setFn_parts (f : Nat) (x : Fn) : (setFn f x s).parts = s.parts := rfl
@[simp] theorem setFn_chans (f : Nat) (x : Fn) : (setFn f x s).chans = s.chans := rfl
@[simp] theorem setFn_snaps (f : Nat) (x : Fn) : (setFn f x s).snaps = s.snaps := rfl
@[simp] theorem setFn_slow (f : Nat) (x : Fn) : (setFn f x s).slow = s.slow := rfl
@[simp] theorem setFn_mgmt (f : Nat) (x : Fn) : (setFn f x s).mgmt = s.mgmt := rfl
@[simp] theorem setFn_cals (f : Nat) (x : Fn) : (setFn f x s).cals = s.cals := rfl
@[simp] theorem setFn_waiting (f : Nat) (x : Fn) : (setFn f x s).waiting = s.waiting := rfl
@[simp] theorem setFn_readWait (f : Nat) (x : Fn) : (setFn f x s).readWait = s.readWait := rfl
@[simp] theorem setFn_fltLog (f : Nat) (x : Fn) : (setFn f x s).fltLog = s.fltLog := rfl
@[simp] theorem setFn_fltHold (f : Nat) (x : Fn) : (setFn f x s).fltHold = s.fltHold := rfl
@[simp] theorem setFn_fltLost (f : Nat) (x : Fn) : (setFn f x s).fltLost = s.fltLost := rfl
@[simp] theorem setFn_fltSeen (f : Nat) (x : Fn) : (setFn f x s).fltSeen = s.fltSeen := rfl
@[simp] theorem setFn_stamps (f : Nat) (x : Fn) : (setFn f x s).stamps = s.stamps := rfl
@[simp] theorem setFn_since (f : Nat) (x : Fn) : (setFn f x s).since = s.since := rfl
@[simp] theorem setFn_out (f : Nat) (x : Fn) : (setFn f x s).out = s.out := rfl
@[simp] theorem setFn_free (f : Nat) (x : Fn) : (setFn f x s).free = s.free := rfl

/-! ### modFn -/

@[simp] theorem modFn_pending (f : Nat) (g : Fn → Fn) : (modFn f g s).pending = s.pending := rfl
@[simp] theorem modFn_regs (f : Nat) (g : Fn → Fn) : (modFn f g s).regs = s.regs := rfl
@[simp] theorem modFn_live (f : Nat) (g : Fn → Fn) : (modFn f g s).live = s.live := rfl
@[simp] theorem modFn_ctrs (f : Nat) (g : Fn → Fn) : (modFn f g s).ctrs = s.ctrs := rfl
@[simp] theorem modFn_now (f : Nat) (g : Fn → Fn) : (modFn f g s).now = s.now := rfl
@[simp] theorem modFn_elapsed (f : Nat) (g : Fn → Fn) : (modFn f g s).elapsed = s.elapsed := rfl
@[simp] theorem modFn_cic (f : Nat) (g : Fn → Fn) : (modFn f g s).cic = s.cic := rfl
@[simp] theorem modFn_clk (f : Nat) (g : Fn → Fn) : (modFn f g s).clk = s.clk := rfl
@[simp] theorem modFn_banks (f : Nat) (g : Fn → Fn) : (modFn f g s).banks = s.banks := rfl
@[simp] theorem modFn_dets (f : Nat) (g : Fn → Fn) : (modFn f g s).dets = s.dets := rfl
@[simp] theorem modFn_seqs (f : Nat) (g : Fn → Fn) : (modFn f g s).seqs = s.seqs := rfl
@[simp] theorem modFn_flags (f : Nat) (g : Fn → Fn) : (modFn f g s).flags = s.flags := rfl
@[simp] theorem modFn_parts (f : Nat) (g : Fn → Fn) : (modFn f g s).parts = s.parts := rfl
@[simp] theorem modFn_chans (f : Nat) (g : Fn → Fn) : (modFn f g s).chans = s.chans := rfl
@[simp] theorem modFn_snaps (f : Nat) (g : Fn → Fn) : (modFn f g s).snaps = s.snaps := rfl
@[simp] theorem modFn_slow (f : Nat) (g : Fn → Fn) : (modFn f g s).slow = s.slow := rfl
@[simp] theorem modFn_mgmt (f : Nat) (g : Fn → Fn) : (modFn f g s).mgmt = s.mgmt := rfl
@[simp] theorem modFn_cals (f : Nat) (g : Fn → Fn) : (modFn f g s).cals = s.cals := rfl
@[simp] theorem modFn_waiting (f : Nat) (g : Fn → Fn) : (modFn f g s).waiting = s.waiting := rfl
@[simp] theorem modFn_readWait (f : Nat) (g : Fn → Fn) : (modFn f g s).readWait = s.readWait := rfl
@[simp] theorem modFn_fltLog (f : Nat) (g : Fn → Fn) : (modFn f g s).fltLog = s.fltLog := rfl
@[simp] theorem modFn_fltHold (f : Nat) (g : Fn → Fn) : (modFn f g s).fltHold = s.fltHold := rfl
@[simp] theorem modFn_fltLost (f : Nat) (g : Fn → Fn) : (modFn f g s).fltLost = s.fltLost := rfl
@[simp] theorem modFn_fltSeen (f : Nat) (g : Fn → Fn) : (modFn f g s).fltSeen = s.fltSeen := rfl
@[simp] theorem modFn_stamps (f : Nat) (g : Fn → Fn) : (modFn f g s).stamps = s.stamps := rfl
@[simp] theorem modFn_since (f : Nat) (g : Fn → Fn) : (modFn f g s).since = s.since := rfl
@[simp] theorem modFn_out (f : Nat) (g : Fn → Fn) : (modFn f g s).out = s.out := rfl
@[simp] theorem modFn_free (f : Nat) (g : Fn → Fn) : (modFn f g s).free = s.free := rfl

/-! ### setPair -/

@[simp] theorem setPair_pending (f n : Nat) (x : Pair) : (setPair f n x s).pending = s.pending := rfl
@[simp] theorem setPair_regs (f n : Nat) (x : Pair) : (setPair f n x s).regs = s.regs := rfl
@[simp] theorem setPair_live (f n : Nat) (x : Pair) : (setPair f n x s).live = s.live := rfl
@[simp] theorem setPair_ctrs (f n : Nat) (x : Pair) : (setPair f n x s).ctrs = s.ctrs := rfl
@[simp] theorem setPair_now (f n : Nat) (x : Pair) : (setPair f n x s).now = s.now := rfl
@[simp] theorem setPair_elapsed (f n : Nat) (x : Pair) : (setPair f n x s).elapsed = s.elapsed := rfl
@[simp] theorem setPair_cic (f n : Nat) (x : Pair) : (setPair f n x s).cic = s.cic := rfl
@[simp] theorem setPair_clk (f n : Nat) (x : Pair) : (setPair f n x s).clk = s.clk := rfl
@[simp] theorem setPair_banks (f n : Nat) (x : Pair) : (setPair f n x s).banks = s.banks := rfl
@[simp] theorem setPair_dets (f n : Nat) (x : Pair) : (setPair f n x s).dets = s.dets := rfl
@[simp] theorem setPair_seqs (f n : Nat) (x : Pair) : (setPair f n x s).seqs = s.seqs := rfl
@[simp] theorem setPair_flags (f n : Nat) (x : Pair) : (setPair f n x s).flags = s.flags := rfl
@[simp] theorem setPair_parts (f n : Nat) (x : Pair) : (setPair f n x s).parts = s.parts := rfl
@[simp] theorem setPair_chans (f n : Nat) (x : Pair) : (setPair f n x s).chans = s.chans := rfl
@[simp] theorem setPair_snaps (f n : Nat) (x : Pair) : (setPair f n x s).snaps = s.snaps := rfl
@[simp] theorem setPair_slow (f n : Nat) (x : Pair) : (setPair f n x s).slow = s.slow := rfl
@[simp] theorem setPair_mgmt (f n : Nat) (x : Pair) : (setPair f n x s).mgmt = s.mgmt := rfl
@[simp] theorem setPair_cals (f n : Nat) (x : Pair) : (setPair f n x s).cals = s.cals := rfl
@[simp] theorem setPair_waiting (f n : Nat) (x : Pair) : (setPair f n x s).waiting = s.waiting := rfl
@[simp] theorem setPair_readWait (f n : Nat) (x : Pair) : (setPair f n x s).readWait = s.readWait := rfl
@[simp] theorem setPair_fltLog (f n : Nat) (x : Pair) : (setPair f n x s).fltLog = s.fltLog := rfl
@[simp] theorem setPair_fltHold (f n : Nat) (x : Pair) : (setPair f n x s).fltHold = s.fltHold := rfl
@[simp] theorem setPair_fltLost (f n : Nat) (x : Pair) : (setPair f n x s).fltLost = s.fltLost := rfl
@[simp] theorem setPair_fltSeen (f n : Nat) (x : Pair) : (setPair f n x s).fltSeen = s.fltSeen := rfl
@[simp] theorem setPair_stamps (f n : Nat) (x : Pair) : (setPair f n x s).stamps = s.stamps := rfl
@[simp] theorem setPair_since (f n : Nat) (x : Pair) : (setPair f n x s).since = s.since := rfl
@[simp] theorem setPair_out (f n : Nat) (x : Pair) : (setPair f n x s).out = s.out := rfl
@[simp] theorem setPair_free (f n : Nat) (x : Pair) : (setPair f n x s).free = s.free := rfl

/-! ### modPair -/

@[simp] theorem modPair_pending (f n : Nat) (g : Pair → Pair) : (modPair f n g s).pending = s.pending := rfl
@[simp] theorem modPair_regs (f n : Nat) (g : Pair → Pair) : (modPair f n g s).regs = s.regs := rfl
@[simp] theorem modPair_live (f n : Nat) (g : Pair → Pair) : (modPair f n g s).live = s.live := rfl
@[simp] theorem modPair_ctrs (f n : Nat) (g : Pair → Pair) : (modPair f n g s).ctrs = s.ctrs := rfl
@[simp] theorem modPair_now (f n : Nat) (g : Pair → Pair) : (modPair f n g s).now = s.now := rfl
@[simp] theorem modPair_elapsed (f n : Nat) (g : Pair → Pair) : (modPair f n g s).elapsed = s.elapsed := rfl
@[simp] theorem modPair_cic (f n : Nat) (g : Pair → Pair) : (modPair f n g s).cic = s.cic := rfl
@[simp] theorem modPair_clk (f n : Nat) (g : Pair → Pair) : (modPair f n g s).clk = s.clk := rfl
@[simp] theorem modPair_banks (f n : Nat) (g : Pair → Pair) : (modPair f n g s).banks = s.banks := rfl
@[simp] theorem modPair_dets (f n : Nat) (g : Pair → Pair) : (modPair f n g s).dets = s.dets := rfl
@[simp] theorem modPair_seqs (f n : Nat) (g : Pair → Pair) : (modPair f n g s).seqs = s.seqs := rfl
@[simp] theorem modPair_flags (f n : Nat) (g : Pair → Pair) : (modPair f n g s).flags = s.flags := rfl
@[simp] theorem modPair_parts (f n : Nat) (g : Pair → Pair) : (modPair f n g s).parts = s.parts := rfl
@[simp] theorem modPair_chans (f n : Nat) (g : Pair → Pair) : (modPair f n g s).chans = s.chans := rfl
@[simp] theorem modPair_snaps (f n : Nat) (g : Pair → Pair) : (modPair f n g s).snaps = s.snaps := rfl
@[simp] theorem modPair_slow (f n : Nat) (g : Pair → Pair) : (modPair f n g s).slow = s.slow := rfl
@[simp] theorem modPair_mgmt (f n : Nat) (g : Pair → Pair) : (modPair f n g s).mgmt = s.mgmt := rfl
@[simp] theorem modPair_cals (f n : Nat) (g : Pair → Pair) : (modPair f n g s).cals = s.cals := rfl
@[simp] theorem modPair_waiting (f n : Nat) (g : Pair → Pair) : (modPair f n g s).waiting = s.waiting := rfl
@[simp] theorem modPair_readWait (f n : Nat) (g : Pair → Pair) : (modPair f n g s).readWait = s.readWait := rfl
@[simp] theorem modPair_fltLog (f n : Nat) (g : Pair → Pair) : (modPair f n g s).fltLog = s.fltLog := rfl
@[simp] theorem modPair_fltHold (f n : Nat) (g : Pair → Pair) : (modPair f n g s).fltHold = s.fltHold := rfl
@[simp] theorem modPair_fltLost (f n : Nat) (g : Pair → Pair) : (modPair f n g s).fltLost = s.fltLost := rfl
@[simp] theorem modPair_fltSeen (f n : Nat) (g : Pair → Pair) : (modPair f n g s).fltSeen = s.fltSeen := rfl
@[simp] theorem modPair_stamps (f n : Nat) (g : Pair → Pair) : (modPair f n g s).stamps = s.stamps := rfl
@[simp] theorem modPair_since (f n : Nat) (g : Pair → Pair) : (modPair f n g s).since = s.since := rfl
@[simp] theorem modPair_out (f n : Nat) (g : Pair → Pair) : (modPair f n g s).out = s.out := rfl
@[simp] theorem modPair_free (f n : Nat) (g : Pair → Pair) : (modPair f n g s).free = s.free := rfl

/-! ### setBank -/

@[simp] theorem setBank_pending (b : Nat) (x : Bank) : (setBank b x s).pending = s.pending := rfl
@[simp] theorem setBank_regs (b : Nat) (x : Bank) : (setBank b x s).regs = s.regs := rfl
@[simp] theorem setBank_live (b : Nat) (x : Bank) : (setBank b x s).live = s.live := rfl
@[simp] theorem setBank_ctrs (b : Nat) (x : Bank) : (setBank b x s).ctrs = s.ctrs := rfl
@[simp] theorem setBank_now (b : Nat) (x : Bank) : (setBank b x s).now = s.now := rfl
@[simp] theorem setBank_elapsed (b : Nat) (x : Bank) : (setBank b x s).elapsed = s.elapsed := rfl
@[simp] theorem setBank_cic (b : Nat) (x : Bank) : (setBank b x s).cic = s.cic := rfl
@[simp] theorem setBank_clk (b : Nat) (x : Bank) : (setBank b x s).clk = s.clk := rfl
@[simp] theorem setBank_dets (b : Nat) (x : Bank) : (setBank b x s).dets = s.dets := rfl
@[simp] theorem setBank_seqs (b : Nat) (x : Bank) : (setBank b x s).seqs = s.seqs := rfl
@[simp] theorem setBank_flags (b : Nat) (x : Bank) : (setBank b x s).flags = s.flags := rfl
@[simp] theorem setBank_parts (b : Nat) (x : Bank) : (setBank b x s).parts = s.parts := rfl
@[simp] theorem setBank_fns (b : Nat) (x : Bank) : (setBank b x s).fns = s.fns := rfl
@[simp] theorem setBank_chans (b : Nat) (x : Bank) : (setBank b x s).chans = s.chans := rfl
@[simp] theorem setBank_snaps (b : Nat) (x : Bank) : (setBank b x s).snaps = s.snaps := rfl
@[simp] theorem setBank_slow (b : Nat) (x : Bank) : (setBank b x s).slow = s.slow := rfl
@[simp] theorem setBank_mgmt (b : Nat) (x : Bank) : (setBank b x s).mgmt = s.mgmt := rfl
@[simp] theorem setBank_cals (b : Nat) (x : Bank) : (setBank b x s).cals = s.cals := rfl
@[simp] theorem setBank_waiting (b : Nat) (x : Bank) : (setBank b x s).waiting = s.waiting := rfl
@[simp] theorem setBank_readWait (b : Nat) (x : Bank) : (setBank b x s).readWait = s.readWait := rfl
@[simp] theorem setBank_fltLog (b : Nat) (x : Bank) : (setBank b x s).fltLog = s.fltLog := rfl
@[simp] theorem setBank_fltHold (b : Nat) (x : Bank) : (setBank b x s).fltHold = s.fltHold := rfl
@[simp] theorem setBank_fltLost (b : Nat) (x : Bank) : (setBank b x s).fltLost = s.fltLost := rfl
@[simp] theorem setBank_fltSeen (b : Nat) (x : Bank) : (setBank b x s).fltSeen = s.fltSeen := rfl
@[simp] theorem setBank_stamps (b : Nat) (x : Bank) : (setBank b x s).stamps = s.stamps := rfl
@[simp] theorem setBank_since (b : Nat) (x : Bank) : (setBank b x s).since = s.since := rfl
@[simp] theorem setBank_out (b : Nat) (x : Bank) : (setBank b x s).out = s.out := rfl
@[simp] theorem setBank_free (b : Nat) (x : Bank) : (setBank b x s).free = s.free := rfl

/-! ### modBank -/

@[simp] theorem modBank_pending (b : Nat) (g : Bank → Bank) : (modBank b g s).pending = s.pending := rfl
@[simp] theorem modBank_regs (b : Nat) (g : Bank → Bank) : (modBank b g s).regs = s.regs := rfl
@[simp] theorem modBank_live (b : Nat) (g : Bank → Bank) : (modBank b g s).live = s.live := rfl
@[simp] theorem modBank_ctrs (b : Nat) (g : Bank → Bank) : (modBank b g s).ctrs = s.ctrs := rfl
@[simp] theorem modBank_now (b : Nat) (g : Bank → Bank) : (modBank b g s).now = s.now := rfl
@[simp] theorem modBank_elapsed (b : Nat) (g : Bank → Bank) : (modBank b g s).elapsed = s.elapsed := rfl
@[simp] theorem modBank_cic (b : Nat) (g : Bank → Bank) : (modBank b g s).cic = s.cic := rfl
@[simp] theorem modBank_clk (b : Nat) (g : Bank → Bank) : (modBank b g s).clk = s.clk := rfl
@[simp] theorem modBank_dets (b : Nat) (g : Bank → Bank) : (modBank b g s).dets = s.dets := rfl
@[simp] theorem modBank_seqs (b : Nat) (g : Bank → Bank) : (modBank b g s).seqs = s.seqs := rfl
@[simp] theorem modBank_flags (b : Nat) (g : Bank → Bank) : (modBank b g s).flags = s.flags := rfl
@[simp] theorem modBank_parts (b : Nat) (g : Bank → Bank) : (modBank b g s).parts = s.parts := rfl
@[simp] theorem modBank_fns (b : Nat) (g : Bank → Bank) : (modBank b g s).fns = s.fns := rfl
@[simp] theorem modBank_chans (b : Nat) (g : Bank → Bank) : (modBank b g s).chans = s.chans := rfl
@[simp] theorem modBank_snaps (b : Nat) (g : Bank → Bank) : (modBank b g s).snaps = s.snaps := rfl
@[simp] theorem modBank_slow (b : Nat) (g : Bank → Bank) : (modBank b g s).slow = s.slow := rfl
@[simp] theorem modBank_mgmt (b : Nat) (g : Bank → Bank) : (modBank b g s).mgmt = s.mgmt := rfl
@[simp] theorem modBank_cals (b : Nat) (g : Bank → Bank) : (modBank b g s).cals = s.cals := rfl
@[simp] theorem modBank_waiting (b : Nat) (g : Bank → Bank) : (modBank b g s).waiting = s.waiting := rfl
@[simp] theorem modBank_readWait (b : Nat) (g : Bank → Bank) : (modBank b g s).readWait = s.readWait := rfl
@[simp] theorem modBank_fltLog (b : Nat) (g : Bank → Bank) : (modBank b g s).fltLog = s.fltLog := rfl
@[simp] theorem modBank_fltHold (b : Nat) (g : Bank → Bank) : (modBank b g s).fltHold = s.fltHold := rfl
@[simp] theorem modBank_fltLost (b : Nat) (g : Bank → Bank) : (modBank b g s).fltLost = s.fltLost := rfl
@[simp] theorem modBank_fltSeen (b : Nat) (g : Bank → Bank) : (modBank b g s).fltSeen = s.fltSeen := rfl
@[simp] theorem modBank_stamps (b : Nat) (g : Bank → Bank) : (modBank b g s).stamps = s.stamps := rfl
@[simp] theorem modBank_since (b : Nat) (g : Bank → Bank) : (modBank b g s).since = s.since := rfl
@[simp] theorem modBank_out (b : Nat) (g : Bank → Bank) : (modBank b g s).out = s.out := rfl
@[simp] theorem modBank_free (b : Nat) (g : Bank → Bank) : (modBank b g s).free = s.free := rfl

/-! ### setDet -/

@[simp] theorem setDet_pending (n : Nat) (x : Det) : (setDet n x s).pending = s.pending := rfl
@[simp] theorem setDet_regs (n : Nat) (x : Det) : (setDet n x s).regs = s.regs := rfl
@[simp] theorem setDet_live (n : Nat) (x : Det) : (setDet n x s).live = s.live := rfl
@[simp] theorem setDet_ctrs (n : Nat) (x : Det) : (setDet n x s).ctrs = s.ctrs := rfl
@[simp] theorem setDet_now (n : Nat) (x : Det) : (setDet n x s).now = s.now := rfl
@[simp] theorem setDet_elapsed (n : Nat) (x : Det) : (setDet n x s).elapsed = s.elapsed := rfl
@[simp] theorem setDet_cic (n : Nat) (x : Det) : (setDet n x s).cic = s.cic := rfl
@[simp] theorem setDet_clk (n : Nat) (x : Det) : (setDet n x s).clk = s.clk := rfl
@[simp] theorem setDet_banks (n : Nat) (x : Det) : (setDet n x s).banks = s.banks := rfl
@[simp] theorem setDet_seqs (n : Nat) (x : Det) : (setDet n x s).seqs = s.seqs := rfl
@[simp] theorem setDet_flags (n : Nat) (x : Det) : (setDet n x s).flags = s.flags := rfl
@[simp] theorem setDet_parts (n : Nat) (x : Det) : (setDet n x s).parts = s.parts := rfl
@[simp] theorem setDet_fns (n : Nat) (x : Det) : (setDet n x s).fns = s.fns := rfl
@[simp] theorem setDet_chans (n : Nat) (x : Det) : (setDet n x s).chans = s.chans := rfl
@[simp] theorem setDet_snaps (n : Nat) (x : Det) : (setDet n x s).snaps = s.snaps := rfl
@[simp] theorem setDet_slow (n : Nat) (x : Det) : (setDet n x s).slow = s.slow := rfl
@[simp] theorem setDet_mgmt (n : Nat) (x : Det) : (setDet n x s).mgmt = s.mgmt := rfl
@[simp] theorem setDet_cals (n : Nat) (x : Det) : (setDet n x s).cals = s.cals := rfl
@[simp] theorem setDet_waiting (n : Nat) (x : Det) : (setDet n x s).waiting = s.waiting := rfl
@[simp] theorem setDet_readWait (n : Nat) (x : Det) : (setDet n x s).readWait = s.readWait := rfl
@[simp] theorem setDet_fltLog (n : Nat) (x : Det) : (setDet n x s).fltLog = s.fltLog := rfl
@[simp] theorem setDet_fltHold (n : Nat) (x : Det) : (setDet n x s).fltHold = s.fltHold := rfl
@[simp] theorem setDet_fltLost (n : Nat) (x : Det) : (setDet n x s).fltLost = s.fltLost := rfl
@[simp] theorem setDet_fltSeen (n : Nat) (x : Det) : (setDet n x s).fltSeen = s.fltSeen := rfl
@[simp] theorem setDet_stamps (n : Nat) (x : Det) : (setDet n x s).stamps = s.stamps := rfl
@[simp] theorem setDet_since (n : Nat) (x : Det) : (setDet n x s).since = s.since := rfl
@[simp] theorem setDet_out (n : Nat) (x : Det) : (setDet n x s).out = s.out := rfl
@[simp] theorem setDet_free (n : Nat) (x : Det) : (setDet n x s).free = s.free := rfl

/-! ### modDet -/

@[simp] theorem modDet_pending (n : Nat) (g : Det → Det) : (modDet n g s).pending = s.pending := rfl
@[simp] theorem modDet_regs (n : Nat) (g : Det → Det) : (modDet n g s).regs = s.regs := rfl
@[simp] theorem modDet_live (n : Nat) (g : Det → Det) : (modDet n g s).live = s.live := rfl
@[simp] theorem modDet_ctrs (n : Nat) (g : Det → Det) : (modDet n g s).ctrs = s.ctrs := rfl
@[simp] theorem modDet_now (n : Nat) (g : Det → Det) : (modDet n g s).now = s.now := rfl
@[simp] theorem modDet_elapsed (n : Nat) (g : Det → Det) : (modDet n g s).elapsed = s.elapsed := rfl
@[simp] theorem modDet_cic (n : Nat) (g : Det → Det) : (modDet n g s).cic = s.cic := rfl
@[simp] theorem modDet_clk (n : Nat) (g : Det → Det) : (modDet n g s).clk = s.clk := rfl
@[simp] theorem modDet_banks (n : Nat) (g : Det → Det) : (modDet n g s).banks = s.banks := rfl
@[simp] theorem modDet_seqs (n : Nat) (g : Det → Det) : (modDet n g s).seqs = s.seqs := rfl
@[simp] theorem modDet_flags (n : Nat) (g : Det → Det) : (modDet n g s).flags = s.flags := rfl
@[simp] theorem modDet_parts (n : Nat) (g : Det → Det) : (modDet n g s).parts = s.parts := rfl
@[simp] theorem modDet_fns (n : Nat) (g : Det → Det) : (modDet n g s).fns = s.fns := rfl
@[simp] theorem modDet_chans (n : Nat) (g : Det → Det) : (modDet n g s).chans = s.chans := rfl
@[simp] theorem modDet_snaps (n : Nat) (g : Det → Det) : (modDet n g s).snaps = s.snaps := rfl
@[simp] theorem modDet_slow (n : Nat) (g : Det → Det) : (modDet n g s).slow = s.slow := rfl
@[simp] theorem modDet_mgmt (n : Nat) (g : Det → Det) : (modDet n g s).mgmt = s.mgmt := rfl
@[simp] theorem modDet_cals (n : Nat) (g : Det → Det) : (modDet n g s).cals = s.cals := rfl
@[simp] theorem modDet_waiting (n : Nat) (g : Det → Det) : (modDet n g s).waiting = s.waiting := rfl
@[simp] theorem modDet_readWait (n : Nat) (g : Det → Det) : (modDet n g s).readWait = s.readWait := rfl
@[simp] theorem modDet_fltLog (n : Nat) (g : Det → Det) : (modDet n g s).fltLog = s.fltLog := rfl
@[simp] theorem modDet_fltHold (n : Nat) (g : Det → Det) : (modDet n g s).fltHold = s.fltHold := rfl
@[simp] theorem modDet_fltLost (n : Nat) (g : Det → Det) : (modDet n g s).fltLost = s.fltLost := rfl
@[simp] theorem modDet_fltSeen (n : Nat) (g : Det → Det) : (modDet n g s).fltSeen = s.fltSeen := rfl
@[simp] theorem modDet_stamps (n : Nat) (g : Det → Det) : (modDet n g s).stamps = s.stamps := rfl
@[simp] theorem modDet_since (n : Nat) (g : Det → Det) : (modDet n g s).since = s.since := rfl
@[simp] theorem modDet_out (n : Nat) (g : Det → Det) : (modDet n g s).out = s.out := rfl
@[simp] theorem modDet_free (n : Nat) (g : Det → Det) : (modDet n g s).free = s.free := rfl

/-! ### setSeq -/

@[simp] theorem setSeq_pending (p : Nat) (x : Seq) : (setSeq p x s).pending = s.pending := rfl
@[simp] theorem setSeq_regs (p : Nat) (x : Seq) : (setSeq p x s).regs = s.regs := rfl
@[simp] theorem setSeq_live (p : Nat) (x : Seq) : (setSeq p x s).live = s.live := rfl
@[simp] theorem setSeq_ctrs (p : Nat) (x : Seq) : (setSeq p x s).ctrs = s.ctrs := rfl
@[simp] theorem setSeq_now (p : Nat) (x : Seq) : (setSeq p x s).now = s.now := rfl
@[simp] theorem setSeq_elapsed (p : Nat) (x : Seq) : (setSeq p x s).elapsed = s.elapsed := rfl
@[simp] theorem setSeq_cic (p : Nat) (x : Seq) : (setSeq p x s).cic = s.cic := rfl
@[simp] theorem setSeq_clk (p : Nat) (x : Seq) : (setSeq p x s).clk = s.clk := rfl
@[simp] theorem setSeq_banks (p : Nat) (x : Seq) : (setSeq p x s).banks = s.banks := rfl
@[simp] theorem setSeq_dets (p : Nat) (x : Seq) : (setSeq p x s).dets = s.dets := rfl
@[simp] theorem setSeq_flags (p : Nat) (x : Seq) : (setSeq p x s).flags = s.flags := rfl
@[simp] theorem setSeq_parts (p : Nat) (x : Seq) : (setSeq p x s).parts = s.parts := rfl
@[simp] theorem setSeq_fns (p : Nat) (x : Seq) : (setSeq p x s).fns = s.fns := rfl
@[simp] theorem setSeq_chans (p : Nat) (x : Seq) : (setSeq p x s).chans = s.chans := rfl
@[simp] theorem setSeq_snaps (p : Nat) (x : Seq) : (setSeq p x s).snaps = s.snaps := rfl
@[simp] theorem setSeq_slow (p : Nat) (x : Seq) : (setSeq p x s).slow = s.slow := rfl
@[simp] theorem setSeq_mgmt (p : Nat) (x : Seq) : (setSeq p x s).mgmt = s.mgmt := rfl
@[simp] theorem setSeq_cals (p : Nat) (x : Seq) : (setSeq p x s).cals = s.cals := rfl
@[simp] theorem setSeq_waiting (p : Nat) (x : Seq) : (setSeq p x s).waiting = s.waiting := rfl
@[simp] theorem setSeq_readWait (p : Nat) (x : Seq) : (setSeq p x s).readWait = s.readWait := rfl
@[simp] theorem setSeq_fltLog (p : Nat) (x : Seq) : (setSeq p x s).fltLog = s.fltLog := rfl
@[simp] theorem setSeq_fltHold (p : Nat) (x : Seq) : (setSeq p x s).fltHold = s.fltHold := rfl
@[simp] theorem setSeq_fltLost (p : Nat) (x : Seq) : (setSeq p x s).fltLost = s.fltLost := rfl
@[simp] theorem setSeq_fltSeen (p : Nat) (x : Seq) : (setSeq p x s).fltSeen = s.fltSeen := rfl
@[simp] theorem setSeq_stamps (p : Nat) (x : Seq) : (setSeq p x s).stamps = s.stamps := rfl
@[simp] theorem setSeq_since (p : Nat) (x : Seq) : (setSeq p x s).since = s.since := rfl
@[simp] theorem setSeq_out (p : Nat) (x : Seq) : (setSeq p x s).out = s.out := rfl
@[simp] theorem setSeq_free (p : Nat) (x : Seq) : (setSeq p x s).free = s.free := rfl

/-! ### modSeq -/

@[simp] theorem modSeq_pending (p : Nat) (g : Seq → Seq) : (modSeq p g s).pending = s.pending := rfl
@[simp] theorem modSeq_regs (p : Nat) (g : Seq → Seq) : (modSeq p g s).regs = s.regs := rfl
@[simp] theorem modSeq_live (p : Nat) (g : Seq → Seq) : (modSeq p g s).live = s.live := rfl
@[simp] theorem modSeq_ctrs (p : Nat) (g : Seq → Seq) : (modSeq p g s).ctrs = s.ctrs := rfl
@[simp] theorem modSeq_now (p : Nat) (g : Seq → Seq) : (modSeq p g s).now = s.now := rfl
@[simp] theorem modSeq_elapsed (p : Nat) (g : Seq → Seq) : (modSeq p g s).elapsed = s.elapsed := rfl
@[simp] theorem modSeq_cic (p : Nat) (g : Seq → Seq) : (modSeq p g s).cic = s.cic := rfl
@[simp] theorem modSeq_clk (p : Nat) (g : Seq → Seq) : (modSeq p g s).clk = s.clk := rfl
@[simp] theorem modSeq_banks (p : Nat) (g : Seq → Seq) : (modSeq p g s).banks = s.banks := rfl
@[simp] theorem modSeq_dets (p : Nat) (g : Seq → Seq) : (modSeq p g s).dets = s.dets := rfl
@[simp] theorem modSeq_flags (p : Nat) (g : Seq → Seq) : (modSeq p g s).flags = s.flags := rfl
@[simp] theorem modSeq_parts (p : Nat) (g : Seq → Seq) : (modSeq p g s).parts = s.parts := rfl
@[simp] theorem modSeq_fns (p : Nat) (g : Seq → Seq) : (modSeq p g s).fns = s.fns := rfl
@[simp] theorem modSeq_chans (p : Nat) (g : Seq → Seq) : (modSeq p g s).chans = s.chans := rfl
@[simp] theorem modSeq_snaps (p : Nat) (g : Seq → Seq) : (modSeq p g s).snaps = s.snaps := rfl
@[simp] theorem modSeq_slow (p : Nat) (g : Seq → Seq) : (modSeq p g s).slow = s.slow := rfl
@[simp] theorem modSeq_mgmt (p : Nat) (g : Seq → Seq) : (modSeq p g s).mgmt = s.mgmt := rfl
@[simp] theorem modSeq_cals (p : Nat) (g : Seq → Seq) : (modSeq p g s).cals = s.cals := rfl
@[simp] theorem modSeq_waiting (p : Nat) (g : Seq → Seq) : (modSeq p g s).waiting = s.waiting := rfl
@[simp] theorem modSeq_readWait (p : Nat) (g : Seq → Seq) : (modSeq p g s).readWait = s.readWait := rfl
@[simp] theorem modSeq_fltLog (p : Nat) (g : Seq → Seq) : (modSeq p g s).fltLog = s.fltLog := rfl
@[simp] theorem modSeq_fltHold (p : Nat) (g : Seq → Seq) : (modSeq p g s).fltHold = s.fltHold := rfl
@[simp] theorem modSeq_fltLost (p : Nat) (g : Seq → Seq) : (modSeq p g s).fltLost = s.fltLost := rfl
@[simp] theorem modSeq_fltSeen (p : Nat) (g : Seq → Seq) : (modSeq p g s).fltSeen = s.fltSeen := rfl
@[simp] theorem modSeq_stamps (p : Nat) (g : Seq → Seq) : (modSeq p g s).stamps = s.stamps := rfl
@[simp] theorem modSeq_since (p : Nat) (g : Seq → Seq) : (modSeq p g s).since = s.since := rfl
@[simp] theorem modSeq_out (p : Nat) (g : Seq → Seq) : (modSeq p g s).out = s.out := rfl
@[simp] theorem modSeq_free (p : Nat) (g : Seq → Seq) : (modSeq p g s).free = s.free := rfl

/-! ### setPart -/

@[simp] theorem setPart_pending (p : Nat) (x : Part) : (setPart p x s).pending = s.pending := rfl
@[simp] theorem setPart_regs (p : Nat) (x : Part) : (setPart p x s).regs = s.regs := rfl
@[simp] theorem setPart_live (p : Nat) (x : Part) : (setPart p x s).live = s.live := rfl
@[simp] theorem setPart_ctrs (p : Nat) (x : Part) : (setPart p x s).ctrs = s.ctrs := rfl
@[simp] theorem setPart_now (p : Nat) (x : Part) : (setPart p x s).now = s.now := rfl
@[simp] theorem setPart_elapsed (p : Nat) (x : Part) : (setPart p x s).elapsed = s.elapsed := rfl
@[simp] theorem setPart_cic (p : Nat) (x : Part) : (setPart p x s).cic = s.cic := rfl
@[simp] theorem setPart_clk (p : Nat) (x : Part) : (setPart p x s).clk = s.clk := rfl
@[simp] theorem setPart_banks (p : Nat) (x : Part) : (setPart p x s).banks = s.banks := rfl
@[simp] theorem setPart_dets (p : Nat) (x : Part) : (setPart p x s).dets = s.dets := rfl
@[simp] theorem setPart_seqs (p : Nat) (x : Part) : (setPart p x s).seqs = s.seqs := rfl
@[simp] theorem setPart_flags (p : Nat) (x : Part) : (setPart p x s).flags = s.flags := rfl
@[simp] theorem setPart_fns (p : Nat) (x : Part) : (setPart p x s).fns = s.fns := rfl
@[simp] theorem setPart_chans (p : Nat) (x : Part) : (setPart p x s).chans = s.chans := rfl
@[simp] theorem setPart_snaps (p : Nat) (x : Part) : (setPart p x s).snaps = s.snaps := rfl
@[simp] theorem setPart_slow (p : Nat) (x : Part) : (setPart p x s).slow = s.slow := rfl
@[simp] theorem setPart_mgmt (p : Nat) (x : Part) : (setPart p x s).mgmt = s.mgmt := rfl
@[simp] theorem setPart_cals (p : Nat) (x : Part) : (setPart p x s).cals = s.cals := rfl
@[simp] theorem setPart_waiting (p : Nat) (x : Part) : (setPart p x s).waiting = s.waiting := rfl
@[simp] theorem setPart_readWait (p : Nat) (x : Part) : (setPart p x s).readWait = s.readWait := rfl
@[simp] theorem setPart_fltLog (p : Nat) (x : Part) : (setPart p x s).fltLog = s.fltLog := rfl
@[simp] theorem setPart_fltHold (p : Nat) (x : Part) : (setPart p x s).fltHold = s.fltHold := rfl
@[simp] theorem setPart_fltLost (p : Nat) (x : Part) : (setPart p x s).fltLost = s.fltLost := rfl
@[simp] theorem setPart_fltSeen (p : Nat) (x : Part) : (setPart p x s).fltSeen = s.fltSeen := rfl
@[simp] theorem setPart_stamps (p : Nat) (x : Part) : (setPart p x s).stamps = s.stamps := rfl
@[simp] theorem setPart_since (p : Nat) (x : Part) : (setPart p x s).since = s.since := rfl
@[simp] theorem setPart_out (p : Nat) (x : Part) : (setPart p x s).out = s.out := rfl
@[simp] theorem setPart_free (p : Nat) (x : Part) : (setPart p x s).free = s.free := rfl

/-! ### modPart -/

@[simp] theorem modPart_pending (p : Nat) (g : Part → Part) : (modPart p g s).pending = s.pending := rfl
@[simp] theorem modPart_regs (p : Nat) (g : Part → Part) : (modPart p g s).regs = s.regs := rfl
@[simp] theorem modPart_live (p : Nat) (g : Part → Part) : (modPart p g s).live = s.live := rfl
@[simp] theorem modPart_ctrs (p : Nat) (g : Part → Part) : (modPart p g s).ctrs = s.ctrs := rfl
@[simp] theorem modPart_now (p : Nat) (g : Part → Part) : (modPart p g s).now = s.now := rfl
@[simp] theorem modPart_elapsed (p : Nat) (g : Part → Part) : (modPart p g s).elapsed = s.elapsed := rfl
@[simp] theorem modPart_cic (p : Nat) (g : Part → Part) : (modPart p g s).cic = s.cic := rfl
@[simp] theorem modPart_clk (p : Nat) (g : Part → Part) : (modPart p g s).clk = s.clk := rfl
@[simp] theorem modPart_banks (p : Nat) (g : Part → Part) : (modPart p g s).banks = s.banks := rfl
@[simp] theorem modPart_dets (p : Nat) (g : Part → Part) : (modPart p g s).dets = s.dets := rfl
@[simp] theorem modPart_seqs (p : Nat) (g : Part → Part) : (modPart p g s).seqs = s.seqs := rfl
@[simp] theorem modPart_flags (p : Nat) (g : Part → Part) : (modPart p g s).flags = s.flags := rfl
@[simp] theorem modPart_fns (p : Nat) (g : Part → Part) : (modPart p g s).fns = s.fns := rfl
@[simp] theorem modPart_chans (p : Nat) (g : Part → Part) : (modPart p g s).chans = s.chans := rfl
@[simp] theorem modPart_snaps (p : Nat) (g : Part → Part) : (modPart p g s).snaps = s.snaps := rfl
@[simp] theorem modPart_slow (p : Nat) (g : Part → Part) : (modPart p g s).slow = s.slow := rfl
@[simp] theorem modPart_mgmt (p : Nat) (g : Part → Part) : (modPart p g s).mgmt = s.mgmt := rfl
@[simp] theorem modPart_cals (p : Nat) (g : Part → Part) : (modPart p g s).cals = s.cals := rfl
@[simp] theorem modPart_waiting (p : Nat) (g : Part → Part) : (modPart p g s).waiting = s.waiting := rfl
@[simp] theorem modPart_readWait (p : Nat) (g : Part → Part) : (modPart p g s).readWait = s.readWait := rfl
@[simp] theorem modPart_fltLog (p : Nat) (g : Part → Part) : (modPart p g s).fltLog = s.fltLog := rfl
@[simp] theorem modPart_fltHold (p : Nat) (g : Part → Part) : (modPart p g s).fltHold = s.fltHold := rfl
@[simp] theorem modPart_fltLost (p : Nat) (g : Part → Part) : (modPart p g s).fltLost = s.fltLost := rfl
@[simp] theorem modPart_fltSeen (p : Nat) (g : Part → Part) : (modPart p g s).fltSeen = s.fltSeen := rfl
@[simp] theorem modPart_stamps (p : Nat) (g : Part → Part) : (modPart p g s).stamps = s.stamps := rfl
@[simp] theorem modPart_since (p : Nat) (g : Part → Part) : (modPart p g s).since = s.since := rfl
@[simp] theorem modPart_out (p : Nat) (g : Part → Part) : (modPart p g s).out = s.out := rfl
@[simp] theorem modPart_free (p : Nat) (g : Part → Part) : (modPart p g s).free = s.free := rfl

/-! ### setChan -/

@[simp] theorem setChan_pending (c : Nat) (x : Chan) : (setChan c x s).pending = s.pending := rfl
@[simp] theorem setChan_regs (c : Nat) (x : Chan) : (setChan c x s).regs = s.regs := rfl
@[simp] theorem setChan_live (c : Nat) (x : Chan) : (setChan c x s).live = s.live := rfl
@[simp] theorem setChan_ctrs (c : Nat) (x : Chan) : (setChan c x s).ctrs = s.ctrs := rfl
@[simp] theorem setChan_now (c : Nat) (x : Chan) : (setChan c x s).now = s.now := rfl
@[simp] theorem setChan_elapsed (c : Nat) (x : Chan) : (setChan c x s).elapsed = s.elapsed := rfl
@[simp] theorem setChan_cic (c : Nat) (x : Chan) : (setChan c x s).cic = s.cic := rfl
@[simp] theorem setChan_clk (c : Nat) (x : Chan) : (setChan c x s).clk = s.clk := rfl
@[simp] theorem setChan_banks (c : Nat) (x : Chan) : (setChan c x s).banks = s.banks := rfl
@[simp] theorem setChan_dets (c : Nat) (x : Chan) : (setChan c x s).dets = s.dets := rfl
@[simp] theorem setChan_seqs (c : Nat) (x : Chan) : (setChan c x s).seqs = s.seqs := rfl
@[simp] theorem setChan_flags (c : Nat) (x : Chan) : (setChan c x s).flags = s.flags := rfl
@[simp] theorem setChan_parts (c : Nat) (x : Chan) : (setChan c x s).parts = s.parts := rfl
@[simp] theorem setChan_fns (c : Nat) (x : Chan) : (setChan c x s).fns = s.fns := rfl
@[simp] theorem setChan_snaps (c : Nat) (x : Chan) : (setChan c x s).snaps = s.snaps := rfl
@[simp] theorem setChan_slow (c : Nat) (x : Chan) : (setChan c x s).slow = s.slow := rfl
@[simp] theorem setChan_mgmt (c : Nat) (x : Chan) : (setChan c x s).mgmt = s.mgmt := rfl
@[simp] theorem setChan_cals (c : Nat) (x : Chan) : (setChan c x s).cals = s.cals := rfl
@[simp] theorem setChan_waiting (c : Nat) (x : Chan) : (setChan c x s).waiting = s.waiting := rfl
@[simp] theorem setChan_readWait (c : Nat) (x : Chan) : (setChan c x s).readWait = s.readWait := rfl
@[simp] theorem setChan_fltLog (c : Nat) (x : Chan) : (setChan c x s).fltLog = s.fltLog := rfl
@[simp] theorem setChan_fltHold (c : Nat) (x : Chan) : (setChan c x s).fltHold = s.fltHold := rfl
@[simp] theorem setChan_fltLost (c : Nat) (x : Chan) : (setChan c x s).fltLost = s.fltLost := rfl
@[simp] theorem setChan_fltSeen (c : Nat) (x : Chan) : (setChan c x s).fltSeen = s.fltSeen := rfl
@[simp] theorem setChan_stamps (c : Nat) (x : Chan) : (setChan c x s).stamps = s.stamps := rfl
@[simp] theorem setChan_since (c : Nat) (x : Chan) : (setChan c x s).since = s.since := rfl
@[simp] theorem setChan_out (c : Nat) (x : Chan) : (setChan c x s).out = s.out := rfl
@[simp] theorem setChan_free (c : Nat) (x : Chan) : (setChan c x s).free = s.free := rfl

/-! ### modChan -/

@[simp] theorem modChan_pending (c : Nat) (g : Chan → Chan) : (modChan c g s).pending = s.pending := rfl
@[simp] theorem modChan_regs (c : Nat) (g : Chan → Chan) : (modChan c g s).regs = s.regs := rfl
@[simp] theorem modChan_live (c : Nat) (g : Chan → Chan) : (modChan c g s).live = s.live := rfl
@[simp] theorem modChan_ctrs (c : Nat) (g : Chan → Chan) : (modChan c g s).ctrs = s.ctrs := rfl
@[simp] theorem modChan_now (c : Nat) (g : Chan → Chan) : (modChan c g s).now = s.now := rfl
@[simp] theorem modChan_elapsed (c : Nat) (g : Chan → Chan) : (modChan c g s).elapsed = s.elapsed := rfl
@[simp] theorem modChan_cic (c : Nat) (g : Chan → Chan) : (modChan c g s).cic = s.cic := rfl
@[simp] theorem modChan_clk (c : Nat) (g : Chan → Chan) : (modChan c g s).clk = s.clk := rfl
@[simp] theorem modChan_banks (c : Nat) (g : Chan → Chan) : (modChan c g s).banks = s.banks := rfl
@[simp] theorem modChan_dets (c : Nat) (g : Chan → Chan) : (modChan c g s).dets = s.dets := rfl
@[simp] theorem modChan_seqs (c : Nat) (g : Chan → Chan) : (modChan c g s).seqs = s.seqs := rfl
@[simp] theorem modChan_flags (c : Nat) (g : Chan → Chan) : (modChan c g s).flags = s.flags := rfl
@[simp] theorem modChan_parts (c : Nat) (g : Chan → Chan) : (modChan c g s).parts = s.parts := rfl
@[simp] theorem modChan_fns (c : Nat) (g : Chan → Chan) : (modChan c g s).fns = s.fns := rfl
@[simp] theorem modChan_snaps (c : Nat) (g : Chan → Chan) : (modChan c g s).snaps = s.snaps := rfl
@[simp] theorem modChan_slow (c : Nat) (g : Chan → Chan) : (modChan c g s).slow = s.slow := rfl
@[simp] theorem modChan_mgmt (c : Nat) (g : Chan → Chan) : (modChan c g s).mgmt = s.mgmt := rfl
@[simp] theorem modChan_cals (c : Nat) (g : Chan → Chan) : (modChan c g s).cals = s.cals := rfl
@[simp] theorem modChan_waiting (c : Nat) (g : Chan → Chan) : (modChan c g s).waiting = s.waiting := rfl
@[simp] theorem modChan_readWait (c : Nat) (g : Chan → Chan) : (modChan c g s).readWait = s.readWait := rfl
@[simp] theorem modChan_fltLog (c : Nat) (g : Chan → Chan) : (modChan c g s).fltLog = s.fltLog := rfl
@[simp] theorem modChan_fltHold (c : Nat) (g : Chan → Chan) : (modChan c g s).fltHold = s.fltHold := rfl
@[simp] theorem modChan_fltLost (c : Nat) (g : Chan → Chan) : (modChan c g s).fltLost = s.fltLost := rfl
@[simp] theorem modChan_fltSeen (c : Nat) (g : Chan → Chan) : (modChan c g s).fltSeen = s.fltSeen := rfl
@[simp] theorem modChan_stamps (c : Nat) (g : Chan → Chan) : (modChan c g s).stamps = s.stamps := rfl
@[simp] theorem modChan_since (c : Nat) (g : Chan → Chan) : (modChan c g s).since = s.since := rfl
@[simp] theorem modChan_out (c : Nat) (g : Chan → Chan) : (modChan c g s).out = s.out := rfl
@[simp] theorem modChan_free (c : Nat) (g : Chan → Chan) : (modChan c g s).free = s.free := rfl

/-! ### modClk -/

@[simp] theorem modClk_pending (g : Clocks → Clocks) : (modClk g s).pending = s.pending := rfl
@[simp] theorem modClk_regs (g : Clocks → Clocks) : (modClk g s).regs = s.regs := rfl
@[simp] theorem modClk_live (g : Clocks → Clocks) : (modClk g s).live = s.live := rfl
@[simp] theorem modClk_ctrs (g : Clocks → Clocks) : (modClk g s).ctrs = s.ctrs := rfl
@[simp] theorem modClk_now (g : Clocks → Clocks) : (modClk g s).now = s.now := rfl
@[simp] theorem modClk_elapsed (g : Clocks → Clocks) : (modClk g s).elapsed = s.elapsed := rfl
@[simp] theorem modClk_cic (g : Clocks → Clocks) : (modClk g s).cic = s.cic := rfl
@[simp] theorem modClk_banks (g : Clocks → Clocks) : (modClk g s).banks = s.banks := rfl
@[simp] theorem modClk_dets (g : Clocks → Clocks) : (modClk g s).dets = s.dets := rfl
@[simp] theorem modClk_seqs (g : Clocks → Clocks) : (modClk g s).seqs = s.seqs := rfl
@[simp] theorem modClk_flags (g : Clocks → Clocks) : (modClk g s).flags = s.flags := rfl
@[simp] theorem modClk_parts (g : Clocks → Clocks) : (modClk g s).parts = s.parts := rfl
@[simp] theorem modClk_fns (g : Clocks → Clocks) : (modClk g s).fns = s.fns := rfl
@[simp] theorem modClk_chans (g : Clocks → Clocks) : (modClk g s).chans = s.chans := rfl
@[simp] theorem modClk_snaps (g : Clocks → Clocks) : (modClk g s).snaps = s.snaps := rfl
@[simp] theorem modClk_slow (g : Clocks → Clocks) : (modClk g s).slow = s.slow := rfl
@[simp] theorem modClk_mgmt (g : Clocks → Clocks) : (modClk g s).mgmt = s.mgmt := rfl
@[simp] theorem modClk_cals (g : Clocks → Clocks) : (modClk g s).cals = s.cals := rfl
@[simp] theorem modClk_waiting (g : Clocks → Clocks) : (modClk g s).waiting = s.waiting := rfl
@[simp] theorem modClk_readWait (g : Clocks → Clocks) : (modClk g s).readWait = s.readWait := rfl
@[simp] theorem modClk_fltLog (g : Clocks → Clocks) : (modClk g s).fltLog = s.fltLog := rfl
@[simp] theorem modClk_fltHold (g : Clocks → Clocks) : (modClk g s).fltHold = s.fltHold := rfl
@[simp] theorem modClk_fltLost (g : Clocks → Clocks) : (modClk g s).fltLost = s.fltLost := rfl
@[simp] theorem modClk_fltSeen (g : Clocks → Clocks) : (modClk g s).fltSeen = s.fltSeen := rfl
@[simp] theorem modClk_stamps (g : Clocks → Clocks) : (modClk g s).stamps = s.stamps := rfl
@[simp] theorem modClk_since (g : Clocks → Clocks) : (modClk g s).since = s.since := rfl
@[simp] theorem modClk_out (g : Clocks → Clocks) : (modClk g s).out = s.out := rfl
@[simp] theorem modClk_free (g : Clocks → Clocks) : (modClk g s).free = s.free := rfl

/-! ### modCic -/

@[simp] theorem modCic_pending (g : Cicada → Cicada) : (modCic g s).pending = s.pending := rfl
@[simp] theorem modCic_regs (g : Cicada → Cicada) : (modCic g s).regs = s.regs := rfl
@[simp] theorem modCic_live (g : Cicada → Cicada) : (modCic g s).live = s.live := rfl
@[simp] theorem modCic_ctrs (g : Cicada → Cicada) : (modCic g s).ctrs = s.ctrs := rfl
@[simp] theorem modCic_now (g : Cicada → Cicada) : (modCic g s).now = s.now := rfl
@[simp] theorem modCic_elapsed (g : Cicada → Cicada) : (modCic g s).elapsed = s.elapsed := rfl
@[simp] theorem modCic_clk (g : Cicada → Cicada) : (modCic g s).clk = s.clk := rfl
@[simp] theorem modCic_banks (g : Cicada → Cicada) : (modCic g s).banks = s.banks := rfl
@[simp] theorem modCic_dets (g : Cicada → Cicada) : (modCic g s).dets = s.dets := rfl
@[simp] theorem modCic_seqs (g : Cicada → Cicada) : (modCic g s).seqs = s.seqs := rfl
@[simp] theorem modCic_flags (g : Cicada → Cicada) : (modCic g s).flags = s.flags := rfl
@[simp] theorem modCic_parts (g : Cicada → Cicada) : (modCic g s).parts = s.parts := rfl
@[simp] theorem modCic_fns (g : Cicada → Cicada) : (modCic g s).fns = s.fns := rfl
@[simp] theorem modCic_chans (g : Cicada → Cicada) : (modCic g s).chans = s.chans := rfl
@[simp] theorem modCic_snaps (g : Cicada → Cicada) : (modCic g s).snaps = s.snaps := rfl
@[simp] theorem modCic_slow (g : Cicada → Cicada) : (modCic g s).slow = s.slow := rfl
@[simp] theorem modCic_mgmt (g : Cicada → Cicada) : (modCic g s).mgmt = s.mgmt := rfl
@[simp] theorem modCic_cals (g : Cicada → Cicada) : (modCic g s).cals = s.cals := rfl
@[simp] theorem modCic_waiting (g : Cicada → Cicada) : (modCic g s).waiting = s.waiting := rfl
@[simp] theorem modCic_readWait (g : Cicada → Cicada) : (modCic g s).readWait = s.readWait := rfl
@[simp] theorem modCic_fltLog (g : Cicada → Cicada) : (modCic g s).fltLog = s.fltLog := rfl
@[simp] theorem modCic_fltHold (g : Cicada → Cicada) : (modCic g s).fltHold = s.fltHold := rfl
@[simp] theorem modCic_fltLost (g : Cicada → Cicada) : (modCic g s).fltLost = s.fltLost := rfl
@[simp] theorem modCic_fltSeen (g : Cicada → Cicada) : (modCic g s).fltSeen = s.fltSeen := rfl
@[simp] theorem modCic_stamps (g : Cicada → Cicada) : (modCic g s).stamps = s.stamps := rfl
@[simp] theorem modCic_since (g : Cicada → Cicada) : (modCic g s).since = s.since := rfl
@[simp] theorem modCic_out (g : Cicada → Cicada) : (modCic g s).out = s.out := rfl
@[simp] theorem modCic_free (g : Cicada → Cicada) : (modCic g s).free = s.free := rfl

/-! ### emit -/

@[simp] theorem emit_pending (o : Out) : (emit o s).pending = s.pending := rfl
@[simp] theorem emit_regs (o : Out) : (emit o s).regs = s.regs := rfl
@[simp] theorem emit_live (o : Out) : (emit o s).live = s.live := rfl
@[simp] theorem emit_ctrs (o : Out) : (emit o s).ctrs = s.ctrs := rfl
@[simp] theorem emit_now (o : Out) : (emit o s).now = s.now := rfl
@[simp] theorem emit_elapsed (o : Out) : (emit o s).elapsed = s.elapsed := rfl
@[simp] theorem emit_cic (o : Out) : (emit o s).cic = s.cic := rfl
@[simp] theorem emit_clk (o : Out) : (emit o s).clk = s.clk := rfl
@[simp] theorem emit_banks (o : Out) : (emit o s).banks = s.banks := rfl
@[simp] theorem emit_dets (o : Out) : (emit o s).dets = s.dets := rfl
@[simp] theorem emit_seqs (o : Out) : (emit o s).seqs = s.seqs := rfl
@[simp] theorem emit_flags (o : Out) : (emit o s).flags = s.flags := rfl
@[simp] theorem emit_parts (o : Out) : (emit o s).parts = s.parts := rfl
@[simp] theorem emit_fns (o : Out) : (emit o s).fns = s.fns := rfl
@[simp] theorem emit_chans (o : Out) : (emit o s).chans = s.chans := rfl
@[simp] theorem emit_snaps (o : Out) : (emit o s).snaps = s.snaps := rfl
@[simp] theorem emit_slow (o : Out) : (emit o s).slow = s.slow := rfl
@[simp] theorem emit_mgmt (o : Out) : (emit o s).mgmt = s.mgmt := rfl
@[simp] theorem emit_cals (o : Out) : (emit o s).cals = s.cals := rfl
@[simp] theorem emit_waiting (o : Out) : (emit o s).waiting = s.waiting := rfl
@[simp] theorem emit_readWait (o : Out) : (emit o s).readWait = s.readWait := rfl
@[simp] theorem emit_fltLog (o : Out) : (emit o s).fltLog = s.fltLog := rfl
@[simp] theorem emit_fltHold (o : Out) : (emit o s).fltHold = s.fltHold := rfl
@[simp] theorem emit_fltLost (o : Out) : (emit o s).fltLost = s.fltLost := rfl
@[simp] theorem emit_fltSeen (o : Out) : (emit o s).fltSeen = s.fltSeen := rfl
@[simp] theorem emit_stamps (o : Out) : (emit o s).stamps = s.stamps := rfl
@[simp] theorem emit_since (o : Out) : (emit o s).since = s.since := rfl
@[simp] theorem emit_free (o : Out) : (emit o s).free = s.free := rfl

/-! ### spend -/

@[simp] theorem spend_pending : (spend s).pending = s.pending := rfl
@[simp] theorem spend_regs : (spend s).regs = s.regs := rfl
@[simp] theorem spend_live : (spend s).live = s.live := rfl
@[simp] theorem spend_ctrs : (spend s).ctrs = s.ctrs := rfl
@[simp] theorem spend_now : (spend s).now = s.now := rfl
@[simp] theorem spend_elapsed : (spend s).elapsed = s.elapsed := rfl
@[simp] theorem spend_cic : (spend s).cic = s.cic := rfl
@[simp] theorem spend_clk : (spend s).clk = s.clk := rfl
@[simp] theorem spend_banks : (spend s).banks = s.banks := rfl
@[simp] theorem spend_dets : (spend s).dets = s.dets := rfl
@[simp] theorem spend_seqs : (spend s).seqs = s.seqs := rfl
@[simp] theorem spend_flags : (spend s).flags = s.flags := rfl
@[simp] theorem spend_parts : (spend s).parts = s.parts := rfl
@[simp] theorem spend_fns : (spend s).fns = s.fns := rfl
@[simp] theorem spend_chans : (spend s).chans = s.chans := rfl
@[simp] theorem spend_snaps : (spend s).snaps = s.snaps := rfl
@[simp] theorem spend_slow : (spend s).slow = s.slow := rfl
@[simp] theorem spend_mgmt : (spend s).mgmt = s.mgmt := rfl
@[simp] theorem spend_cals : (spend s).cals = s.cals := rfl
@[simp] theorem spend_waiting : (spend s).waiting = s.waiting := rfl
@[simp] theorem spend_readWait : (spend s).readWait = s.readWait := rfl
@[simp] theorem spend_fltLog : (spend s).fltLog = s.fltLog := rfl
@[simp] theorem spend_fltHold : (spend s).fltHold = s.fltHold := rfl
@[simp] theorem spend_fltLost : (spend s).fltLost = s.fltLost := rfl
@[simp] theorem spend_fltSeen : (spend s).fltSeen = s.fltSeen := rfl
@[simp] theorem spend_stamps : (spend s).stamps = s.stamps := rfl
@[simp] theorem spend_since : (spend s).since = s.since := rfl
@[simp] theorem spend_out : (spend s).out = s.out := rfl

/-! ### loadCtr -/

@[simp] theorem loadCtr_pending (c v : Nat) : (loadCtr c v s).pending = s.pending := rfl
@[simp] theorem loadCtr_regs (c v : Nat) : (loadCtr c v s).regs = s.regs := rfl
@[simp] theorem loadCtr_live (c v : Nat) : (loadCtr c v s).live = s.live := rfl
@[simp] theorem loadCtr_now (c v : Nat) : (loadCtr c v s).now = s.now := rfl
@[simp] theorem loadCtr_elapsed (c v : Nat) : (loadCtr c v s).elapsed = s.elapsed := rfl
@[simp] theorem loadCtr_cic (c v : Nat) : (loadCtr c v s).cic = s.cic := rfl
@[simp] theorem loadCtr_clk (c v : Nat) : (loadCtr c v s).clk = s.clk := rfl
@[simp] theorem loadCtr_banks (c v : Nat) : (loadCtr c v s).banks = s.banks := rfl
@[simp] theorem loadCtr_dets (c v : Nat) : (loadCtr c v s).dets = s.dets := rfl
@[simp] theorem loadCtr_seqs (c v : Nat) : (loadCtr c v s).seqs = s.seqs := rfl
@[simp] theorem loadCtr_flags (c v : Nat) : (loadCtr c v s).flags = s.flags := rfl
@[simp] theorem loadCtr_parts (c v : Nat) : (loadCtr c v s).parts = s.parts := rfl
@[simp] theorem loadCtr_fns (c v : Nat) : (loadCtr c v s).fns = s.fns := rfl
@[simp] theorem loadCtr_chans (c v : Nat) : (loadCtr c v s).chans = s.chans := rfl
@[simp] theorem loadCtr_snaps (c v : Nat) : (loadCtr c v s).snaps = s.snaps := rfl
@[simp] theorem loadCtr_slow (c v : Nat) : (loadCtr c v s).slow = s.slow := rfl
@[simp] theorem loadCtr_mgmt (c v : Nat) : (loadCtr c v s).mgmt = s.mgmt := rfl
@[simp] theorem loadCtr_cals (c v : Nat) : (loadCtr c v s).cals = s.cals := rfl
@[simp] theorem loadCtr_waiting (c v : Nat) : (loadCtr c v s).waiting = s.waiting := rfl
@[simp] theorem loadCtr_readWait (c v : Nat) : (loadCtr c v s).readWait = s.readWait := rfl
@[simp] theorem loadCtr_fltLog (c v : Nat) : (loadCtr c v s).fltLog = s.fltLog := rfl
@[simp] theorem loadCtr_fltHold (c v : Nat) : (loadCtr c v s).fltHold = s.fltHold := rfl
@[simp] theorem loadCtr_fltLost (c v : Nat) : (loadCtr c v s).fltLost = s.fltLost := rfl
@[simp] theorem loadCtr_fltSeen (c v : Nat) : (loadCtr c v s).fltSeen = s.fltSeen := rfl
@[simp] theorem loadCtr_stamps (c v : Nat) : (loadCtr c v s).stamps = s.stamps := rfl
@[simp] theorem loadCtr_since (c v : Nat) : (loadCtr c v s).since = s.since := rfl
@[simp] theorem loadCtr_out (c v : Nat) : (loadCtr c v s).out = s.out := rfl
@[simp] theorem loadCtr_free (c v : Nat) : (loadCtr c v s).free = s.free := rfl

/-! ### bumpRaw -/

@[simp] theorem bumpRaw_pending (c n : Nat) : (bumpRaw c n s).pending = s.pending := rfl
@[simp] theorem bumpRaw_regs (c n : Nat) : (bumpRaw c n s).regs = s.regs := rfl
@[simp] theorem bumpRaw_live (c n : Nat) : (bumpRaw c n s).live = s.live := rfl
@[simp] theorem bumpRaw_now (c n : Nat) : (bumpRaw c n s).now = s.now := rfl
@[simp] theorem bumpRaw_elapsed (c n : Nat) : (bumpRaw c n s).elapsed = s.elapsed := rfl
@[simp] theorem bumpRaw_cic (c n : Nat) : (bumpRaw c n s).cic = s.cic := rfl
@[simp] theorem bumpRaw_clk (c n : Nat) : (bumpRaw c n s).clk = s.clk := rfl
@[simp] theorem bumpRaw_banks (c n : Nat) : (bumpRaw c n s).banks = s.banks := rfl
@[simp] theorem bumpRaw_dets (c n : Nat) : (bumpRaw c n s).dets = s.dets := rfl
@[simp] theorem bumpRaw_seqs (c n : Nat) : (bumpRaw c n s).seqs = s.seqs := rfl
@[simp] theorem bumpRaw_flags (c n : Nat) : (bumpRaw c n s).flags = s.flags := rfl
@[simp] theorem bumpRaw_parts (c n : Nat) : (bumpRaw c n s).parts = s.parts := rfl
@[simp] theorem bumpRaw_fns (c n : Nat) : (bumpRaw c n s).fns = s.fns := rfl
@[simp] theorem bumpRaw_chans (c n : Nat) : (bumpRaw c n s).chans = s.chans := rfl
@[simp] theorem bumpRaw_snaps (c n : Nat) : (bumpRaw c n s).snaps = s.snaps := rfl
@[simp] theorem bumpRaw_slow (c n : Nat) : (bumpRaw c n s).slow = s.slow := rfl
@[simp] theorem bumpRaw_mgmt (c n : Nat) : (bumpRaw c n s).mgmt = s.mgmt := rfl
@[simp] theorem bumpRaw_cals (c n : Nat) : (bumpRaw c n s).cals = s.cals := rfl
@[simp] theorem bumpRaw_waiting (c n : Nat) : (bumpRaw c n s).waiting = s.waiting := rfl
@[simp] theorem bumpRaw_readWait (c n : Nat) : (bumpRaw c n s).readWait = s.readWait := rfl
@[simp] theorem bumpRaw_fltLog (c n : Nat) : (bumpRaw c n s).fltLog = s.fltLog := rfl
@[simp] theorem bumpRaw_fltHold (c n : Nat) : (bumpRaw c n s).fltHold = s.fltHold := rfl
@[simp] theorem bumpRaw_fltLost (c n : Nat) : (bumpRaw c n s).fltLost = s.fltLost := rfl
@[simp] theorem bumpRaw_fltSeen (c n : Nat) : (bumpRaw c n s).fltSeen = s.fltSeen := rfl
@[simp] theorem bumpRaw_stamps (c n : Nat) : (bumpRaw c n s).stamps = s.stamps := rfl
@[simp] theorem bumpRaw_since (c n : Nat) : (bumpRaw c n s).since = s.since := rfl
@[simp] theorem bumpRaw_out (c n : Nat) : (bumpRaw c n s).out = s.out := rfl
@[simp] theorem bumpRaw_free (c n : Nat) : (bumpRaw c n s).free = s.free := rfl

/-! ### clearStamp -/

@[simp] theorem clearStamp_pending (k : Nat) : (clearStamp k s).pending = s.pending := rfl
@[simp] theorem clearStamp_regs (k : Nat) : (clearStamp k s).regs = s.regs := rfl
@[simp] theorem clearStamp_live (k : Nat) : (clearStamp k s).live = s.live := rfl
@[simp] theorem clearStamp_ctrs (k : Nat) : (clearStamp k s).ctrs = s.ctrs := rfl
@[simp] theorem clearStamp_now (k : Nat) : (clearStamp k s).now = s.now := rfl
@[simp] theorem clearStamp_elapsed (k : Nat) : (clearStamp k s).elapsed = s.elapsed := rfl
@[simp] theorem clearStamp_cic (k : Nat) : (clearStamp k s).cic = s.cic := rfl
@[simp] theorem clearStamp_clk (k : Nat) : (clearStamp k s).clk = s.clk := rfl
@[simp] theorem clearStamp_banks (k : Nat) : (clearStamp k s).banks = s.banks := rfl
@[simp] theorem clearStamp_dets (k : Nat) : (clearStamp k s).dets = s.dets := rfl
@[simp] theorem clearStamp_seqs (k : Nat) : (clearStamp k s).seqs = s.seqs := rfl
@[simp] theorem clearStamp_flags (k : Nat) : (clearStamp k s).flags = s.flags := rfl
@[simp] theorem clearStamp_parts (k : Nat) : (clearStamp k s).parts = s.parts := rfl
@[simp] theorem clearStamp_fns (k : Nat) : (clearStamp k s).fns = s.fns := rfl
@[simp] theorem clearStamp_chans (k : Nat) : (clearStamp k s).chans = s.chans := rfl
@[simp] theorem clearStamp_snaps (k : Nat) : (clearStamp k s).snaps = s.snaps := rfl
@[simp] theorem clearStamp_slow (k : Nat) : (clearStamp k s).slow = s.slow := rfl
@[simp] theorem clearStamp_mgmt (k : Nat) : (clearStamp k s).mgmt = s.mgmt := rfl
@[simp] theorem clearStamp_cals (k : Nat) : (clearStamp k s).cals = s.cals := rfl
@[simp] theorem clearStamp_waiting (k : Nat) : (clearStamp k s).waiting = s.waiting := rfl
@[simp] theorem clearStamp_readWait (k : Nat) : (clearStamp k s).readWait = s.readWait := rfl
@[simp] theorem clearStamp_fltLog (k : Nat) : (clearStamp k s).fltLog = s.fltLog := rfl
@[simp] theorem clearStamp_fltHold (k : Nat) : (clearStamp k s).fltHold = s.fltHold := rfl
@[simp] theorem clearStamp_fltLost (k : Nat) : (clearStamp k s).fltLost = s.fltLost := rfl
@[simp] theorem clearStamp_fltSeen (k : Nat) : (clearStamp k s).fltSeen = s.fltSeen := rfl
@[simp] theorem clearStamp_since (k : Nat) : (clearStamp k s).since = s.since := rfl
@[simp] theorem clearStamp_out (k : Nat) : (clearStamp k s).out = s.out := rfl
@[simp] theorem clearStamp_free (k : Nat) : (clearStamp k s).free = s.free := rfl

/-! ### startInterval -/

@[simp] theorem startInterval_pending (c : Nat) : (startInterval c s).pending = s.pending := rfl
@[simp] theorem startInterval_regs (c : Nat) : (startInterval c s).regs = s.regs := rfl
@[simp] theorem startInterval_live (c : Nat) : (startInterval c s).live = s.live := rfl
@[simp] theorem startInterval_ctrs (c : Nat) : (startInterval c s).ctrs = s.ctrs := rfl
@[simp] theorem startInterval_now (c : Nat) : (startInterval c s).now = s.now := rfl
@[simp] theorem startInterval_elapsed (c : Nat) : (startInterval c s).elapsed = s.elapsed := rfl
@[simp] theorem startInterval_cic (c : Nat) : (startInterval c s).cic = s.cic := rfl
@[simp] theorem startInterval_clk (c : Nat) : (startInterval c s).clk = s.clk := rfl
@[simp] theorem startInterval_banks (c : Nat) : (startInterval c s).banks = s.banks := rfl
@[simp] theorem startInterval_dets (c : Nat) : (startInterval c s).dets = s.dets := rfl
@[simp] theorem startInterval_seqs (c : Nat) : (startInterval c s).seqs = s.seqs := rfl
@[simp] theorem startInterval_flags (c : Nat) : (startInterval c s).flags = s.flags := rfl
@[simp] theorem startInterval_parts (c : Nat) : (startInterval c s).parts = s.parts := rfl
@[simp] theorem startInterval_fns (c : Nat) : (startInterval c s).fns = s.fns := rfl
@[simp] theorem startInterval_chans (c : Nat) : (startInterval c s).chans = s.chans := rfl
@[simp] theorem startInterval_snaps (c : Nat) : (startInterval c s).snaps = s.snaps := rfl
@[simp] theorem startInterval_slow (c : Nat) : (startInterval c s).slow = s.slow := rfl
@[simp] theorem startInterval_mgmt (c : Nat) : (startInterval c s).mgmt = s.mgmt := rfl
@[simp] theorem startInterval_cals (c : Nat) : (startInterval c s).cals = s.cals := rfl
@[simp] theorem startInterval_waiting (c : Nat) : (startInterval c s).waiting = s.waiting := rfl
@[simp] theorem startInterval_readWait (c : Nat) : (startInterval c s).readWait = s.readWait := rfl
@[simp] theorem startInterval_fltLog (c : Nat) : (startInterval c s).fltLog = s.fltLog := rfl
@[simp] theorem startInterval_fltHold (c : Nat) : (startInterval c s).fltHold = s.fltHold := rfl
@[simp] theorem startInterval_fltLost (c : Nat) : (startInterval c s).fltLost = s.fltLost := rfl
@[simp] theorem startInterval_fltSeen (c : Nat) : (startInterval c s).fltSeen = s.fltSeen := rfl
@[simp] theorem startInterval_stamps (c : Nat) : (startInterval c s).stamps = s.stamps := rfl
@[simp] theorem startInterval_out (c : Nat) : (startInterval c s).out = s.out := rfl
@[simp] theorem startInterval_free (c : Nat) : (startInterval c s).free = s.free := rfl

/-! ### Updates read back -/


end Sys2Proof.Machine
end

