-- ==== Sys2Proof/Laws/Registers.lean ====
section
/-! SUPPORT. Laws/Registers.lean: a register, a field, a function, a bank, a partition … read back after a store, and
read past a store to another one. -/

namespace Sys2Proof.Machine

variable (s : State)

/-! ### Registers -/

@[simp] theorem rd_wr_same (r : Reg) (w : Word) : (wr r w s).rd r = w := by simp [State.rd, wr]

/-- A store to one register leaves every register with another key. -/
theorem rd_wr_ne {r q : Reg} (h : q.key ≠ r.key) (w : Word) : (wr r w s).rd q = s.rd q := by
  simp only [State.rd, wr]
  exact spGet_spSet_ne _ _ h w s.regs

@[simp] theorem rdLive_wrLive_same (r : Reg) (w : Word) : (wrLive r w s).rdLive r = w := by
  simp [State.rdLive, wrLive]

theorem rdLive_wrLive_ne {r q : Reg} (h : q.key ≠ r.key) (w : Word) : (wrLive r w s).rdLive q = s.rdLive q := by
  simp only [State.rdLive, wrLive]
  exact spGet_spSet_ne _ _ h w s.live

/-! ### Fields of a word -/

/-- A bit of a field's mask. -/
theorem mask_getLsbD (x : Fld) (i : Nat) :
    x.mask.getLsbD i = (decide (i < 32) && decide (x.lo ≤ i) && decide (i < x.lo + x.width)) := by
  rw [Fld.mask, BitVec.getLsbD_ofNat, Nat.testBit_mul_two_pow, Nat.testBit_two_pow_sub_one]
  by_cases h1 : i < 32 <;> by_cases h2 : x.lo ≤ i <;> simp [h1, h2]
  omega

/-- A field reads as the bits of the word in its places. -/
theorem get_testBit (x : Fld) (w : Word) (i : Nat) :
    (x.get w).testBit i = (decide (i < x.width) && w.getLsbD (x.lo + i)) := by
  rw [Fld.get, bitsOf, Nat.testBit_mod_two_pow, Nat.testBit_div_two_pow, Nat.add_comm, BitVec.getLsbD]

/-- A bit of a word with a field replaced. -/
theorem put_getLsbD (x : Fld) (v : Nat) (w : Word) (i : Nat) (h : x.lo + x.width ≤ 32) :
    (x.put v w).getLsbD i =
      if x.lo ≤ i ∧ i < x.lo + x.width then v.testBit (i - x.lo) else w.getLsbD i := by
  rw [Fld.put, BitVec.getLsbD_or, BitVec.getLsbD_and, BitVec.getLsbD_and, BitVec.getLsbD_not, mask_getLsbD,
    BitVec.getLsbD_ofNat, Nat.testBit_mul_two_pow, Nat.testBit_mod_two_pow]
  by_cases h1 : i < 32
  · by_cases h2 : x.lo ≤ i <;> by_cases h3 : i < x.lo + x.width <;> simp [h1, h2, h3]
    omega
  · have : ¬ i < x.lo + x.width := by omega
    simp [h1, this, BitVec.getLsbD_of_ge w i (by omega)]

/-- A field stored reads back, cut to its width. -/
theorem get_put_same (x : Fld) (v : Nat) (w : Word) (h : x.lo + x.width ≤ 32) :
    x.get (x.put v w) = v % 2 ^ x.width := by
  apply Nat.eq_of_testBit_eq
  intro i
  rw [get_testBit, put_getLsbD x v w _ h, Nat.testBit_mod_two_pow]
  by_cases hi : i < x.width <;> simp [hi]

/-- A field stored leaves the fields in other places. -/
theorem get_put_ne (x y : Fld) (v : Nat) (w : Word) (h : x.lo + x.width ≤ 32)
    (d : y.lo + y.width ≤ x.lo ∨ x.lo + x.width ≤ y.lo) : y.get (x.put v w) = y.get w := by
  apply Nat.eq_of_testBit_eq
  intro i
  rw [get_testBit, get_testBit, put_getLsbD x v w _ h]
  by_cases hi : i < y.width
  · have : ¬ (x.lo ≤ y.lo + i ∧ y.lo + i < x.lo + x.width) := by omega
    simp [this]
  · simp [hi]

/-! ### Fields of the state -/

theorem getF_setF_same (x : Fld) (v : Nat) (h : x.lo + x.width ≤ 32) : (setF x v s).getF x = v % 2 ^ x.width := by
  simp [State.getF, setF, get_put_same x v _ h]

theorem getF_setF_other (x y : Fld) (v : Nat) (h : x.lo + x.width ≤ 32) (e : y.reg = x.reg)
    (d : y.lo + y.width ≤ x.lo ∨ x.lo + x.width ≤ y.lo) : (setF x v s).getF y = s.getF y := by
  simp [State.getF, setF, e, get_put_ne x y v _ h d]

theorem getF_setF_ne (x y : Fld) (v : Nat) (e : y.reg.key ≠ x.reg.key) : (setF x v s).getF y = s.getF y := by
  simp [State.getF, setF, rd_wr_ne s e]

theorem rd_setF_ne (x : Fld) (r : Reg) (v : Nat) (e : r.key ≠ x.reg.key) : (setF x v s).rd r = s.rd r := by
  simp [setF, rd_wr_ne s e]

/-- A register's word depends on the register words alone. -/
theorem rd_congr {s t : State} (h : t.regs = s.regs) (r : Reg) : t.rd r = s.rd r := by simp [State.rd, h]

theorem getF_congr {s t : State} (h : t.regs = s.regs) (x : Fld) : t.getF x = s.getF x := by
  simp [State.getF, rd_congr h]

theorem flag_congr {s t : State} (h : t.regs = s.regs) (x : Fld) : t.flag x = s.flag x := by
  simp [State.flag, getF_congr h]

/-! ### The tables of the state -/

@[simp] theorem fn_setFn_same (f : Nat) (x : Fn) : (setFn f x s).fn f = x := by simp [State.fn, setFn]
theorem fn_setFn_ne {f g : Nat} (h : g ≠ f) (x : Fn) : (setFn f x s).fn g = s.fn g := by
  simp [State.fn, setFn, spGet_spSet_ne _ _ h]
@[simp] theorem fn_modFn_same (f : Nat) (u : Fn → Fn) : (modFn f u s).fn f = u (s.fn f) := by simp [modFn]
@[simp] theorem pair_setPair_same (f n : Nat) (x : Pair) : (setPair f n x s).pair f n = x := by
  simp [State.pair, setPair]
theorem pair_setPair_ne {f n g m : Nat} (h : g ≠ f ∨ m ≠ n) (x : Pair) :
    (setPair f n x s).pair g m = s.pair g m := by
  simp only [State.pair, setPair, modFn]
  by_cases e : g = f
  · subst e
    rw [fn_setFn_same]
    exact spGet_spSet_ne _ _ (h.resolve_left fun a => a rfl) x _
  · rw [fn_setFn_ne s e]
@[simp] theorem pair_setFn_tags (f g n : Nat) (x : Fn) (h : x.pairs = (s.fn f).pairs) :
    (setFn f x s).pair g n = s.pair g n := by
  simp only [State.pair]
  by_cases e : g = f
  · subst e; rw [fn_setFn_same, h]
  · rw [fn_setFn_ne s e]
@[simp] theorem bank_setBank_same (b : Nat) (x : Bank) : (setBank b x s).bank b = x := by simp [State.bank, setBank]
theorem bank_setBank_ne {b c : Nat} (h : c ≠ b) (x : Bank) : (setBank b x s).bank c = s.bank c := by
  simp [State.bank, setBank, spGet_spSet_ne _ _ h]
@[simp] theorem det_setDet_same (n : Nat) (x : Det) : (setDet n x s).det n = x := by simp [State.det, setDet]
theorem det_setDet_ne {n m : Nat} (h : m ≠ n) (x : Det) : (setDet n x s).det m = s.det m := by
  simp [State.det, setDet, spGet_spSet_ne _ _ h]
@[simp] theorem seq_setSeq_same (p : Nat) (x : Seq) : (setSeq p x s).seq p = x := by simp [State.seq, setSeq]
theorem seq_setSeq_ne {p q : Nat} (h : q ≠ p) (x : Seq) : (setSeq p x s).seq q = s.seq q := by
  simp [State.seq, setSeq, spGet_spSet_ne _ _ h]
@[simp] theorem part_setPart_same (p : Nat) (x : Part) : (setPart p x s).part p = x := by simp [State.part, setPart]
theorem part_setPart_ne {p q : Nat} (h : q ≠ p) (x : Part) : (setPart p x s).part q = s.part q := by
  simp [State.part, setPart, spGet_spSet_ne _ _ h]
@[simp] theorem chan_setChan_same (c : Nat) (x : Chan) : (setChan c x s).chan c = x := by simp [State.chan, setChan]
theorem chan_setChan_ne {c d : Nat} (h : d ≠ c) (x : Chan) : (setChan c x s).chan d = s.chan d := by
  simp [State.chan, setChan, spGet_spSet_ne _ _ h]

end Sys2Proof.Machine
end

