-- ==== Sys2Proof/Laws/Reports.lean ====
section
/-! SUPPORT. Laws/Reports.lean: what reporting may change. Posting an event, sending a message, counting, issuing a read
and completing a command leave everything alone but the queues, logs and rings they serve: `Quiet` says so once, and
each of these operations is shown to be quiet. -/

namespace Sys2Proof.Machine

namespace Quiet

variable {s t u : State}

theorem refl (s : State) : Quiet s s := by
  constructor <;> first | exact List.suffix_refl _ | (intros; rfl)

theorem trans (a : Quiet s t) (b : Quiet t u) : Quiet s u where
  pending := b.pending.trans a.pending
  live := b.live.trans a.live
  now := b.now.trans a.now
  elapsed := b.elapsed.trans a.elapsed
  cic := b.cic.trans a.cic
  clk := b.clk.trans a.clk
  banks := b.banks.trans a.banks
  dets := b.dets.trans a.dets
  seqs := b.seqs.trans a.seqs
  flags := b.flags.trans a.flags
  chans := b.chans.trans a.chans
  snaps := b.snaps.trans a.snaps
  slow := b.slow.trans a.slow
  mgmt := b.mgmt.trans a.mgmt
  cals := b.cals.trans a.cals
  waiting := b.waiting.trans a.waiting
  regs := fun r h => (b.regs r h).trans (a.regs r h)
  fns := fun f => (b.fns f).trans (a.fns f)
  parts := fun p => (b.parts p).trans (a.parts p)
  out := a.out.trans b.out

/-- A field of a register that reports do not write. -/
theorem getF (q : Quiet s t) (x : Fld) (h : reportOff (x.reg.key % 0x100000) = false) : t.getF x = s.getF x := by
  simp [State.getF, q.regs x.reg h]

theorem flag (q : Quiet s t) (x : Fld) (h : reportOff (x.reg.key % 0x100000) = false) : t.flag x = s.flag x := by
  simp [State.flag, q.getF x h]

theorem bme (q : Quiet s t) (f : Nat) : (t.fn f).bme = (s.fn f).bme := by
  have h := congrArg Fn.bme (q.fns f); simpa [Fn.core] using h

theorem d3 (q : Quiet s t) (f : Nat) : (t.fn f).d3 = (s.fn f).d3 := by
  have h := congrArg Fn.d3 (q.fns f); simpa [Fn.core] using h

theorem mse (q : Quiet s t) (f : Nat) : (t.fn f).mse = (s.fn f).mse := by
  have h := congrArg Fn.mse (q.fns f); simpa [Fn.core] using h

end Quiet

/-! ### Steps that are quiet -/

namespace Quiet

variable {s t : State}

theorem wr (h : Quiet s t) (r : Reg) (w : Word) (hr : reportOff (r.key % 0x100000) = true) : Quiet s (wr r w t) := by
  refine h.trans { refl t with regs := fun q hq => rd_wr_ne t (fun e => ?_) w }
  rw [e, hr] at hq
  exact absurd hq (by decide)

theorem setF (h : Quiet s t) (x : Fld) (v : Nat) (hr : reportOff (x.reg.key % 0x100000) = true) :
    Quiet s (setF x v t) := h.wr x.reg _ hr

theorem setFn (h : Quiet s t) (f : Nat) (x : Fn) (hx : x.core = (t.fn f).core := by rfl) : Quiet s (setFn f x t) := by
  refine h.trans { refl t with fns := fun g => ?_ }
  by_cases e : g = f
  · subst e; rw [fn_setFn_same, hx]
  · rw [fn_setFn_ne t e]

theorem modFn (h : Quiet s t) (f : Nat) (g : Fn → Fn) (hg : ∀ x, (g x).core = x.core := by intro _; rfl) :
    Quiet s (modFn f g t) :=
  h.setFn f _ (hg _)

theorem setPair (h : Quiet s t) (f n : Nat) (x : Pair) : Quiet s (setPair f n x t) := h.modFn f _

theorem modPair (h : Quiet s t) (f n : Nat) (g : Pair → Pair) : Quiet s (modPair f n g t) := h.setPair f n _

theorem emit (h : Quiet s t) (o : Out) : Quiet s (emit o t) :=
  h.trans { refl t with out := List.suffix_cons o t.out }

theorem spend (h : Quiet s t) : Quiet s (spend t) := h.trans { refl t with }

theorem bumpRaw (h : Quiet s t) (c n : Nat) : Quiet s (bumpRaw c n t) := h.trans { refl t with }

theorem each {α : Type} (h : Quiet s t) (g : α → State → State) (hg : ∀ a u, Quiet s u → Quiet s (g a u)) (l : List α) :
    Quiet s (each g l t) := by
  induction l generalizing t with
  | nil => exact h
  | cons a r ih => exact ih (hg a t h)

theorem msixNow (h : Quiet s t) (f vec : Nat) : Quiet s (msixNow f vec t) := by
  simp only [Machine.msixNow]
  split
  · exact h.setFn f _
  · exact h.emit _

theorem msix (h : Quiet s t) (f vec : Nat) : Quiet s (msix f vec t) := by
  simp only [Machine.msix]
  split
  · exact h.modFn f _
  · exact h.msixNow f vec

theorem sendPending (h : Quiet s t) (f : Nat) : Quiet s (sendPending f t) :=
  each (h.modFn f _) _ (fun v _ hu => hu.msix f v) _

theorem evqStatus_report (f lo w : Nat) : reportOff ((Fld.mk (.evqStatus f) lo w).reg.key % 0x100000) = true := by
  simp [Reg.key, Reg.space, Reg.off, reportOff]

theorem epEvents_report (f lo w : Nat) : reportOff ((Fld.mk (.epEvents f) lo w).reg.key % 0x100000) = true := by
  simp [Reg.key, Reg.space, Reg.off, reportOff]

theorem fltStatus_report (f lo w : Nat) : reportOff ((Fld.mk (.fltStatus f) lo w).reg.key % 0x100000) = true := by
  simp [Reg.key, Reg.space, Reg.off, reportOff]

theorem enqueue (h : Quiet s t) (f code payload : Nat) : Quiet s (enqueue f code payload t) := by
  simp only [Machine.enqueue]
  split
  · exact ((h.setFn f _).setF _ _ (evqStatus_report ..)).bumpRaw _ _
  · repeat' split
    all_goals repeat first | exact h.setFn f _ | apply msix | apply setF _ _ _ (evqStatus_report ..)

theorem saturated (h : Quiet s t) (item : Nat) : Quiet s (saturated item t) :=
  (h.setF _ _ (by decide)).each _ (fun f _ hu => hu.enqueue f _ _) _

theorem post (h : Quiet s t) (f code payload : Nat) : Quiet s (post f code payload t) := by
  simp only [Machine.post]
  split
  · exact (h.enqueue f code payload).saturated _
  · exact h.enqueue f code payload

theorem postAll (h : Quiet s t) (fs : List Nat) (code payload : Nat) : Quiet s (postAll fs code payload t) :=
  h.each _ (fun f _ hu => hu.post f code payload) fs

theorem postPfs (h : Quiet s t) (code payload : Nat) : Quiet s (postPfs code payload t) := h.postAll _ _ _

theorem postOpen (h : Quiet s t) (code : Nat) : Quiet s (postOpen code t) := h.spend.postPfs _ _

theorem postPart (h : Quiet s t) (p code payload : Nat) : Quiet s (postPart p code payload t) := h.postAll _ _ _

theorem postBank (h : Quiet s t) (b code payload : Nat) : Quiet s (postBank b code payload t) := by
  simp only [Machine.postBank]
  split
  · exact h.postPart _ _ _
  · exact h.postPfs _ _

theorem bump (h : Quiet s t) (code n : Nat) : Quiet s (bump code n t) := by
  simp only [Machine.bump]
  split
  · exact (h.bumpRaw code n).saturated _
  · exact h.bumpRaw code n

theorem limited (h : Quiet s t) (key period : Nat) (g : State → State) (hg : ∀ u, Quiet s u → Quiet s (g u)) :
    Quiet s (limited key period g t) := by
  simp only [Machine.limited]
  split
  · exact hg _ (h.trans { refl t with })
  · exact h

theorem oncePerFrame (h : Quiet s t) (key : Nat) (g : State → State) (hg : ∀ u, Quiet s u → Quiet s (g u)) :
    Quiet s (oncePerFrame key g t) := by
  simp only [Machine.oncePerFrame]
  split
  · exact h
  · exact hg _ (h.trans { refl t with })

theorem logErr (h : Quiet s t) (f code tag source detail : Nat) : Quiet s (logErr f code tag source detail t) := by
  simp only [Machine.logErr]
  split
  · exact (h.bump _ _).setF _ _ (epEvents_report ..)
  · split
    · exact ((h.setFn f _).setF _ _ (epEvents_report ..)).post _ _ _
    · exact h.setFn f _

theorem fltPush (h : Quiet s t) (f code index detail suppressed : Nat) :
    Quiet s (fltPush f code index detail suppressed t) := by
  simp only [Machine.fltPush]
  split
  · refine Quiet.setF ?_ _ _ (fltStatus_report ..)
    exact h.trans { refl t with }
  · split
    · refine Quiet.post (Quiet.setF ?_ _ _ (fltStatus_report ..)) _ _ _
      exact h.trans { refl t with }
    · exact h.trans { refl t with }

/-- A fault of R492 is logged. -/
theorem logFault (h : Quiet s t) (code index detail : Nat) (hc : code < 0x13) :
    Quiet s (logFault code index detail t) := by
  have e : reportOff ((Reg.fltCount code).key % 0x100000) = true := by
    have k : (Reg.fltCount code).key % 0x100000 = 0x4840 + code * 4 := by
      simp only [Reg.key, Reg.space, Reg.off]; omega
    simp only [k, reportOff, Bool.or_eq_true, Bool.and_eq_true, decide_eq_true_eq]
    omega
  have a := h.setF (F.fltCountCount code) (min 0xFFFFFFFF (t.getF (F.fltCountCount code) + 1)) e
  unfold Machine.logFault
  extract_lets u key seen v
  have a' : Quiet s u := a
  split
  · exact a'.trans { refl u with }
  · have b : Quiet s v := a'.trans { refl u with }
    exact b.each _ (fun f _ hu => hu.fltPush f code index detail _) _

/-! ### Rings -/

theorem consume (h : Quiet s t) (p key did words : Nat) : Quiet s (consume p key did words t) := by
  refine h.trans { refl t with parts := fun q => ?_ }
  simp only [Machine.consume, modPart]
  by_cases e : q = p
  · subst e; rw [part_setPart_same]; rfl
  · rw [part_setPart_ne t e]

theorem unpin (h : Quiet s t) (p : Nat) (pages : List Nat) : Quiet s (unpin p pages t) := by
  refine h.trans { refl t with parts := fun q => ?_ }
  simp only [Machine.unpin, modPart]
  by_cases e : q = p
  · subst e; rw [part_setPart_same]; rfl
  · rw [part_setPart_ne t e]

theorem signalPair (h : Quiet s t) (f n : Nat) : Quiet s (signalPair f n t) := (h.modPair f n _).msix f _

theorem issueRead (h : Quiet s t) (f source detail : Nat) : Quiet s (issueRead f source detail t).2 :=
  (h.setFn f _).emit _

theorem awaitRead (h : Quiet s t) (f : Nat) : Quiet s (awaitRead f t) := by
  simp only [Machine.awaitRead]
  split
  · exact h
  · exact h.trans { refl t with }

theorem tryFetch (h : Quiet s t) (f n : Nat) : Quiet s (tryFetch f n t) := by
  simp only [Machine.tryFetch]
  split
  · split
    · exact (h.issueRead f _ n).modPair f n _
    · exact h.awaitRead f
  · exact h

theorem ring_report (f n lo w : Nat) (h : n < 8) :
    reportOff ((Fld.mk (.rcStatus f n) lo w).reg.key % 0x100000) = true
      ∧ reportOff ((Fld.mk (.rcCqTail f n) lo w).reg.key % 0x100000) = true
      ∧ reportOff ((Fld.mk (.rcEvents f n) lo w).reg.key % 0x100000) = true
      ∧ reportOff ((Fld.mk (.rcSqHead f n) lo w).reg.key % 0x100000) = true := by
  simp [Reg.key, Reg.space, Reg.off, reportOff]
  omega

theorem writeCpl (h : Quiet s t) (f n : Nat) (c : Cpl) (hn : n < 8) : Quiet s (writeCpl f n c t) := by
  have r := fun lo w => ring_report f n lo w hn
  have a1 := ((h.each (fun (w : Nat × List Byte) => Machine.emit (.hostWrite f w.1 w.2 false))
    (fun _ _ hu => hu.emit _) c.pre))
  unfold Machine.writeCpl
  extract_lets tail used bytes u1 u2 u3 u4 u5 u5' u5'' u6 u7
  have a4 : Quiet s u4 := ((a1.emit _).setF _ _ (r _ _).2.1).modPair f n _
  have a5 : Quiet s u5 := by
    show Quiet s (match c.consumes with | some (p, key, did, w) => Machine.consume p key did w u4 | none => u4)
    split
    · exact a4.consume _ _ _ _
    · exact a4
  have b5 : Quiet s u5' := by
    show Quiet s (match c.unpins with | some (p, pages) => Machine.unpin p pages u5 | none => u5)
    split
    · exact a5.unpin _ _
    · exact a5
  have c5 : Quiet s u5'' := b5.each (fun (w : Nat × List Byte) => Machine.emit (.hostWrite f w.1 w.2 false))
    (fun _ _ hu => hu.emit _) c.post
  have a6 : Quiet s u6 := by
    show Quiet s (if _ then _ else u5'')
    split
    · exact ((c5.setF _ _ (r _ _).1).setF _ _ (r _ _).2.2.1).post _ _ _
    · exact c5
  have a7 : Quiet s u7 := by
    show Quiet s (if _ then _ else u6)
    split
    · exact a6.signalPair f n
    · exact a6
  split
  · exact ((a7.signalPair f n).setF _ _ (r _ _).2.2.1).post _ _ _
  · exact a7

theorem writeHeld (f n : Nat) (hn : n < 8) : ∀ (l : List Cpl) {t : State}, Quiet s t → Quiet s (writeHeld f n l t)
  | [], _, h => h.modPair f n _
  | c :: r, _, h => by
    simp only [Machine.writeHeld]
    split
    · exact writeHeld f n hn r (h.writeCpl f n c hn)
    · exact h.modPair f n _

theorem flushPair (h : Quiet s t) (f n : Nat) (hn : n < 8) : Quiet s (flushPair f n t) := writeHeld f n hn _ h

theorem complete (h : Quiet s t) (f n : Nat) (c : Cpl) (hn : n < 8) : Quiet s (complete f n c t) := writeHeld f n hn _ h

theorem finishCpl (h : Quiet s t) (c : Cmd) (op st r rh : Nat) (pre : List (Nat × List Byte))
    (unpins : Option (Nat × List Nat)) : Quiet s (finishCpl c op st r rh pre unpins t) := by
  simp only [Machine.finishCpl]
  split
  · exact h
  · apply each _ _ fun n _ hu => hu.tryFetch c.fn n
    apply complete _ _ _ _ c.pair.isLt
    split
    · exact (h.modPair _ _ _).modFn _ _
    · exact h.modPair _ _ _

theorem finishPre (h : Quiet s t) (c : Cmd) (op st r rh : Nat) (pre : List (Nat × List Byte)) :
    Quiet s (finishPre c op st r rh pre t) := h.finishCpl c op st r rh pre none

/-- Completing a command changes only what reports change. -/
theorem finish (h : Quiet s t) (c : Cmd) (op st r rh : Nat) : Quiet s (finish c op st r rh t) :=
  h.finishPre c op st r rh []

end Quiet

end Sys2Proof.Machine
end

