-- ==== Sys2Proof/Laws/Completions.lean ====
section
/-! SUPPORT. Laws/Completions.lean: a command that completes has its entry written or held; an access that is carried out
acts. -/

namespace Sys2Proof.Machine

/-- The state with the entry of a completion written, before what follows it. -/
def entryWritten (f n : Nat) (c : Cpl) (s : State) : State :=
  let s0 := each (fun (w : Nat × List Byte) => emit (.hostWrite f w.1 w.2 false)) c.pre s
  emit (.hostWrite f (s0.cqBase f n + idxPos (s.getF (F.rcCqTailCqTail f n)) * 16)
    (c.words.take 15 ++ [if idxWrap (s.getF (F.rcCqTailCqTail f n)) = 0 then 0x80#8 else 0#8]) false) s0

theorem entryWritten_out (f n : Nat) (c : Cpl) (s : State) : ∃ place phase, (entryWritten f n c s).out =
    Out.hostWrite f place (c.words.take 15 ++ [phase]) false ::
      (each (fun (w : Nat × List Byte) => emit (.hostWrite f w.1 w.2 false)) c.pre s).out := ⟨_, _, rfl⟩

/-- What follows the writing of an entry is reports. -/
theorem writeCpl_entry (f n : Nat) (hn : n < 8) (c : Cpl) (s : State) : Quiet (entryWritten f n c s) (writeCpl f n c s) := by
  have r := fun lo w => Quiet.ring_report f n lo w hn
  unfold writeCpl
  extract_lets tail used bytes u1 u2 u3 u4 u5 u5' u5'' u6 u7
  have b2 : Quiet (entryWritten f n c s) u2 := Quiet.refl _
  have b4 : Quiet (entryWritten f n c s) u4 := (b2.setF _ _ (r _ _).2.1).modPair f n _
  have b5 : Quiet (entryWritten f n c s) u5 := by
    show Quiet _ (match c.consumes with | some (p, key, did, w) => consume p key did w u4 | none => u4)
    split
    · exact b4.consume _ _ _ _
    · exact b4
  have c5 : Quiet (entryWritten f n c s) u5' := by
    show Quiet _ (match c.unpins with | some (p, pages) => unpin p pages u5 | none => u5)
    split
    · exact b5.unpin _ _
    · exact b5
  have d5 : Quiet (entryWritten f n c s) u5'' := c5.each
    (fun (w : Nat × List Byte) => emit (.hostWrite f w.1 w.2 false)) (fun _ _ hu => hu.emit _) c.post
  have b6 : Quiet (entryWritten f n c s) u6 := by
    show Quiet _ (if _ then _ else u5'')
    split
    · exact ((d5.setF _ _ (r _ _).1).setF _ _ (r _ _).2.2.1).post _ _ _
    · exact d5
  have b7 : Quiet (entryWritten f n c s) u7 := by
    show Quiet _ (if _ then _ else u6)
    split
    · exact b6.signalPair f n
    · exact b6
  split
  · exact ((b7.signalPair f n).setF _ _ (r _ _).2.2.1).post _ _ _
  · exact b7

/-- The last of the entries given is written, or stays as the last one held. -/
theorem writeHeld_last (f n : Nat) (hn : n < 8) (c : Cpl) : ∀ (l : List Cpl) (s : State),
    (∃ new place phase, (writeHeld f n (l ++ [c]) s).out = new ++ s.out ∧
      Out.hostWrite f place (c.words.take 15 ++ [phase]) false ∈ new) ∨
    ((writeHeld f n (l ++ [c]) s).pair f n).heldCpl.getLast? = some c
  | [], s => by
    simp only [List.nil_append, writeHeld]
    split
    · refine Or.inl ?_
      have q3 := (writeCpl_entry f n hn c s).modPair f n (fun x => { x with heldCpl := [] })
      have q0 := (Quiet.refl s).each (fun (w : Nat × List Byte) => emit (.hostWrite f w.1 w.2 false))
        (fun _ _ hu => hu.emit _) c.pre
      obtain ⟨n1, h1⟩ := q3.out
      obtain ⟨n0, h0⟩ := q0.out
      obtain ⟨place, phase, h⟩ := entryWritten_out f n c s
      refine ⟨n1 ++ _ :: n0, place, phase, ?_, List.mem_append_right _ (List.mem_cons_self ..)⟩
      rw [← h1, h, ← h0, List.append_assoc, List.cons_append]
    · refine Or.inr ?_
      rw [modPair, pair_setPair_same]
      rfl
  | d :: l, s => by
    simp only [List.cons_append, writeHeld]
    split
    · rcases writeHeld_last f n hn c l (writeCpl f n d s) with ⟨new, pl, ph, h, m⟩ | h
      · obtain ⟨n0, h0⟩ := ((Quiet.refl s).writeCpl f n d hn).out
        exact Or.inl ⟨new ++ n0, pl, ph, by rw [h, ← h0, List.append_assoc], List.mem_append_left _ m⟩
      · exact Or.inr h
    · refine Or.inr ?_
      rw [modPair, pair_setPair_same]
      show (d :: l ++ [c]).getLast? = some c
      exact List.getLast?_concat ..

theorem pairs_issueRead (f source detail : Nat) (s : State) (m : Nat) :
    (issueRead f source detail s).2.pair f m = s.pair f m := by
  simp only [issueRead]
  exact pair_setFn_tags s f f m _ rfl

/-- A fetch leaves the completions held on every pair of its function. -/
theorem tryFetch_held (f n m : Nat) (s : State) : ((tryFetch f n s).pair f m).heldCpl = (s.pair f m).heldCpl := by
  simp only [tryFetch]
  split
  · split
    · rw [modPair]
      by_cases e : m = n
      · subst e
        rw [pair_setPair_same, pairs_issueRead]
        split <;> rfl
      · rw [pair_setPair_ne _ (Or.inr e), pairs_issueRead]
    · simp only [awaitRead]
      split <;> rfl
  · rfl

theorem each_tryFetch_held (f m : Nat) : ∀ (l : List Nat) (s : State),
    ((each (fun n => tryFetch f n) l s).pair f m).heldCpl = (s.pair f m).heldCpl
  | [], _ => rfl
  | n :: r, s => by
    have h := each_tryFetch_held f m r (tryFetch f n s)
    rw [tryFetch_held] at h
    exact h

/-- A command that is in progress completes with its entry. -/
theorem completed_finishCpl (c : Cmd) (op st r rh : Nat) (pre : List (Nat × List Byte))
    (unpins : Option (Nat × List Nat)) (s : State) (h : c.index < 65536) :
    Completed s (finishCpl c op st r rh pre unpins s) c op st r rh := by
  unfold finishCpl
  rw [if_neg (by omega)]
  extract_lets s1 s2 s3
  have q2 : Quiet s s2 := by
    have q1 : Quiet s s1 := (Quiet.refl s).modPair _ _ _
    show Quiet s (if _ then _ else s1)
    split
    · exact q1.modFn _ _
    · exact q1
  have q3 : Quiet s3 (each (fun n => tryFetch c.fn n) (List.range 8) s3) :=
    (Quiet.refl s3).each _ (fun n _ hu => hu.tryFetch c.fn n) _
  have key := writeHeld_last c.fn c.pair c.pair.isLt
    { words := cmdEntry r rh c.index st c.tag op, urgent := decide (0x100 ≤ st) || c.interrupt, pre := pre,
      unpins := unpins }
    (s2.pair c.fn c.pair).heldCpl s2
  rcases key with ⟨new, pl, ph, e, m⟩ | e
  · obtain ⟨n0, e0⟩ := q2.out
    obtain ⟨n3, e3⟩ := q3.out
    refine Or.inl ⟨n3 ++ (new ++ n0), pl, ph, ?_, List.mem_append_right _ (List.mem_append_left _ m)⟩
    rw [← e3, show s3.out = _ from e, ← e0, List.append_assoc, List.append_assoc]
  · refine Or.inr ?_
    rw [each_tryFetch_held, show s3 = _ from rfl]
    exact congrArg (Option.map Cpl.words) e

theorem completed_finishPre (c : Cmd) (op st r rh : Nat) (pre : List (Nat × List Byte)) (s : State) (h : c.index < 65536) :
    Completed s (finishPre c op st r rh pre s) c op st r rh := completed_finishCpl c op st r rh pre none s h

theorem completed_finish (c : Cmd) (op st r rh : Nat) (s : State) (h : c.index < 65536) :
    Completed s (finish c op st r rh s) c op st r rh := completed_finishPre c op st r rh [] s h

/-- A completion that follows reports. -/
theorem Completed.after {s u t : State} {c : Cmd} {op st r rh : Nat} (h : Completed u t c op st r rh)
    (q : s.out <:+ u.out) : Completed s t c op st r rh := by
  rcases h with ⟨new, pl, ph, e, m⟩ | h
  · obtain ⟨n0, e0⟩ := q
    exact Or.inl ⟨new ++ n0, pl, ph, by rw [e, ← e0, List.append_assoc], List.mem_append_left _ m⟩
  · exact Or.inr h

/-- A write that is carried out acts. -/
theorem hostWrite_acts {f off : Nat} {s : State} (h : s.carriesOut f off = true) (g : State → State) :
    hostWrite f off g s = g s := by
  simp only [State.carriesOut, Bool.and_eq_true, Bool.not_eq_true'] at h
  obtain ⟨⟨⟨⟨⟨h1, h2⟩, h3⟩, h4⟩, h5⟩, _⟩ := h
  have h2' : (barReg f off).isNone = false := by rw [← Option.not_isSome, h2]; rfl
  simp only [hostWrite, h1, h2', h3, h4]
  cases e : ((barReg f off).bind Reg.powerDomain).filter s.domainOff with
  | none => simp
  | some d => rw [e] at h5; simp at h5

/-- A request that is carried out is not held (R40). -/
theorem bar0_acts {f off : Nat} {s : State} (h : s.carriesOut f off = true) (c : Instr) (g : State → State) :
    bar0 c (fun s => hostWrite f off g s) s = done s (g s) := by
  have e : s.clk.sysHeld = false := by
    simp only [State.carriesOut, Bool.and_eq_true, Bool.not_eq_true'] at h
    exact h.2
  simp only [bar0, e, hostWrite_acts h, Bool.false_eq_true, if_false]

end Sys2Proof.Machine
end

