-- ==== Sys2Proof/Laws/Frames.lean ====
section
/-! SUPPORT. Laws/Frames.lean: what the operations that report leave alone, one lemma each: a field that no report
writes, and every part of the state that is no queue, log or ring. -/

namespace Sys2Proof.Machine

variable (s : State)

theorem getF_post (x : Fld) (f code payload : Nat) (h : reportOff (x.reg.key % 0x100000) = false) :
    (post f code payload s).getF x = s.getF x := ((Quiet.refl s).post f code payload).getF x h
theorem rd_post (q : Reg) (f code payload : Nat) (h : reportOff (q.key % 0x100000) = false) :
    (post f code payload s).rd q = s.rd q := ((Quiet.refl s).post f code payload).regs q h
@[simp] theorem post_pending (f code payload : Nat) : (post f code payload s).pending = s.pending := ((Quiet.refl s).post f code payload).pending
@[simp] theorem post_live (f code payload : Nat) : (post f code payload s).live = s.live := ((Quiet.refl s).post f code payload).live
@[simp] theorem post_now (f code payload : Nat) : (post f code payload s).now = s.now := ((Quiet.refl s).post f code payload).now
@[simp] theorem post_elapsed (f code payload : Nat) : (post f code payload s).elapsed = s.elapsed := ((Quiet.refl s).post f code payload).elapsed
@[simp] theorem post_cic (f code payload : Nat) : (post f code payload s).cic = s.cic := ((Quiet.refl s).post f code payload).cic
@[simp] theorem post_clk (f code payload : Nat) : (post f code payload s).clk = s.clk := ((Quiet.refl s).post f code payload).clk
@[simp] theorem post_banks (f code payload : Nat) : (post f code payload s).banks = s.banks := ((Quiet.refl s).post f code payload).banks
@[simp] theorem post_dets (f code payload : Nat) : (post f code payload s).dets = s.dets := ((Quiet.refl s).post f code payload).dets
@[simp] theorem post_seqs (f code payload : Nat) : (post f code payload s).seqs = s.seqs := ((Quiet.refl s).post f code payload).seqs
@[simp] theorem post_flags (f code payload : Nat) : (post f code payload s).flags = s.flags := ((Quiet.refl s).post f code payload).flags
@[simp] theorem post_chans (f code payload : Nat) : (post f code payload s).chans = s.chans := ((Quiet.refl s).post f code payload).chans
@[simp] theorem post_snaps (f code payload : Nat) : (post f code payload s).snaps = s.snaps := ((Quiet.refl s).post f code payload).snaps
@[simp] theorem post_slow (f code payload : Nat) : (post f code payload s).slow = s.slow := ((Quiet.refl s).post f code payload).slow
@[simp] theorem post_mgmt (f code payload : Nat) : (post f code payload s).mgmt = s.mgmt := ((Quiet.refl s).post f code payload).mgmt
@[simp] theorem post_cals (f code payload : Nat) : (post f code payload s).cals = s.cals := ((Quiet.refl s).post f code payload).cals
@[simp] theorem post_waiting (f code payload : Nat) : (post f code payload s).waiting = s.waiting := ((Quiet.refl s).post f code payload).waiting
theorem getF_postAll (x : Fld) (fs : List Nat) (code payload : Nat) (h : reportOff (x.reg.key % 0x100000) = false) :
    (postAll fs code payload s).getF x = s.getF x := ((Quiet.refl s).postAll fs code payload).getF x h
theorem rd_postAll (q : Reg) (fs : List Nat) (code payload : Nat) (h : reportOff (q.key % 0x100000) = false) :
    (postAll fs code payload s).rd q = s.rd q := ((Quiet.refl s).postAll fs code payload).regs q h
@[simp] theorem postAll_pending (fs : List Nat) (code payload : Nat) : (postAll fs code payload s).pending = s.pending := ((Quiet.refl s).postAll fs code payload).pending
@[simp] theorem postAll_live (fs : List Nat) (code payload : Nat) : (postAll fs code payload s).live = s.live := ((Quiet.refl s).postAll fs code payload).live
@[simp] theorem postAll_now (fs : List Nat) (code payload : Nat) : (postAll fs code payload s).now = s.now := ((Quiet.refl s).postAll fs code payload).now
@[simp] theorem postAll_elapsed (fs : List Nat) (code payload : Nat) : (postAll fs code payload s).elapsed = s.elapsed := ((Quiet.refl s).postAll fs code payload).elapsed
@[simp] theorem postAll_cic (fs : List Nat) (code payload : Nat) : (postAll fs code payload s).cic = s.cic := ((Quiet.refl s).postAll fs code payload).cic
@[simp] theorem postAll_clk (fs : List Nat) (code payload : Nat) : (postAll fs code payload s).clk = s.clk := ((Quiet.refl s).postAll fs code payload).clk
@[simp] theorem postAll_banks (fs : List Nat) (code payload : Nat) : (postAll fs code payload s).banks = s.banks := ((Quiet.refl s).postAll fs code payload).banks
@[simp] theorem postAll_dets (fs : List Nat) (code payload : Nat) : (postAll fs code payload s).dets = s.dets := ((Quiet.refl s).postAll fs code payload).dets
@[simp] theorem postAll_seqs (fs : List Nat) (code payload : Nat) : (postAll fs code payload s).seqs = s.seqs := ((Quiet.refl s).postAll fs code payload).seqs
@[simp] theorem postAll_flags (fs : List Nat) (code payload : Nat) : (postAll fs code payload s).flags = s.flags := ((Quiet.refl s).postAll fs code payload).flags
@[simp] theorem postAll_chans (fs : List Nat) (code payload : Nat) : (postAll fs code payload s).chans = s.chans := ((Quiet.refl s).postAll fs code payload).chans
@[simp] theorem postAll_snaps (fs : List Nat) (code payload : Nat) : (postAll fs code payload s).snaps = s.snaps := ((Quiet.refl s).postAll fs code payload).snaps
@[simp] theorem postAll_slow (fs : List Nat) (code payload : Nat) : (postAll fs code payload s).slow = s.slow := ((Quiet.refl s).postAll fs code payload).slow
@[simp] theorem postAll_mgmt (fs : List Nat) (code payload : Nat) : (postAll fs code payload s).mgmt = s.mgmt := ((Quiet.refl s).postAll fs code payload).mgmt
@[simp] theorem postAll_cals (fs : List Nat) (code payload : Nat) : (postAll fs code payload s).cals = s.cals := ((Quiet.refl s).postAll fs code payload).cals
@[simp] theorem postAll_waiting (fs : List Nat) (code payload : Nat) : (postAll fs code payload s).waiting = s.waiting := ((Quiet.refl s).postAll fs code payload).waiting
theorem getF_postPfs (x : Fld) (code payload : Nat) (h : reportOff (x.reg.key % 0x100000) = false) :
    (postPfs code payload s).getF x = s.getF x := ((Quiet.refl s).postPfs code payload).getF x h
theorem rd_postPfs (q : Reg) (code payload : Nat) (h : reportOff (q.key % 0x100000) = false) :
    (postPfs code payload s).rd q = s.rd q := ((Quiet.refl s).postPfs code payload).regs q h
@[simp] theorem postPfs_pending (code payload : Nat) : (postPfs code payload s).pending = s.pending := ((Quiet.refl s).postPfs code payload).pending
@[simp] theorem postPfs_live (code payload : Nat) : (postPfs code payload s).live = s.live := ((Quiet.refl s).postPfs code payload).live
@[simp] theorem postPfs_now (code payload : Nat) : (postPfs code payload s).now = s.now := ((Quiet.refl s).postPfs code payload).now
@[simp] theorem postPfs_elapsed (code payload : Nat) : (postPfs code payload s).elapsed = s.elapsed := ((Quiet.refl s).postPfs code payload).elapsed
@[simp] theorem postPfs_cic (code payload : Nat) : (postPfs code payload s).cic = s.cic := ((Quiet.refl s).postPfs code payload).cic
@[simp] theorem postPfs_clk (code payload : Nat) : (postPfs code payload s).clk = s.clk := ((Quiet.refl s).postPfs code payload).clk
@[simp] theorem postPfs_banks (code payload : Nat) : (postPfs code payload s).banks = s.banks := ((Quiet.refl s).postPfs code payload).banks
@[simp] theorem postPfs_dets (code payload : Nat) : (postPfs code payload s).dets = s.dets := ((Quiet.refl s).postPfs code payload).dets
@[simp] theorem postPfs_seqs (code payload : Nat) : (postPfs code payload s).seqs = s.seqs := ((Quiet.refl s).postPfs code payload).seqs
@[simp] theorem postPfs_flags (code payload : Nat) : (postPfs code payload s).flags = s.flags := ((Quiet.refl s).postPfs code payload).flags
@[simp] theorem postPfs_chans (code payload : Nat) : (postPfs code payload s).chans = s.chans := ((Quiet.refl s).postPfs code payload).chans
@[simp] theorem postPfs_snaps (code payload : Nat) : (postPfs code payload s).snaps = s.snaps := ((Quiet.refl s).postPfs code payload).snaps
@[simp] theorem postPfs_slow (code payload : Nat) : (postPfs code payload s).slow = s.slow := ((Quiet.refl s).postPfs code payload).slow
@[simp] theorem postPfs_mgmt (code payload : Nat) : (postPfs code payload s).mgmt = s.mgmt := ((Quiet.refl s).postPfs code payload).mgmt
@[simp] theorem postPfs_cals (code payload : Nat) : (postPfs code payload s).cals = s.cals := ((Quiet.refl s).postPfs code payload).cals
@[simp] theorem postPfs_waiting (code payload : Nat) : (postPfs code payload s).waiting = s.waiting := ((Quiet.refl s).postPfs code payload).waiting
theorem getF_postOpen (x : Fld) (code : Nat) (h : reportOff (x.reg.key % 0x100000) = false) :
    (postOpen code s).getF x = s.getF x := ((Quiet.refl s).postOpen code).getF x h
theorem rd_postOpen (q : Reg) (code : Nat) (h : reportOff (q.key % 0x100000) = false) :
    (postOpen code s).rd q = s.rd q := ((Quiet.refl s).postOpen code).regs q h
@[simp] theorem postOpen_pending (code : Nat) : (postOpen code s).pending = s.pending := ((Quiet.refl s).postOpen code).pending
@[simp] theorem postOpen_live (code : Nat) : (postOpen code s).live = s.live := ((Quiet.refl s).postOpen code).live
@[simp] theorem postOpen_now (code : Nat) : (postOpen code s).now = s.now := ((Quiet.refl s).postOpen code).now
@[simp] theorem postOpen_elapsed (code : Nat) : (postOpen code s).elapsed = s.elapsed := ((Quiet.refl s).postOpen code).elapsed
@[simp] theorem postOpen_cic (code : Nat) : (postOpen code s).cic = s.cic := ((Quiet.refl s).postOpen code).cic
@[simp] theorem postOpen_clk (code : Nat) : (postOpen code s).clk = s.clk := ((Quiet.refl s).postOpen code).clk
@[simp] theorem postOpen_banks (code : Nat) : (postOpen code s).banks = s.banks := ((Quiet.refl s).postOpen code).banks
@[simp] theorem postOpen_dets (code : Nat) : (postOpen code s).dets = s.dets := ((Quiet.refl s).postOpen code).dets
@[simp] theorem postOpen_seqs (code : Nat) : (postOpen code s).seqs = s.seqs := ((Quiet.refl s).postOpen code).seqs
@[simp] theorem postOpen_flags (code : Nat) : (postOpen code s).flags = s.flags := ((Quiet.refl s).postOpen code).flags
@[simp] theorem postOpen_chans (code : Nat) : (postOpen code s).chans = s.chans := ((Quiet.refl s).postOpen code).chans
@[simp] theorem postOpen_snaps (code : Nat) : (postOpen code s).snaps = s.snaps := ((Quiet.refl s).postOpen code).snaps
@[simp] theorem postOpen_slow (code : Nat) : (postOpen code s).slow = s.slow := ((Quiet.refl s).postOpen code).slow
@[simp] theorem postOpen_mgmt (code : Nat) : (postOpen code s).mgmt = s.mgmt := ((Quiet.refl s).postOpen code).mgmt
@[simp] theorem postOpen_cals (code : Nat) : (postOpen code s).cals = s.cals := ((Quiet.refl s).postOpen code).cals
@[simp] theorem postOpen_waiting (code : Nat) : (postOpen code s).waiting = s.waiting := ((Quiet.refl s).postOpen code).waiting
theorem getF_postPart (x : Fld) (p code payload : Nat) (h : reportOff (x.reg.key % 0x100000) = false) :
    (postPart p code payload s).getF x = s.getF x := ((Quiet.refl s).postPart p code payload).getF x h
theorem rd_postPart (q : Reg) (p code payload : Nat) (h : reportOff (q.key % 0x100000) = false) :
    (postPart p code payload s).rd q = s.rd q := ((Quiet.refl s).postPart p code payload).regs q h
@[simp] theorem postPart_pending (p code payload : Nat) : (postPart p code payload s).pending = s.pending := ((Quiet.refl s).postPart p code payload).pending
@[simp] theorem postPart_live (p code payload : Nat) : (postPart p code payload s).live = s.live := ((Quiet.refl s).postPart p code payload).live
@[simp] theorem postPart_now (p code payload : Nat) : (postPart p code payload s).now = s.now := ((Quiet.refl s).postPart p code payload).now
@[simp] theorem postPart_elapsed (p code payload : Nat) : (postPart p code payload s).elapsed = s.elapsed := ((Quiet.refl s).postPart p code payload).elapsed
@[simp] theorem postPart_cic (p code payload : Nat) : (postPart p code payload s).cic = s.cic := ((Quiet.refl s).postPart p code payload).cic
@[simp] theorem postPart_clk (p code payload : Nat) : (postPart p code payload s).clk = s.clk := ((Quiet.refl s).postPart p code payload).clk
@[simp] theorem postPart_banks (p code payload : Nat) : (postPart p code payload s).banks = s.banks := ((Quiet.refl s).postPart p code payload).banks
@[simp] theorem postPart_dets (p code payload : Nat) : (postPart p code payload s).dets = s.dets := ((Quiet.refl s).postPart p code payload).dets
@[simp] theorem postPart_seqs (p code payload : Nat) : (postPart p code payload s).seqs = s.seqs := ((Quiet.refl s).postPart p code payload).seqs
@[simp] theorem postPart_flags (p code payload : Nat) : (postPart p code payload s).flags = s.flags := ((Quiet.refl s).postPart p code payload).flags
@[simp] theorem postPart_chans (p code payload : Nat) : (postPart p code payload s).chans = s.chans := ((Quiet.refl s).postPart p code payload).chans
@[simp] theorem postPart_snaps (p code payload : Nat) : (postPart p code payload s).snaps = s.snaps := ((Quiet.refl s).postPart p code payload).snaps
@[simp] theorem postPart_slow (p code payload : Nat) : (postPart p code payload s).slow = s.slow := ((Quiet.refl s).postPart p code payload).slow
@[simp] theorem postPart_mgmt (p code payload : Nat) : (postPart p code payload s).mgmt = s.mgmt := ((Quiet.refl s).postPart p code payload).mgmt
@[simp] theorem postPart_cals (p code payload : Nat) : (postPart p code payload s).cals = s.cals := ((Quiet.refl s).postPart p code payload).cals
@[simp] theorem postPart_waiting (p code payload : Nat) : (postPart p code payload s).waiting = s.waiting := ((Quiet.refl s).postPart p code payload).waiting
theorem getF_postBank (x : Fld) (b code payload : Nat) (h : reportOff (x.reg.key % 0x100000) = false) :
    (postBank b code payload s).getF x = s.getF x := ((Quiet.refl s).postBank b code payload).getF x h
theorem rd_postBank (q : Reg) (b code payload : Nat) (h : reportOff (q.key % 0x100000) = false) :
    (postBank b code payload s).rd q = s.rd q := ((Quiet.refl s).postBank b code payload).regs q h
@[simp] theorem postBank_pending (b code payload : Nat) : (postBank b code payload s).pending = s.pending := ((Quiet.refl s).postBank b code payload).pending
@[simp] theorem postBank_live (b code payload : Nat) : (postBank b code payload s).live = s.live := ((Quiet.refl s).postBank b code payload).live
@[simp] theorem postBank_now (b code payload : Nat) : (postBank b code payload s).now = s.now := ((Quiet.refl s).postBank b code payload).now
@[simp] theorem postBank_elapsed (b code payload : Nat) : (postBank b code payload s).elapsed = s.elapsed := ((Quiet.refl s).postBank b code payload).elapsed
@[simp] theorem postBank_cic (b code payload : Nat) : (postBank b code payload s).cic = s.cic := ((Quiet.refl s).postBank b code payload).cic
@[simp] theorem postBank_clk (b code payload : Nat) : (postBank b code payload s).clk = s.clk := ((Quiet.refl s).postBank b code payload).clk
@[simp] theorem postBank_banks (b code payload : Nat) : (postBank b code payload s).banks = s.banks := ((Quiet.refl s).postBank b code payload).banks
@[simp] theorem postBank_dets (b code payload : Nat) : (postBank b code payload s).dets = s.dets := ((Quiet.refl s).postBank b code payload).dets
@[simp] theorem postBank_seqs (b code payload : Nat) : (postBank b code payload s).seqs = s.seqs := ((Quiet.refl s).postBank b code payload).seqs
@[simp] theorem postBank_flags (b code payload : Nat) : (postBank b code payload s).flags = s.flags := ((Quiet.refl s).postBank b code payload).flags
@[simp] theorem postBank_chans (b code payload : Nat) : (postBank b code payload s).chans = s.chans := ((Quiet.refl s).postBank b code payload).chans
@[simp] theorem postBank_snaps (b code payload : Nat) : (postBank b code payload s).snaps = s.snaps := ((Quiet.refl s).postBank b code payload).snaps
@[simp] theorem postBank_slow (b code payload : Nat) : (postBank b code payload s).slow = s.slow := ((Quiet.refl s).postBank b code payload).slow
@[simp] theorem postBank_mgmt (b code payload : Nat) : (postBank b code payload s).mgmt = s.mgmt := ((Quiet.refl s).postBank b code payload).mgmt
@[simp] theorem postBank_cals (b code payload : Nat) : (postBank b code payload s).cals = s.cals := ((Quiet.refl s).postBank b code payload).cals
@[simp] theorem postBank_waiting (b code payload : Nat) : (postBank b code payload s).waiting = s.waiting := ((Quiet.refl s).postBank b code payload).waiting
theorem getF_msix (x : Fld) (f vec : Nat) (h : reportOff (x.reg.key % 0x100000) = false) :
    (msix f vec s).getF x = s.getF x := ((Quiet.refl s).msix f vec).getF x h
theorem rd_msix (q : Reg) (f vec : Nat) (h : reportOff (q.key % 0x100000) = false) :
    (msix f vec s).rd q = s.rd q := ((Quiet.refl s).msix f vec).regs q h
@[simp] theorem msix_pending (f vec : Nat) : (msix f vec s).pending = s.pending := ((Quiet.refl s).msix f vec).pending
@[simp] theorem msix_live (f vec : Nat) : (msix f vec s).live = s.live := ((Quiet.refl s).msix f vec).live
@[simp] theorem msix_now (f vec : Nat) : (msix f vec s).now = s.now := ((Quiet.refl s).msix f vec).now
@[simp] theorem msix_elapsed (f vec : Nat) : (msix f vec s).elapsed = s.elapsed := ((Quiet.refl s).msix f vec).elapsed
@[simp] theorem msix_cic (f vec : Nat) : (msix f vec s).cic = s.cic := ((Quiet.refl s).msix f vec).cic
@[simp] theorem msix_clk (f vec : Nat) : (msix f vec s).clk = s.clk := ((Quiet.refl s).msix f vec).clk
@[simp] theorem msix_banks (f vec : Nat) : (msix f vec s).banks = s.banks := ((Quiet.refl s).msix f vec).banks
@[simp] theorem msix_dets (f vec : Nat) : (msix f vec s).dets = s.dets := ((Quiet.refl s).msix f vec).dets
@[simp] theorem msix_seqs (f vec : Nat) : (msix f vec s).seqs = s.seqs := ((Quiet.refl s).msix f vec).seqs
@[simp] theorem msix_flags (f vec : Nat) : (msix f vec s).flags = s.flags := ((Quiet.refl s).msix f vec).flags
@[simp] theorem msix_chans (f vec : Nat) : (msix f vec s).chans = s.chans := ((Quiet.refl s).msix f vec).chans
@[simp] theorem msix_snaps (f vec : Nat) : (msix f vec s).snaps = s.snaps := ((Quiet.refl s).msix f vec).snaps
@[simp] theorem msix_slow (f vec : Nat) : (msix f vec s).slow = s.slow := ((Quiet.refl s).msix f vec).slow
@[simp] theorem msix_mgmt (f vec : Nat) : (msix f vec s).mgmt = s.mgmt := ((Quiet.refl s).msix f vec).mgmt
@[simp] theorem msix_cals (f vec : Nat) : (msix f vec s).cals = s.cals := ((Quiet.refl s).msix f vec).cals
@[simp] theorem msix_waiting (f vec : Nat) : (msix f vec s).waiting = s.waiting := ((Quiet.refl s).msix f vec).waiting
theorem getF_bump (x : Fld) (code n : Nat) (h : reportOff (x.reg.key % 0x100000) = false) :
    (bump code n s).getF x = s.getF x := ((Quiet.refl s).bump code n).getF x h
theorem rd_bump (q : Reg) (code n : Nat) (h : reportOff (q.key % 0x100000) = false) :
    (bump code n s).rd q = s.rd q := ((Quiet.refl s).bump code n).regs q h
@[simp] theorem bump_pending (code n : Nat) : (bump code n s).pending = s.pending := ((Quiet.refl s).bump code n).pending
@[simp] theorem bump_live (code n : Nat) : (bump code n s).live = s.live := ((Quiet.refl s).bump code n).live
@[simp] theorem bump_now (code n : Nat) : (bump code n s).now = s.now := ((Quiet.refl s).bump code n).now
@[simp] theorem bump_elapsed (code n : Nat) : (bump code n s).elapsed = s.elapsed := ((Quiet.refl s).bump code n).elapsed
@[simp] theorem bump_cic (code n : Nat) : (bump code n s).cic = s.cic := ((Quiet.refl s).bump code n).cic
@[simp] theorem bump_clk (code n : Nat) : (bump code n s).clk = s.clk := ((Quiet.refl s).bump code n).clk
@[simp] theorem bump_banks (code n : Nat) : (bump code n s).banks = s.banks := ((Quiet.refl s).bump code n).banks
@[simp] theorem bump_dets (code n : Nat) : (bump code n s).dets = s.dets := ((Quiet.refl s).bump code n).dets
@[simp] theorem bump_seqs (code n : Nat) : (bump code n s).seqs = s.seqs := ((Quiet.refl s).bump code n).seqs
@[simp] theorem bump_flags (code n : Nat) : (bump code n s).flags = s.flags := ((Quiet.refl s).bump code n).flags
@[simp] theorem bump_chans (code n : Nat) : (bump code n s).chans = s.chans := ((Quiet.refl s).bump code n).chans
@[simp] theorem bump_snaps (code n : Nat) : (bump code n s).snaps = s.snaps := ((Quiet.refl s).bump code n).snaps
@[simp] theorem bump_slow (code n : Nat) : (bump code n s).slow = s.slow := ((Quiet.refl s).bump code n).slow
@[simp] theorem bump_mgmt (code n : Nat) : (bump code n s).mgmt = s.mgmt := ((Quiet.refl s).bump code n).mgmt
@[simp] theorem bump_cals (code n : Nat) : (bump code n s).cals = s.cals := ((Quiet.refl s).bump code n).cals
@[simp] theorem bump_waiting (code n : Nat) : (bump code n s).waiting = s.waiting := ((Quiet.refl s).bump code n).waiting
theorem getF_logErr (x : Fld) (f code tag source detail : Nat) (h : reportOff (x.reg.key % 0x100000) = false) :
    (logErr f code tag source detail s).getF x = s.getF x := ((Quiet.refl s).logErr f code tag source detail).getF x h
theorem rd_logErr (q : Reg) (f code tag source detail : Nat) (h : reportOff (q.key % 0x100000) = false) :
    (logErr f code tag source detail s).rd q = s.rd q := ((Quiet.refl s).logErr f code tag source detail).regs q h
@[simp] theorem logErr_pending (f code tag source detail : Nat) : (logErr f code tag source detail s).pending = s.pending := ((Quiet.refl s).logErr f code tag source detail).pending
@[simp] theorem logErr_live (f code tag source detail : Nat) : (logErr f code tag source detail s).live = s.live := ((Quiet.refl s).logErr f code tag source detail).live
@[simp] theorem logErr_now (f code tag source detail : Nat) : (logErr f code tag source detail s).now = s.now := ((Quiet.refl s).logErr f code tag source detail).now
@[simp] theorem logErr_elapsed (f code tag source detail : Nat) : (logErr f code tag source detail s).elapsed = s.elapsed := ((Quiet.refl s).logErr f code tag source detail).elapsed
@[simp] theorem logErr_cic (f code tag source detail : Nat) : (logErr f code tag source detail s).cic = s.cic := ((Quiet.refl s).logErr f code tag source detail).cic
@[simp] theorem logErr_clk (f code tag source detail : Nat) : (logErr f code tag source detail s).clk = s.clk := ((Quiet.refl s).logErr f code tag source detail).clk
@[simp] theorem logErr_banks (f code tag source detail : Nat) : (logErr f code tag source detail s).banks = s.banks := ((Quiet.refl s).logErr f code tag source detail).banks
@[simp] theorem logErr_dets (f code tag source detail : Nat) : (logErr f code tag source detail s).dets = s.dets := ((Quiet.refl s).logErr f code tag source detail).dets
@[simp] theorem logErr_seqs (f code tag source detail : Nat) : (logErr f code tag source detail s).seqs = s.seqs := ((Quiet.refl s).logErr f code tag source detail).seqs
@[simp] theorem logErr_flags (f code tag source detail : Nat) : (logErr f code tag source detail s).flags = s.flags := ((Quiet.refl s).logErr f code tag source detail).flags
@[simp] theorem logErr_chans (f code tag source detail : Nat) : (logErr f code tag source detail s).chans = s.chans := ((Quiet.refl s).logErr f code tag source detail).chans
@[simp] theorem logErr_snaps (f code tag source detail : Nat) : (logErr f code tag source detail s).snaps = s.snaps := ((Quiet.refl s).logErr f code tag source detail).snaps
@[simp] theorem logErr_slow (f code tag source detail : Nat) : (logErr f code tag source detail s).slow = s.slow := ((Quiet.refl s).logErr f code tag source detail).slow
@[simp] theorem logErr_mgmt (f code tag source detail : Nat) : (logErr f code tag source detail s).mgmt = s.mgmt := ((Quiet.refl s).logErr f code tag source detail).mgmt
@[simp] theorem logErr_cals (f code tag source detail : Nat) : (logErr f code tag source detail s).cals = s.cals := ((Quiet.refl s).logErr f code tag source detail).cals
@[simp] theorem logErr_waiting (f code tag source detail : Nat) : (logErr f code tag source detail s).waiting = s.waiting := ((Quiet.refl s).logErr f code tag source detail).waiting
theorem getF_tryFetch (x : Fld) (f n : Nat) (h : reportOff (x.reg.key % 0x100000) = false) :
    (tryFetch f n s).getF x = s.getF x := ((Quiet.refl s).tryFetch f n).getF x h
theorem rd_tryFetch (q : Reg) (f n : Nat) (h : reportOff (q.key % 0x100000) = false) :
    (tryFetch f n s).rd q = s.rd q := ((Quiet.refl s).tryFetch f n).regs q h
@[simp] theorem tryFetch_pending (f n : Nat) : (tryFetch f n s).pending = s.pending := ((Quiet.refl s).tryFetch f n).pending
@[simp] theorem tryFetch_live (f n : Nat) : (tryFetch f n s).live = s.live := ((Quiet.refl s).tryFetch f n).live
@[simp] theorem tryFetch_now (f n : Nat) : (tryFetch f n s).now = s.now := ((Quiet.refl s).tryFetch f n).now
@[simp] theorem tryFetch_elapsed (f n : Nat) : (tryFetch f n s).elapsed = s.elapsed := ((Quiet.refl s).tryFetch f n).elapsed
@[simp] theorem tryFetch_cic (f n : Nat) : (tryFetch f n s).cic = s.cic := ((Quiet.refl s).tryFetch f n).cic
@[simp] theorem tryFetch_clk (f n : Nat) : (tryFetch f n s).clk = s.clk := ((Quiet.refl s).tryFetch f n).clk
@[simp] theorem tryFetch_banks (f n : Nat) : (tryFetch f n s).banks = s.banks := ((Quiet.refl s).tryFetch f n).banks
@[simp] theorem tryFetch_dets (f n : Nat) : (tryFetch f n s).dets = s.dets := ((Quiet.refl s).tryFetch f n).dets
@[simp] theorem tryFetch_seqs (f n : Nat) : (tryFetch f n s).seqs = s.seqs := ((Quiet.refl s).tryFetch f n).seqs
@[simp] theorem tryFetch_flags (f n : Nat) : (tryFetch f n s).flags = s.flags := ((Quiet.refl s).tryFetch f n).flags
@[simp] theorem tryFetch_chans (f n : Nat) : (tryFetch f n s).chans = s.chans := ((Quiet.refl s).tryFetch f n).chans
@[simp] theorem tryFetch_snaps (f n : Nat) : (tryFetch f n s).snaps = s.snaps := ((Quiet.refl s).tryFetch f n).snaps
@[simp] theorem tryFetch_slow (f n : Nat) : (tryFetch f n s).slow = s.slow := ((Quiet.refl s).tryFetch f n).slow
@[simp] theorem tryFetch_mgmt (f n : Nat) : (tryFetch f n s).mgmt = s.mgmt := ((Quiet.refl s).tryFetch f n).mgmt
@[simp] theorem tryFetch_cals (f n : Nat) : (tryFetch f n s).cals = s.cals := ((Quiet.refl s).tryFetch f n).cals
@[simp] theorem tryFetch_waiting (f n : Nat) : (tryFetch f n s).waiting = s.waiting := ((Quiet.refl s).tryFetch f n).waiting
theorem getF_finish (x : Fld) (c : Cmd) (op st r rh : Nat) (h : reportOff (x.reg.key % 0x100000) = false) :
    (finish c op st r rh s).getF x = s.getF x := ((Quiet.refl s).finish c op st r rh).getF x h
theorem rd_finish (q : Reg) (c : Cmd) (op st r rh : Nat) (h : reportOff (q.key % 0x100000) = false) :
    (finish c op st r rh s).rd q = s.rd q := ((Quiet.refl s).finish c op st r rh).regs q h
@[simp] theorem finish_pending (c : Cmd) (op st r rh : Nat) : (finish c op st r rh s).pending = s.pending := ((Quiet.refl s).finish c op st r rh).pending
@[simp] theorem finish_live (c : Cmd) (op st r rh : Nat) : (finish c op st r rh s).live = s.live := ((Quiet.refl s).finish c op st r rh).live
@[simp] theorem finish_now (c : Cmd) (op st r rh : Nat) : (finish c op st r rh s).now = s.now := ((Quiet.refl s).finish c op st r rh).now
@[simp] theorem finish_elapsed (c : Cmd) (op st r rh : Nat) : (finish c op st r rh s).elapsed = s.elapsed := ((Quiet.refl s).finish c op st r rh).elapsed
@[simp] theorem finish_cic (c : Cmd) (op st r rh : Nat) : (finish c op st r rh s).cic = s.cic := ((Quiet.refl s).finish c op st r rh).cic
@[simp] theorem finish_clk (c : Cmd) (op st r rh : Nat) : (finish c op st r rh s).clk = s.clk := ((Quiet.refl s).finish c op st r rh).clk
@[simp] theorem finish_banks (c : Cmd) (op st r rh : Nat) : (finish c op st r rh s).banks = s.banks := ((Quiet.refl s).finish c op st r rh).banks
@[simp] theorem finish_dets (c : Cmd) (op st r rh : Nat) : (finish c op st r rh s).dets = s.dets := ((Quiet.refl s).finish c op st r rh).dets
@[simp] theorem finish_seqs (c : Cmd) (op st r rh : Nat) : (finish c op st r rh s).seqs = s.seqs := ((Quiet.refl s).finish c op st r rh).seqs
@[simp] theorem finish_flags (c : Cmd) (op st r rh : Nat) : (finish c op st r rh s).flags = s.flags := ((Quiet.refl s).finish c op st r rh).flags
@[simp] theorem finish_chans (c : Cmd) (op st r rh : Nat) : (finish c op st r rh s).chans = s.chans := ((Quiet.refl s).finish c op st r rh).chans
@[simp] theorem finish_snaps (c : Cmd) (op st r rh : Nat) : (finish c op st r rh s).snaps = s.snaps := ((Quiet.refl s).finish c op st r rh).snaps
@[simp] theorem finish_slow (c : Cmd) (op st r rh : Nat) : (finish c op st r rh s).slow = s.slow := ((Quiet.refl s).finish c op st r rh).slow
@[simp] theorem finish_mgmt (c : Cmd) (op st r rh : Nat) : (finish c op st r rh s).mgmt = s.mgmt := ((Quiet.refl s).finish c op st r rh).mgmt
@[simp] theorem finish_cals (c : Cmd) (op st r rh : Nat) : (finish c op st r rh s).cals = s.cals := ((Quiet.refl s).finish c op st r rh).cals
@[simp] theorem finish_waiting (c : Cmd) (op st r rh : Nat) : (finish c op st r rh s).waiting = s.waiting := ((Quiet.refl s).finish c op st r rh).waiting
theorem getF_finishPre (x : Fld) (c : Cmd) (op st r rh : Nat) (pre : List (Nat × List Byte)) (h : reportOff (x.reg.key % 0x100000) = false) :
    (finishPre c op st r rh pre s).getF x = s.getF x := ((Quiet.refl s).finishPre c op st r rh pre).getF x h
theorem rd_finishPre (q : Reg) (c : Cmd) (op st r rh : Nat) (pre : List (Nat × List Byte)) (h : reportOff (q.key % 0x100000) = false) :
    (finishPre c op st r rh pre s).rd q = s.rd q := ((Quiet.refl s).finishPre c op st r rh pre).regs q h
@[simp] theorem finishPre_pending (c : Cmd) (op st r rh : Nat) (pre : List (Nat × List Byte)) : (finishPre c op st r rh pre s).pending = s.pending := ((Quiet.refl s).finishPre c op st r rh pre).pending
@[simp] theorem finishPre_live (c : Cmd) (op st r rh : Nat) (pre : List (Nat × List Byte)) : (finishPre c op st r rh pre s).live = s.live := ((Quiet.refl s).finishPre c op st r rh pre).live
@[simp] theorem finishPre_now (c : Cmd) (op st r rh : Nat) (pre : List (Nat × List Byte)) : (finishPre c op st r rh pre s).now = s.now := ((Quiet.refl s).finishPre c op st r rh pre).now
@[simp] theorem finishPre_elapsed (c : Cmd) (op st r rh : Nat) (pre : List (Nat × List Byte)) : (finishPre c op st r rh pre s).elapsed = s.elapsed := ((Quiet.refl s).finishPre c op st r rh pre).elapsed
@[simp] theorem finishPre_cic (c : Cmd) (op st r rh : Nat) (pre : List (Nat × List Byte)) : (finishPre c op st r rh pre s).cic = s.cic := ((Quiet.refl s).finishPre c op st r rh pre).cic
@[simp] theorem finishPre_clk (c : Cmd) (op st r rh : Nat) (pre : List (Nat × List Byte)) : (finishPre c op st r rh pre s).clk = s.clk := ((Quiet.refl s).finishPre c op st r rh pre).clk
@[simp] theorem finishPre_banks (c : Cmd) (op st r rh : Nat) (pre : List (Nat × List Byte)) : (finishPre c op st r rh pre s).banks = s.banks := ((Quiet.refl s).finishPre c op st r rh pre).banks
@[simp] theorem finishPre_dets (c : Cmd) (op st r rh : Nat) (pre : List (Nat × List Byte)) : (finishPre c op st r rh pre s).dets = s.dets := ((Quiet.refl s).finishPre c op st r rh pre).dets
@[simp] theorem finishPre_seqs (c : Cmd) (op st r rh : Nat) (pre : List (Nat × List Byte)) : (finishPre c op st r rh pre s).seqs = s.seqs := ((Quiet.refl s).finishPre c op st r rh pre).seqs
@[simp] theorem finishPre_flags (c : Cmd) (op st r rh : Nat) (pre : List (Nat × List Byte)) : (finishPre c op st r rh pre s).flags = s.flags := ((Quiet.refl s).finishPre c op st r rh pre).flags
@[simp] theorem finishPre_chans (c : Cmd) (op st r rh : Nat) (pre : List (Nat × List Byte)) : (finishPre c op st r rh pre s).chans = s.chans := ((Quiet.refl s).finishPre c op st r rh pre).chans
@[simp] theorem finishPre_snaps (c : Cmd) (op st r rh : Nat) (pre : List (Nat × List Byte)) : (finishPre c op st r rh pre s).snaps = s.snaps := ((Quiet.refl s).finishPre c op st r rh pre).snaps
@[simp] theorem finishPre_slow (c : Cmd) (op st r rh : Nat) (pre : List (Nat × List Byte)) : (finishPre c op st r rh pre s).slow = s.slow := ((Quiet.refl s).finishPre c op st r rh pre).slow
@[simp] theorem finishPre_mgmt (c : Cmd) (op st r rh : Nat) (pre : List (Nat × List Byte)) : (finishPre c op st r rh pre s).mgmt = s.mgmt := ((Quiet.refl s).finishPre c op st r rh pre).mgmt
@[simp] theorem finishPre_cals (c : Cmd) (op st r rh : Nat) (pre : List (Nat × List Byte)) : (finishPre c op st r rh pre s).cals = s.cals := ((Quiet.refl s).finishPre c op st r rh pre).cals
@[simp] theorem finishPre_waiting (c : Cmd) (op st r rh : Nat) (pre : List (Nat × List Byte)) : (finishPre c op st r rh pre s).waiting = s.waiting := ((Quiet.refl s).finishPre c op st r rh pre).waiting

theorem getF_logFault (x : Fld) (code index detail : Nat) (hc : code < 0x13)
    (h : reportOff (x.reg.key % 0x100000) = false) : (logFault code index detail s).getF x = s.getF x :=
  ((Quiet.refl s).logFault code index detail hc).getF x h

end Sys2Proof.Machine
end

