-- ==== Sys2Proof/WellFormed.lean ====
section
/-! DEFINITION. WellFormed.lean: the operands a command may carry, as the rules give their ranges. -/

namespace Sys2Proof

/-- A command header's TAG and ring position fit their 16 bits (R315, R321, R322). -/
def Cmd.wf (c : Cmd) : Bool := decide (c.tag < 65536) && decide (c.index < 65536)

/-- An offset inside BAR0 (1 MiB) or BAR2 (4 KiB), R360. -/
def offsetWf (bar2 : Bool) (off : Nat) : Bool := decide (off < if bar2 then 0x1000 else 0x100000)

/-- SECONDS has 40 bits (R76): a label lies below 2^40 seconds. -/
def labelWf (t : Label) : Bool := decide (t < 2 ^ 40 * ticksPerSecond)

/-- Fields of an image copy that have a width (R435). -/
def ImageCopy.wf (i : ImageCopy) : Bool :=
  decide (i.epoch ≤ 256) && decide (i.boardId < 2 ^ 32) && decide (i.deviceId < 16384) && decide (i.keySlot < 256)
    && decide (i.format < 65536) && decide (i.sectionCount < 65536) && decide (i.imageLength < 2 ^ 32)
    && decide (i.sections.length ≤ 8)
    && i.sections.all fun e => decide (e.type < 65536) && decide (e.offset < 2 ^ 32) && decide (e.length < 2 ^ 32)

/-- Fields of the certificate area's header (R438). -/
def CertArea.wf (a : CertArea) : Bool := decide (a.length < 2 ^ 32) && decide (a.count < 65536)

/-- The reads of a delivery name words below 2^64 (R250). -/
def ReadErrors.wf (e : ReadErrors) : Bool :=
  e.ue.all (fun x => decide (x.2 < 2 ^ 64)) && e.parity.all fun x => decide (x.2 < 2 ^ 64)

/-- A place that the scrubber names lies below 2^64. -/
def MemPlace.wf : MemPlace → Bool
  | .stream _ pos => decide (pos < 2 ^ 64)
  | .segment _ key word => decide (key < 2 ^ 64) && decide (word < 2 ^ 64)
  | .reserved => true

/-- Whether a command's operands lie in the ranges their rules give. -/
def Instr.wf : Instr → Bool
  | .registerWrite _ bar2 off _ _ => offsetWf bar2 off
  | .evqPop _ _ => true
  | .secondBoundary => true
  | .frameStart t => labelWf t
  | .blockBoundary _ t parity => labelWf t && parity.all fun x => decide (x.2 < 2 ^ 64)
  | .sysPllLockLoss => true
  | .sysPllRelockDone => true
  | .refclkQualified _ => true
  | .refclkLost => true
  | .refFreqAutoMeasure _ _ => true
  | .lockFiltPinTest _ => true
  | .spllLockDeclared _ mv err cycles => decide (mv < 65536) && decide (err < 2 ^ 32) && decide (cycles < 2 ^ 32)
  | .spllLockLoss _ err mv => decide (err < 2 ^ 32) && decide (mv < 65536)
  | .relockComplete xo => decide (xo < 2 ^ 64)
  | .relockFailed => true
  | .relockRetryTimeout => true
  | .relock _ => true
  | .trimWrite _ _ => true
  | .refSelWrite _ _ _ => true
  | .syncInEdge t => labelWf t
  | .syncRestart _ _ => true
  | .soFire _ => true
  | .syncOutPulse t => labelWf t
  | .ppsEdge t _ => labelWf t
  | .ppsIntervalEnd => true
  | .setReq _ => true
  | .ppsEnWrite _ _ => true
  | .ktcFrame t frame _ => labelWf t && decide (frame.length ≤ 64)
  | .channelCrossing _ _ _ _ t => labelWf t
  | .stclkEdge _ _ t => labelWf t
  | .triginEdge _ _ t => labelWf t
  | .calStart _ _ _ => true
  | .calStepDone _ _ means => decide (means.length ≤ 64)
  | .calExtTimeout _ => true
  | .autoThresholdDone _ swings => swings.all fun e => decide (e.1 < 512)
  | .bankFault _ _ _ => true
  | .softReset _ _ => true
  | .softResetDone _ => true
  | .bankResume _ t => labelWf t
  | .detectorEvent _ => true
  | .timeoutExpiry _ => true
  | .skewExpiry _ => true
  | .patternLongerExpiry _ => true
  | .sequencerSample _ s => labelWf s
  | .tmrExpiry _ _ => true
  | .xfStateWrite _ _ => true
  | .firstSampleFixed _ => true
  | .fillComplete _ => true
  | .rearmIntervalEnd _ => true
  | .continuousSegmentEnd _ t => labelWf t
  | .earlyShipWrite _ _ _ e => e.wf
  | .earlyThrottleChange _ => true
  | .segmentDeliveryWrite _ _ _ e => e.wf
  | .segmentDeliveryDone _ _ => true
  | .modTimeExpiry _ _ => true
  | .orphanTimeout _ => true
  | .rebalanceTick => true
  | .scrubPass _ ue => ue.all fun e => e.2.wf
  | .pcRetireDetect _ _ => true
  | .memRetireCmd _ _ => true
  | .remapDone => true
  | .captureResume _ t => labelWf t
  | .mirrorRebuildDone => true
  | .descriptorFetchDone _ _ tag bytes => decide (tag < 16384) && decide (bytes.length ≤ 65536)
  | .partitionCreate c p _ ring _ cont pre post =>
    c.wf && decide (p < 256) && decide (ring < 256) && decide (cont < 65536) && decide (pre < 2 ^ 48) && decide (post < 2 ^ 48)
  | .partitionDestroy c p => c.wf && decide (p < 256)
  | .bankConfig c bank _ _ image => c.wf && decide (bank < 256) && decide (image.length = 2048)
  | .detectorLoad c p _ entries _ => c.wf && decide (p < 256) && decide (entries.length ≤ 136)
  | .sequencerLoad c p _ _ image => c.wf && decide (p < 256) && decide (image.length ≤ 2048)
  | .arm c p => c.wf && decide (p < 256)
  | .disarm c p => c.wf && decide (p < 256)
  | .forceTrigger c p => c.wf && decide (p < 256)
  | .subscribe c p ring mode token =>
    c.wf && decide (p < 256) && decide (ring < 256) && decide (mode < 256) && decide (token < 65536)
  | .partitionClaim c p ring token => c.wf && decide (p < 256) && decide (ring < 256) && decide (token < 65536)
  | .unsubscribe c p ring => c.wf && decide (p < 256) && decide (ring < 256)
  | .grantIssue c p _ _ => c.wf && decide (p < 256)
  | .grantRevoke c p token => c.wf && decide (p < 256) && decide (token < 65536)
  | .grantRevokeAll c p => c.wf && decide (p < 256)
  | .readBackSegment c p ring segId epoch =>
    c.wf && decide (p < 256) && decide (ring < 256) && decide (segId < 2 ^ 32) && decide (epoch < 65536)
  | .readBackRange c p ring start len =>
    c.wf && decide (p < 256) && decide (ring < 256) && decide (start < 2 ^ 64) && decide (len < 2 ^ 32)
  | .timeSet c seconds => c.wf && decide (seconds < 2 ^ 40)
  | .calibrate c _ _ _ ext => c.wf && decide (ext < 256)
  | .policySet c p _ block => c.wf && decide (p < 256) && decide (block.length = 32)
  | .queryFunction c addr => c.wf && decide (addr < 2 ^ 64)
  | .queryPartition c addr p => c.wf && decide (addr < 2 ^ 64) && decide (p < 256)
  | .queryCounter c addr item => c.wf && decide (addr < 2 ^ 64) && decide (item < 65536)
  | .powerPinRelease c d => c.wf && decide (d < 256)
  | .powerPinOn c d => c.wf && decide (d < 256)
  | .powerForbidOff c d => c.wf && decide (d < 256)
  | .dbSqTail _ _ _ => true
  | .dbCqHead _ _ _ => true
  | .ringEnable _ _ _ => true
  | .ringDisable _ _ _ => true
  | .epErrPop _ _ => true
  | .completionTimeout _ tag => decide (tag < 16384)
  | .unexpectedCompletion _ tag => decide (tag < 16384)
  | .tagQuarantineEnd _ tag => decide (tag < 16384)
  | .completionError _ tag _ => decide (tag < 16384)
  | .poisonedRequest _ bar2 off => offsetWf bar2 off
  | .malformedRequest _ _ => true
  | .atsFault _ tag => decide (tag < 16384)
  | .atsInvalidation _ => true
  | .epContained _ => true
  | .containRelease _ _ => true
  | .containReleaseDone _ => true
  | .bmeClear _ => true
  | .bmeSet _ => true
  | .devctl2CtoWrite _ _ => true
  | .flr _ => true
  | .vfEnableClear _ => true
  | .d3hotEntry _ => true
  | .d0Return _ => true
  | .d3coldEntry => true
  | .wakeTriginEdge _ _ => true
  | .portLinkDown _ => true
  | .portLinkUp _ _ width _ => decide (1 ≤ width) && decide (width ≤ 16)
  | .linkRecovery _ => true
  | .snapRead _ _ => true
  | .snapReadClear _ _ => true
  | .snapLoad _ _ => true
  | .snapshotCaptureDone _ => true
  | .voteScrub off _ => offsetWf false off
  | .slowWindowWrite _ off _ => offsetWf false off
  | .slowDataWrite _ _ => true
  | .slowDataRead _ => true
  | .slowWriteLanded => true
  | .mbxDoorbell _ _ _ => true
  | .mbxTake _ block => decide (block.length ≤ 4096)
  | .mbxDone _ => true
  | .mbxHostEnable _ _ => true
  | .noticeWrite _ => true
  | .mbxHostAck _ _ => true
  | .fwUpdate _ _ img => img.wf
  | .epochAdvance _ _ => true
  | .keyRevoke _ _ _ => true
  | .secInfo _ _ => true
  | .getInfo _ _ => true
  | .telemetryRead _ _ => true
  | .getVersion _ => true
  | .getCapabilities _ => true
  | .negotiateAlgorithms _ _ _ => true
  | .getDigests _ => true
  | .getCertificate _ _ offset length => decide (offset < 65536) && decide (length < 65536)
  | .challenge _ _ nonce => decide (nonce.length = 32)
  | .getMeasurements _ _ _ nonce => decide (nonce.length = 32)
  | .spdmUnsupportedRequest _ _ => true
  | .recoveryImageObject offset _ => decide (offset < 2 ^ 32)
  | .recoveryImageEnd img => img.wf
  | .perstAssert => true
  | .perstRelease a b => a.wf && b.wf
  | .hotReset => true
  | .bootImageVerified _ => true
  | .certAreaReadDone a => a.wf
  | .reducedServiceDeclared _ => true
  | .hbmTrainingDone _ _ attempts => decide (attempts ≤ 3)
  | .eclosion t => labelWf t
  | .scarabWatchdogExpiry _ => true
  | .scarabRestarted => true
  | .fireflyRestart _ => true
  | .telemetrySample temps volts => decide (temps.length = 13) && decide (volts.length = 8)
  | .thermGate => true
  | .thermWarn => true
  | .thermStop => true
  | .thermTrip => true
  | .domainIdleTimeout d => decide (d ≠ 0)
  | .domainWake d => decide (d ≠ 0)
  | .domainPowerOff d => decide (d ≠ 0)
  | .domainPowerOn d => decide (d ≠ 0)
  | .pwrBankEnWrite _ _ => true
  | .vauxPowerOn => true
  | .mainRailsValid _ _ => true
  | .railFault _ => true
  | .cfgPatrol upsets => upsets.all fun e => decide (e.1 < 2 ^ 20)
  | .fltPop _ _ => true
  | .fltPinCauseClear _ _ => true
  | .faultTest _ _ => true
  | .clearCounts _ => true
  | .smbusReadByte _ => true
  | .memorySpaceEnableWrite _ _ => true
  | .msixVectorUnmask _ _ => true
  | .vauxLoss => true
  | .railFaultRestart => true
  | .refReturnComplete _ => true
  | .aspmL1Entry _ => true
  | .hbmPhyRetrain _ _ => true

end Sys2Proof
end

