-- ==== Sys2Proof/Tests/Slice0.lean ====
section
/-! SUPPORT. Tests/Slice0.lean: an ill-formed command for each check of WellFormed; a state and operands that meet the
premises of each statement; a few steps whose expected results are worked out from the rules. -/

namespace Sys2Proof.Machine.Tests

/-- What a check of the numbers below 8 shows. -/
theorem below8 {P : Nat → Prop} [DecidablePred P] (h : ((List.range 8).all fun n => decide (P n)) = true) :
    ∀ n, n < 8 → P n := by
  intro n hn
  have := List.all_eq_true.mp h n (List.mem_range.mpr hn)
  exact of_decide_eq_true this

/-! ### States -/

/-- Fields take values. -/
def sets (l : List (Fld × Nat)) (s : State) : State := l.foldl (fun s e => setF e.1 e.2 s) s
/-- Live fields take values. -/
def setsL (l : List (Fld × Nat)) (s : State) : State := l.foldl (fun s e => setL e.1 e.2 s) s
/-- The management part is changed. -/
def withMgmt (g : Mgmt → Mgmt) (s : State) : State := { s with mgmt := g s.mgmt }

/-- A device in full service whose PF has its BARs and its DMA enabled. -/
def up : State :=
  sets [(F.bootStatusPhase, 6), (F.csStatusOutputsGated, 0), (F.csStatusSpllLocked, 1), (F.csStatusRelockState, 0),
    (F.memStatusTrained, 1)]
    (modFn 0 (fun x => { x with mse := true, bme := true, unmasked := [0] })
      (withMgmt (fun m => { m with vaux := true, rails := true, scarabDown := false, fireflyDown := false, eclosed := true,
                                   certsRead := true }) State.reset))

/-- A device in recovery. -/
def inRecovery : State := setF F.bootStatusPhase 3 up
/-- Partition 0 holds bank 0, for the PF. -/
def part0 (s : State) : State := sets [(F.partOwnerExists 0, 1), (F.partOwnerBanks 0, 1)] s
/-- Partition 0 is armed. -/
def armed0 (s : State) : State := modPart 0 (fun x => { x with armed := true }) (part0 s)
/-- Partition 0 may be armed. -/
def armable : State :=
  sets [(F.memCapPagesAlloc, 1000), (F.memPartRingRingPages 0, 64), (F.memPartRingRingMin 0, 16),
    (F.feBankStatusUncalibrated 0, 0), (F.memPartLimitsCeiling 0, 500)] (part0 up)
/-- Partition 0 may be armed, and its bank waits for auto-threshold. -/
def autoArmable : State := setL (F.feAtCfgAtEn 0) 1 (setF (F.feAtCfgAtEn 0) 1 armable)
/-- A pair of the PF is an enabled capture pair. -/
def capture (n : Nat) (s : State) : State := sets [(F.rcCfgType 0 n, 1), (F.rcCfgEn 0 n, 1)] s
/-- A pair of the PF is an enabled command pair. -/
def commands (n : Nat) (s : State) : State := sets [(F.rcCfgType 0 n, 0), (F.rcCfgEn 0 n, 1)] s
/-- One command of the PF, and one of VF 1. -/
def cmd : Cmd := { fn := 0, pair := 0, index := 3, tag := 7, interrupt := false }
def vfCmd : Cmd := { fn := 1, pair := 0, index := 3, tag := 7, interrupt := false }
/-- An image copy that passes every check, and one whose key is not the fused one. -/
def img : ImageCopy :=
  { headerRead := true, payloadRead := true, magic := 0x454E5242, format := 1, sectionCount := 2, imageLength := 16384,
    version := 1, epoch := 0, keySlot := 0,
    sections := [{ type := 1, offset := 0x2000, length := 0x1000 }, { type := 3, offset := 0x3000, length := 0x1000 }],
    keyHashOk := true, edSigOk := true, mldsaSigOk := true, digestOk := true, boardId := 0, deviceId := 0,
    bootCalRestore := false, chrysalisEn := true }
def badImg : ImageCopy := { img with keyHashOk := false }
/-- A segment. -/
def seg : Seg := { key := 0, cand := 0, openT := 0, pretrig := 0, posttrig := 0, word3 := 0 }
/-- A mailbox post of the PF. -/
def note : Post := { fn := 0, ptr := 64, seq := 5 }
/-- Channel 0 holds a message of a type that its receiver has taken. -/
def taken (type : Nat) (s : State) : State := setChan 0 { taken := some { note with type := type } } s

/-! ### WellFormed refuses an ill-formed command for each of its checks -/

theorem test_wf_bar0_offset : (Instr.registerWrite 0 false 0x100000 .w32 0).wf = false := by decide
theorem test_wf_bar2_offset : (Instr.registerWrite 0 true 0x1000 .w32 0).wf = false := by decide
theorem test_wf_poisoned_offset : (Instr.poisonedRequest 0 true 0x1000).wf = false := by decide
theorem test_wf_window_offset : (Instr.slowWindowWrite 0 0x100000 0).wf = false := by decide
theorem test_wf_vote_offset : (Instr.voteScrub 0x100000 0).wf = false := by decide
theorem test_wf_patrol_offset : (Instr.cfgPatrol [(0x100000, true)]).wf = false := by decide
theorem test_wf_label : (Instr.frameStart (2 ^ 40 * ticksPerSecond)).wf = false := by decide
theorem test_wf_karing_frame : (Instr.ktcFrame 0 (List.replicate 65 0) true).wf = false := by decide
theorem test_wf_means : (Instr.calStepDone 0 0 (List.replicate 65 0)).wf = false := by decide
theorem test_wf_swings : (Instr.autoThresholdDone 0 [(512, none, none)]).wf = false := by decide
theorem test_wf_scrub : (Instr.scrubPass [] [(0, .stream 0 (2 ^ 64))]).wf = false := by decide
theorem test_wf_tag : (Instr.arm { cmd with tag := 65536 } 0).wf = false := by decide
theorem test_wf_index : (Instr.disarm { cmd with index := 65536 } 0).wf = false := by decide
theorem test_wf_partition : (Instr.forceTrigger cmd 256).wf = false := by decide
theorem test_wf_ring : (Instr.subscribe cmd 0 256 0 0).wf = false := by decide
theorem test_wf_mode : (Instr.subscribe cmd 0 0 256 0).wf = false := by decide
theorem test_wf_token : (Instr.grantRevoke cmd 0 65536).wf = false := by decide
theorem test_wf_cont_frames : (Instr.partitionCreate cmd 0 1 0 0 65536 0 0).wf = false := by decide
theorem test_wf_pretrig : (Instr.partitionCreate cmd 0 1 0 0 1 (2 ^ 48) 0).wf = false := by decide
theorem test_wf_posttrig : (Instr.partitionCreate cmd 0 1 0 0 1 0 (2 ^ 48)).wf = false := by decide
theorem test_wf_bank_image : (Instr.bankConfig cmd 0 1 0 []).wf = false := by decide
set_option maxRecDepth 20000 in
theorem test_wf_detector_entries : (Instr.detectorLoad cmd 0 0 (List.replicate 137 (0, [])) none).wf = false := by decide
theorem test_wf_policy_block : (Instr.policySet cmd 0 1 []).wf = false := by decide
theorem test_wf_segment : (Instr.readBackSegment cmd 0 0 (2 ^ 32) 0).wf = false := by decide
theorem test_wf_epoch : (Instr.readBackSegment cmd 0 0 0 65536).wf = false := by decide
theorem test_wf_start : (Instr.readBackRange cmd 0 0 (2 ^ 64) 1).wf = false := by decide
theorem test_wf_length : (Instr.readBackRange cmd 0 0 0 (2 ^ 32)).wf = false := by decide
theorem test_wf_seconds : (Instr.timeSet cmd (2 ^ 40)).wf = false := by decide
theorem test_wf_address : (Instr.queryFunction cmd (2 ^ 64)).wf = false := by decide
theorem test_wf_item : (Instr.queryCounter cmd 0 65536).wf = false := by decide
theorem test_wf_pin_domain : (Instr.powerPinOn cmd 256).wf = false := by decide
theorem test_wf_read_tag : (Instr.completionTimeout 0 16384).wf = false := by decide
theorem test_wf_width : (Instr.portLinkUp 0 6 17 .bits14).wf = false := by decide
theorem test_wf_width_0 : (Instr.portLinkUp 0 6 0 .bits14).wf = false := by decide
set_option maxRecDepth 40000 in
theorem test_wf_block : (Instr.mbxTake 0 (List.replicate 4097 0)).wf = false := by decide
theorem test_wf_image_epoch : (Instr.fwUpdate 0 0 { img with epoch := 257 }).wf = false := by decide
theorem test_wf_image_board : (Instr.recoveryImageEnd { img with boardId := 2 ^ 32 }).wf = false := by decide
theorem test_wf_image_device : (Instr.perstRelease { img with deviceId := 16384 } img).wf = false := by decide
theorem test_wf_certificate : (Instr.getCertificate 0 0 65536 0).wf = false := by decide
theorem test_wf_nonce : (Instr.challenge 0 0 []).wf = false := by decide
theorem test_wf_image_offset : (Instr.recoveryImageObject (2 ^ 32) []).wf = false := by decide
theorem test_wf_attempts : (Instr.hbmTrainingDone 0 true 4).wf = false := by decide
theorem test_wf_sensors : (Instr.telemetrySample [] []).wf = false := by decide
theorem test_wf_domain_0 : (Instr.domainWake 0).wf = false := by decide

theorem test_wf_lock_value : (Instr.spllLockDeclared true 65536 0 0).wf = false := by decide
theorem test_wf_lock_error : (Instr.spllLockDeclared true 0 (2 ^ 32) 0).wf = false := by decide
theorem test_wf_lock_cycles : (Instr.spllLockDeclared true 0 0 (2 ^ 32)).wf = false := by decide
theorem test_wf_loss_error : (Instr.spllLockLoss .phase (2 ^ 32) 0).wf = false := by decide
theorem test_wf_loss_value : (Instr.spllLockLoss .phase 0 65536).wf = false := by decide
theorem test_wf_reload : (Instr.relockComplete (2 ^ 64)).wf = false := by decide
theorem test_wf_parity : (Instr.blockBoundary 0 0 [(0, 2 ^ 64)]).wf = false := by decide
theorem test_wf_read_errors : (Instr.segmentDeliveryWrite 0 0 1 { ue := [(0, 2 ^ 64)] }).wf = false := by decide
theorem test_wf_read_parity : (Instr.earlyShipWrite 0 0 1 { parity := [(0, 2 ^ 64)] }).wf = false := by decide
theorem test_wf_certificate_length :
    (Instr.certAreaReadDone { magic := 0, length := 2 ^ 32, count := 0, crcOk := true, keysOk := true }).wf = false := by decide
theorem test_wf_certificate_count :
    (Instr.certAreaReadDone { magic := 0, length := 0, count := 65536, crcOk := true, keysOk := true }).wf = false := by decide
theorem test_wf_image_section :
    (Instr.recoveryImageEnd { img with sections := [{ type := 65536, offset := 0, length := 0 }] }).wf = false := by decide
theorem test_wf_image_key : (Instr.recoveryImageEnd { img with keySlot := 256 }).wf = false := by decide
theorem test_wf_image_format : (Instr.recoveryImageEnd { img with format := 65536 }).wf = false := by decide
theorem test_wf_image_sections : (Instr.recoveryImageEnd { img with sectionCount := 65536 }).wf = false := by decide
theorem test_wf_image_length : (Instr.recoveryImageEnd { img with imageLength := 2 ^ 32 }).wf = false := by decide
theorem test_wf_fetch_tag : (Instr.descriptorFetchDone 0 0 16384 []).wf = false := by decide

/-! ### The premises of each statement are met -/


set_option maxRecDepth 40000 in
theorem meets_StepRunsTheFrontCommand :
    ∃ (s : State),
      s.pending = [] :=
  ⟨State.reset, by decide⟩

set_option maxRecDepth 40000 in
theorem meets_QueueDrainsInOrder :
   (∃ (s t : State),
      step s = .next t) ∧
   (∃ (s : State) (n : Nat),
      n ≤ s.pending.length) :=
  ⟨⟨State.reset, _, rfl⟩,
   ⟨State.reset, 0, by decide⟩⟩

set_option maxRecDepth 40000 in
theorem meets_StepsKeepTheCanonicalForm :
    ∃ (s t : State),
      s.wf = true ∧ step s = .next t :=
  ⟨State.reset, _, ⟨by decide, rfl⟩⟩

set_option maxRecDepth 40000 in
theorem meets_ReportingCommandsAreQuiet :
    ∃ (i : Instr) (c : Cmd) (f : FnId) (n : PairId) (port : PortId) (a p k : Nat) (code : Byte) (s t : State),
      i ∈ [Instr.queryFunction c a, .queryPartition c a p, .queryCounter c a k, .modTimeExpiry f n, .atsInvalidation
        f, .unexpectedCompletion f k, .tagQuarantineEnd f k, .linkRecovery port, .aspmL1Entry port, .smbusReadByte
        code] ∧ exec i s = .next t :=
  ⟨.aspmL1Entry 0, cmd, 0, 0, 0, 0, 0, 0, 0, up, _, ⟨by simp, rfl⟩⟩

set_option maxRecDepth 40000 in
theorem meets_NarrowCommandsChangeNoOther :
   (∃ (i : Instr) (c : Cmd) (p token : Nat) (modes : BitVec 8) (target : BitVec 16) (s t : State),
      i ∈ [Instr.grantIssue c p modes target, .grantRevoke c p token, .grantRevokeAll c p] ∧ exec i s = .next t) ∧
   (∃ (i : Instr) (r : Reg) (d : DomId) (f : FnId) (v : Fin 16) (s t : State),
      (i, r) ∈ [(Instr.domainIdleTimeout d, Reg.pwrStat d), (.domainWake d, .pwrStat d), (.devctl2CtoWrite f v, .epCto
        f)] ∧ exec i s = .next t) :=
  ⟨⟨.grantRevokeAll cmd 0, cmd, 0, 0, 0, 0, up, _, ⟨by simp, rfl⟩⟩,
   ⟨.domainWake 18, .pwrStat 18, 18, 0, 0, up, _, ⟨by simp, rfl⟩⟩⟩

set_option maxRecDepth 40000 in
theorem meets_RegisterWriteStores :
   (∃ (f : FnId) (off : Nat) (v : DWord) (r : Reg) (s : State) (q : Reg),
      isPf f = true ∧ off % 4 = 0 ∧ s.carriesOut f off = true ∧ barReg f off = some r ∧ slowWindow r.off = false ∧
        r.actsOnWrite = false ∧ s.writeRefused r (v.setWidth 32) = false ∧ q.key ≠ r.key) ∧
   (∃ (f : FnId) (off : Nat) (v : DWord) (r : Reg) (s : State) (i : Nat),
      isPf f = true ∧ off % 4 = 0 ∧ s.carriesOut f off = true ∧ barReg f off = some r ∧ slowWindow r.off = false ∧
        r.actsOnWrite = false ∧ s.writeRefused r (v.setWidth 32) = false ∧ i < 32 ∧ (r.bitsWith .kp).getLsbD i = false) :=
  ⟨⟨0, 0x80C0, 0, (barReg 0 0x80C0).get (by decide), { up with pending := [.secondBoundary] }, .bootStatus, by
      decide⟩,
   ⟨0, 0x2008, 0, (barReg 0 0x2008).get (by decide), up, 9, by decide⟩⟩

set_option maxRecDepth 40000 in
theorem meets_VfWritesNoPartition :
    ∃ (f : FnId) (off : Nat) (r : Reg) (s : State),
      isPf f = false ∧ off % 4 = 0 ∧ s.carriesOut f off = true ∧ barReg f off = some r ∧ ((0x40000 ≤ r.off ∧ r.off <
        0x42000) ∨ r.off = 0x4028 ∨ (0x3000 ≤ r.off ∧ r.off < 0x3200 ∧ r.off % 0x20 = 0x14)) :=
  ⟨1, 0x4028, .epWakeCfg 1, modFn 1 (fun x => { x with mse := true }) up, by decide⟩

set_option maxRecDepth 40000 in
theorem meets_ContainmentDropsWrites :
    ∃ (f : FnId) (off : Nat) (s : State) (q : Reg),
      s.clk.sysHeld = false ∧ s.barOpen f = true ∧ s.recovery = false ∧ s.contained f = true ∧ off % 4 = 0 ∧ off ≠
        0x4008 ∧ (barReg f off).isSome = true ∧ (¬ q.key % 0x100000 ∈ [0x200C, 0x401C, 0x8008]) :=
  ⟨0, 0x9010, setF (F.containStatusContained 0) 1 up, .bootStatus, by decide⟩

set_option maxRecDepth 40000 in
theorem meets_PopsReturnTheOldestEntry :
   (∃ (f : FnId) (s : State),
      s.clk.sysHeld = false ∧ s.barOpen f = true ∧ s.recovery = false) ∧
   (∃ (port : PortId) (s : State),
      s.clk.sysHeld = false ∧ s.barOpen (port.val * 128) = true ∧ s.recovery = false) :=
  ⟨⟨0, { up with pending := [.secondBoundary] }, by decide⟩,
   ⟨0, { up with pending := [.secondBoundary] }, by decide⟩⟩

set_option maxRecDepth 40000 in
theorem meets_SlowAccessesGoThroughTheUnit :
   (∃ (f : FnId) (off : Nat) (r : Reg) (s : State),
      isPf f = true ∧ slowWindow off = true ∧ off % 4 = 0 ∧ s.carriesOut f off = true ∧ barReg f off = some r ∧
        slowWindow r.off = true ∧ (r.off < 0x58000 ∨ 0x60000 ≤ r.off) ∧ s.flag (F.slowCtrlSlowAccessMode f) = false ∧
        s.slow.writes = []) ∧
   (∃ (f : FnId) (s : State),
      s.carriesOut f 0x104C = true ∧ s.flag (F.slowCtrlSlowAccessMode f) = true ∧ (((barReg f (s.getF (F.slowAddrAddr
        f) * 4)).bind Reg.powerDomain).filter s.domainOff) = none ∧ (s.getF (F.slowAddrAddr f) * 4 < 0x58000 ∨ 0x60000
        ≤ s.getF (F.slowAddrAddr f) * 4) ∧ s.slow.writes = []) ∧
   (∃ (f : FnId) (s : State),
      s.carriesOut f 0x104C = true ∧ s.flag (F.slowCtrlSlowAccessMode f) = true ∧ s.slow.writes = [] ∧ (((barReg f
        (s.getF (F.slowAddrAddr f) * 4)).bind Reg.powerDomain).filter s.domainOff) = none) ∧
   (∃ (off : Nat) (v : Word) (rest : List (Nat × Word × Option Cmd)) (r : Reg) (s : State) (i : Nat),
      s.slow.writes = (off, v, none) :: rest ∧ Reg.ofOff 0 off = some r ∧ (r.powerDomain.filter s.domainOff) = none ∧
        r.actsOnWrite = false ∧ s.writeRefused r v = false ∧ i < 32 ∧ (r.bitsWith .rw).getLsbD i = true) :=
  ⟨⟨0, 0x10000, .feBankCtrl 0, { up with pending := [.secondBoundary] }, by decide⟩,
   ⟨0, sets [(F.slowCtrlSlowAccessMode 0, 1), (F.slowAddrAddr 0, 0x4000)] up, by decide⟩,
   ⟨0, sets [(F.slowCtrlSlowAccessMode 0, 1), (F.slowAddrAddr 0, 0x4000)] up, by decide⟩,
   ⟨0x10100, 0, [], (Reg.ofOff 0 0x10100).get (by decide), { up with slow := { writes := [(0x10100, 0, none)] } }, 0,
      by decide⟩⟩

set_option maxRecDepth 40000 in
theorem meets_SnapshotsRun :
   (∃ (port : PortId) (x : Snap) (s : State),
      spGet none port.val s.snaps = some x ∧ x.words.length = 4) ∧
   (∃ (f : FnId) (item : BitVec 16) (s : State),
      isPf f = true ∧ s.carriesOut f 0x1000 = true ∧ clearable item.toNat = true ∧ intervalItem item.toNat = false ∧
        (s.item (f.val / 128) item.toNat).isSome = true ∧ ((itemDomain item.toNat).filter s.domainOff).isNone = true) :=
  ⟨⟨0, { result := 0, words := [1, 2, 3, 4] },
      { up with snaps := [(0, some { result := 0, words := [1, 2, 3, 4] })] }, by decide⟩,
   ⟨0, 0x10, { up with pending := [.secondBoundary] }, by decide⟩⟩

set_option maxRecDepth 40000 in
theorem meets_VoteScrubRecordsTheField :
   (∃ (off : Nat) (lsb : Fin 32),
      votedField off lsb = true) ∧
   (∃ (off : Nat) (lsb : Fin 32),
      votedField off lsb = false) :=
  ⟨⟨0x9000, 4, by decide⟩,
   ⟨0x9000, 5, by decide⟩⟩

set_option maxRecDepth 40000 in
theorem meets_TriginWritesWaitForIdle :
   (∃ (f : FnId) (r : Reg) (p : Nat) (s : State),
      isPf f = true ∧ s.carriesOut f r.off = true ∧ (r = .triginCfg ∨ ∃ n, n < 4 ∧ r = .triginDeskew n) ∧ p < 8 ∧ 1 <
        s.partState p) ∧
   (∃ (f : FnId) (v : DWord) (n : Nat) (s : State) (i : Nat),
      isPf f = true ∧ n < 4 ∧ s.carriesOut f (Reg.trigoutCfg n).off = true ∧ bitsOf v.toNat 24 8 ≠ 0 ∧ i < 32 ∧
        ((Reg.trigoutCfg n).bitsWith .rw).getLsbD i = true) ∧
   (∃ (f : FnId) (v : DWord) (n : Nat) (s : State),
      isPf f = true ∧ n < 4 ∧ s.carriesOut f (Reg.trigoutCfg n).off = true ∧ bitsOf v.toNat 24 8 = 0) :=
  ⟨⟨0, .triginCfg, 0, armed0 up, ⟨by decide, by decide, Or.inl rfl, by decide, by decide⟩⟩,
   ⟨0, 0x10000000, 0, { up with pending := [.secondBoundary] }, 0, by decide⟩,
   ⟨0, 0, 0, { up with pending := [.secondBoundary] }, by decide⟩⟩

set_option maxRecDepth 40000 in
theorem meets_RelocksStart :
   (∃ (f : FnId) (s : State),
      s.carriesOut f 0x9000 = true ∧ s.flag F.csStatusSpllLocked = true) ∧
   (∃ (f : FnId) (s : State),
      s.carriesOut f 0x9000 = true ∧ s.flag F.csStatusSpllLocked = false) ∧
   (∃ (f : FnId) (sel : Fin 4) (s : State),
      s.carriesOut f 0x9000 = true ∧ sel ≠ 3 ∧ sel.val ≠ s.getF F.csCtrlRefSel) ∧
   (∃ (f : FnId) (sel : Fin 4) (s : State),
      s.carriesOut f 0x9000 = true ∧ sel ≠ 3 ∧ s.flag F.csStatusSpllLocked = false) ∧
   (∃ (f : FnId) (s : State),
      s.carriesOut f 0x9000 = true) ∧
   (∃ (cause : LossCause) (err mv : Nat) (s : State),
      s.flag F.csStatusSpllLocked = true ∧ (cause = .phase → s.lossThreshold < err) ∧ (cause = .lockFilt → (s.getF
        F.csCtrlLockSource = 0 ∨ s.getF F.csCtrlLockSource = 2) ∧ s.clk.analogUsed = true ∧ mv < 600)) ∧
   (∃ (s : State),
      s.flag F.csStatusSpllLocked = false) :=
  ⟨⟨0, { up with pending := [.secondBoundary] }, by decide⟩,
   ⟨0, setF F.csStatusSpllLocked 0 (setF F.csCtrlRefSel 2 up), by decide⟩,
   ⟨0, 0, { up with pending := [.secondBoundary] }, by decide⟩,
   ⟨0, 0, setF F.csStatusSpllLocked 0 (setF F.csCtrlRefSel 2 up), by decide⟩,
   ⟨0, { up with pending := [.secondBoundary] }, by decide⟩,
   ⟨.phase, 601, 0, { up with pending := [.secondBoundary] }, by decide⟩,
   ⟨State.reset, by decide⟩⟩

set_option maxRecDepth 40000 in
theorem meets_RelockOutcomes :
   (∃ (s : State),
      s.flag F.csStatusOutputsGated = true ∧ (s.getF F.csStatusRelockState = 1 ∨ s.getF F.csStatusRelockState = 2) ∧
        s.lockDeclared = true) ∧
   (∃ (s : State),
      (s.flag F.csStatusOutputsGated = false ∨ s.lockDeclared = false)) ∧
   (∃ (s : State),
      s.getF F.csStatusRelockState = 1) ∧
   (∃ (s : State),
      s.getF F.csStatusRelockState = 2 ∧ s.getF F.csCtrlRefSel ≠ 2) ∧
   (∃ (s : State),
      s.getF F.csStatusRelockState = 2 ∧ s.getF F.csCtrlRefSel = 2) ∧
   (∃ (s : State),
      s.getF F.csStatusRelockState ≠ 1 ∧ s.getF F.csStatusRelockState ≠ 2) ∧
   (∃ (s : State),
      s.getF F.csStatusRelockState = 5 ∧ s.clk.retryDue = true) ∧
   (∃ (s : State),
      (s.getF F.csStatusRelockState ≠ 5 ∨ s.clk.retryDue = false)) :=
  ⟨⟨modClk (fun c => { c with declaredA := true }) (sets [(F.csStatusOutputsGated, 1), (F.csStatusRelockState, 1)]
      up), by decide⟩,
   ⟨State.reset, by decide⟩,
   ⟨sets [(F.csStatusOutputsGated, 1), (F.csStatusRelockState, 1)] up, by decide⟩,
   ⟨sets [(F.csStatusRelockState, 2), (F.csCtrlRefSel, 1)] up, by decide⟩,
   ⟨State.reset, by decide⟩,
   ⟨{ up with pending := [.secondBoundary] }, by decide⟩,
   ⟨modClk (fun c => { c with retryDue := true }) (setF F.csStatusRelockState 5 up), by decide⟩,
   ⟨State.reset, by decide⟩⟩

set_option maxRecDepth 40000 in
theorem meets_LockPathTrimAndSystemPll :
   (∃ (q : Reg),
      q.key ≠ Reg.csStatus.key) ∧
   (∃ (analog : Bool) (mv err cycles : Nat) (s : State),
      (s.flag F.csStatusSpllLocked = true ∨ s.getF F.csStatusRelockState = 1 ∨ s.getF F.csStatusRelockState = 2) ∧
        (analog = true → 800 < mv) ∧ (analog = false → err ≤ 2 * s.getF F.csLockDetLockWin ∧ s.getF
        F.csLockDetLockCount ≤ cycles) ∧ s.lockDeclared = false) ∧
   (∃ (analog : Bool) (mv err : Nat) (s : State),
      (analog = true → mv ≤ 800) ∧ (analog = false → 2 * s.getF F.csLockDetLockWin < err)) ∧
   (∃ (f : FnId) (v : Word) (s : State),
      let jump := s.flag F.csCtrlTrimRelock = true ∧ s.flag F.csStatusSpllLocked = true ∧ 4295 < (signed 24 (v.toNat %
        2 ^ 24) - s.trim).natAbs
      s.carriesOut f 0x9010 = true ∧ (¬ jump)) ∧
   (∃ (f : FnId) (v : Word) (s : State),
      let jump := s.flag F.csCtrlTrimRelock = true ∧ s.flag F.csStatusSpllLocked = true ∧ 4295 < (signed 24 (v.toNat %
        2 ^ 24) - s.trim).natAbs
      s.carriesOut f 0x9010 = true ∧ jump) ∧
   (∃ (b : Nat),
      b < 8) ∧
   (∃ (i : Instr) (f : FnId) (p : PortId) (n : PairId) (b : BankId) (c : MbxId) (off : Nat) (w : Access.Width) (d :
      DWord) (v : Word) (h : BitVec 16) (x y : Fin 4) (e : Bool) (s : State),
      s.clk.sysHeld = true ∧ i ∈ [Instr.registerWrite f false off w d, .evqPop f e, .relock f, .trimWrite f v,
        .refSelWrite f x y, .soFire f, .setReq f, .ppsEnWrite f e, .calStart f b v, .softReset f b, .xfStateWrite f v,
        .memRetireCmd f v, .ringEnable f n v, .ringDisable f n v, .epErrPop f e, .containRelease f v, .snapRead f h,
        .snapReadClear f h, .snapLoad f h, .slowDataWrite f v, .slowDataRead f, .mbxDoorbell f c h, .mbxHostEnable f
        v, .mbxHostAck f h, .pwrBankEnWrite f v, .fltPop p e, .fltPinCauseClear f v, .faultTest f e, .clearCounts f]) :=
  ⟨⟨.bootStatus, by decide⟩,
   ⟨true, 16000, 0, 0, State.reset, by decide⟩,
   ⟨true, 0, 0, State.reset, by decide⟩,
   ⟨0, 0, { up with pending := [.secondBoundary] }, by decide⟩,
   ⟨0, 0xFF21, setF F.csCtrlTrimRelock 1 up, by decide⟩,
   ⟨0, by decide⟩,
   ⟨.evqPop 0 true, 0, 0, 0, 0, 0, 0, .w32, 0, 0, 0, 0, 0, true, modClk (fun c => { c with sysHeld := true }) (up),
      by decide⟩⟩

set_option maxRecDepth 40000 in
theorem meets_ReferenceChangesAreFollowed :
   (∃ (s : State),
      s.flag F.csStatusRefQualified = true) ∧
   (∃ (s : State),
      let st := s.getF F.csStatusRelockState
      s.flag F.csStatusRefQualified = false ∧ st = 4) ∧
   (∃ (s : State),
      let st := s.getF F.csStatusRelockState
      let auto := s.getF F.csCtrlRefSel = 2 ∧ s.flag F.csStatusSpllInput = false
      s.flag F.csStatusRefQualified = false ∧ st ≠ 4 ∧ auto ∧ (st = 1 ∨ st = 2)) ∧
   (∃ (s : State),
      let st := s.getF F.csStatusRelockState
      let auto := s.getF F.csCtrlRefSel = 2 ∧ s.flag F.csStatusSpllInput = false
      s.flag F.csStatusRefQualified = false ∧ st ≠ 4 ∧ (¬ auto)) ∧
   (∃ (e : Int) (s : State),
      let st := s.getF F.csStatusRelockState
      let auto := s.getF F.csCtrlRefSel = 2 ∧ s.flag F.csStatusSpllInput = false
      let near := e.natAbs ≤ 256 ∨ s.flag F.timeCtrlRefReturn = false
      s.flag F.csStatusRefQualified = false ∧ st = 0 ∧ auto ∧ s.flag F.csStatusSpllLocked = true ∧ near) ∧
   (∃ (e : Int) (s : State),
      let st := s.getF F.csStatusRelockState
      let auto := s.getF F.csCtrlRefSel = 2 ∧ s.flag F.csStatusSpllInput = false
      let near := e.natAbs ≤ 256 ∨ s.flag F.timeCtrlRefReturn = false
      s.flag F.csStatusRefQualified = false ∧ st = 0 ∧ auto ∧ s.flag F.csStatusSpllLocked = true ∧ (¬ near)) ∧
   (∃ (s : State),
      s.flag F.csStatusRefQualified = true ∧ s.flag F.csStatusSpllInput = true ∧ s.flag F.csStatusSpllLocked = true) ∧
   (∃ (s : State),
      s.flag F.csStatusRefQualified = false) ∧
   (∃ (n : Fin 3) (offset : Int) (s : State),
      let same := s.getF F.csStatusRefFreqActive = 3 ∨ s.getF F.csStatusRefFreqActive = n
      s.getF F.csCtrlRefFreq = 3 ∧ same ∧ -10000 ≤ offset ∧ offset ≤ 10000) ∧
   (∃ (n : Fin 3) (s : State),
      let same := s.getF F.csStatusRefFreqActive = 3 ∨ s.getF F.csStatusRefFreqActive = n
      s.getF F.csCtrlRefFreq = 3 ∧ (¬ same)) ∧
   (∃ (s : State),
      s.getF F.csCtrlRefFreq ≠ 3) ∧
   (∃ (err : Int) (s : State),
      s.getF F.csStatusRelockState = 3 ∧ err.natAbs ≤ 10 ∧ s.cic.slewing = true) ∧
   (∃ (err : Int) (s : State),
      (s.getF F.csStatusRelockState ≠ 3 ∨ 10 < err.natAbs)) :=
  ⟨⟨setF F.csStatusRefQualified 1 up, by decide⟩,
   ⟨setF F.csStatusRelockState 4 up, by decide⟩,
   ⟨State.reset, by decide⟩,
   ⟨sets [(F.csStatusRelockState, 2), (F.csCtrlRefSel, 1)] up, by decide⟩,
   ⟨0, { up with pending := [.secondBoundary] }, by decide⟩,
   ⟨257, sets [(F.csCtrlRefSel, 2), (F.timeCtrlRefReturn, 1)] up, by decide⟩,
   ⟨sets [(F.csStatusRefQualified, 1), (F.csStatusSpllInput, 1)] up, by decide⟩,
   ⟨State.reset, by decide⟩,
   ⟨0, 0, State.reset, by decide⟩,
   ⟨2, sets [(F.csCtrlRefFreq, 3), (F.csStatusRefFreqActive, 0)] up, by decide⟩,
   ⟨setF F.csCtrlRefFreq 1 up, by decide⟩,
   ⟨0, setF F.csStatusRelockState 3 { up with cic := { up.cic with slewing := true } }, by decide⟩,
   ⟨0, State.reset, by decide⟩⟩

set_option maxRecDepth 40000 in
theorem meets_SyncInAndOut :
   (∃ (s : State),
      s.getF F.csCtrlRefSel ≠ 0 ∧ s.flag F.csStatusSpllInput = true ∧ s.flag F.csStatusOutputsGated = false ∧ s.getF
        F.csStatusRelockState ≠ 1 ∧ s.getF F.csStatusRelockState ≠ 2 ∧ (s.flag F.csSyncCtrlSyncMode = true ∨ s.flag
        F.csSyncCtrlSyncArm = true)) ∧
   (∃ (s : State),
      (s.getF F.csCtrlRefSel = 0 ∨ s.flag F.csStatusSpllInput = false ∨ s.flag F.csStatusOutputsGated = true ∨ (s.flag
        F.csSyncCtrlSyncMode = false ∧ s.flag F.csSyncCtrlSyncArm = false))) ∧
   (∃ (s : State),
      (s.clk.syncDue = [] ∨ s.flag F.csStatusOutputsGated = true)) ∧
   (∃ (due : Nat) (r : List Nat) (s : State),
      s.clk.syncDue = due :: r ∧ s.flag F.csStatusOutputsGated = false ∧ (s.flag F.csSyncCtrlSyncMode = true ∨ s.flag
        F.csSyncCtrlSyncArm = true) ∧ s.flag F.csSyncCtrlSyncMode = false) ∧
   (∃ (due : Nat) (r : List Nat) (s : State),
      s.clk.syncDue = due :: r ∧ s.flag F.csStatusOutputsGated = false ∧ s.flag F.csSyncCtrlSyncMode = false ∧ s.flag
        F.csSyncCtrlSyncArm = false) ∧
   (∃ (f : FnId) (s : State),
      s.carriesOut f 0x9028 = true) ∧
   (∃ (u : Label) (per : Nat) (s : State),
      s.outPeriod 5 = some per ∧ (advanceTo u s).syncOutDue per = true) ∧
   (∃ (u : Label) (s : State),
      (∀ per, s.outPeriod 5 = some per → (advanceTo u s).syncOutDue per = false)) :=
  ⟨⟨sets [(F.csCtrlRefSel, 1), (F.csStatusSpllInput, 1), (F.csSyncCtrlSyncMode, 1)] up, by decide⟩,
   ⟨State.reset, by decide⟩,
   ⟨State.reset, by decide⟩,
   ⟨8, [], modClk (fun c => { c with syncDue := [8] }) (setF F.csSyncCtrlSyncArm 1 up), by decide⟩,
   ⟨8, [], modClk (fun c => { c with syncDue := [8] }) up, by decide⟩,
   ⟨0, { up with pending := [.secondBoundary] }, by decide⟩,
   ⟨0, 640, sets [(F.csOutCtrlEn 5, 1), (F.csOutCtrlDiv 5, 16), (F.csOutCtrlPostdiv 5, 0), (F.csSyncoutCtrlSoMode,
      1)] up, by decide⟩,
   ⟨0, State.reset, by decide⟩⟩

set_option maxRecDepth 40000 in
theorem meets_PpsEdgesAndSecondsLoads :
   (∃ (e : Label) (rising : Bool) (s : State),
      let near := s.flag F.timeStatusPpsAligned = false ∨ (s.ppsError e).natAbs ≤ s.getF F.timePpsCfgPpsWindow
      s.flag F.timeCtrlPpsEn = true ∧ s.flag F.csStatusOutputsGated = false ∧ (rising = true ↔ s.getF
        F.timeCtrlPpsEdge = 0) ∧ s.cic.accepted = false ∧ near) ∧
   (∃ (e : Label) (rising : Bool) (s : State),
      let near := s.flag F.timeStatusPpsAligned = false ∨ (s.ppsError e).natAbs ≤ s.getF F.timePpsCfgPpsWindow
      s.flag F.timeCtrlPpsEn = true ∧ s.flag F.csStatusOutputsGated = false ∧ (rising = true ↔ s.getF
        F.timeCtrlPpsEdge = 0) ∧ (s.cic.accepted = true ∨ ¬ near)) ∧
   (∃ (rising : Bool) (s : State),
      (s.flag F.timeCtrlPpsEn = false ∨ s.flag F.csStatusOutputsGated = true ∨ ¬ (rising = true ↔ s.getF
        F.timeCtrlPpsEdge = 0))) ∧
   (∃ (s : State),
      s.flag F.timeCtrlPpsEn = true ∧ s.cic.accepted = false ∧ s.cic.measured = false) ∧
   (∃ (f : FnId) (en : Bool) (s : State),
      s.carriesOut f 0x8000 = true ∧ en = false) ∧
   (∃ (f : FnId) (s : State),
      s.carriesOut f 0x802C = true) ∧
   (∃ (c : Cmd) (seconds : Nat),
      isPf c.fn = true ∧ seconds < 2 ^ 40) ∧
   (∃ (c : Cmd),
      isPf c.fn = false ∧ c.index < 65536) :=
  ⟨⟨0, true, setF F.timeCtrlPpsEn 1 up, by decide⟩,
   ⟨0, true, setF F.timeCtrlPpsEn 1 { up with cic := { up.cic with accepted := true } }, by decide⟩,
   ⟨true, State.reset, by decide⟩,
   ⟨setF F.timeCtrlPpsEn 1 up, by decide⟩,
   ⟨0, false, { up with pending := [.secondBoundary] }, by decide⟩,
   ⟨0, { up with pending := [.secondBoundary] }, by decide⟩,
   ⟨cmd, 0, by decide⟩,
   ⟨vfCmd, by decide⟩⟩

set_option maxRecDepth 40000 in
theorem meets_KaringFramesAndSecondBoundaries :
   (∃ (at_ : Label) (frame : List Byte),
      frame.length = 11 ∧ leAt frame 9 2 = (karingCrc (frame.take 9)).toNat ∧ leAt frame 0 1 = 1 ∧ 51200000000 ≤
        subsecOf at_ ∧ subsecOf at_ ≤ 460800000000) ∧
   (∃ (frame : List Byte) (ok : Bool),
      (ok = false ∨ frame.length ≠ 11 ∨ leAt frame 9 2 ≠ (karingCrc (frame.take 9)).toNat)) :=
  ⟨⟨51200000000, [1, 0, 0, 0, 0, 0, 0, 0, 0] ++ leBytes 2 (karingCrc [1, 0, 0, 0, 0, 0, 0, 0, 0]).toNat, by decide⟩,
   ⟨[], true, by decide⟩⟩

set_option maxRecDepth 40000 in
theorem meets_CrossingsAreLabelled :
   (∃ (b : BankId) (cmp : Cmp) (s : State),
      let dead := ((s.flagL (F.feBankCtrlCmpMode b) = true ∨ (s.bank b).slow = true) ∧ cmp = .l) ∨ s.disconnected b =
        true ∨ s.domainOff (10 + b) = true
      dead) ∧
   (∃ (b : BankId) (c : ChanId) (cmp : Cmp) (rising : Bool) (tPin : Label) (s : State),
      let lvl (u : State) : Bool := (match cmp with | .u => (u.bank b).lvlU | .l => (u.bank b).lvlL).getLsbD c
      let dead := ((s.flagL (F.feBankCtrlCmpMode b) = true ∨ (s.bank b).slow = true) ∧ cmp = .l) ∨ s.disconnected b =
        true ∨ s.domainOff (10 + b) = true
      let quiet := s.noSample = true ∨ s.flag (F.feBankStatusStopped b) = true
      let label := s.crossLabel b c tPin
      let last := spGet 0 (cmpKey c cmp) (s.bank b).lastX
      (¬ dead) ∧ (¬ quiet) ∧ lvl s = !rising ∧ (s.bank b).slow = false ∧ (last = 0 ∨ last - 1 + 160 ≤ label)) ∧
   (∃ (b : BankId) (c : ChanId) (cmp : Cmp) (rising : Bool) (tPin : Label) (s : State),
      let lvl (u : State) : Bool := (match cmp with | .u => (u.bank b).lvlU | .l => (u.bank b).lvlL).getLsbD c
      let dead := ((s.flagL (F.feBankCtrlCmpMode b) = true ∨ (s.bank b).slow = true) ∧ cmp = .l) ∨ s.disconnected b =
        true ∨ s.domainOff (10 + b) = true
      let quiet := s.noSample = true ∨ s.flag (F.feBankStatusStopped b) = true
      let label := s.crossLabel b c tPin
      let last := spGet 0 (cmpKey c cmp) (s.bank b).lastX
      (¬ dead) ∧ (¬ quiet) ∧ lvl s = !rising ∧ (s.bank b).slow = false ∧ last ≠ 0 ∧ label < last - 1 + 160) ∧
   (∃ (b : BankId) (c : ChanId) (cmp : Cmp) (rising : Bool) (s : State),
      let lvl (u : State) : Bool := (match cmp with | .u => (u.bank b).lvlU | .l => (u.bank b).lvlL).getLsbD c
      let dead := ((s.flagL (F.feBankCtrlCmpMode b) = true ∨ (s.bank b).slow = true) ∧ cmp = .l) ∨ s.disconnected b =
        true ∨ s.domainOff (10 + b) = true
      let quiet := s.noSample = true ∨ s.flag (F.feBankStatusStopped b) = true
      s.bankBegun b = true ∧ (dead ∨ quiet ∨ lvl s = rising)) :=
  ⟨⟨0, .u, modBank 0 (fun x => { x with calSteps := [1] }) (sets [(F.feBankStatusCalRunning 0, 1),
      (F.feCalStatusStepRunning 0, 1)] up), by decide⟩,
   ⟨0, 0, .u, true, 0, { up with pending := [.secondBoundary] }, by decide⟩,
   ⟨0, 63, .u, true, 0, modBank 0 (fun x => { x with lastX := [(cmpKey 63 .u, 1)] }) up, by decide⟩,
   ⟨0, 0, .u, true, setF F.csStatusOutputsGated 1 (modPart 0 (fun x => { x with begun := some 0 }) (part0 up)), by
      decide⟩⟩

set_option maxRecDepth 40000 in
theorem meets_ClockAndTriggerEdgesAreLabelled :
   (∃ (b : BankId) (tPin : Label) (s : State),
      let label := tPin + s.getL (F.feStclkCfgStclkDeskew b)
      let last := (s.bank b).stEdge
      let takes := (∃ p, s.partOf b = some p ∧ s.stateMode p = true) ∧ s.noSample = false ∧ s.flag
        (F.feBankStatusStopped b) = false ∧ s.disconnected b = false
      takes ∧ (last = 0 ∨ last - 1 + 100 ≤ label)) ∧
   (∃ (b : BankId) (tPin : Label) (s : State),
      let label := tPin + s.getL (F.feStclkCfgStclkDeskew b)
      let last := (s.bank b).stEdge
      let takes := (∃ p, s.partOf b = some p ∧ s.stateMode p = true) ∧ s.noSample = false ∧ s.flag
        (F.feBankStatusStopped b) = false ∧ s.disconnected b = false
      takes ∧ last ≠ 0 ∧ label < last - 1 + 100) ∧
   (∃ (b : BankId) (s : State),
      let takes := (∃ p, s.partOf b = some p ∧ s.stateMode p = true) ∧ s.noSample = false ∧ s.flag
        (F.feBankStatusStopped b) = false ∧ s.disconnected b = false
      (¬ takes)) ∧
   (∃ (s : State),
      s.noCore = true) ∧
   (∃ (s : State) (p : Nat),
      s.noCore = false ∧ p < 8 ∧ (s.part p).armed = true) ∧
   (∃ (s : State) (p : Nat),
      s.noCore = false ∧ p < 8 ∧ (s.part p).armed = false) :=
  ⟨⟨0, 0, setL (F.partModeStateMode 0) 1 (part0 up), by decide⟩,
   ⟨0, 0, modBank 0 (fun x => { x with stEdge := 1 }) (setL (F.partModeStateMode 0) 1 (part0 up)), by decide⟩,
   ⟨0, State.reset, by decide⟩,
   ⟨State.reset, by decide⟩,
   ⟨armed0 up, 0, by decide⟩,
   ⟨{ up with pending := [.secondBoundary] }, 0, by decide⟩⟩

set_option maxRecDepth 40000 in
theorem meets_CalibrationRuns :
   (∃ (f : FnId) (b : BankId) (v : Word) (s : State) (k : Nat),
      let starts := v.getLsbD 5 = true ∧ bitsOf v.toNat 0 5 ≠ 0
      s.carriesOut f (0x10010 + b.val * 0x2000) = true ∧ bitsOf v.toNat 8 8 ≠ 0 ∧ starts ∧ s.calAllowed b = true ∧ k <
        5 ∧ (bitsOf v.toNat 0 5).testBit k = true ∧ (∀ j, j < k → (bitsOf v.toNat 0 5).testBit j = false)) ∧
   (∃ (f : FnId) (b : BankId) (v : Word) (s : State),
      let starts := v.getLsbD 5 = true ∧ bitsOf v.toNat 0 5 ≠ 0
      s.carriesOut f (0x10010 + b.val * 0x2000) = true ∧ bitsOf v.toNat 8 8 ≠ 0 ∧ (¬ starts)) ∧
   (∃ (f : FnId) (b : BankId) (v : Word) (s : State),
      let starts := v.getLsbD 5 = true ∧ bitsOf v.toNat 0 5 ≠ 0
      s.carriesOut f (0x10010 + b.val * 0x2000) = true ∧ (bitsOf v.toNat 8 8 = 0 ∨ (starts ∧ s.calAllowed b = false))) ∧
   (∃ (b : BankId) (s : State),
      s.flag (F.feBankStatusCalRunning b) = false) ∧
   (∃ (b : BankId) (means : List Nat) (s : State) (k : Nat),
      let run := s.getF (F.feCalStatusStepRunning b)
      let ds := means.map (deskewOf (means.max?.getD 0))
      let fails := run = 16 ∧ (ds.length < 64 ∨ ds.any (fun d => decide (2047 < d)) = true)
      s.flag (F.feBankStatusCalRunning b) = true ∧ (¬ fails) ∧ means.length ≤ 64 ∧ k < 5 ∧ run = 2 ^ k) ∧
   (∃ (b : BankId) (means : List Nat) (s : State) (j : Nat) (r : List Nat),
      let run := s.getF (F.feCalStatusStepRunning b)
      let ds := means.map (deskewOf (means.max?.getD 0))
      let fails := run = 16 ∧ (ds.length < 64 ∨ ds.any (fun d => decide (2047 < d)) = true)
      s.flag (F.feBankStatusCalRunning b) = true ∧ (¬ fails) ∧ means.length ≤ 64 ∧ (s.bank b).calSteps = j :: r ∧ j <
        5) ∧
   (∃ (b : BankId) (means : List Nat) (s : State),
      let run := s.getF (F.feCalStatusStepRunning b)
      let ds := means.map (deskewOf (means.max?.getD 0))
      let fails := run = 16 ∧ (ds.length < 64 ∨ ds.any (fun d => decide (2047 < d)) = true)
      s.flag (F.feBankStatusCalRunning b) = true ∧ (¬ fails) ∧ means.length ≤ 64 ∧ (s.bank b).calSteps = []) ∧
   (∃ (b : BankId) (means : List Nat) (s : State),
      let run := s.getF (F.feCalStatusStepRunning b)
      let ds := means.map (deskewOf (means.max?.getD 0))
      let fails := run = 16 ∧ (ds.length < 64 ∨ ds.any (fun d => decide (2047 < d)) = true)
      s.flag (F.feBankStatusCalRunning b) = true ∧ (¬ fails) ∧ means.length ≤ 64 ∧ run = 16 ∧ ds.length = 64) ∧
   (∃ (b : BankId) (means : List Nat) (s : State),
      let run := s.getF (F.feCalStatusStepRunning b)
      let ds := means.map (deskewOf (means.max?.getD 0))
      let fails := run = 16 ∧ (ds.length < 64 ∨ ds.any (fun d => decide (2047 < d)) = true)
      s.flag (F.feBankStatusCalRunning b) = true ∧ fails) ∧
   (∃ (b : BankId) (s : State),
      s.flag (F.feBankStatusCalRunning b) = true ∧ s.getF (F.feCalStatusStepRunning b) = 16) ∧
   (∃ (b : BankId) (s : State),
      (s.flag (F.feBankStatusCalRunning b) = false ∨ s.getF (F.feCalStatusStepRunning b) ≠ 16)) :=
  ⟨⟨0, 0, 0xFF21, { up with pending := [.secondBoundary] }, 0, by decide⟩,
   ⟨0, 0, 0xFF01, { up with pending := [.secondBoundary] }, by decide⟩,
   ⟨0, 0, 0, { up with pending := [.secondBoundary] }, by decide⟩,
   ⟨0, State.reset, by decide⟩,
   ⟨0, [], modBank 0 (fun x => { x with calSteps := [1] }) (sets [(F.feBankStatusCalRunning 0, 1),
      (F.feCalStatusStepRunning 0, 1)] up), 0, by decide⟩,
   ⟨0, [], modBank 0 (fun x => { x with calSteps := [1] }) (sets [(F.feBankStatusCalRunning 0, 1),
      (F.feCalStatusStepRunning 0, 1)] up), 1, [], by decide⟩,
   ⟨7, List.replicate 64 65536, sets [(F.feBankStatusCalRunning 7, 1), (F.feCalStatusStepRunning 7, 16)] up, by
      decide⟩,
   ⟨7, List.replicate 64 65536, sets [(F.feBankStatusCalRunning 7, 1), (F.feCalStatusStepRunning 7, 16)] up, by
      decide⟩,
   ⟨7, [], sets [(F.feBankStatusCalRunning 7, 1), (F.feCalStatusStepRunning 7, 16)] up, by decide⟩,
   ⟨7, sets [(F.feBankStatusCalRunning 7, 1), (F.feCalStatusStepRunning 7, 16)] up, by decide⟩,
   ⟨0, State.reset, by decide⟩⟩

set_option maxRecDepth 40000 in
theorem meets_BankFaultsAndSoftResets :
   (∃ (f : FnId) (b : BankId) (s : State),
      s.carriesOut f (0x10000 + b.val * 0x2000) = true) ∧
   (∃ (b : BankId) (s : State),
      (s.bank b).softRun = true) ∧
   (∃ (b : BankId) (s : State),
      (s.bank b).softRun = false) ∧
   (∃ (b : BankId) (x : Label) (s : State),
      let s1 := advanceTo x s
      let resumes := (s1.bank b).softDone = true ∧ frameOf x = x ∧ (s1.bank b).softAt + 9 * ticksPerCore + (s1.now -
        x) ≤ s1.elapsed + 1
      resumes ∧ (∀ p, s.partOf b = some p → (s.part p).begun = none)) ∧
   (∃ (b : BankId) (x : Label) (s : State) (p : Nat),
      let s1 := advanceTo x s
      let resumes := (s1.bank b).softDone = true ∧ frameOf x = x ∧ (s1.bank b).softAt + 9 * ticksPerCore + (s1.now -
        x) ≤ s1.elapsed + 1
      resumes ∧ s.partOf b = some p ∧ (s.part p).begun.isSome = true ∧ (s.part p).gaps = []) ∧
   (∃ (b : BankId) (x : Label) (s : State),
      let s1 := advanceTo x s
      let resumes := (s1.bank b).softDone = true ∧ frameOf x = x ∧ (s1.bank b).softAt + 9 * ticksPerCore + (s1.now -
        x) ≤ s1.elapsed + 1
      (¬ resumes)) :=
  ⟨⟨0, 0, { up with pending := [.secondBoundary] }, by decide⟩,
   ⟨0, modBank 0 (fun x => { x with softRun := true }) up, by decide⟩,
   ⟨0, State.reset, by decide⟩,
   ⟨0, 51200000000, modBank 0 (fun x => { x with softDone := true }) up, by decide⟩,
   ⟨0, 0, modBank 0 (fun x => { x with softDone := true, softAt := 1 }) (modPart 0 (fun x =>
      { x with begun := some 0 }) (armed0 { up with elapsed := 100000 })), 0, by decide⟩,
   ⟨0, 0, State.reset, by decide⟩⟩

set_option maxRecDepth 40000 in
theorem meets_DetectorsPresentAndExpire :
   (∃ (d : DetId) (s : State),
      s.detPart d.val = none) ∧
   (∃ (d : DetId) (s : State) (p : Nat) (e : Ev) (r : List Ev),
      s.detPart d.val = some p ∧ (s.det d.val).events = e :: r ∧ s.flag (F.seqStatusRunning p) = true) ∧
   (∃ (d : DetId) (s : State) (p : Nat) (e : Ev) (r : List Ev),
      s.detPart d.val = some p ∧ (s.det d.val).events = e :: r ∧ s.flag (F.seqStatusRunning p) = false) ∧
   (∃ (d : DetId) (i : Instr) (at_ : Option Label) (s : State),
      (i, at_) ∈ [(Instr.timeoutExpiry d, s.timeoutAt d.val), (.skewExpiry d, s.skewAt d.val), (.patternLongerExpiry
        d, s.longerAt d.val)] ∧ (at_ = none ∨ s.detOn d.val = false)) ∧
   (∃ (d : DetId) (i : Instr) (at_ : Option Label) (s : State) (x : Nat),
      (i, at_) ∈ [(Instr.timeoutExpiry d, s.timeoutAt d.val), (.skewExpiry d, s.skewAt d.val), (.patternLongerExpiry
        d, s.longerAt d.val)] ∧ at_ = some x ∧ s.detOn d.val = true) :=
  ⟨⟨0, State.reset, by decide⟩,
   ⟨0, setF (F.seqStatusRunning 0) 1 (modDet 0 (fun d =>
      { d with events := [{ sel := 0, time := 5, exact := true, sample := 80, aux := 0 }] }) (part0 up)), 0,
      { sel := 0, time := 5, exact := true, sample := 80, aux := 0 }, [], by decide⟩,
   ⟨0, modDet 0 (fun d => { d with events := [{ sel := 0, time := 5, exact := true, sample := 80, aux := 0 }] })
      (part0 up), 0, { sel := 0, time := 5, exact := true, sample := 80, aux := 0 }, [], by decide⟩,
   ⟨0, .timeoutExpiry 0, none, State.reset, by decide⟩,
   ⟨0, .timeoutExpiry 0, some 100, modDet 0 (fun d => { d with base := some 0 }) (setsL [(F.detCfgType 0, 5),
      (F.detCfgEn 0, 1), (F.detLim1LoLim1 0, 100)] (modPart 0 (fun x => { x with begun := some 0 }) (armed0 up))),
      100, by decide⟩⟩

set_option maxRecDepth 40000 in
theorem meets_SequencersTakeSamplesTimersAndFlags :
   (∃ (p : PartId) (s : State),
      ((s.seq p).running = false ∨ (s.seq p).stopped = true ∨ s.noCore = true)) ∧
   (∃ (p : PartId) (s : State),
      (s.seq p).running = true ∧ (s.seq p).stopped = false ∧ s.noCore = false) ∧
   (∃ (f : FnId) (s : State) (k : Nat),
      s.carriesOut f 0x2C040 = true ∧ k < 8) :=
  ⟨⟨0, State.reset, by decide⟩,
   ⟨0, modSeq 0 (fun q => { q with running := true }) up, by decide⟩,
   ⟨0, { up with pending := [.secondBoundary] }, 0, by decide⟩⟩

set_option maxRecDepth 40000 in
theorem meets_TimePairsSpellTheTime :
   (∃ (t : Label) (rest : Nat),
      t < 2 ^ 40 * ticksPerSecond ∧ rest < 2 ^ 48) ∧
   (∃ (rest : Nat),
      rest < 2 ^ 48) :=
  ⟨⟨0, 5, by decide⟩,
   ⟨5, by decide⟩⟩

set_option maxRecDepth 40000 in
theorem meets_BoundariesBeginIntervalsAndApplyFields :
   (∃ (p : PartId) (s : State),
      ((s.part p).armed = false ∨ s.noCore = true)) ∧
   (∃ (p : PartId) (s : State),
      (s.part p).armed = true ∧ s.noCore = false ∧ (s.part p).begun = none) ∧
   (∃ (p : PartId) (s : State),
      (s.part p).armed = true ∧ s.noCore = false ∧ (s.part p).begun ≠ none) ∧
   (∃ (x : Label),
      frameOf x ≠ x) ∧
   (∃ (x : Label) (s : State) (b : Nat),
      frameOf x = x ∧ (∀ p, p < 8 → (s.part p).begun = none ∧ (s.part p).gaps = []) ∧ b < 8) ∧
   (∃ (x : Label) (s : State) (b : Nat),
      frameOf x = x ∧ (∀ p, p < 8 → (s.part p).begun = none ∧ (s.part p).gaps = []) ∧ s.noCore = false ∧ (∀ b, b < 8 →
        spGet 0 (stagedKey (.encCtrl b)) s.stamps = 0) ∧ b < 8) :=
  ⟨⟨0, State.reset, by decide⟩,
   ⟨0, armed0 up, by decide⟩,
   ⟨0, modDet 0 (fun d => { d with base := some 0 }) (setsL [(F.detCfgType 0, 5), (F.detCfgEn 0, 1), (F.detLim1LoLim1
      0, 100)] (modPart 0 (fun x => { x with begun := some 0 }) (armed0 up))), by decide⟩,
   ⟨80, by decide⟩,
   ⟨0, up, 7, ⟨by decide, below8 (by decide), by decide⟩⟩,
   ⟨0, up, 7, ⟨by decide, below8 (by decide), by decide, below8 (by decide), by decide⟩⟩⟩

set_option maxRecDepth 40000 in
theorem meets_SegmentAndDeliveryMarks :
   (∃ (p : PartId) (q : Nat),
      q ≠ p.val) ∧
   (∃ (p : PartId) (s : State),
      let ns := (s.earlyPorts p).map s.portBacklog
      let keeps := ns = [] ∨ s.mgmt.scarabDown = true ∨ s.flag (F.partEarlyCfgThrottleOverride p) = true
      keeps) ∧
   (∃ (p : PartId) (s : State),
      let lim := s.getF (F.partEarlyCfgEarlyBacklog p)
      let ns := (s.earlyPorts p).map s.portBacklog
      let keeps := ns = [] ∨ s.mgmt.scarabDown = true ∨ s.flag (F.partEarlyCfgThrottleOverride p) = true
      (¬ keeps) ∧ (lim = 0 ∨ ∃ n ∈ ns, lim < n)) ∧
   (∃ (p : PartId) (s : State),
      let lim := s.getF (F.partEarlyCfgEarlyBacklog p)
      let ns := (s.earlyPorts p).map s.portBacklog
      let keeps := ns = [] ∨ s.mgmt.scarabDown = true ∨ s.flag (F.partEarlyCfgThrottleOverride p) = true
      (¬ keeps) ∧ lim ≠ 0 ∧ (∀ n ∈ ns, n ≤ lim / 2)) ∧
   (∃ (p : PartId) (s : State),
      let lim := s.getF (F.partEarlyCfgEarlyBacklog p)
      let ns := (s.earlyPorts p).map s.portBacklog
      lim ≠ 0 ∧ (∀ n ∈ ns, n ≤ lim) ∧ (∃ n ∈ ns, lim / 2 < n)) ∧
   (∃ (f : FnId) (pair : PairId) (s : State),
      s.getF (F.rcModModTime f pair) ≠ 0) ∧
   (∃ (f : FnId) (pair : PairId) (s : State),
      (s.getF (F.rcModModTime f pair) = 0 ∨ (s.pair f pair).unsignalled = 0)) ∧
   (∃ (p : PartId) (s : State),
      s.exists_ p = true ∧ s.orphan p = true) ∧
   (∃ (p : PartId) (s : State),
      (s.exists_ p = false ∨ s.orphan p = false)) :=
  ⟨⟨0, 1, by decide⟩,
   ⟨0, State.reset, by decide⟩,
   ⟨0, modPart 0 (fun x => { x with ownerPair := some 1 }) (modPair 0 1 (fun x =>
      { x with delivery := some { part := 0 } }) (setF (F.partEarlyCfgEarlyBacklog 0) 0 (part0 up))), by decide⟩,
   ⟨0, modPart 0 (fun x => { x with ownerPair := some 1 }) (modPair 0 1 (fun x =>
      { x with delivery := some { part := 0, queue := [0] } }) up), by decide⟩,
   ⟨0, modPart 0 (fun x =>
      { x with ownerPair := some 1, segs := [{ seg with id := some 0, needed := [(1, 0)] }], writePos := 64, held := [0] })
      (modPair 0 1 (fun x => { x with delivery := some { part := 0 } }) (setF (F.partEarlyCfgEarlyBacklog 0) 1 (part0
      up))), by decide⟩,
   ⟨0, 7, modPair 0 7 (fun x => { x with unsignalled := 1 }) (setF (F.rcModModTime 0 7) 1 up), by decide⟩,
   ⟨0, 0, State.reset, by decide⟩,
   ⟨0, setF (F.partStatusOrphan 0) 1 (part0 up), by decide⟩,
   ⟨0, State.reset, by decide⟩⟩

set_option maxRecDepth 40000 in
theorem meets_SegmentsMoveOn :
   (∃ (p : PartId) (s u : State),
      u = resolveEnds p (s.part p).blockAt s ∧ (u.part p).posts.find? (u.filled p) = none) ∧
   (∃ (p : PartId) (s u : State) (g : Seg),
      u = resolveEnds p (s.part p).blockAt s ∧ (u.part p).posts.find? (u.filled p) = some g) ∧
   (∃ (p : PartId) (x : Label) (s : State),
      let opens := s.continuous p = true ∧ (s.part p).armed = true ∧ (∃ e, (s.part p).contE = some e ∧ e < x) ∧ ∀ g ∈
        (s.part p).posts, g.start.isSome = true
      opens) ∧
   (∃ (p : PartId) (x : Label) (s : State),
      let opens := s.continuous p = true ∧ (s.part p).armed = true ∧ (∃ e, (s.part p).contE = some e ∧ e < x) ∧ ∀ g ∈
        (s.part p).posts, g.start.isSome = true
      (¬ opens)) ∧
   (∃ (f : FnId) (pair : PairId) (s : State) (d : Delivery) (g : Seg),
      let id := f.val * 8 + pair.val
      s.servesEarly id = true ∧ s.delivery id = some d ∧ s.earlySeg id d = some g) ∧
   (∃ (f : FnId) (pair : PairId) (s : State),
      let id := f.val * 8 + pair.val
      s.servesEarly id = false) ∧
   (∃ (f : FnId) (pair : PairId) (s : State),
      let id := f.val * 8 + pair.val
      s.servesReadBack id = true) ∧
   (∃ (f : FnId) (pair : PairId) (s : State),
      let id := f.val * 8 + pair.val
      s.servesReadBack id = false ∧ s.servesCommitted id = false) ∧
   (∃ (f : FnId) (pair : PairId) (s : State) (d : Delivery),
      let id := f.val * 8 + pair.val
      s.servesReadBack id = false ∧ s.servesCommitted id = true ∧ s.delivery id = some d) ∧
   (∃ (f : FnId) (s : State),
      s.dmaOn f = false) ∧
   (∃ (f : FnId) (pair : PairId) (s : State),
      let now := (s.delivery (f.val * 8 + pair.val)).bind Delivery.now
      s.dmaOn f = true ∧ now = none) ∧
   (∃ (f : FnId) (pair : PairId) (s : State) (d : Delivery) (k : Nat),
      s.dmaOn f = true ∧ s.delivery (f.val * 8 + pair.val) = some d ∧ d.now = some k) :=
  ⟨⟨0, State.reset, State.reset, by decide⟩,
   ⟨0, modPart 0 (fun x => { x with segs := [{ seg with id := some 0 }], blockAt := 16000 }) up, modPart 0 (fun x =>
      { x with segs := [{ seg with id := some 0 }], blockAt := 16000 }) up, { seg with id := some 0 }, by decide⟩,
   ⟨0, 80, modPart 0 (fun x => { x with contE := some 5 }) (setL (F.partModeContinuous 0) 1 (armed0 up)), by decide⟩,
   ⟨0, 0, State.reset, by decide⟩,
   ⟨0, 1, setL (F.partModeEarlyEn 0) 1 (modPart 0 (fun x =>
      { x with entries := [.larval 0], segs := [{ seg with start := some 0 }], storedTo := 80 }) (modPair 0 1 (fun x
      =>
      { x with fetched := [{ index := 0, addr := 0x1000, size := 4096 }], delivery := some { part := 0, now := some 0 } })
      (capture 1 up))), { part := 0, now := some 0 }, { seg with start := some 0 }, by decide⟩,
   ⟨0, 0, State.reset, by decide⟩,
   ⟨0, 1, modPair 0 1 (fun x =>
      { x with fetched := [{ index := 0, addr := 0x1000, size := 4096 }], readBacks := [{ cmd := cmd, part := 0, recs := [(0, { bank := none, first := 0, last := 0, words := [0] })] }] })
      (capture 1 up), by decide⟩,
   ⟨0, 0, State.reset, by decide⟩,
   ⟨0, 1, modPart 0 (fun x => { x with segs := [{ seg with id := some 0, imago := true, len := 12 }] }) (modPair 0 1
      (fun x =>
      { x with fetched := [{ index := 0, addr := 0x1000, size := 4096 }], delivery := some { part := 0, queue := [0] } })
      (capture 1 up)), { part := 0, queue := [0] }, by decide⟩,
   ⟨0, State.reset, by decide⟩,
   ⟨0, 0, { up with pending := [.secondBoundary] }, by decide⟩,
   ⟨0, 1, setL (F.partModeEarlyEn 0) 1 (modPart 0 (fun x =>
      { x with entries := [.larval 0], segs := [{ seg with start := some 0 }], storedTo := 80 }) (modPair 0 1 (fun x
      => { x with delivery := some { part := 0, now := some 0 } }) (capture 1 up))), { part := 0, now := some 0 }, 0,
      by decide⟩⟩

set_option maxRecDepth 40000 in
theorem meets_PseudoChannelsRetire :
   (∃ (n : PcId) (cause : Fin 3) (s : State),
      let goes := s.flag F.memStatusTrained = true ∧ s.pcRetired n = false ∧ (∀ e ∈ s.mgmt.retiring, e.1 ≠ n.val) ∧
        (cause = 0 → s.getF F.memCtrlRetireUe ≤ s.ueCount n)
      goes) ∧
   (∃ (n : PcId) (cause : Fin 3) (s : State),
      let goes := s.flag F.memStatusTrained = true ∧ s.pcRetired n = false ∧ (∀ e ∈ s.mgmt.retiring, e.1 ≠ n.val) ∧
        (cause = 0 → s.getF F.memCtrlRetireUe ≤ s.ueCount n)
      (¬ goes)) ∧
   (∃ (n : PcId) (us : Nat) (s : State),
      let goes := s.flag F.memStatusTrained = true ∧ s.pcRetired n = false ∧ (∀ e ∈ s.mgmt.retiring, e.1 ≠ n.val) ∧
        100 < us
      goes) ∧
   (∃ (n : PcId) (us : Nat) (s : State),
      let goes := s.flag F.memStatusTrained = true ∧ s.pcRetired n = false ∧ (∀ e ∈ s.mgmt.retiring, e.1 ≠ n.val) ∧
        100 < us
      (¬ goes)) ∧
   (∃ (f : FnId) (v : Word) (s : State),
      let n := bitsOf v.toNat 0 6
      let asks := v.getLsbD 31 = true ∧ s.flag F.memStatusTrained = true
      let refuses := s.pcRetired n = true ∨ s.getF F.memCapPcActive < 43 + s.mgmt.retiring.length
      s.carriesOut f 0x50018 = true ∧ asks ∧ (¬ refuses) ∧ (∀ e ∈ s.mgmt.retiring, e.1 ≠ n)) ∧
   (∃ (f : FnId) (v : Word) (s : State),
      let n := bitsOf v.toNat 0 6
      let asks := v.getLsbD 31 = true ∧ s.flag F.memStatusTrained = true
      let refuses := s.pcRetired n = true ∨ s.getF F.memCapPcActive < 43 + s.mgmt.retiring.length
      s.carriesOut f 0x50018 = true ∧ asks ∧ refuses) ∧
   (∃ (f : FnId) (v : Word) (s : State),
      let asks := v.getLsbD 31 = true ∧ s.flag F.memStatusTrained = true
      s.carriesOut f 0x50018 = true ∧ (¬ asks)) ∧
   (∃ (s : State),
      s.flag F.memStatusTrained = true ∧ s.getF F.memCtrlScrubHours ≠ 0) ∧
   (∃ (s : State),
      s.mgmt.retiring = []) ∧
   (∃ (s : State),
      s.mgmt.retiring ≠ []) :=
  ⟨⟨63, 2, { up with pending := [.secondBoundary] }, by decide⟩,
   ⟨63, 0, State.reset, by decide⟩,
   ⟨63, 101, { up with pending := [.secondBoundary] }, by decide⟩,
   ⟨63, 0, State.reset, by decide⟩,
   ⟨0, 0x80000005, { up with pending := [.secondBoundary] }, by decide⟩,
   ⟨0, 0x80000005, sets [(F.memCapPcActive, 42)] up, by decide⟩,
   ⟨0, 0, { up with pending := [.secondBoundary] }, by decide⟩,
   ⟨{ up with pending := [.secondBoundary] }, by decide⟩,
   ⟨State.reset, by decide⟩,
   ⟨withMgmt (fun m => { m with retiring := [(3, 0)] }) up, by decide⟩⟩

set_option maxRecDepth 40000 in
theorem meets_RebalanceAndResume :
   (∃ (s : State),
      (s.flag F.memCtrlRebalEn = false ∨ s.mgmt.scarabDown = true ∨ s.flag F.memStatusTrained = false)) ∧
   (∃ (s : State),
      s.flag F.memCtrlRebalEn = true ∧ s.mgmt.scarabDown = false ∧ s.flag F.memStatusTrained = true ∧ (∀ p, p < 8 →
        (s.part p).armed = true → s.inStaging p = false → s.ringPages p ≤ (s.part p).ringNow)) ∧
   (∃ (p : PartId) (x : Label) (s u : State),
      let resumes := (u.part p).begun.isSome = true ∧ (u.part p).gaps ≠ [] ∧ u.onBlock p x = true ∧ u.heldBack p =
        false
      u = blocksTo p x (advanceTo x s) ∧ (¬ resumes)) ∧
   (∃ (p : PartId) (x : Label) (s u : State),
      let resumes := (u.part p).begun.isSome = true ∧ (u.part p).gaps ≠ [] ∧ u.onBlock p x = true ∧ u.heldBack p =
        false
      let waits := u.mgmt.eclosing = true ∧ u.inStaging p = true
      u = blocksTo p x (advanceTo x s) ∧ resumes ∧ (¬ waits)) ∧
   (∃ (p : PartId) (x : Label) (s u : State),
      let resumes := (u.part p).begun.isSome = true ∧ (u.part p).gaps ≠ [] ∧ u.onBlock p x = true ∧ u.heldBack p =
        false
      let waits := u.mgmt.eclosing = true ∧ u.inStaging p = true
      u = blocksTo p x (advanceTo x s) ∧ resumes ∧ waits ∧ u.inEclosion p = false) ∧
   (∃ (p : PartId) (x : Label) (s u : State),
      let resumes := (u.part p).begun.isSome = true ∧ (u.part p).gaps ≠ [] ∧ u.onBlock p x = true ∧ u.heldBack p =
        false
      let waits := u.mgmt.eclosing = true ∧ u.inStaging p = true
      u = blocksTo p x (advanceTo x s) ∧ resumes ∧ waits ∧ u.inEclosion p = true) :=
  ⟨⟨State.reset, by decide⟩,
   ⟨setF F.memCtrlRebalEn 1 up, ⟨by decide, by decide, by decide, below8 (by decide)⟩⟩,
   ⟨0, 0, State.reset, State.reset, by decide⟩,
   ⟨0, 0, modPart 0 (fun x =>
      { x with begun := some 0, reduced := true, gaps := [{ reason := 1, detail := 0, from_ := 0 }] }) (armed0
      ({ up with elapsed := 100000 })), _, ⟨rfl, by decide⟩⟩,
   ⟨0, 0, modPart 0 (fun x =>
      { x with begun := some 0, reduced := true, gaps := [{ reason := 1, detail := 0, from_ := 0 }] }) (armed0
      (withMgmt (fun m => { m with eclosing := true, eclosed := false }) { up with elapsed := 100000 })), _, ⟨rfl, by
      decide⟩⟩,
   ⟨0, 0, modPart 0 (fun x =>
      { x with begun := some 0, reduced := true, gaps := [{ reason := 7, detail := 0, from_ := 0 }] }) (armed0
      (withMgmt (fun m => { m with eclosing := true, eclosed := false }) { up with elapsed := 100000 })), _, ⟨rfl, by
      decide⟩⟩⟩

set_option maxRecDepth 40000 in
theorem meets_PartitionCommandsAreGated :
   (∃ (c : Cmd) (p st : Nat) (s : State),
      c.index < 65536 ∧ s.partGate c.fn p true = some st) ∧
   (∃ (c : Cmd) (p st : Nat) (s : State),
      c.index < 65536 ∧ s.partGate c.fn p false = some st) :=
  ⟨⟨cmd, 0, stInvalidField, State.reset, by decide⟩,
   ⟨cmd, 0, stInvalidField, State.reset, by decide⟩⟩

set_option maxRecDepth 40000 in
theorem meets_PartitionsAreCreated :
   (∃ (c : Cmd) (p : Nat) (banks : BitVec 8) (ring : Nat) (mode : BitVec 8) (contFrames pretrig posttrig : Nat) (s :
      State),
      let fits := p ≤ 7 ∧ s.exists_ p = false ∧ (∀ e ∈ s.mgmt.orphans, e.1 ≠ p) ∧ banks ≠ 0 ∧ (∀ b, b < 8 →
        banks.getLsbD b = true → s.partOf b = none ∧ s.bankDisabled b = false) ∧ s.ringFree c.fn ring = true ∧
        mode.toNat < 64 ∧ 1 ≤ contFrames ∧ contFrames ≤ 32000 ∧ pretrig < 2 ^ 48 ∧ posttrig < 2 ^ 48
      let waits := s.anyPart = false ∧ (s.domainOff 28 = true ∨ s.clk.creating ≠ [])
      c.index < 65536 ∧ fits ∧ (¬ waits)) ∧
   (∃ (c : Cmd) (p : Nat) (banks : BitVec 8) (ring : Nat) (mode : BitVec 8) (contFrames pretrig posttrig : Nat) (s :
      State),
      let fits := p ≤ 7 ∧ s.exists_ p = false ∧ (∀ e ∈ s.mgmt.orphans, e.1 ≠ p) ∧ banks ≠ 0 ∧ (∀ b, b < 8 →
        banks.getLsbD b = true → s.partOf b = none ∧ s.bankDisabled b = false) ∧ s.ringFree c.fn ring = true ∧
        mode.toNat < 64 ∧ 1 ≤ contFrames ∧ contFrames ≤ 32000 ∧ pretrig < 2 ^ 48 ∧ posttrig < 2 ^ 48
      let waits := s.anyPart = false ∧ (s.domainOff 28 = true ∨ s.clk.creating ≠ [])
      c.index < 65536 ∧ fits ∧ waits) ∧
   (∃ (c : Cmd) (p : Nat) (banks : BitVec 8) (ring : Nat) (mode : BitVec 8) (contFrames pretrig posttrig : Nat) (s :
      State),
      let fits := p ≤ 7 ∧ s.exists_ p = false ∧ (∀ e ∈ s.mgmt.orphans, e.1 ≠ p) ∧ banks ≠ 0 ∧ (∀ b, b < 8 →
        banks.getLsbD b = true → s.partOf b = none ∧ s.bankDisabled b = false) ∧ s.ringFree c.fn ring = true ∧
        mode.toNat < 64 ∧ 1 ≤ contFrames ∧ contFrames ≤ 32000 ∧ pretrig < 2 ^ 48 ∧ posttrig < 2 ^ 48
      c.index < 65536 ∧ (¬ fits)) :=
  ⟨⟨cmd, 7, 0x80, 1, 0, 32000, 0, 0, modPair 0 1 (fun x =>
      { x with readBacks := [{ cmd := cmd, part := 0, recs := [] }] }) (capture 1 up), by decide⟩,
   ⟨cmd, 7, 0x80, 1, 0, 32000, 0, 0, setF (F.pwrStatState 28) 3 (capture 1 up), by decide⟩,
   ⟨cmd, 7, 0x80, 1, 0, 32000, 0, 0, State.reset, by decide⟩⟩

set_option maxRecDepth 40000 in
theorem meets_PartitionsEndAndTrigger :
   (∃ (c : Cmd) (p : Nat) (s : State),
      c.index < 65536 ∧ s.partGate c.fn p true = none) ∧
   (∃ (c : Cmd) (p : Nat) (s : State),
      c.index < 65536 ∧ s.partGate c.fn p false = none ∧ (s.part p).armed = true) ∧
   (∃ (c : Cmd) (p : Nat) (s : State),
      c.index < 65536 ∧ s.partGate c.fn p false = none ∧ (s.part p).armed = false) :=
  ⟨⟨cmd, 0, armed0 up, by decide⟩,
   ⟨cmd, 0, armed0 up, by decide⟩,
   ⟨cmd, 0, setF F.csStatusOutputsGated 1 (modPart 0 (fun x => { x with begun := some 0 }) (part0 up)), by decide⟩⟩

set_option maxRecDepth 40000 in
theorem meets_ArmCompletesOrWaits :
   (∃ (c : Cmd) (p st : Nat) (s u : State),
      c.index < 65536 ∧ armRefusal c.fn p (s.soon p) s = (some st, u)) ∧
   (∃ (c : Cmd) (p : Nat) (s u v : State),
      c.index < 65536 ∧ armRefusal c.fn p (s.soon p) s = (none, u) ∧ v = each clearAuto (u.banksOf p) (applyArm p u) ∧
        v.autoBanks p = []) ∧
   (∃ (c : Cmd) (p : Nat) (s u v : State),
      c.index < 65536 ∧ armRefusal c.fn p (s.soon p) s = (none, u) ∧ v = each clearAuto (u.banksOf p) (applyArm p u) ∧
        v.autoBanks p ≠ []) ∧
   (∃ (c : Cmd) (p : PartId) (swings : List (Nat × Option Nat × Option Nat)) (s u : State),
      c.index < 65536 ∧ (s.part p).arming = some c ∧ u = each (autoBank swings) (s.autoBanks p) s) ∧
   (∃ (p : PartId) (s : State),
      (s.part p).arming = none) :=
  ⟨⟨cmd, 0, stInvalidField, up, _, ⟨by decide, rfl⟩⟩,
   ⟨cmd, 0, armable, (armRefusal 0 0 (armable.soon 0) armable).2, _, ⟨by decide, Prod.ext (by decide) rfl, rfl, by
      decide⟩⟩,
   ⟨cmd, 0, autoArmable, (armRefusal 0 0 (autoArmable.soon 0) autoArmable).2, _, ⟨by decide, Prod.ext (by decide)
      rfl, rfl, by decide⟩⟩,
   ⟨cmd, 0, [], modPart 0 (fun x => { x with arming := some cmd }) (part0 up), modPart 0 (fun x =>
      { x with arming := some cmd }) (part0 up), by decide⟩,
   ⟨0, State.reset, by decide⟩⟩

set_option maxRecDepth 40000 in
theorem meets_BankConfigGoesThroughSlowAccess :
   (∃ (c : Cmd) (bank : Nat) (flags : BitVec 8) (mask : BitVec 64) (image : List Word) (s : State),
      let passes := bank ≤ 7 ∧ flags.toNat ≠ 0 ∧ flags.toNat < 4 ∧ s.mayConfig c.fn bank = true ∧ (s.reducedService =
        false ∨ bank < 2) ∧ s.bankDisabled bank = false ∧ s.domainOff (10 + bank) = false ∧ ∀ r ∈ bankRegs bank flags
        mask, r.rangeOk (image.getD ((r.off - (0x10000 + bank * 0x2000)) / 4) 0) = true
      c.index < 65536 ∧ passes ∧ bankRegs bank flags mask ≠ []) ∧
   (∃ (c : Cmd) (bank : Nat) (flags : BitVec 8) (mask : BitVec 64) (image : List Word) (s : State),
      let passes := bank ≤ 7 ∧ flags.toNat ≠ 0 ∧ flags.toNat < 4 ∧ s.mayConfig c.fn bank = true ∧ (s.reducedService =
        false ∨ bank < 2) ∧ s.bankDisabled bank = false ∧ s.domainOff (10 + bank) = false ∧ ∀ r ∈ bankRegs bank flags
        mask, r.rangeOk (image.getD ((r.off - (0x10000 + bank * 0x2000)) / 4) 0) = true
      c.index < 65536 ∧ passes ∧ bankRegs bank flags mask = []) ∧
   (∃ (c : Cmd) (bank : Nat) (flags : BitVec 8) (mask : BitVec 64) (image : List Word) (s : State),
      let passes := bank ≤ 7 ∧ flags.toNat ≠ 0 ∧ flags.toNat < 4 ∧ s.mayConfig c.fn bank = true ∧ (s.reducedService =
        false ∨ bank < 2) ∧ s.bankDisabled bank = false ∧ s.domainOff (10 + bank) = false ∧ ∀ r ∈ bankRegs bank flags
        mask, r.rangeOk (image.getD ((r.off - (0x10000 + bank * 0x2000)) / 4) 0) = true
      c.index < 65536 ∧ (¬ passes)) :=
  ⟨⟨cmd, 7, 2, 0x8000000000000001, List.replicate 2048 0, { up with pending := [.secondBoundary] }, by decide⟩,
   ⟨cmd, 7, 2, 0, List.replicate 2048 0, { up with pending := [.secondBoundary] }, by decide⟩,
   ⟨cmd, 7, 0, 0x8000000000000001, List.replicate 2048 0, State.reset, by decide⟩⟩

set_option maxRecDepth 40000 in
theorem meets_LoadsAreAllOrNone :
   (∃ (c : Cmd) (flags : BitVec 8) (entries : List (Nat × List Word)),
      let fits := flags.toNat < 2 ∧ entries ≠ [] ∧ entries.length ≤ 136
      c.index < 65536 ∧ (¬ fits)) ∧
   (∃ (c : Cmd) (p : Nat) (flags : BitVec 8) (entries : List (Nat × List Word)) (s : State) (st : Nat),
      let fits := flags.toNat < 2 ∧ entries ≠ [] ∧ entries.length ≤ 136
      c.index < 65536 ∧ fits ∧ s.partGate c.fn p false = some st) ∧
   (∃ (c : Cmd) (p : Nat) (flags : BitVec 8) (entries : List (Nat × List Word)) (bad : Option Nat) (s : State) (i st :
      Nat),
      let fits := flags.toNat < 2 ∧ entries ≠ [] ∧ entries.length ≤ 136
      c.index < 65536 ∧ fits ∧ s.partGate c.fn p false = none ∧ firstBadDet p bad (takeParams c s) 0 [] entries = some
        (i, st)) ∧
   (∃ (c : Cmd) (p : Nat) (flags : BitVec 8) (entries : List (Nat × List Word)) (bad : Option Nat) (s : State),
      let fits := flags.toNat < 2 ∧ entries ≠ [] ∧ entries.length ≤ 136
      c.index < 65536 ∧ fits ∧ s.partGate c.fn p false = none ∧ firstBadDet p bad (takeParams c s) 0 [] entries = none) ∧
   (∃ (c : Cmd) (p : Nat) (flags : BitVec 8) (s : State),
      let fits := flags.toNat ≠ 0 ∧ flags.toNat < 4 ∧ s.partGate c.fn p false = none
      c.index < 65536 ∧ (¬ fits)) ∧
   (∃ (c : Cmd) (p : Nat) (flags : BitVec 8) (levels : BitVec 16) (image : List Word) (s : State) (o : Nat),
      let fits := flags.toNat ≠ 0 ∧ flags.toNat < 4 ∧ s.partGate c.fn p false = none
      let ws := seqImage p flags levels image
      let refusedAt := ((ws.filter fun e => !e.2.1.rangeOk e.2.2).map Prod.fst ++ ((stageAll ws (takeParams c
        s)).seqBadWord p).toList).min?
      c.index < 65536 ∧ fits ∧ refusedAt = some o) ∧
   (∃ (c : Cmd) (p : Nat) (flags : BitVec 8) (levels : BitVec 16) (image : List Word) (s : State),
      let fits := flags.toNat ≠ 0 ∧ flags.toNat < 4 ∧ s.partGate c.fn p false = none
      let ws := seqImage p flags levels image
      let refusedAt := ((ws.filter fun e => !e.2.1.rangeOk e.2.2).map Prod.fst ++ ((stageAll ws (takeParams c
        s)).seqBadWord p).toList).min?
      c.index < 65536 ∧ fits ∧ refusedAt = none) ∧
   (∃ (c : Cmd) (p : Nat) (select : BitVec 8) (s : State),
      let fits := select.toNat ≠ 0 ∧ select.toNat < 32 ∧ s.partGate c.fn p true = none ∧ (select.getLsbD 3 = false ∨
        isPf c.fn = true)
      c.index < 65536 ∧ (¬ fits)) ∧
   (∃ (c : Cmd) (p : Nat) (select : BitVec 8) (block : List Word) (s : State) (o : Nat),
      let s1 := takeParams c s
      let fits := select.toNat ≠ 0 ∧ select.toNat < 32 ∧ s.partGate c.fn p true = none ∧ (select.getLsbD 3 = false ∨
        isPf c.fn = true)
      let ws := policyWords p select (s1.banksOf p) fun k => block.getD k 0
      c.index < 65536 ∧ fits ∧ s1.policyBad p ws (fun k => block.getD k 0) = some o) ∧
   (∃ (c : Cmd) (p : Nat) (select : BitVec 8) (block : List Word) (s : State),
      let s1 := takeParams c s
      let fits := select.toNat ≠ 0 ∧ select.toNat < 32 ∧ s.partGate c.fn p true = none ∧ (select.getLsbD 3 = false ∨
        isPf c.fn = true)
      let ws := policyWords p select (s1.banksOf p) fun k => block.getD k 0
      c.index < 65536 ∧ fits ∧ s1.policyBad p ws (fun k => block.getD k 0) = none) :=
  ⟨⟨cmd, 0, [], by decide⟩,
   ⟨cmd, 0, 0, [(0, List.replicate 16 0)], State.reset, stInvalidField, by decide⟩,
   ⟨cmd, 0, 0, [(200, [])], none, part0 up, 0, stInvalidField, by decide⟩,
   ⟨cmd, 0, 0, [(0, List.replicate 16 0)], none, armed0 up, by decide⟩,
   ⟨cmd, 0, 0, State.reset, by decide⟩,
   ⟨cmd, 0, 2, 1, List.replicate 128 0, armed0 up, 0x200, by decide⟩,
   ⟨cmd, 0, 1, 0, List.replicate 128 0, armed0 up, by decide⟩,
   ⟨cmd, 0, 0, State.reset, by decide⟩,
   ⟨cmd, 0, 1, List.replicate 32 0xFFFFFFFF, armed0 up, 4, by decide⟩,
   ⟨cmd, 0, 1, List.replicate 32 0, armed0 up, by decide⟩⟩

set_option maxRecDepth 40000 in
theorem meets_GrantTokensLive :
   (∃ (c : Cmd) (p : Nat) (modes : BitVec 8) (target : BitVec 16) (s : State),
      let fits := modes.toNat ≠ 0 ∧ modes.toNat < 4 ∧ targetOk target.toNat = true
      c.index < 65536 ∧ s.partGate c.fn p true = none ∧ (¬ fits)) ∧
   (∃ (c : Cmd) (p : Nat) (modes : BitVec 8) (target : BitVec 16) (s : State),
      let fits := modes.toNat ≠ 0 ∧ modes.toNat < 4 ∧ targetOk target.toNat = true
      c.index < 65536 ∧ s.partGate c.fn p true = none ∧ fits ∧ 8 ≤ (s.part p).tokens.length) ∧
   (∃ (c : Cmd) (p : Nat) (modes : BitVec 8) (target : BitVec 16) (s : State),
      let fits := modes.toNat ≠ 0 ∧ modes.toNat < 4 ∧ targetOk target.toNat = true
      c.index < 65536 ∧ s.partGate c.fn p true = none ∧ fits ∧ (s.part p).tokens.length < 8) ∧
   (∃ (c : Cmd) (p : Nat) (s : State),
      c.index < 65536 ∧ s.partGate c.fn p true = none) ∧
   (∃ (c : Cmd) (p : Nat) (s : State),
      c.index < 65536 ∧ s.partGate c.fn p true = none) :=
  ⟨⟨cmd, 0, 0, 0, armed0 up, by decide⟩,
   ⟨cmd, 0, 1, 0, modPart 0 (fun x =>
      { x with tokens := List.replicate 8 { value := 9, modes := 1, target := 0xFFFF } }) (part0 up), by decide⟩,
   ⟨cmd, 0, 1, 0, armed0 up, by decide⟩,
   ⟨cmd, 0, armed0 up, by decide⟩,
   ⟨cmd, 0, armed0 up, by decide⟩⟩

set_option maxRecDepth 40000 in
theorem meets_SubscriptionsBindAndEnd :
   (∃ (c : Cmd) (s : State),
      c.index < 65536 ∧ s.lockedOut c.fn = true) ∧
   (∃ (c : Cmd) (p ring mode : Nat) (s : State),
      let names := s.exists_ p = true ∧ p ≤ 7 ∧ s.owns c.fn p = false ∧ s.ringFree c.fn ring = true ∧ mode < 2
      c.index < 65536 ∧ s.lockedOut c.fn = false ∧ (¬ names)) ∧
   (∃ (c : Cmd) (p ring mode : Nat) (s : State),
      let names := s.exists_ p = true ∧ p ≤ 7 ∧ s.owns c.fn p = false ∧ s.ringFree c.fn ring = true ∧ mode < 2
      c.index < 65536 ∧ s.lockedOut c.fn = false ∧ names) ∧
   (∃ (c : Cmd) (p ring mode : Nat) (s : State),
      let names := s.exists_ p = true ∧ p ≤ 7 ∧ s.owns c.fn p = false ∧ s.ringFree c.fn ring = true ∧ mode < 2
      c.index < 65536 ∧ s.lockedOut c.fn = false ∧ names ∧ 256 ≤ s.bindings) ∧
   (∃ (c : Cmd) (p ring mode : Nat) (s : State),
      let names := s.exists_ p = true ∧ p ≤ 7 ∧ s.owns c.fn p = false ∧ s.ringFree c.fn ring = true ∧ mode < 2
      c.index < 65536 ∧ s.lockedOut c.fn = false ∧ names ∧ s.bindings < 256) ∧
   (∃ (c : Cmd) (p ring : Nat) (s : State),
      c.index < 65536 ∧ (s.exists_ p = false ∨ 7 < p ∨ 7 < ring ∨ ∀ d, s.delivery (c.fn * 8 + ring) = some d → ¬
        (d.subscriber = true ∧ d.part = p ∧ d.ending = none))) ∧
   (∃ (c : Cmd) (p ring : Nat) (d : Delivery) (s : State),
      s.exists_ p = true ∧ p ≤ 7 ∧ ring < 8 ∧ s.delivery (c.fn * 8 + ring) = some d ∧ d.subscriber = true ∧ d.part = p
        ∧ d.ending = none ∧ d.now = none) ∧
   (∃ (c : Cmd) (s : State),
      c.index < 65536 ∧ s.lockedOut c.fn = true) ∧
   (∃ (c : Cmd) (p ring : Nat) (s : State),
      let names := s.exists_ p = true ∧ p ≤ 7 ∧ s.orphan p = true ∧ s.ringFree c.fn ring = true
      c.index < 65536 ∧ s.lockedOut c.fn = false ∧ (¬ names)) ∧
   (∃ (c : Cmd) (p ring token : Nat) (s : State),
      let names := s.exists_ p = true ∧ p ≤ 7 ∧ s.orphan p = true ∧ s.ringFree c.fn ring = true
      let newest := (s.part p).tokens.head?.map Token.value = some token
      c.index < 65536 ∧ s.lockedOut c.fn = false ∧ names ∧ (¬ newest)) ∧
   (∃ (c : Cmd) (p ring token : Nat) (s : State),
      let names := s.exists_ p = true ∧ p ≤ 7 ∧ s.orphan p = true ∧ s.ringFree c.fn ring = true
      let newest := (s.part p).tokens.head?.map Token.value = some token
      c.index < 65536 ∧ s.lockedOut c.fn = false ∧ names ∧ newest) :=
  ⟨⟨cmd, modFn 0 (fun x => { x with badGrants := 16 }) up, by decide⟩,
   ⟨cmd, 0, 1, 0, State.reset, by decide⟩,
   ⟨vfCmd, 0, 1, 0, sets [(F.rcCfgType 1 1, 1), (F.rcCfgEn 1 1, 1)] (modPart 0 (fun x =>
      { x with tokens := [{ value := 9, modes := 2, target := 0xFFFF }] }) (part0 up)), by decide⟩,
   ⟨vfCmd, 0, 1, 1, modPart 1 (fun x => { x with subs := List.range 256 }) (sets [(F.rcCfgType 1 1, 1), (F.rcCfgEn 1
      1, 1)] (part0 up)), by decide⟩,
   ⟨vfCmd, 0, 1, 0, sets [(F.rcCfgType 1 1, 1), (F.rcCfgEn 1 1, 1)] (modPart 0 (fun x =>
      { x with tokens := [{ value := 9, modes := 2, target := 0xFFFF }] }) (part0 up)), by decide⟩,
   ⟨cmd, 0, 1, State.reset, by decide⟩,
   ⟨cmd, 0, 7, { part := 0, subscriber := true }, modPair 0 7 (fun x =>
      { x with delivery := some { part := 0, subscriber := true } }) (part0 up), by decide⟩,
   ⟨cmd, modFn 0 (fun x => { x with badGrants := 16 }) up, by decide⟩,
   ⟨cmd, 0, 1, State.reset, by decide⟩,
   ⟨cmd, 0, 1, 0, setF (F.partStatusOrphan 0) 1 (modPart 0 (fun x =>
      { x with tokens := [{ value := 9, modes := 1, target := 0xFFFF }] }) (part0 (capture 1 up))), by decide⟩,
   ⟨cmd, 0, 1, 9, setF (F.partStatusOrphan 0) 1 (modPart 0 (fun x =>
      { x with tokens := [{ value := 9, modes := 1, target := 0xFFFF }] }) (part0 (capture 1 up))), by decide⟩⟩

set_option maxRecDepth 40000 in
theorem meets_ReadBacksWaitOnTheirRing :
   (∃ (c : Cmd) (p ring : Nat) (s : State) (st : Nat),
      let gate := s.readBackGate c.fn p ring (s.owns c.fn p || s.subscribes c.fn p)
      c.index < 65536 ∧ gate = some st) ∧
   (∃ (c : Cmd) (p ring segId epoch : Nat) (s : State),
      let gate := s.readBackGate c.fn p ring (s.owns c.fn p || s.subscribes c.fn p)
      let found := (s.part p).segs.find? fun g => g.imago && g.id == some segId && g.epoch % 65536 == epoch && (s.part
        p).whole g
      c.index < 65536 ∧ gate = none ∧ found = none) ∧
   (∃ (c : Cmd) (p ring segId epoch : Nat) (s : State) (g : Seg),
      let gate := s.readBackGate c.fn p ring (s.owns c.fn p || s.subscribes c.fn p)
      let found := (s.part p).segs.find? fun g => g.imago && g.id == some segId && g.epoch % 65536 == epoch && (s.part
        p).whole g
      c.index < 65536 ∧ gate = none ∧ found = some g ∧ pinPages p (if g.empty then [] else pageSpan ((s.part
        p).segFrom g) ((s.part p).segTo g)) s = none) ∧
   (∃ (c : Cmd) (p ring segId epoch : Nat) (s : State) (g : Seg),
      let gate := s.readBackGate c.fn p ring (s.owns c.fn p || s.subscribes c.fn p)
      let found := (s.part p).segs.find? fun g => g.imago && g.id == some segId && g.epoch % 65536 == epoch && (s.part
        p).whole g
      c.index < 65536 ∧ gate = none ∧ found = some g ∧ (pinPages p (if g.empty then [] else pageSpan ((s.part
        p).segFrom g) ((s.part p).segTo g)) s).isSome = true) ∧
   (∃ (c : Cmd) (p ring : Nat) (s : State) (st : Nat),
      let gate := s.readBackGate c.fn p ring (s.owns c.fn p || isPf c.fn)
      c.index < 65536 ∧ gate = some st) ∧
   (∃ (c : Cmd) (p ring start len : Nat) (s : State),
      let gate := s.readBackGate c.fn p ring (s.owns c.fn p || isPf c.fn)
      let lo := (s.part p).base + start
      let held := start % 64 = 0 ∧ len ≠ 0 ∧ len < 2 ^ 32 ∧ (s.part p).oldestPos ≤ lo ∧ lo + len * 64 ≤ (s.part
        p).writePos
      c.index < 65536 ∧ gate = none ∧ (¬ held)) ∧
   (∃ (c : Cmd) (p ring start len : Nat) (s : State),
      let gate := s.readBackGate c.fn p ring (s.owns c.fn p || isPf c.fn)
      let lo := (s.part p).base + start
      let held := start % 64 = 0 ∧ len ≠ 0 ∧ len < 2 ^ 32 ∧ (s.part p).oldestPos ≤ lo ∧ lo + len * 64 ≤ (s.part
        p).writePos
      c.index < 65536 ∧ gate = none ∧ held ∧ (s.part p).unheld = []) :=
  ⟨⟨cmd, 8, 1, up, stInvalidField, by decide⟩,
   ⟨cmd, 0, 1, 0, 1, modPart 0 (fun x =>
      { x with segs := [{ seg with id := some 0, imago := true, empty := true }] }) (part0 (capture 1 up)), by decide⟩,
   ⟨cmd, 0, 1, 0, 0, modPart 0 (fun x =>
      { x with segs := [{ seg with id := some 0, imago := true, start := some 0, endPos := 64 }], writePos := 64, unheld := [0] })
      (setL (F.memPartRingRingMin 0) 16 (setF F.memCapPagesAlloc 0 (part0 (capture 1 up)))),
      { seg with id := some 0, imago := true, start := some 0, endPos := 64 }, by decide⟩,
   ⟨cmd, 0, 1, 0, 0, modPart 0 (fun x =>
      { x with segs := [{ seg with id := some 0, imago := true, empty := true }] }) (part0 (capture 1 up)),
      { seg with id := some 0, imago := true, empty := true }, by decide⟩,
   ⟨cmd, 8, 1, up, stInvalidField, by decide⟩,
   ⟨cmd, 0, 1, 0, 0, setF (F.partStatusOrphan 0) 1 (modPart 0 (fun x =>
      { x with tokens := [{ value := 9, modes := 1, target := 0xFFFF }] }) (part0 (capture 1 up))), by decide⟩,
   ⟨cmd, 0, 1, 0, 1, modPart 0 (fun x => { x with writePos := 128, base := 64, held := [0] }) (part0 (capture 1 up)),
      by decide⟩⟩

set_option maxRecDepth 40000 in
theorem meets_CalibrateWaitsForItsBanks :
   (∃ (c : Cmd) (banks steps : BitVec 8) (timeout : Nat) (s : State),
      let fits := banks ≠ 0 ∧ steps.toNat ≠ 0 ∧ steps.toNat < 32 ∧ (steps.getLsbD 4 = true → timeout ≠ 0 ∧ timeout ≤
        255) ∧ (∀ b, b < 8 → banks.getLsbD b = true → s.mayConfig c.fn b = true) ∧ s.reducedService = false
      c.index < 65536 ∧ (¬ fits)) ∧
   (∃ (c : Cmd) (banks steps : BitVec 8) (timeout : Nat) (s : State),
      let fits := banks ≠ 0 ∧ steps.toNat ≠ 0 ∧ steps.toNat < 32 ∧ (steps.getLsbD 4 = true → timeout ≠ 0 ∧ timeout ≤
        255) ∧ (∀ b, b < 8 → banks.getLsbD b = true → s.mayConfig c.fn b = true) ∧ s.reducedService = false
      c.index < 65536 ∧ fits ∧ s.mgmt.scarabDown = true) ∧
   (∃ (c : Cmd) (banks steps : BitVec 8) (timeout : Nat) (s : State),
      let fits := banks ≠ 0 ∧ steps.toNat ≠ 0 ∧ steps.toNat < 32 ∧ (steps.getLsbD 4 = true → timeout ≠ 0 ∧ timeout ≤
        255) ∧ (∀ b, b < 8 → banks.getLsbD b = true → s.mayConfig c.fn b = true) ∧ s.reducedService = false
      let free := ∀ b, b < 8 → banks.getLsbD b = true → s.bankDisabled b = false ∧ s.calAllowed b = true
      c.index < 65536 ∧ fits ∧ s.mgmt.scarabDown = false ∧ (¬ free)) ∧
   (∃ (c : Cmd) (banks steps : BitVec 8) (timeout : Nat) (s : State),
      let fits := banks ≠ 0 ∧ steps.toNat ≠ 0 ∧ steps.toNat < 32 ∧ (steps.getLsbD 4 = true → timeout ≠ 0 ∧ timeout ≤
        255) ∧ (∀ b, b < 8 → banks.getLsbD b = true → s.mayConfig c.fn b = true) ∧ s.reducedService = false
      let free := ∀ b, b < 8 → banks.getLsbD b = true → s.bankDisabled b = false ∧ s.calAllowed b = true
      c.index < 65536 ∧ fits ∧ s.mgmt.scarabDown = false ∧ free) :=
  ⟨⟨cmd, 0, 1, 0, up, ⟨by decide, fun h => h.1 rfl⟩⟩,
   ⟨cmd, 1, 1, 0, withMgmt (fun m => { m with scarabDown := true }) up, ⟨by decide, ⟨by decide, by decide, by decide,
      by decide, below8 (by decide), by decide⟩, by decide⟩⟩,
   ⟨cmd, 1, 1, 0, setF F.pwrBankEnBankEn 0xFE up, ⟨by decide, ⟨by decide, by decide, by decide, by decide, below8 (by
      decide), by decide⟩, by decide, fun h => absurd (h 0 (by decide) (by decide)).1 (by decide)⟩⟩,
   ⟨cmd, 0x80, 1, 0, up, ⟨by decide, ⟨by decide, by decide, by decide, by decide, below8 (by decide), by decide⟩, by
      decide, below8 (by decide)⟩⟩⟩

set_option maxRecDepth 40000 in
theorem meets_QueriesAnswer :
   (∃ (c : Cmd),
      c.index < 65536) ∧
   (∃ (c : Cmd) (p : Nat) (s : State),
      c.index < 65536 ∧ (s.exists_ p = false ∨ 7 < p)) ∧
   (∃ (c : Cmd) (p : Nat) (s : State),
      let sees := s.owns c.fn p = true ∨ s.subscribes c.fn p = true ∨ isPf c.fn = true
      c.index < 65536 ∧ s.exists_ p = true ∧ p ≤ 7 ∧ (¬ sees)) ∧
   (∃ (c : Cmd) (p : Nat) (s : State),
      let sees := s.owns c.fn p = true ∨ s.subscribes c.fn p = true ∨ isPf c.fn = true
      c.index < 65536 ∧ s.exists_ p = true ∧ p ≤ 7 ∧ sees) ∧
   (∃ (c : Cmd) (item : Nat) (s : State),
      let is := timeItem item = false ∧ (s.item (c.fn / 128) item).isSome = true
      c.index < 65536 ∧ (¬ is)) ∧
   (∃ (c : Cmd) (item : Nat) (s : State),
      let sees := isPf c.fn = true ∨ ∃ p, s.itemPart item = some p ∧ (s.owns c.fn p = true ∨ s.subscribes c.fn p =
        true)
      let is := timeItem item = false ∧ (s.item (c.fn / 128) item).isSome = true
      c.index < 65536 ∧ is ∧ (¬ sees)) ∧
   (∃ (c : Cmd) (item : Nat) (s : State),
      let sees := isPf c.fn = true ∨ ∃ p, s.itemPart item = some p ∧ (s.owns c.fn p = true ∨ s.subscribes c.fn p =
        true)
      let is := timeItem item = false ∧ (s.item (c.fn / 128) item).isSome = true
      c.index < 65536 ∧ is ∧ sees ∧ (itemDomain item).map s.domainOff = some true) ∧
   (∃ (c : Cmd) (item : Nat) (s : State),
      let sees := isPf c.fn = true ∨ ∃ p, s.itemPart item = some p ∧ (s.owns c.fn p = true ∨ s.subscribes c.fn p =
        true)
      let is := timeItem item = false ∧ (s.item (c.fn / 128) item).isSome = true
      c.index < 65536 ∧ is ∧ sees ∧ (itemDomain item).map s.domainOff ≠ some true) :=
  ⟨⟨cmd, by decide⟩,
   ⟨cmd, 0, State.reset, by decide⟩,
   ⟨vfCmd, 0, armed0 up, by decide⟩,
   ⟨cmd, 0, armed0 up, by decide⟩,
   ⟨cmd, 0, State.reset, by decide⟩,
   ⟨vfCmd, 0x0010, up, ⟨by decide, by decide, fun h => h.elim (by decide) fun ⟨p, e, _⟩ => absurd (show (none :
      Option Nat) = some p from e) (by simp)⟩⟩,
   ⟨cmd, 0x2000, setF (F.pwrStatState 10) 3 up, ⟨by decide, by decide, Or.inl (by decide), by decide⟩⟩,
   ⟨cmd, 0x0010, up, ⟨by decide, by decide, Or.inl (by decide), by decide⟩⟩⟩

set_option maxRecDepth 40000 in
theorem meets_PowerPinsAct :
   (∃ (c : Cmd) (d : Nat) (i : Instr),
      c.index < 65536 ∧ i ∈ [Instr.powerPinOn c d, .powerPinRelease c d, .powerForbidOff c d] ∧ isPf c.fn = false) ∧
   (∃ (c : Cmd) (d : Nat) (i : Instr),
      c.index < 65536 ∧ i ∈ [Instr.powerPinOn c d, .powerPinRelease c d, .powerForbidOff c d] ∧ isPf c.fn = true ∧ (d
        = 0 ∨ 30 < d)) ∧
   (∃ (c : Cmd) (d : Nat) (i : Instr) (s : State),
      c.index < 65536 ∧ i ∈ [Instr.powerPinOn c d, .powerPinRelease c d, .powerForbidOff c d] ∧ isPf c.fn = true ∧ 1 ≤
        d ∧ d ≤ 30 ∧ s.mgmt.scarabDown = true) ∧
   (∃ (c : Cmd) (d : Nat) (i : Instr) (s : State),
      c.index < 65536 ∧ i ∈ [Instr.powerPinOn c d, .powerPinRelease c d, .powerForbidOff c d] ∧ isPf c.fn = true ∧ 1 ≤
        d ∧ d ≤ 30 ∧ s.mgmt.scarabDown = false ∧ i ≠ .powerPinRelease c d ∧ s.pinRefused d = true) ∧
   (∃ (c : Cmd) (d : Nat) (i : Instr) (s : State),
      c.index < 65536 ∧ i ∈ [Instr.powerPinOn c d, .powerPinRelease c d, .powerForbidOff c d] ∧ isPf c.fn = true ∧ d =
        1 ∧ s.mgmt.scarabDown = false ∧ i = .powerPinRelease c d) ∧
   (∃ (c : Cmd) (d : Nat) (i : Instr) (s : State),
      c.index < 65536 ∧ i ∈ [Instr.powerPinOn c d, .powerPinRelease c d, .powerForbidOff c d] ∧ isPf c.fn = true ∧ 2 ≤
        d ∧ d ≤ 30 ∧ s.mgmt.scarabDown = false ∧ (i = .powerPinRelease c d ∨ s.pinRefused d = false) ∧ i = .powerPinOn
        c d) ∧
   (∃ (c : Cmd) (d : Nat) (i : Instr) (s : State),
      c.index < 65536 ∧ i ∈ [Instr.powerPinOn c d, .powerPinRelease c d, .powerForbidOff c d] ∧ isPf c.fn = true ∧ 2 ≤
        d ∧ d ≤ 30 ∧ s.mgmt.scarabDown = false ∧ (i = .powerPinRelease c d ∨ s.pinRefused d = false) ∧ i =
        .powerPinRelease c d) ∧
   (∃ (c : Cmd) (d : Nat) (i : Instr) (s : State),
      c.index < 65536 ∧ i ∈ [Instr.powerPinOn c d, .powerPinRelease c d, .powerForbidOff c d] ∧ isPf c.fn = true ∧ 2 ≤
        d ∧ d ≤ 30 ∧ s.mgmt.scarabDown = false ∧ (i = .powerPinRelease c d ∨ s.pinRefused d = false) ∧ i =
        .powerForbidOff c d) :=
  ⟨⟨vfCmd, 2, .powerPinOn vfCmd 2, by decide⟩,
   ⟨cmd, 0, .powerPinOn cmd 0, by decide⟩,
   ⟨cmd, 1, .powerPinRelease cmd 1, State.reset, by decide⟩,
   ⟨cmd, 1, .powerPinOn cmd 1, { up with pending := [.secondBoundary] }, by decide⟩,
   ⟨cmd, 1, .powerPinRelease cmd 1, { up with pending := [.secondBoundary] }, by decide⟩,
   ⟨cmd, 2, .powerPinOn cmd 2, { up with pending := [.secondBoundary] }, by decide⟩,
   ⟨cmd, 2, .powerPinRelease cmd 2, { up with pending := [.secondBoundary] }, by decide⟩,
   ⟨cmd, 2, .powerForbidOff cmd 2, { up with pending := [.secondBoundary] }, by decide⟩⟩

set_option maxRecDepth 40000 in
theorem meets_RingsRunAndFetch :
   (∃ (f : FnId) (n : PairId) (v : Word) (s : State),
      s.carriesOut f (rcPlace f n) = true ∧ s.rcCfgBad f n (v ||| 0x80000000) = true) ∧
   (∃ (f : FnId) (n : PairId) (v : Word) (s : State),
      s.carriesOut f (rcPlace f n) = true ∧ s.rcCfgBad f n (v ||| 0x80000000) = false ∧ s.pairEn f n = false) ∧
   (∃ (f : FnId) (n : PairId) (v : Word) (s : State),
      s.carriesOut f (rcPlace f n) = true ∧ s.rcCfgBad f n (v &&& 0x7FFFFFFF) = true) ∧
   (∃ (f : FnId) (n : PairId) (v : Word) (s : State),
      s.carriesOut f (rcPlace f n) = true ∧ s.rcCfgBad f n (v &&& 0x7FFFFFFF) = false ∧ s.pairEn f n = true) ∧
   (∃ (f : FnId) (n : PairId) (s : State),
      let shut := s.barOpen f = false ∨ s.recovery = true ∨ s.contained f = true ∨ s.pairEn f n = false
      shut) ∧
   (∃ (f : FnId) (n : PairId) (v : DWord) (s : State),
      let shut := s.barOpen f = false ∨ s.recovery = true ∨ s.contained f = true ∨ s.pairEn f n = false
      let fits := v.toNat < 2 ^ 17 ∧ idxPos v.toNat < s.sqSize f n ∧ (idxDist (s.sqSize f n) (s.getF (F.rcSqHeadSqHead
        f n)) v.toNat).isSome = true
      (¬ shut) ∧ fits) ∧
   (∃ (f : FnId) (n : PairId) (v : DWord) (s : State),
      let shut := s.barOpen f = false ∨ s.recovery = true ∨ s.contained f = true ∨ s.pairEn f n = false
      let fits := v.toNat < 2 ^ 17 ∧ idxPos v.toNat < s.sqSize f n ∧ (idxDist (s.sqSize f n) (s.getF (F.rcSqHeadSqHead
        f n)) v.toNat).isSome = true
      (¬ shut) ∧ (¬ fits)) ∧
   (∃ (f : FnId) (n : PairId) (s : State),
      let shut := s.barOpen f = false ∨ s.recovery = true ∨ s.contained f = true ∨ s.pairEn f n = false
      shut) ∧
   (∃ (f : FnId) (n : PairId) (v : DWord) (s : State),
      let shut := s.barOpen f = false ∨ s.recovery = true ∨ s.contained f = true ∨ s.pairEn f n = false
      let fits := v.toNat < 2 ^ 17 ∧ idxPos v.toNat < s.cqSize f n ∧ ∃ d, idxDist (s.cqSize f n) (s.pair f n).cqHead
        v.toNat = some d ∧ d ≤ s.cqUsed f n
      (¬ shut) ∧ fits) ∧
   (∃ (f : FnId) (n : PairId) (v : DWord) (s : State),
      let shut := s.barOpen f = false ∨ s.recovery = true ∨ s.contained f = true ∨ s.pairEn f n = false
      let fits := v.toNat < 2 ^ 17 ∧ idxPos v.toNat < s.cqSize f n ∧ ∃ d, idxDist (s.cqSize f n) (s.pair f n).cqHead
        v.toNat = some d ∧ d ≤ s.cqUsed f n
      (¬ shut) ∧ (¬ fits)) ∧
   (∃ (f : FnId) (n : PairId) (k : Nat) (s : State),
      let x := s.pair f n
      let mine := ∃ e ∈ (s.fn f).tags, e.num = k ∧ e.quarantined = false ∧ (e.source = 1 ∨ e.source = 2) ∧ e.detail =
        n
      x.fetchTag ≠ some k ∧ x.paramTag ≠ some k ∧ mine) ∧
   (∃ (f : FnId) (n : PairId) (k : Nat) (s : State),
      let x := s.pair f n
      let mine := ∃ e ∈ (s.fn f).tags, e.num = k ∧ e.quarantined = false ∧ (e.source = 1 ∨ e.source = 2) ∧ e.detail =
        n
      x.fetchTag ≠ some k ∧ (x.paramTag = some k ∨ ¬ mine)) ∧
   (∃ (f : FnId) (n : PairId) (k : Nat) (bs : List Byte) (s : State),
      let x := s.pair f n
      let ds := chunks (min (bs.length / 32) (min (s.posted f n) (16 - x.fetched.length))) bs
      x.fetchTag = some k ∧ s.getF (F.rcCfgType f n) = 1 ∧ (∀ d ∈ ds, bufOk d = true)) ∧
   (∃ (f : FnId) (n : PairId) (k : Nat) (bs : List Byte) (s : State) (d : List Byte),
      let x := s.pair f n
      let ds := chunks (min (bs.length / 32) (min (s.posted f n) (16 - x.fetched.length))) bs
      x.fetchTag = some k ∧ s.getF (F.rcCfgType f n) = 1 ∧ ds = [d] ∧ bufOk d = false) ∧
   (∃ (f : FnId) (n : PairId) (k : Nat) (s : State),
      let x := s.pair f n
      x.fetchTag = some k ∧ s.getF (F.rcCfgType f n) ≠ 1 ∧ s.posted f n = 0) ∧
   (∃ (f : FnId) (n : PairId) (k : Nat) (bs : List Byte) (s : State),
      let x := s.pair f n
      let fenced := (leAt bs 1 1).testBit 0 = true ∧ x.started ≠ []
      x.fetchTag = some k ∧ s.getF (F.rcCfgType f n) ≠ 1 ∧ s.posted f n ≠ 0 ∧ fenced) ∧
   (∃ (f : FnId) (n : PairId) (k : Nat) (bs : List Byte) (s : State),
      let x := s.pair f n
      let op := leAt bs 0 1
      let fenced := (leAt bs 1 1).testBit 0 = true ∧ x.started ≠ []
      let excess := longOpcode op = true ∧ 16 ≤ s.longsOf f
      x.fetchTag = some k ∧ s.getF (F.rcCfgType f n) ≠ 1 ∧ s.posted f n ≠ 0 ∧ (¬ fenced) ∧ excess) ∧
   (∃ (f : FnId) (n : PairId) (k : Nat) (bs : List Byte) (s : State),
      let x := s.pair f n
      let op := leAt bs 0 1
      let fenced := (leAt bs 1 1).testBit 0 = true ∧ x.started ≠ []
      let excess := longOpcode op = true ∧ 16 ≤ s.longsOf f
      x.fetchTag = some k ∧ s.getF (F.rcCfgType f n) ≠ 1 ∧ s.posted f n ≠ 0 ∧ (¬ fenced) ∧ (¬ excess) ∧ (op = 0 ∨ 0x11
        < op)) ∧
   (∃ (f : FnId) (n : PairId) (k : Nat) (bs : List Byte) (s : State),
      let x := s.pair f n
      let op := leAt bs 0 1
      let fenced := (leAt bs 1 1).testBit 0 = true ∧ x.started ≠ []
      let excess := longOpcode op = true ∧ 16 ≤ s.longsOf f
      let low := s.mgmt.portLow.contains (f.val / 128) = true ∧ op ≠ 0x10
      x.fetchTag = some k ∧ s.getF (F.rcCfgType f n) ≠ 1 ∧ s.posted f n ≠ 0 ∧ (¬ fenced) ∧ (¬ excess) ∧ 1 ≤ op ∧ op ≤
        0x11 ∧ low) ∧
   (∃ (f : FnId) (n : PairId) (k : Nat) (bs : List Byte) (s : State),
      let x := s.pair f n
      let op := leAt bs 0 1
      let fenced := (leAt bs 1 1).testBit 0 = true ∧ x.started ≠ []
      let excess := longOpcode op = true ∧ 16 ≤ s.longsOf f
      let bad := 4 ≤ leAt bs 1 1 ∨ zeroBytes bs 4 8 = false ∨ layoutOk bs = false
      let low := s.mgmt.portLow.contains (f.val / 128) = true ∧ op ≠ 0x10
      x.fetchTag = some k ∧ s.getF (F.rcCfgType f n) ≠ 1 ∧ s.posted f n ≠ 0 ∧ (¬ fenced) ∧ (¬ excess) ∧ 1 ≤ op ∧ op ≤
        0x11 ∧ (¬ low) ∧ bad) ∧
   (∃ (f : FnId) (n : PairId) (k : Nat) (bs : List Byte) (s : State),
      let x := s.pair f n
      let op := leAt bs 0 1
      let fenced := (leAt bs 1 1).testBit 0 = true ∧ x.started ≠ []
      let excess := longOpcode op = true ∧ 16 ≤ s.longsOf f
      let bad := 4 ≤ leAt bs 1 1 ∨ zeroBytes bs 4 8 = false ∨ layoutOk bs = false
      let low := s.mgmt.portLow.contains (f.val / 128) = true ∧ op ≠ 0x10
      x.fetchTag = some k ∧ s.getF (F.rcCfgType f n) ≠ 1 ∧ s.posted f n ≠ 0 ∧ (¬ fenced) ∧ (¬ excess) ∧ 1 ≤ op ∧ op ≤
        0x11 ∧ (¬ low) ∧ (¬ bad) ∧ readsParams op = true) :=
  ⟨⟨0, 0, 0xFFFFFFFF, { up with pending := [.secondBoundary] }, by decide⟩,
   ⟨0, 0, 0, { up with pending := [.secondBoundary] }, by decide⟩,
   ⟨0, 0, 0xFFFFFFFF, { up with pending := [.secondBoundary] }, by decide⟩,
   ⟨0, 1, 0x20000000, modPair 0 1 (fun x => { x with readBacks := [{ cmd := cmd, part := 0, recs := [] }] }) (capture
      1 up), by decide⟩,
   ⟨0, 0, State.reset, by decide⟩,
   ⟨0, 1, 0, setL (F.partModeEarlyEn 0) 1 (modPart 0 (fun x =>
      { x with entries := [.larval 0], segs := [{ seg with start := some 0 }], storedTo := 80 }) (modPair 0 1 (fun x
      => { x with delivery := some { part := 0, now := some 0 } }) (capture 1 up))), by decide⟩,
   ⟨0, 1, 0x20000, setL (F.partModeEarlyEn 0) 1 (modPart 0 (fun x =>
      { x with entries := [.larval 0], segs := [{ seg with start := some 0 }], storedTo := 80 }) (modPair 0 1 (fun x
      => { x with delivery := some { part := 0, now := some 0 } }) (capture 1 up))), by decide⟩,
   ⟨0, 0, State.reset, by decide⟩,
   ⟨0, 1, 0, setL (F.partModeEarlyEn 0) 1 (modPart 0 (fun x =>
      { x with entries := [.larval 0], segs := [{ seg with start := some 0 }], storedTo := 80 }) (modPair 0 1 (fun x
      => { x with delivery := some { part := 0, now := some 0 } }) (capture 1 up))), by decide⟩,
   ⟨0, 1, 1, setL (F.partModeEarlyEn 0) 1 (modPart 0 (fun x =>
      { x with entries := [.larval 0], segs := [{ seg with start := some 0 }], storedTo := 80 }) (modPair 0 1 (fun x
      => { x with delivery := some { part := 0, now := some 0 } }) (capture 1 up))), by decide⟩,
   ⟨0, 0, 5, modFn 0 (fun x => { x with tags := [{ num := 5, source := 1, detail := 0, timeout := 1600 }] }) up, by
      decide⟩,
   ⟨0, 0, 4, State.reset, by decide⟩,
   ⟨0, 1, 4, [], modPair 0 1 (fun x => { x with sqTail := 2, fetchTag := some 4 }) (capture 1 up), by decide⟩,
   ⟨0, 1, 4, List.replicate 32 1, modPair 0 1 (fun x => { x with sqTail := 2, fetchTag := some 4 }) (capture 1 up),
      List.replicate 32 1, by decide⟩,
   ⟨0, 0, 4, modPair 0 0 (fun x => { x with fetchTag := some 4 }) (commands 0 (up)), by decide⟩,
   ⟨0, 0, 4, [0x02, 1] ++ List.replicate 30 0, modPair 0 0 (fun x =>
      { x with sqTail := 2, fetchTag := some 4, started := [1] }) (commands 0 (up)), by decide⟩,
   ⟨0, 0, 4, [0x06, 0] ++ List.replicate 30 0, modPair 0 0 (fun x =>
      { x with sqTail := 2, fetchTag := some 4, longs := List.range 16 }) (commands 0 (up)), by decide⟩,
   ⟨0, 0, 4, [], modPair 0 0 (fun x => { x with sqTail := 2, fetchTag := some 4 }) (commands 0 up), by decide⟩,
   ⟨0, 0, 4, [0x02, 0] ++ List.replicate 30 0, modPair 0 0 (fun x => { x with sqTail := 2, fetchTag := some 4 })
      (commands 0 (withMgmt (fun m => { m with portLow := [0] }) up)), by decide⟩,
   ⟨0, 0, 4, List.replicate 32 1, modPair 0 0 (fun x => { x with sqTail := 2, fetchTag := some 4 }) (commands 0 up),
      by decide⟩,
   ⟨0, 0, 4, [0x0F, 0] ++ List.replicate 30 0, modPair 0 0 (fun x => { x with sqTail := 2, fetchTag := some 4 })
      (commands 0 up), by decide⟩⟩

set_option maxRecDepth 40000 in
theorem meets_FailuresContainTheirFunction :
   (∃ (f : FnId) (k : Nat) (x : Tag) (s : State),
      s.contained f = false ∧ s.outTag f k = some x ∧ s.bmeOn f = true) ∧
   (∃ (f : FnId) (k : Nat) (x : Tag) (s : State),
      s.contained f = false ∧ s.outTag f k = some x ∧ s.bmeOn f = false) ∧
   (∃ (f : FnId) (k : Nat) (x : Tag) (s : State),
      s.contained f = true ∧ s.outTag f k = some x) ∧
   (∃ (f : FnId) (k : Nat) (s : State),
      s.outTag f k = none) ∧
   (∃ (f : FnId) (s : State),
      s.contained f = false ∧ s.barOpen f = true ∧ s.recovery = false) ∧
   (∃ (f : FnId) (s : State),
      s.barOpen f = false) ∧
   (∃ (f : FnId) (s : State),
      s.barOpen f = true ∧ s.recovery = true) ∧
   (∃ (port : PortId) (g : Option FnId) (f : FnId) (s : State),
      f.val = (g.map Fin.val).getD (port.val * 128) ∧ s.contained f = false ∧ s.present f = true) ∧
   (∃ (port : PortId) (g : Option FnId) (f : FnId) (s : State),
      f.val = (g.map Fin.val).getD (port.val * 128) ∧ s.present f = false) ∧
   (∃ (f : FnId) (s : State),
      s.contained f = false) ∧
   (∃ (f : FnId) (s : State),
      s.contained f = true) ∧
   (∃ (f : FnId) (k : Nat) (s : State),
      ((s.fn f).tags.find? fun t => t.num == k) = none) ∧
   (∃ (f : FnId) (k : Nat) (x : Tag) (s : State),
      ((s.fn f).tags.find? fun t => t.num == k) = some x ∧ x.quarantined = false) ∧
   (∃ (f : FnId) (k : Nat) (x : Tag) (s : State),
      ((s.fn f).tags.find? fun t => t.num == k) = some x ∧ x.quarantined = true ∧ x.silent = true) ∧
   (∃ (f : FnId) (k : Nat) (x : Tag) (s : State),
      ((s.fn f).tags.find? fun t => t.num == k) = some x ∧ x.quarantined = true ∧ x.silent = false) ∧
   (∃ (f : FnId) (k : Nat) (s : State),
      (∃ x ∈ (s.fn f).tags, x.num = k ∧ x.quarantined = true)) ∧
   (∃ (f : FnId) (k : Nat) (s : State),
      (∀ x ∈ (s.fn f).tags, x.num = k → x.quarantined = false)) ∧
   (∃ (s : State),
      s.readWait = []) :=
  ⟨⟨0, 5, { num := 5, source := 1, detail := 0, timeout := 1600 }, modFn 0 (fun x =>
      { x with tags := [{ num := 5, source := 1, detail := 0, timeout := 1600 }] }) up, by decide⟩,
   ⟨0, 5, { num := 5, source := 1, detail := 0, timeout := 1600 }, modFn 0 (fun x =>
      { x with bme := false, tags := [{ num := 5, source := 1, detail := 0, timeout := 1600 }] }) (up), by decide⟩,
   ⟨0, 5, { num := 5, source := 1, detail := 0, timeout := 1600 }, modFn 0 (fun x =>
      { x with tags := [{ num := 5, source := 1, detail := 0, timeout := 1600 }] }) (setF (F.containStatusContained 0)
      1 up), by decide⟩,
   ⟨0, 0, State.reset, by decide⟩,
   ⟨0, { up with pending := [.secondBoundary] }, by decide⟩,
   ⟨0, State.reset, by decide⟩,
   ⟨0, inRecovery, by decide⟩,
   ⟨0, none, 0, State.reset, by decide⟩,
   ⟨1, none, 128, State.reset, by decide⟩,
   ⟨0, State.reset, by decide⟩,
   ⟨0, setF (F.containStatusContained 0) 1 up, by decide⟩,
   ⟨0, 0, State.reset, by decide⟩,
   ⟨0, 5, { num := 5, source := 1, detail := 0, timeout := 1600 }, modFn 0 (fun x =>
      { x with tags := [{ num := 5, source := 1, detail := 0, timeout := 1600 }] }) up, by decide⟩,
   ⟨0, 5, { num := 5, source := 1, detail := 0, timeout := 1600, quarantined := true, silent := true }, modFn 0 (fun
      x =>
      { x with tags := [{ num := 5, source := 1, detail := 0, timeout := 1600, quarantined := true, silent := true }] })
      (up), by decide⟩,
   ⟨0, 5, { num := 5, source := 1, detail := 0, timeout := 1600, quarantined := true }, modFn 0 (fun x =>
      { x with tags := [{ num := 5, source := 1, detail := 0, timeout := 1600, quarantined := true }] }) up, by
      decide⟩,
   ⟨0, 5, modFn 0 (fun x =>
      { x with tags := [{ num := 5, source := 1, detail := 0, timeout := 1600, quarantined := true }] }) up, by
      decide⟩,
   ⟨0, 0, State.reset, by decide⟩,
   ⟨State.reset, by decide⟩⟩

set_option maxRecDepth 40000 in
theorem meets_ContainmentIsReportedAndReleased :
   (∃ (f : FnId) (s : State),
      (s.fn f).containEventDue = true ∧ (s.fn f).fnMask = false ∧ (s.fn f).unmasked.contains 0 = true ∧ s.bmeOn f =
        true) ∧
   (∃ (f : FnId) (s : State),
      (s.fn f).containEventDue = false) ∧
   (∃ (f : FnId) (v : Word) (s : State),
      s.clk.sysHeld = false ∧ s.barOpen f = true ∧ s.recovery = false ∧ s.contained f = true ∧ v.toNat % 65536 =
        s.getF (F.containEpochEpoch f)) ∧
   (∃ (f : FnId) (v : Word) (s : State),
      s.clk.sysHeld = false ∧ s.barOpen f = true ∧ s.recovery = false ∧ s.contained f = true ∧ v.toNat % 65536 ≠
        s.getF (F.containEpochEpoch f)) ∧
   (∃ (f : FnId) (s : State),
      s.clk.sysHeld = false ∧ s.barOpen f = true ∧ (s.recovery = true ∨ s.contained f = false)) ∧
   (∃ (f : FnId) (s : State),
      let due := s.contained f = true ∧ s.flag (F.containStatusReleasePending f) = true ∧ (s.fn f).tags = []
      due) ∧
   (∃ (f : FnId) (s : State),
      let due := s.contained f = true ∧ s.flag (F.containStatusReleasePending f) = true ∧ (s.fn f).tags = []
      (¬ due)) :=
  ⟨⟨0, modFn 0 (fun x => { x with containEventDue := true }) up, by decide⟩,
   ⟨0, State.reset, by decide⟩,
   ⟨0, 0, setF (F.containStatusContained 0) 1 up, by decide⟩,
   ⟨0, 1, setF (F.containStatusContained 0) 1 up, by decide⟩,
   ⟨0, { up with pending := [.secondBoundary] }, by decide⟩,
   ⟨0, sets [(F.containStatusContained 0, 1), (F.containStatusReleasePending 0, 1)] up, by decide⟩,
   ⟨0, State.reset, by decide⟩⟩

set_option maxRecDepth 40000 in
theorem meets_FunctionsAreEnabledAndReset :
   (∃ (f : FnId) (s : State) (n : Nat),
      s.cfgAnswers = true ∧ (s.fn f).bme = true ∧ n < 8) ∧
   (∃ (f : FnId) (s : State),
      (s.cfgAnswers = false ∨ (s.fn f).bme = false)) ∧
   (∃ (f : FnId) (s : State),
      s.cfgAnswers = true ∧ s.present f = true ∧ (s.fn f).bme = false) ∧
   (∃ (f : FnId) (s : State),
      (s.cfgAnswers = false ∨ s.present f = false ∨ (s.fn f).bme = true)) ∧
   (∃ (f : FnId) (s : State),
      s.cfgAnswers = true ∧ s.present f = true) ∧
   (∃ (f : FnId) (s : State),
      (s.cfgAnswers = false ∨ s.present f = false)) ∧
   (∃ (v : Fin 16) (s : State) (n : Nat),
      s.cfgAnswers = true ∧ (v.val, n) ∈ [(0, 1600), (1, 10), (2, 1000), (5, 5500), (6, 21000), (9, 90000), (10,
        350000), (13, 1300000), (14, 6400000)]) ∧
   (∃ (v : Fin 16) (s : State),
      s.cfgAnswers = true ∧ v.val ∈ [3, 4, 7, 8, 11, 12, 15]) ∧
   (∃ (f : FnId) (s : State) (r : Reg),
      s.cfgAnswers = true ∧ r.key ≠ (Reg.epCto f).key) ∧
   (∃ (s : State),
      s.cfgAnswers = false) ∧
   (∃ (f : FnId) (s : State) (n : Nat),
      s.cfgAnswers = true ∧ s.present f = true ∧ (s.fn f).d3 = false ∧ n < 8) ∧
   (∃ (f : FnId) (s : State),
      (s.cfgAnswers = false ∨ s.present f = false ∨ (s.fn f).d3 = true)) ∧
   (∃ (f : FnId) (s : State),
      s.cfgAnswers = true ∧ (s.fn f).d3 = true) ∧
   (∃ (f : FnId) (s : State),
      (s.cfgAnswers = false ∨ (s.fn f).d3 = false)) ∧
   (∃ (f : FnId) (s : State),
      (s.cfgAnswers = false ∨ s.present f = false)) ∧
   (∃ (f : FnId) (r : Reg),
      r.key / 0x100000 = f.val ∧ ((0x2000 ≤ r.key % 0x100000 ∧ r.key % 0x100000 < 0x4800 ∧ r.key % 0x100000 ≠ 0x4024)
        ∨ (0x60000 ≤ r.key % 0x100000 ∧ r.key % 0x100000 < 0x60200))) ∧
   (∃ (s : State),
      s.cfgAnswers = true) ∧
   (∃ (s : State),
      s.cfgAnswers = false) :=
  ⟨⟨0, { up with pending := [.secondBoundary] }, 0, by decide⟩,
   ⟨0, State.reset, by decide⟩,
   ⟨1, { up with pending := [.secondBoundary] }, by decide⟩,
   ⟨0, State.reset, by decide⟩,
   ⟨0, { up with pending := [.secondBoundary] }, by decide⟩,
   ⟨0, State.reset, by decide⟩,
   ⟨14, up, 6400000, by decide⟩,
   ⟨15, { up with pending := [.secondBoundary] }, by decide⟩,
   ⟨0, { up with pending := [.secondBoundary] }, .bootStatus, by decide⟩,
   ⟨State.reset, by decide⟩,
   ⟨0, { up with pending := [.secondBoundary] }, 0, by decide⟩,
   ⟨0, State.reset, by decide⟩,
   ⟨0, modFn 0 (fun x => { x with d3 := true }) up, by decide⟩,
   ⟨0, State.reset, by decide⟩,
   ⟨0, State.reset, by decide⟩,
   ⟨0, .epCto 0, by decide⟩,
   ⟨{ up with pending := [.secondBoundary] }, by decide⟩,
   ⟨State.reset, by decide⟩⟩

set_option maxRecDepth 40000 in
theorem meets_LinksGoUpAndDown :
   (∃ (port : PortId) (width : Nat) (s : State),
      let f := port.val * 128
      width ≤ 16 ∧ s.present f = true) ∧
   (∃ (port : PortId) (width : Nat) (s : State),
      let f := port.val * 128
      width ≤ 16 ∧ s.present f = false) ∧
   (∃ (port : PortId) (s : State),
      let f := port.val * 128
      let up := s.present f = true ∧ s.mgmt.perst = false ∧ s.mgmt.rails = true
      up ∧ s.mgmt.dualPort = true) ∧
   (∃ (port : PortId) (s : State),
      let f := port.val * 128
      let up := s.present f = true ∧ s.mgmt.perst = false ∧ s.mgmt.rails = true
      up ∧ s.mgmt.dualPort = false) ∧
   (∃ (port : PortId) (s : State),
      let f := port.val * 128
      let up := s.present f = true ∧ s.mgmt.perst = false ∧ s.mgmt.rails = true
      (¬ up)) ∧
   (∃ (port : PortId) (s : State),
      s.present (port.val * 128) = true) ∧
   (∃ (port : PortId) (s : State),
      s.present (port.val * 128) = false) ∧
   (∃ (port : PortId) (s : State),
      s.portBusy port = false) ∧
   (∃ (port : PortId) (s : State),
      s.portBusy port = true) ∧
   (∃ (n : Fin 4) (rising : Bool) (s : State),
      let wakes := ∃ f ∈ s.pfs, (s.getF (F.epWakeCfgWakeTrigin f)).testBit n = true ∧ (s.getF (F.epWakeCfgWakeEdge
        f)).testBit n = !rising
      wakes ∧ s.mgmt.d3cold = true ∧ s.mgmt.wakePin = false) ∧
   (∃ (n : Fin 4) (rising : Bool) (s : State) (f : Nat),
      let wakes := ∃ f ∈ s.pfs, (s.getF (F.epWakeCfgWakeTrigin f)).testBit n = true ∧ (s.getF (F.epWakeCfgWakeEdge
        f)).testBit n = !rising
      wakes ∧ s.mgmt.d3cold = false ∧ f ∈ s.pfs ∧ (s.fn f).d3 = true ∧ (s.fn f).pmeEn = true) ∧
   (∃ (n : Fin 4) (rising : Bool) (s : State) (f : Nat),
      let wakes := ∃ f ∈ s.pfs, (s.getF (F.epWakeCfgWakeTrigin f)).testBit n = true ∧ (s.getF (F.epWakeCfgWakeEdge
        f)).testBit n = !rising
      wakes ∧ s.mgmt.d3cold = false ∧ f ∈ s.pfs ∧ (s.fn f).d3 = false) ∧
   (∃ (n : Fin 4) (rising : Bool) (s : State),
      let wakes := ∃ f ∈ s.pfs, (s.getF (F.epWakeCfgWakeTrigin f)).testBit n = true ∧ (s.getF (F.epWakeCfgWakeEdge
        f)).testBit n = !rising
      (¬ wakes ∨ (s.mgmt.d3cold = true ∧ s.mgmt.wakePin = true))) :=
  ⟨⟨0, 0, State.reset, by decide⟩,
   ⟨1, 0, State.reset, by decide⟩,
   ⟨0, withMgmt (fun m => { m with dualPort := true }) up, by decide⟩,
   ⟨0, { up with pending := [.secondBoundary] }, by decide⟩,
   ⟨0, State.reset, by decide⟩,
   ⟨0, State.reset, by decide⟩,
   ⟨1, State.reset, by decide⟩,
   ⟨0, State.reset, by decide⟩,
   ⟨0, modPart 0 (fun x => { x with ownerPair := some 1 }) (modPair 0 1 (fun x =>
      { x with delivery := some { part := 0, queue := [0] } }) up), by decide⟩,
   ⟨3, true, withMgmt (fun m => { m with d3cold := true }) (sets [(F.epWakeCfgWakeTrigin 0, 8)] up), by decide⟩,
   ⟨3, true, modFn 0 (fun x => { x with d3 := true, pmeEn := true }) (sets [(F.epWakeCfgWakeTrigin 0, 8)] up), 0, by
      decide⟩,
   ⟨3, true, sets [(F.epWakeCfgWakeTrigin 0, 8)] up, 0, by decide⟩,
   ⟨0, true, State.reset, by decide⟩⟩

set_option maxRecDepth 40000 in
theorem meets_MailboxesCarryPosts :
   (∃ (f : FnId) (c : MbxId) (s : State),
      s.carriesOut f (0x3008 + c.val * 0x20) = true ∧ s.chanDown c = true) ∧
   (∃ (f : FnId) (c : MbxId) (s : State),
      s.carriesOut f (0x3008 + c.val * 0x20) = true ∧ s.chanDown c = false ∧ (s.chan c).untaken ≠ none) ∧
   (∃ (c : MbxId) (s : State),
      (s.chan c).untaken = none) ∧
   (∃ (c : MbxId) (p : Post) (s : State),
      (s.chan c).untaken = some p ∧ s.dmaOn p.fn = false) ∧
   (∃ (c : MbxId) (p : Post) (s : State),
      let ready := (s.chan c).taken = none ∧ s.chanDown c = false ∧ (p.ptr = 0 ∨ (s.mbxTag p.fn c).isSome = true)
      (s.chan c).untaken = some p ∧ s.dmaOn p.fn = true ∧ (¬ ready)) ∧
   (∃ (c : MbxId) (p : Post) (s : State),
      let ready := (s.chan c).taken = none ∧ s.chanDown c = false ∧ (p.ptr = 0 ∨ (s.mbxTag p.fn c).isSome = true)
      (s.chan c).untaken = some p ∧ s.dmaOn p.fn = true ∧ ready) ∧
   (∃ (c : MbxId) (s : State),
      (s.chan c).taken = none) ∧
   (∃ (c : MbxId) (p : Post) (s : State),
      let wants := p.replyAddr ≠ 0 ∧ p.reply ≠ [] ∧ p.mute = false
      let held := s.chanDown c = true ∨ (wants ∧ s.dmaOn p.fn = false)
      (s.chan c).taken = some p ∧ held) ∧
   (∃ (c : MbxId) (p : Post) (s : State),
      let wants := p.replyAddr ≠ 0 ∧ p.reply ≠ [] ∧ p.mute = false
      let held := s.chanDown c = true ∨ (wants ∧ s.dmaOn p.fn = false)
      (s.chan c).taken = some p ∧ (¬ held) ∧ wants) ∧
   (∃ (c : MbxId) (p : Post) (s : State),
      let wants := p.replyAddr ≠ 0 ∧ p.reply ≠ [] ∧ p.mute = false
      let held := s.chanDown c = true ∨ (wants ∧ s.dmaOn p.fn = false)
      (s.chan c).taken = some p ∧ (¬ held) ∧ p.mute = false ∧ p.status < 65536 ∧ (∀ q, (s.chan c).untaken = some q →
        q.fn ≠ p.fn) ∧ (¬ wants ∨ p.reply.length ≤ p.replyMax)) ∧
   (∃ (c : MbxId) (p : Post) (s : State),
      let wants := p.replyAddr ≠ 0 ∧ p.reply ≠ [] ∧ p.mute = false
      let held := s.chanDown c = true ∨ (wants ∧ s.dmaOn p.fn = false)
      (s.chan c).taken = some p ∧ (¬ held) ∧ p.mute = false ∧ p.status < 65536 ∧ (∀ q, (s.chan c).untaken = some q →
        q.fn ≠ p.fn) ∧ wants ∧ p.replyMax < p.reply.length ∧ p.status = stOk) ∧
   (∃ (c : MbxId) (p : Post) (s : State),
      let wants := p.replyAddr ≠ 0 ∧ p.reply ≠ [] ∧ p.mute = false
      let held := s.chanDown c = true ∨ (wants ∧ s.dmaOn p.fn = false)
      (s.chan c).taken = some p ∧ (¬ held) ∧ p.mute = true) ∧
   (∃ (f : FnId) (v : Word) (s : State),
      let bad := (s.flag (F.mbxHostCfgEn f) = true ∧ ¬ (bitsOf v.toNat 8 8 = s.getF (F.mbxHostCfgVec f) ∧ bitsOf
        v.toNat 16 4 = s.getF (F.mbxHostCfgSize f))) ∨ 4 < bitsOf v.toNat 16 4 ∨ (if isPf f then 256 else 32) ≤ bitsOf
        v.toNat 8 8
      s.carriesOut f 0x3208 = true ∧ bad) ∧
   (∃ (f : FnId) (v : Word) (s : State),
      let bad := (s.flag (F.mbxHostCfgEn f) = true ∧ ¬ (bitsOf v.toNat 8 8 = s.getF (F.mbxHostCfgVec f) ∧ bitsOf
        v.toNat 16 4 = s.getF (F.mbxHostCfgSize f))) ∨ 4 < bitsOf v.toNat 16 4 ∨ (if isPf f then 256 else 32) ≤ bitsOf
        v.toNat 8 8
      s.carriesOut f 0x3208 = true ∧ (¬ bad) ∧ s.flag (F.mbxHostCfgEn f) = false ∧ v.getLsbD 31 = true) ∧
   (∃ (f : FnId) (s : State),
      let room := (s.getF (F.mbxHostStatusLastSeq f) + 65536 - s.getF (F.mbxHostAckAckSeq f)) % 65536 < 16 * 2 ^
        s.getF (F.mbxHostCfgSize f)
      let may := s.flag (F.mbxHostCfgEn f) = true ∧ s.dmaOn f = true ∧ room
      ((s.fn f).notices = [] ∨ ¬ may)) ∧
   (∃ (f : FnId) (s : State) (n : Notice) (r : List Notice),
      let room := (s.getF (F.mbxHostStatusLastSeq f) + 65536 - s.getF (F.mbxHostAckAckSeq f)) % 65536 < 16 * 2 ^
        s.getF (F.mbxHostCfgSize f)
      let may := s.flag (F.mbxHostCfgEn f) = true ∧ s.dmaOn f = true ∧ room
      (s.fn f).notices = n :: r ∧ may) ∧
   (∃ (f : FnId) (s : State),
      s.carriesOut f 0x320C = true) :=
  ⟨⟨0, 0, withMgmt (fun m => { m with scarabDown := true }) up, by decide⟩,
   ⟨0, 0, modFn 0 (fun x => { x with tags := [{ num := 1, source := 3, detail := 0, timeout := 1600 }] }) (setChan 0
      { untaken := some note } up), by decide⟩,
   ⟨0, State.reset, by decide⟩,
   ⟨0, note, setChan 0 { untaken := some note } (modFn 0 (fun x => { x with bme := false }) up), by decide⟩,
   ⟨0, note, setChan 0 { untaken := some note } up, by decide⟩,
   ⟨0, note, modFn 0 (fun x => { x with tags := [{ num := 1, source := 3, detail := 0, timeout := 1600 }] }) (setChan
      0 { untaken := some note } up), by decide⟩,
   ⟨0, State.reset, by decide⟩,
   ⟨0, { note with replyAddr := 64, reply := [1], replyMax := 64 }, setChan 0
      { taken := some { note with replyAddr := 64, reply := [1], replyMax := 64 } } (modFn 0 (fun x =>
      { x with bme := false }) up), by decide⟩,
   ⟨0, { note with replyAddr := 64, reply := [1], replyMax := 64 }, setChan 0
      { taken := some { note with replyAddr := 64, reply := [1], replyMax := 64 } } up, by decide⟩,
   ⟨0, { note with replyAddr := 64, reply := [1], replyMax := 64 }, setChan 0
      { taken := some { note with replyAddr := 64, reply := [1], replyMax := 64 } } up, by decide⟩,
   ⟨0, { note with replyAddr := 64, reply := [1] }, setChan 0
      { taken := some { note with replyAddr := 64, reply := [1] } } up, by decide⟩,
   ⟨0, { note with mute := true }, setChan 0 { taken := some { note with mute := true } } up, by decide⟩,
   ⟨0, 0xFFFFFFFF, { up with pending := [.secondBoundary] }, by decide⟩,
   ⟨0, 0x80000005, { up with pending := [.secondBoundary] }, by decide⟩,
   ⟨0, State.reset, by decide⟩,
   ⟨0, modFn 0 (fun x => { x with notices := [{ type := 1, payload := [] }] }) (setF (F.mbxHostCfgEn 0) 1 up),
      { type := 1, payload := [] }, [], by decide⟩,
   ⟨0, { up with pending := [.secondBoundary] }, by decide⟩⟩

set_option maxRecDepth 40000 in
theorem meets_FireflyAnswersItsMessages :
   (∃ (f : FnId) (c : MbxId) (s : State),
      (¬ s.holdsMessage f c 0x100)) ∧
   (∃ (f : FnId) (c : MbxId) (s : State),
      (¬ s.holdsMessage f c 0x101)) ∧
   (∃ (f : FnId) (c : MbxId) (s : State),
      (¬ s.holdsMessage f c 0x102)) ∧
   (∃ (f : FnId) (c : MbxId) (s : State),
      (¬ s.holdsMessage f c 0x103)) ∧
   (∃ (f : FnId) (c : MbxId) (img : ImageCopy) (s : State),
      s.holdsMessage f c 0x100 ∧ isPf f = true ∧ s.imageCheck false img = 0) ∧
   (∃ (f : FnId) (c : MbxId) (img : ImageCopy) (s : State),
      s.holdsMessage f c 0x100 ∧ (isPf f = false ∨ s.imageCheck false img ≠ 0)) ∧
   (∃ (f : FnId) (c : MbxId) (s : State),
      s.holdsMessage f c 0x101) ∧
   (∃ (f : FnId) (c : MbxId) (s : State) (k : Nat),
      s.holdsMessage f c 0x102 ∧ k < 4) ∧
   (∃ (f : FnId) (c : MbxId) (s : State),
      s.holdsMessage f c 0x103) :=
  ⟨⟨0, 0, up, fun ⟨q, h, _⟩ => absurd (show (none : Option Post) = some q from h) (by simp)⟩,
   ⟨0, 0, up, fun ⟨q, h, _⟩ => absurd (show (none : Option Post) = some q from h) (by simp)⟩,
   ⟨0, 0, up, fun ⟨q, h, _⟩ => absurd (show (none : Option Post) = some q from h) (by simp)⟩,
   ⟨0, 0, up, fun ⟨q, h, _⟩ => absurd (show (none : Option Post) = some q from h) (by simp)⟩,
   ⟨0, 0, img, taken 0x100 up, ⟨⟨_, rfl, rfl, rfl, rfl, rfl⟩, by decide, by decide⟩⟩,
   ⟨0, 0, badImg, taken 0x100 up, ⟨⟨_, rfl, rfl, rfl, rfl, rfl⟩, by decide⟩⟩,
   ⟨0, 0, taken 0x101 up, ⟨_, rfl, rfl, rfl, rfl, rfl⟩⟩,
   ⟨0, 0, taken 0x102 up, 3, ⟨⟨_, rfl, rfl, rfl, rfl, rfl⟩, by decide⟩⟩,
   ⟨0, 0, taken 0x103 up, ⟨_, rfl, rfl, rfl, rfl, rfl⟩⟩⟩

set_option maxRecDepth 40000 in
theorem meets_ScarabAnswersItsMessages :
   (∃ (f : FnId) (c : MbxId) (s : State),
      (¬ s.holdsMessage f c 0x0001)) ∧
   (∃ (f : FnId) (c : MbxId) (s : State),
      (¬ s.holdsMessage f c 0x0002)) ∧
   (∃ (f : FnId) (c : MbxId) (s : State),
      s.holdsMessage f c 0x0001) ∧
   (∃ (f : FnId) (c : MbxId) (s : State) (k : Nat),
      s.holdsMessage f c 0x0002 ∧ k < 13) ∧
   (∃ (f : FnId) (c : MbxId) (s : State) (k : Nat),
      s.holdsMessage f c 0x0002 ∧ k < 8) :=
  ⟨⟨0, 0, up, fun ⟨q, h, _⟩ => absurd (show (none : Option Post) = some q from h) (by simp)⟩,
   ⟨0, 0, up, fun ⟨q, h, _⟩ => absurd (show (none : Option Post) = some q from h) (by simp)⟩,
   ⟨0, 0, taken 1 up, ⟨_, rfl, rfl, rfl, rfl, rfl⟩⟩,
   ⟨0, 0, taken 2 up, 12, ⟨⟨_, rfl, rfl, rfl, rfl, rfl⟩, by decide⟩⟩,
   ⟨0, 0, taken 2 up, 7, ⟨⟨_, rfl, rfl, rfl, rfl, rfl⟩, by decide⟩⟩⟩

set_option maxRecDepth 40000 in
theorem meets_AttestationAnswersAndRecoveryBoots :
   (∃ (port : PortId) (s : State),
      s.answersSpdm port = true ∧ s.certsOk = false) ∧
   (∃ (port : PortId) (slot : Fin 8) (s : State),
      s.answersSpdm port = true ∧ s.certsOk = true ∧ slot.val ≠ 0) ∧
   (∃ (port : PortId) (slot : Fin 8) (s : State),
      s.answersSpdm port = true ∧ s.certsOk = true ∧ slot.val = 0) ∧
   (∃ (port : PortId) (signed : Bool) (s : State),
      s.answersSpdm port = true ∧ signed = true ∧ s.certsOk = false) ∧
   (∃ (port : PortId) (index : Fin 256) (signed : Bool) (s : State),
      s.answersSpdm port = true ∧ (signed = false ∨ s.certsOk = true) ∧ index.val = 0) ∧
   (∃ (port : PortId) (index : Fin 256) (signed : Bool) (s : State),
      let one := s.blocks.filter fun e => e.1 == index.val
      s.answersSpdm port = true ∧ (signed = false ∨ s.certsOk = true) ∧ index.val ≠ 0 ∧ index.val ≠ 0xFF ∧ one = []) ∧
   (∃ (port : PortId) (index : Fin 256) (signed : Bool) (s : State),
      let one := s.blocks.filter fun e => e.1 == index.val
      s.answersSpdm port = true ∧ (signed = false ∨ s.certsOk = true) ∧ index.val ≠ 0 ∧ index.val ≠ 0xFF ∧ one ≠ []) ∧
   (∃ (port : PortId) (index : Fin 256) (signed : Bool) (s : State),
      s.answersSpdm port = true ∧ (signed = false ∨ s.certsOk = true) ∧ index.val = 0xFF ∧ signed = false) ∧
   (∃ (port : PortId) (index : Fin 256) (signed : Bool) (s : State),
      s.answersSpdm port = true ∧ (signed = false ∨ s.certsOk = true) ∧ index.val = 0xFF ∧ signed = true) ∧
   (∃ (port : PortId) (ed sha : Bool) (slot : Fin 8) (offset length : Nat) (index : Fin 256) (signed : Bool) (code :
      Byte) (nonce : List Byte) (i : Instr) (s : State),
      i ∈ [Instr.getVersion port, .getCapabilities port, .negotiateAlgorithms port ed sha, .getDigests port,
        .getCertificate port slot offset length, .challenge port slot nonce, .getMeasurements port index signed nonce,
        .spdmUnsupportedRequest port code] ∧ s.present (port.val * 128) = true ∧ s.cfgAnswers = true ∧ s.recovery =
        false ∧ s.mgmt.certsRead = false) ∧
   (∃ (port : PortId) (ed sha : Bool) (slot : Fin 8) (offset length : Nat) (index : Fin 256) (signed : Bool) (code :
      Byte) (nonce : List Byte) (i : Instr) (s : State),
      i ∈ [Instr.getVersion port, .getCapabilities port, .negotiateAlgorithms port ed sha, .getDigests port,
        .getCertificate port slot offset length, .challenge port slot nonce, .getMeasurements port index signed nonce,
        .spdmUnsupportedRequest port code] ∧ (s.present (port.val * 128) = false ∨ s.cfgAnswers = false)) ∧
   (∃ (data : List Byte) (s : State),
      s.recovery = true ∧ data.length ≤ 65536) ∧
   (∃ (data : List Byte) (s : State),
      (s.recovery = false ∨ 65536 < data.length)) ∧
   (∃ (img : ImageCopy) (s : State),
      s.recovery = true ∧ s.imageCheck true img = 0) ∧
   (∃ (img : ImageCopy) (s : State),
      s.recovery = true ∧ s.imageCheck true img ≠ 0) ∧
   (∃ (s : State),
      s.recovery = false) :=
  ⟨⟨0, inRecovery, by decide⟩,
   ⟨0, 1, { up with pending := [.secondBoundary] }, by decide⟩,
   ⟨0, 0, up, by decide⟩,
   ⟨0, true, inRecovery, by decide⟩,
   ⟨0, 0, true, { up with pending := [.secondBoundary] }, by decide⟩,
   ⟨0, 2, true, { up with pending := [.secondBoundary] }, by decide⟩,
   ⟨0, 1, true, { up with pending := [.secondBoundary] }, by decide⟩,
   ⟨0, 255, false, { up with pending := [.secondBoundary] }, by decide⟩,
   ⟨0, 255, true, { up with pending := [.secondBoundary] }, by decide⟩,
   ⟨0, true, true, 0, 0, 1, 0, true, 0, [], .getVersion 0, withMgmt (fun m => { m with certsRead := false }) up, by
      decide⟩,
   ⟨0, true, true, 0, 0, 1, 0, true, 0, [], .getVersion 0, State.reset, by decide⟩,
   ⟨[], inRecovery, by decide⟩,
   ⟨[], State.reset, by decide⟩,
   ⟨img, inRecovery, by decide⟩,
   ⟨badImg, inRecovery, by decide⟩,
   ⟨State.reset, by decide⟩⟩

set_option maxRecDepth 40000 in
theorem meets_ResetsLeadToBoot :
   (∃ (s : State),
      s.mgmt.perst = false) ∧
   (∃ (s : State),
      s.mgmt.perst = true) ∧
   (∃ (s : State),
      let may := s.mgmt.perst = false ∧ s.mgmt.railFault = false ∧ s.mgmt.rails = true ∧ s.mgmt.dualPort = false
      may) ∧
   (∃ (s : State),
      let may := s.mgmt.perst = false ∧ s.mgmt.railFault = false ∧ s.mgmt.rails = true ∧ s.mgmt.dualPort = false
      (¬ may)) ∧
   (∃ (s : State),
      s.mgmt.perst = false) ∧
   (∃ (s : State),
      s.mgmt.perst = true ∧ (s.mgmt.rails = false ∨ s.mgmt.railFault = true)) ∧
   (∃ (a b : ImageCopy) (s : State),
      s.mgmt.perst = true ∧ s.mgmt.rails = true ∧ s.mgmt.railFault = false ∧ s.headerCheck a = 0 ∧ (s.headerCheck b ≠
        0 ∨ bFirst a b = false)) ∧
   (∃ (a b : ImageCopy) (s : State),
      s.mgmt.perst = true ∧ s.mgmt.rails = true ∧ s.mgmt.railFault = false ∧ s.headerCheck b = 0 ∧ (s.headerCheck a ≠
        0 ∨ bFirst a b = true)) ∧
   (∃ (a b : ImageCopy) (s : State),
      s.mgmt.perst = true ∧ s.mgmt.rails = true ∧ s.mgmt.railFault = false ∧ s.headerCheck a ≠ 0 ∧ s.headerCheck b ≠ 0) ∧
   (∃ (copyB : Bool) (s : State),
      (s.mgmt.booting = none ∨ s.mgmt.bootCopyB ≠ copyB)) ∧
   (∃ (i : ImageCopy) (s : State),
      s.mgmt.booting = some i ∧ payloadCheck i = 0) ∧
   (∃ (i : ImageCopy) (s : State),
      s.mgmt.booting = some i ∧ payloadCheck i ≠ 0 ∧ s.mgmt.other = none) ∧
   (∃ (i : ImageCopy) (s : State) (j : ImageCopy),
      s.mgmt.booting = some i ∧ payloadCheck i ≠ 0 ∧ s.mgmt.other = some j) ∧
   (∃ (s : State),
      s.mgmt.running.isSome = true) ∧
   (∃ (s : State),
      s.mgmt.running = none) ∧
   (∃ (s : State) (b : Nat),
      s.getF F.bootStatusPhase = 4 ∧ b < 2) ∧
   (∃ (s : State) (b : Nat),
      s.getF F.bootStatusPhase = 4 ∧ b < 8) ∧
   (∃ (s : State),
      s.getF F.bootStatusPhase ≠ 4) ∧
   (∃ (s : State),
      s.getF F.bootStatusPhase = 5) ∧
   (∃ (s : State),
      s.getF F.bootStatusPhase ≠ 5) ∧
   (∃ (x : Label) (s : State),
      let u := advanceTo x s
      u.mayEclose = false) ∧
   (∃ (x : Label) (s : State),
      let u := advanceTo x s
      let ps := u.begunParts.filter u.inStaging
      u.mayEclose = true ∧ ps = []) ∧
   (∃ (x : Label) (s : State),
      let u := advanceTo x s
      let ps := u.begunParts.filter u.inStaging
      u.mayEclose = true ∧ ps ≠ []) ∧
   (∃ (s : State),
      s.mgmt.vaux = false) ∧
   (∃ (s : State),
      s.mgmt.vaux = true) ∧
   (∃ (s : State),
      (s.mgmt.rails = false ∨ s.mgmt.tripped = true)) ∧
   (∃ (s : State),
      s.mgmt.rails = true ∧ s.mgmt.tripped = false) ∧
   (∃ (rail : Fin 8) (s : State),
      rail.val ≠ 7 ∧ s.mgmt.rails = true ∧ (s.mgmt.perst = false ∨ rail.val = 3 ∨ rail.val = 4)) ∧
   (∃ (rail : Fin 8) (s : State),
      (rail.val = 7 ∨ s.mgmt.rails = false)) ∧
   (∃ (s : State),
      s.mgmt.railFault = false) ∧
   (∃ (s : State),
      s.mgmt.railFault = true ∧ s.mgmt.perst = true) ∧
   (∃ (s : State),
      s.mgmt.railFault = true ∧ s.mgmt.perst = false) ∧
   (∃ (d : Nat),
      2 ≤ d ∧ d ≤ 30) :=
  ⟨⟨State.reset, by decide⟩,
   ⟨withMgmt (fun m => { m with perst := true }) up, by decide⟩,
   ⟨{ up with pending := [.secondBoundary] }, by decide⟩,
   ⟨State.reset, by decide⟩,
   ⟨State.reset, by decide⟩,
   ⟨withMgmt (fun m => { m with perst := true, railFault := true }) up, by decide⟩,
   ⟨img, img, withMgmt (fun m => { m with perst := true }) up, by decide⟩,
   ⟨badImg, img, withMgmt (fun m => { m with perst := true }) up, by decide⟩,
   ⟨badImg, badImg, withMgmt (fun m => { m with perst := true }) up, by decide⟩,
   ⟨true, State.reset, by decide⟩,
   ⟨img, withMgmt (fun m => { m with booting := some img }) up, by decide⟩,
   ⟨{ img with digestOk := false }, withMgmt (fun m => { m with booting := some { img with digestOk := false } }) up,
      by decide⟩,
   ⟨{ img with digestOk := false }, withMgmt (fun m =>
      { m with booting := some { img with digestOk := false }, other := some img }) up, img, by decide⟩,
   ⟨withMgmt (fun m => { m with running := some img }) up, by decide⟩,
   ⟨State.reset, by decide⟩,
   ⟨setF F.bootStatusPhase 4 up, 1, by decide⟩,
   ⟨setF F.bootStatusPhase 4 up, 7, by decide⟩,
   ⟨State.reset, by decide⟩,
   ⟨setF F.bootStatusPhase 5 up, by decide⟩,
   ⟨State.reset, by decide⟩,
   ⟨0, State.reset, by decide⟩,
   ⟨0, sets [(F.bootStatusPhase, 5), (F.feBankStatusStepsValid 2, 15), (F.feBankStatusStepsValid 3, 15),
      (F.feBankStatusStepsValid 4, 15), (F.feBankStatusStepsValid 5, 15), (F.feBankStatusStepsValid 6, 15),
      (F.feBankStatusStepsValid 7, 15)] (withMgmt (fun m => { m with trained := [0, 1], running := some img }) up), by
      decide⟩,
   ⟨0, sets [(F.bootStatusPhase, 5), (F.feBankStatusStepsValid 2, 15), (F.feBankStatusStepsValid 3, 15),
      (F.feBankStatusStepsValid 4, 15), (F.feBankStatusStepsValid 5, 15), (F.feBankStatusStepsValid 6, 15),
      (F.feBankStatusStepsValid 7, 15)] (withMgmt (fun m =>
      { m with trained := [0, 1], running := some img, eclosed := false }) (modPart 0 (fun x =>
      { x with begun := some 0, reduced := true }) up)), by decide⟩,
   ⟨State.reset, by decide⟩,
   ⟨{ up with pending := [.secondBoundary] }, by decide⟩,
   ⟨State.reset, by decide⟩,
   ⟨{ up with pending := [.secondBoundary] }, by decide⟩,
   ⟨0, { up with pending := [.secondBoundary] }, by decide⟩,
   ⟨0, State.reset, by decide⟩,
   ⟨State.reset, by decide⟩,
   ⟨withMgmt (fun m => { m with perst := true, railFault := true }) up, by decide⟩,
   ⟨withMgmt (fun m => { m with railFault := true }) up, by decide⟩,
   ⟨2, by decide⟩⟩

set_option maxRecDepth 40000 in
theorem meets_CoresRestartAndStepsFollowTheDie :
   (∃ (s : State),
      let recent := (s.mgmt.restartTimes.filter fun t => decide (s.elapsed < t + 60 * ticksPerSecond)).length
      s.mgmt.scarabDown = false ∧ recent < 3) ∧
   (∃ (s : State),
      let recent := (s.mgmt.restartTimes.filter fun t => decide (s.elapsed < t + 60 * ticksPerSecond)).length
      s.mgmt.scarabDown = false ∧ 3 ≤ recent) ∧
   (∃ (s : State),
      s.mgmt.scarabDown = true) ∧
   (∃ (c : Nat) (s : State),
      s.mgmt.restartCause = some c) ∧
   (∃ (s : State),
      s.mgmt.restartCause = none) ∧
   (∃ (s : State) (c : Nat),
      s.mgmt.fireflyDown = false ∧ c < 16 ∧ s.toFirefly c = true) ∧
   (∃ (s : State) (c : Nat),
      s.mgmt.fireflyDown = false ∧ c < 16 ∧ s.toFirefly c = false) ∧
   (∃ (s : State),
      s.mgmt.fireflyDown = true) ∧
   (∃ (temps : List Int) (s : State) (k : Nat),
      s.domainOff 30 = false ∧ k < temps.length ∧ k < 13) ∧
   (∃ (volts : List Nat) (s : State) (k : Nat),
      s.domainOff 30 = false ∧ k < volts.length ∧ k < 8) ∧
   (∃ (s : State),
      s.domainOff 30 = true) ∧
   (∃ (s : State) (b : Bool),
      s.thermMove 1 110 105 = some b ∧ s.mgmt.scarabDown = false) ∧
   (∃ (s : State),
      (s.thermMove 1 110 105 = none ∨ s.mgmt.scarabDown = true)) ∧
   (∃ (s : State),
      s.thermMove 0 100 95 = some true ∧ s.mgmt.scarabDown = false) ∧
   (∃ (s : State),
      s.thermMove 0 100 95 = some false ∧ s.mgmt.scarabDown = false) ∧
   (∃ (s : State),
      (s.thermMove 0 100 95 = none ∨ s.mgmt.scarabDown = true)) ∧
   (∃ (s : State),
      s.thermMove 2 118 113 = some true) ∧
   (∃ (s : State),
      s.thermMove 2 118 113 = some false) ∧
   (∃ (s : State),
      s.thermMove 2 118 113 = none) ∧
   (∃ (s : State) (d : Nat),
      s.thermMove 3 125 (-32768) = some true ∧ 2 ≤ d ∧ d ≤ 30) ∧
   (∃ (s : State),
      s.thermMove 3 125 (-32768) ≠ some true) :=
  ⟨⟨{ up with pending := [.secondBoundary] }, by decide⟩,
   ⟨withMgmt (fun m => { m with restartTimes := [1, 1, 1] }) up, by decide⟩,
   ⟨State.reset, by decide⟩,
   ⟨0, withMgmt (fun m => { m with restartCause := some 0 }) up, by decide⟩,
   ⟨State.reset, by decide⟩,
   ⟨setF (F.mbxChanTarget 15) 1 up, 15, by decide⟩,
   ⟨{ up with pending := [.secondBoundary] }, 0, by decide⟩,
   ⟨State.reset, by decide⟩,
   ⟨List.replicate 13 0, State.reset, 0, by decide⟩,
   ⟨[8], State.reset, 0, by decide⟩,
   ⟨setF (F.pwrStatState 30) 3 up, by decide⟩,
   ⟨setF F.thermStatusDieTemp 880 up, true, by decide⟩,
   ⟨State.reset, by decide⟩,
   ⟨setF F.thermStatusDieTemp 880 up, by decide⟩,
   ⟨setF F.thermStatusSteps 1 up, by decide⟩,
   ⟨State.reset, by decide⟩,
   ⟨setF F.thermStatusDieTemp 944 up, by decide⟩,
   ⟨setF F.thermStatusSteps 4 up, by decide⟩,
   ⟨State.reset, by decide⟩,
   ⟨setF F.thermStatusDieTemp 1000 up, 2, by decide⟩,
   ⟨State.reset, by decide⟩⟩

set_option maxRecDepth 40000 in
theorem meets_DomainsFollowTheirControllers :
   (∃ (d : DomId) (s : State),
      let gate := s.domain d = 0 ∧ gates d = true
      s.pinned d = false ∧ gate) ∧
   (∃ (d : DomId) (s : State),
      let retain := s.domain d = 1 ∧ retains d = true ∧ s.flag (F.pwrCtlRetainEn d) = true
      s.pinned d = false ∧ retain) ∧
   (∃ (d : DomId) (s : State),
      let gate := s.domain d = 0 ∧ gates d = true
      let retain := s.domain d = 1 ∧ retains d = true ∧ s.flag (F.pwrCtlRetainEn d) = true
      (s.pinned d = true ∨ (¬ gate ∧ ¬ retain))) ∧
   (∃ (d : DomId) (s : State),
      let may := s.offCondition d = true ∧ s.pinned d = false ∧ s.forbidden d = false
      may) ∧
   (∃ (d : DomId) (s : State),
      let may := s.offCondition d = true ∧ s.pinned d = false ∧ s.forbidden d = false
      (¬ may)) ∧
   (∃ (d : DomId) (s : State),
      let may := (s.offCondition d = false ∨ d.val = 30 ∨ s.pinned d = true ∨ s.forbidden d = true) ∧ s.domainOff d =
        true ∧ s.mayBeOn d = true
      may) ∧
   (∃ (d : DomId) (s : State),
      let may := (s.offCondition d = false ∨ d.val = 30 ∨ s.pinned d = true ∨ s.forbidden d = true) ∧ s.domainOff d =
        true ∧ s.mayBeOn d = true
      (¬ may)) ∧
   (∃ (f : FnId) (v : Word) (s : State) (b : Nat),
      let taken := ∃ b, b < 8 ∧ v.getLsbD b = false ∧ (s.partOf b).isSome = true
      s.carriesOut f 0x70100 = true ∧ (¬ taken) ∧ b < 8 ∧ v.getLsbD b = false) ∧
   (∃ (f : FnId) (v : Word) (s : State),
      let taken := ∃ b, b < 8 ∧ v.getLsbD b = false ∧ (s.partOf b).isSome = true
      s.carriesOut f 0x70100 = true ∧ taken) :=
  ⟨⟨2, State.reset, by decide⟩,
   ⟨18, sets [(F.pwrStatState 18, 1), (F.pwrCtlRetainEn 18, 1)] up, by decide⟩,
   ⟨28, State.reset, by decide⟩,
   ⟨2, State.reset, by decide⟩,
   ⟨2, armed0 up, by decide⟩,
   ⟨30, setF (F.pwrStatState 30) 3 up, by decide⟩,
   ⟨2, State.reset, by decide⟩,
   ⟨0, 0xFE, up, 0, ⟨by decide, fun ⟨b, hb, h⟩ => below8 (P := fun b => ¬ ((0xFE#32).getLsbD b = false ∧ (up.partOf
      b).isSome = true)) (by decide) b hb h, by decide, by decide⟩⟩,
   ⟨0, 0xFE, part0 up, ⟨by decide, 0, by decide, by decide, by decide⟩⟩⟩

set_option maxRecDepth 40000 in
theorem meets_FaultsAreRecorded :
   (∃ (off : Nat) (s : State),
      let d := if off < 0x28000 then 10 + (off - 0x20000) / 0x1000 else 18
      configWord off = true ∧ ((0x20000 ≤ off ∧ off < 0x28800) ∨ (0x30000 ≤ off ∧ off < 0x40000)) ∧ s.domainOff d =
        true) ∧
   (∃ (off : Nat) (s : State),
      let d := if off < 0x28000 then 10 + (off - 0x20000) / 0x1000 else 18
      configWord off = true ∧ ((0x20000 ≤ off ∧ off < 0x28800) ∨ (0x30000 ≤ off ∧ off < 0x40000)) ∧ s.domainOff d =
        false ∧ off < 0x28000) ∧
   (∃ (off : Nat) (s : State),
      let d := if off < 0x28000 then 10 + (off - 0x20000) / 0x1000 else 18
      configWord off = true ∧ ((0x20000 ≤ off ∧ off < 0x28800) ∨ (0x30000 ≤ off ∧ off < 0x40000)) ∧ s.domainOff d =
        false ∧ 0x28000 ≤ off ∧ off < 0x28800) ∧
   (∃ (off : Nat) (s : State),
      let d := if off < 0x28000 then 10 + (off - 0x20000) / 0x1000 else 18
      let k := off % 0x2000
      configWord off = true ∧ ((0x20000 ≤ off ∧ off < 0x28800) ∨ (0x30000 ≤ off ∧ off < 0x40000)) ∧ s.domainOff d =
        false ∧ 0x30000 ≤ off ∧ k < 0x200) ∧
   (∃ (off : Nat) (s : State) (j : Nat),
      let d := if off < 0x28000 then 10 + (off - 0x20000) / 0x1000 else 18
      let k := off % 0x2000
      configWord off = true ∧ ((0x20000 ≤ off ∧ off < 0x28800) ∨ (0x30000 ≤ off ∧ off < 0x40000)) ∧ s.domainOff d =
        false ∧ 0x30000 ≤ off ∧ 0x200 ≤ k ∧ k < 0x1000 ∧ j < 4) ∧
   (∃ (off : Nat) (s : State),
      let d := if off < 0x28000 then 10 + (off - 0x20000) / 0x1000 else 18
      let k := off % 0x2000
      configWord off = true ∧ ((0x20000 ≤ off ∧ off < 0x28800) ∨ (0x30000 ≤ off ∧ off < 0x40000)) ∧ s.domainOff d =
        false ∧ 0x30000 ≤ off ∧ 0x1000 ≤ k) ∧
   (∃ (f : FnId) (s : State) (k : Nat),
      s.carriesOut f 0x4818 = true ∧ k < 6) ∧
   (∃ (f : FnId) (s : State),
      s.carriesOut f 0x4820 = true) ∧
   (∃ (f : FnId) (s : State) (c : Nat),
      s.carriesOut f 0x4820 = true ∧ 1 ≤ c ∧ c ≤ 18) ∧
   (∃ (code : Byte),
      4 ≤ code.toNat) ∧
   (∃ (code : Byte),
      code = 2) ∧
   (∃ (code : Byte) (s : State),
      code ≠ 2 ∧ code.toNat < 4 ∧ (s.mgmt.scarabDown = true ∨ s.mgmt.d3cold = true)) ∧
   (∃ (code : Byte) (s : State),
      s.mgmt.scarabDown = false ∧ s.mgmt.d3cold = false ∧ code = 0) ∧
   (∃ (code : Byte) (s : State),
      s.mgmt.scarabDown = false ∧ s.mgmt.d3cold = false ∧ code = 1) ∧
   (∃ (code : Byte) (s : State),
      s.mgmt.scarabDown = false ∧ s.mgmt.d3cold = false ∧ code = 3) :=
  ⟨⟨0x20000, setF (F.pwrStatState 10) 3 up, by decide⟩,
   ⟨0x20000, State.reset, by decide⟩,
   ⟨0x28000, State.reset, by decide⟩,
   ⟨0x30000, State.reset, by decide⟩,
   ⟨0x30200, State.reset, 0, by decide⟩,
   ⟨0x31000, State.reset, by decide⟩,
   ⟨0, { up with pending := [.secondBoundary] }, 0, by decide⟩,
   ⟨0, { up with pending := [.secondBoundary] }, by decide⟩,
   ⟨0, { up with pending := [.secondBoundary] }, 1, by decide⟩,
   ⟨4, by decide⟩,
   ⟨2, by decide⟩,
   ⟨0, State.reset, by decide⟩,
   ⟨0, { up with pending := [.secondBoundary] }, by decide⟩,
   ⟨1, { up with pending := [.secondBoundary] }, by decide⟩,
   ⟨3, { up with pending := [.secondBoundary] }, by decide⟩⟩


/-! ### Figures that the spec works out -/

/-- "123456789" in ASCII. -/
def digits : List Byte := [0x31, 0x32, 0x33, 0x34, 0x35, 0x36, 0x37, 0x38, 0x39]

set_option maxRecDepth 40000 in
/-- R90's check value. -/
theorem test_karing_crc : karingCrc digits = 0x29B1 := by decide
set_option maxRecDepth 40000 in
/-- R262's check value. -/
theorem test_crc64 : crc64 digits = 0x995DC9BBDF1939FA := by decide
set_option maxRecDepth 40000 in
/-- R264's check value. -/
theorem test_crc32c : crc32c digits = 0xE3069283 := by decide
/-- Second 1,234, SUBSEC 123,456,789,012: frame 7,716 begins at 123,456,000,000 (00_scope.md). -/
theorem test_frame : frameOf (1234 * ticksPerSecond + 123456789012) = 1234 * ticksPerSecond + 7716 * 16000000 := by decide
/-- The event's sample of that edge at 6.4 GS/s is 123,456,789,040 (05_event_detectors.md). -/
theorem test_event_sample : ceilTo 80 (1234 * ticksPerSecond + 123456789012) = 1234 * ticksPerSecond + 123456789040 := by decide
/-- The time pair of frame 7,716 (08_record_stream.md). -/
theorem test_time_word : timeWord (1234 * ticksPerSecond + 123456000000) = 0x0004D21CBE8D1000 := by decide
/-- The FRAME header of bank 6, its second word and its length (08_record_stream.md). -/
theorem test_frame_record :
    (frameRec false false true true 0 0 0 1 6 (1234 * ticksPerSecond + 123456000000) 0 0 0 0).words =
      [0x020000050000102E, 0x0004D21CBE8D1000, 0, 0, 0] := by decide
/-- The two transition words of channel position 1, in one payload word (08_record_stream.md). -/
theorem test_transitions :
    pairWords [transitionWord 1 true false 789012, transitionWord 1 false false 840212] = [0x040CD214060C0A14] := by decide
set_option maxRecDepth 40000 in
/-- The SAMPLE_BLOCK header of bank 0 for block 49 in single mode: 200 samples, one word each (08_record_stream.md). -/
theorem test_sample_block :
    (sampleRec false true 49 0 0 80 0 (List.replicate 200 (0, 0))).words.head? = some 0x030000C900000318 := by decide
/-- An error of 1,640,123 ticks is stepped by -1,640,320 (03_cicada_time_base.md). -/
theorem test_step : stepFor 1640123 = -1640320 := by decide
/-- TIME_NOW at 5,001 : 512,000,000 (12_registers_and_mailboxes.md). -/
theorem test_snapshot_words :
    ((setF F.timeStatusTimeline 3 (setF F.timeStatusQuality 0 up)).timeWords (5001 * ticksPerSecond + 512000000)) =
      [0x1E848000, 0x00138900, 0, 3] := by decide
/-- The tail that passes from index 0 with wrap 0 to index 0 with wrap 1 posts 64 buffers (10_rings_and_commands.md). -/
theorem test_ring_distance : idxDist 64 0 0x10000 = some 64 := by decide
/-- Addresses of 17_register_index.md. -/
theorem test_address_branch : barReg 0 0x311B4 = some (.brAct1 0 1 2) := by decide
theorem test_address_channel : barReg 0 0x1C114 = some (.chCfg 6 1) := by decide
theorem test_address_detector : barReg 0 0x26300 = some (.detCfg 99) := by decide
theorem test_address_policy : barReg 0 0x50108 = some (.memPartPolicy 0) := by decide
theorem test_address_vf : barReg 1 0xA400 = some (.partOwner 1) := by decide
theorem test_address_gap : barReg 0 0x5000 = none := by decide

end Sys2Proof.Machine.Tests
end

section
/-! Proofs: every step keeps the tables of the state in canonical form. Each operation of the model that answers a
state has one lemma here, in the order and under the headings of the model's own parts. -/

namespace Sys2Proof.Machine

/-- The tables of a state are in canonical form, one fact for each. -/
structure Canonical (s : State) : Prop where
  regs : spWf s.regs = true
  live : spWf s.live = true
  ctrs : spWf s.ctrs = true
  banks : spWf s.banks = true
  dets : spWf s.dets = true
  seqs : spWf s.seqs = true
  parts : spWf s.parts = true
  fns : spWf s.fns = true
  chans : spWf s.chans = true
  snaps : spWf s.snaps = true
  fltLog : spWf s.fltLog = true
  fltHold : spWf s.fltHold = true
  fltSeen : spWf s.fltSeen = true
  stamps : spWf s.stamps = true
  since : spWf s.since = true

theorem canonical_iff_wf {s : State} : Canonical s ↔ s.wf = true := by
  simp only [State.wf, Bool.and_eq_true]
  constructor
  · rintro ⟨⟩
    simp_all
  · intro h
    constructor <;> simp_all

theorem spRising_filterMap {α β : Type} (g : Nat × α → Option (Nat × β))
    (hg : ∀ e e', g e = some e' → e'.1 = e.1) :
    ∀ (lo : Nat) (m : Sp α), spRising lo m = true → spRising lo (m.filterMap g) = true
  | _, [], _ => rfl
  | lo, e :: r, w => by
    simp only [spRising, Bool.and_eq_true, decide_eq_true_eq] at w
    obtain ⟨hlo, hr⟩ := w
    have ih := spRising_filterMap g hg (e.1 + 1) r hr
    cases he : g e with
    | none => simpa [he] using spRising_mono (by omega) _ ih
    | some e' => simp [he, spRising, hg e e' he, hlo, ih]

/-- The registers that outlive a reset keep their keys. -/
theorem spWf_regsAfter (s : State) (hot kept : Bool) (m : Sp Word) (w : spWf m = true) :
    spWf (s.regsAfter hot kept m) = true := by
  refine spRising_filterMap _ (fun e e' he => ?_) 0 m w
  split at he
  · obtain rfl := Option.some.inj he
    rfl
  · cases he

/-- A command that goes on does so in a state whose tables are in canonical form. -/
def NextCanonical (o : Host.Outcome State Fault Refusal) : Prop := ∀ t, o = .next t → Canonical t

namespace NextCanonical

theorem done {s t : State} (h : Canonical t) : NextCanonical (done s t) := by
  rintro u ⟨⟩
  exact { h with }

theorem next {t : State} (h : Canonical t) : NextCanonical (.next t) := by
  rintro u ⟨⟩
  exact h

theorem ite {c : Prop} {i : Decidable c} {a b : Host.Outcome State Fault Refusal} (ha : NextCanonical a)
    (hb : NextCanonical b) : NextCanonical (if c then a else b) := by
  split
  · exact ha
  · exact hb

end NextCanonical

namespace Canonical

variable {s : State}

theorem ite {c : Prop} {i : Decidable c} {a b : State} (ha : Canonical a) (hb : Canonical b) :
    Canonical (if c then a else b) := by
  split
  · exact ha
  · exact hb

theorem foldl {α : Type} {g : State → α → State} {l : List α} (h : Canonical s)
    (hg : ∀ u a, Canonical u → Canonical (g u a)) : Canonical (l.foldl g s) :=
  List.foldlRecOn l g h fun u hu a _ => hg u a hu

/-- The state of a pair that is known by its parts. -/
theorem snd {α : Type} {p : α × State} {a : α} {t : State} (e : p = (a, t)) (h : Canonical p.2) : Canonical t := by
  rw [e] at h
  exact h

theorem storeCtrs {d k v : Nat} (h : Canonical s) : Canonical { s with ctrs := spSet d k v s.ctrs } :=
  { h with ctrs := spWf_spSet d k v _ h.ctrs }

theorem storeStamps {d k v : Nat} (h : Canonical s) : Canonical { s with stamps := spSet d k v s.stamps } :=
  { h with stamps := spWf_spSet d k v _ h.stamps }

theorem storeSince {d k v : Nat} (h : Canonical s) : Canonical { s with since := spSet d k v s.since } :=
  { h with since := spWf_spSet d k v _ h.since }

theorem storeFltSeen {d v : Nat × Nat} {k : Nat} (h : Canonical s) :
    Canonical { s with fltSeen := spSet d k v s.fltSeen } :=
  { h with fltSeen := spWf_spSet d k v _ h.fltSeen }

theorem withMgmt {m : Mgmt} (h : Canonical s) : Canonical { s with mgmt := m } := { h with }

theorem storeSnaps {port : Nat} {x : Option Snap} (h : Canonical s) :
    Canonical { s with snaps := spSet none port x s.snaps } :=
  { h with snaps := spWf_spSet none port x _ h.snaps }

/-- The state after reset lists nothing. -/
theorem reset : Canonical State.reset := by
  constructor <;> rfl

theorem pairFst {α : Type} {t : State} {a : α} (h : Canonical t) : Canonical (t, a).1 := h

theorem pairSnd {α : Type} {a : α} {t : State} (h : Canonical t) : Canonical (a, t).2 := h

/-! ### Machine/Ops.lean -/

theorem setFn {f : Nat} {x : Fn} (h : Canonical s) : Canonical (setFn f x s) :=
  { h with fns := spWf_spSet _ _ _ _ h.fns }

theorem modFn {f : Nat} {g : Fn → Fn} (h : Canonical s) : Canonical (modFn f g s) := h.setFn

theorem setPair {f n : Nat} {x : Pair} (h : Canonical s) : Canonical (setPair f n x s) := h.modFn

theorem modPair {f n : Nat} {g : Pair → Pair} (h : Canonical s) : Canonical (modPair f n g s) := h.setPair

theorem setBank {b : Nat} {x : Bank} (h : Canonical s) : Canonical (setBank b x s) :=
  { h with banks := spWf_spSet _ _ _ _ h.banks }

theorem modBank {b : Nat} {g : Bank → Bank} (h : Canonical s) : Canonical (modBank b g s) := h.setBank

theorem setDet {n : Nat} {x : Det} (h : Canonical s) : Canonical (setDet n x s) :=
  { h with dets := spWf_spSet _ _ _ _ h.dets }

theorem modDet {n : Nat} {g : Det → Det} (h : Canonical s) : Canonical (modDet n g s) := h.setDet

theorem setSeq {p : Nat} {x : Seq} (h : Canonical s) : Canonical (setSeq p x s) :=
  { h with seqs := spWf_spSet _ _ _ _ h.seqs }

theorem modSeq {p : Nat} {g : Seq → Seq} (h : Canonical s) : Canonical (modSeq p g s) := h.setSeq

theorem setPart {p : Nat} {x : Part} (h : Canonical s) : Canonical (setPart p x s) :=
  { h with parts := spWf_spSet _ _ _ _ h.parts }

theorem modPart {p : Nat} {g : Part → Part} (h : Canonical s) : Canonical (modPart p g s) := h.setPart

theorem setChan {c : Nat} {x : Chan} (h : Canonical s) : Canonical (setChan c x s) :=
  { h with chans := spWf_spSet _ _ _ _ h.chans }

theorem modChan {c : Nat} {g : Chan → Chan} (h : Canonical s) : Canonical (modChan c g s) := h.setChan

theorem emit {o : Out} (h : Canonical s) : Canonical (emit o s) := { h with }

theorem when_ {c : Bool} {g : State → State} (h : Canonical s) (hg : ∀ u, Canonical u → Canonical (g u)) :
    Canonical (when_ c g s) :=
  .ite (hg s h) h

theorem each {α : Type} {g : α → State → State} {l : List α} (h : Canonical s)
    (hg : ∀ a u, Canonical u → Canonical (g a u)) : Canonical (each g l s) := by
  induction l generalizing s with
  | nil => exact h
  | cons a r ih => exact ih (hg a s h)

theorem wr {r : Reg} {w : Word} (h : Canonical s) : Canonical (wr r w s) :=
  { h with regs := spWf_spSet _ _ _ _ h.regs }

theorem wrLive {r : Reg} {w : Word} (h : Canonical s) : Canonical (wrLive r w s) :=
  { h with live := spWf_spSet _ _ _ _ h.live }

theorem setF {x : Fld} {v : Nat} (h : Canonical s) : Canonical (setF x v s) := h.wr

theorem setL {x : Fld} {v : Nat} (h : Canonical s) : Canonical (setL x v s) := h.wrLive

theorem applyReg {a : Apply} {r : Reg} (h : Canonical s) : Canonical (applyReg a r s) := by
  unfold Machine.applyReg
  exact h.wrLive

theorem discardReg {a : Apply} {r : Reg} (h : Canonical s) : Canonical (discardReg a r s) := by
  unfold Machine.discardReg
  exact h.wr.wrLive

theorem resetReg {r : Reg} (h : Canonical s) : Canonical (resetReg r s) := h.wr.wrLive

theorem spend (h : Canonical s) : Canonical (spend s) := { h with }

theorem advanceTo {t : Label} (h : Canonical s) : Canonical (advanceTo t s) := .ite { h with } h

theorem limited {key period : Nat} {g : State → State} (h : Canonical s)
    (hg : ∀ u, Canonical u → Canonical (g u)) : Canonical (limited key period g s) :=
  .ite (hg _ h.storeStamps) h

theorem msixNow {f vec : Nat} (h : Canonical s) : Canonical (msixNow f vec s) := by
  unfold Machine.msixNow
  exact .ite h.setFn h.emit

theorem msix {f vec : Nat} (h : Canonical s) : Canonical (msix f vec s) := .ite h.modFn h.msixNow

theorem sendPending {f : Nat} (h : Canonical s) : Canonical (sendPending f s) := by
  unfold Machine.sendPending
  exact h.modFn.each fun _ _ hu => hu.msix

theorem loadCtr {code v : Nat} (h : Canonical s) : Canonical (loadCtr code v s) := h.storeCtrs

theorem bumpRaw {code n : Nat} (h : Canonical s) : Canonical (bumpRaw code n s) := by
  unfold Machine.bumpRaw
  exact h.storeCtrs

theorem enqueue {f code payload : Nat} (h : Canonical s) : Canonical (enqueue f code payload s) := by
  unfold Machine.enqueue
  extract_lets +onlyGivenNames _ _
  split
  · exact h.setFn.setF.bumpRaw
  · extract_lets +onlyGivenNames s1 s2
    have h1 : Canonical s1 := h.setFn
    have h2 : Canonical s2 := .ite h1.msix h1
    exact .ite h2.setF.msix h2

theorem saturated {item : Nat} (h : Canonical s) : Canonical (saturated item s) :=
  h.setF.each fun _ _ hu => hu.enqueue

theorem post {f code payload : Nat} (h : Canonical s) : Canonical (post f code payload s) := by
  unfold Machine.post
  extract_lets +onlyGivenNames _ s1
  have h1 : Canonical s1 := h.enqueue
  exact .ite h1.saturated h1

theorem postAll {fs : List Nat} {code payload : Nat} (h : Canonical s) : Canonical (postAll fs code payload s) :=
  h.each fun _ _ hu => hu.post

theorem postPfs {code payload : Nat} (h : Canonical s) : Canonical (postPfs code payload s) := h.postAll

theorem event {bit : Fld} {code payload : Nat} (h : Canonical s) : Canonical (event bit code payload s) :=
  h.setF.postPfs

theorem bump {code n : Nat} (h : Canonical s) : Canonical (bump code n s) := by
  unfold Machine.bump
  extract_lets +onlyGivenNames _ s1
  have h1 : Canonical s1 := h.bumpRaw
  exact .ite h1.saturated h1

theorem raiseCtr {code v : Nat} (h : Canonical s) : Canonical (raiseCtr code v s) := .ite h.loadCtr h

theorem startInterval {code : Nat} (h : Canonical s) : Canonical (startInterval code s) := h.storeSince

theorem checkInterval {code : Nat} (h : Canonical s) : Canonical (checkInterval code s) := by
  unfold Machine.checkInterval
  exact .ite h.storeCtrs.saturated h

theorem checkIntervals (h : Canonical s) : Canonical (checkIntervals s) := h.each fun _ _ hu => hu.checkInterval

theorem stopInterval {code : Nat} (h : Canonical s) : Canonical (stopInterval code s) := by
  unfold Machine.stopInterval
  exact h.checkInterval.storeCtrs.storeSince

theorem logErr {f code tag source detail : Nat} (h : Canonical s) :
    Canonical (logErr f code tag source detail s) := by
  unfold Machine.logErr
  extract_lets +onlyGivenNames _ _
  split
  · exact h.bump.setF
  · extract_lets +onlyGivenNames s1
    have h1 : Canonical s1 := h.setFn
    exact .ite h1.setF.post h1

theorem pinUpdate (h : Canonical s) : Canonical (pinUpdate s) := by
  unfold Machine.pinUpdate
  extract_lets +onlyGivenNames _
  split
  · exact h
  · extract_lets +onlyGivenNames _ _ s2
    have h2 : Canonical s2 := h.withMgmt.emit.each fun _ _ hu => hu.setF
    exact .ite (.ite h2.spend.postPfs h2.postPfs) h2.postPfs

theorem setCause {n : Nat} (h : Canonical s) : Canonical (setCause n s) := h.setF.pinUpdate

theorem fltPush {f code index detail suppressed : Nat} (h : Canonical s) :
    Canonical (fltPush f code index detail suppressed s) := by
  unfold Machine.fltPush
  extract_lets +onlyGivenNames _ _
  split
  · exact .setF { h with }
  · extract_lets +onlyGivenNames _ s1
    have h1 : Canonical s1 := { h with fltLog := spWf_spSet _ _ _ _ h.fltLog }
    exact .ite h1.setF.post h1

theorem logFault {code index detail : Nat} (h : Canonical s) : Canonical (logFault code index detail s) := by
  unfold Machine.logFault
  extract_lets +onlyGivenNames s1
  have h1 : Canonical s1 := h.setF
  exact .ite h1.storeFltSeen (h1.storeFltSeen.each fun _ _ hu => hu.fltPush)

theorem domainDown {f d off : Nat} {write : Bool} (h : Canonical s) : Canonical (domainDown f d off write s) := by
  unfold Machine.domainDown
  exact h.wr.setF.limited fun _ hu => hu.postAll

theorem cfgRefused {f off : Nat} (h : Canonical s) : Canonical (cfgRefused f off s) := by
  unfold Machine.cfgRefused
  exact .post (.ite h.setF h)

/-! ### Machine/Rings.lean -/

theorem awaitRead {f : Nat} (h : Canonical s) : Canonical (awaitRead f s) := .ite h { h with }

theorem issueRead {f source detail : Nat} (h : Canonical s) : Canonical (issueRead f source detail s).2 :=
  h.setFn.emit

theorem signalPair {f n : Nat} (h : Canonical s) : Canonical (signalPair f n s) := h.modPair.msix

theorem consume {p key did words : Nat} (h : Canonical s) : Canonical (consume p key did words s) := by
  unfold Machine.consume
  exact h.modPart

theorem unpin {p : Nat} {pages : List Nat} (h : Canonical s) : Canonical (unpin p pages s) := h.modPart

theorem writeCpl {f n : Nat} {c : Cpl} (h : Canonical s) : Canonical (writeCpl f n c s) := by
  unfold Machine.writeCpl
  extract_lets +onlyGivenNames _ _ _ _ _ _ s4 s5 s6 s7 s8 s9
  have h4 : Canonical s4 := .modPair (.setF (.emit (h.each fun _ _ hu => hu.emit)))
  have h5 : Canonical s5 := by
    unfold s5
    split
    · exact h4.consume
    · exact h4
  have h6 : Canonical s6 := by
    unfold s6
    split
    · exact h5.unpin
    · exact h5
  have h7 : Canonical s7 := h6.each fun _ _ hu => hu.emit
  have h8 : Canonical s8 := .ite h7.setF.setF.post h7
  have h9 : Canonical s9 := .ite h8.signalPair h8
  exact .ite h9.signalPair.setF.post h9

theorem writeHeld {f n : Nat} {l : List Cpl} (h : Canonical s) : Canonical (writeHeld f n l s) := by
  induction l generalizing s with
  | nil => exact h.modPair
  | cons c r ih => exact .ite (ih h.writeCpl) h.modPair

theorem flushPair {f n : Nat} (h : Canonical s) : Canonical (flushPair f n s) := h.writeHeld

theorem complete {f n : Nat} {c : Cpl} (h : Canonical s) : Canonical (complete f n c s) := h.writeHeld

theorem finishBufThen {post : List (Nat × List Byte)} {f n bytes segId index status epoch flags : Nat} {consumes :
    Option (Nat × Nat × Nat × Nat)} (h : Canonical s) :
    Canonical (finishBufThen post f n bytes segId index status epoch flags consumes s) := h.complete

theorem finishBuf {f n bytes segId index status epoch flags : Nat} {consumes : Option (Nat × Nat × Nat × Nat)} (h :
    Canonical s) :
    Canonical (finishBuf f n bytes segId index status epoch flags consumes s) := h.finishBufThen

theorem tryFetch {f n : Nat} (h : Canonical s) : Canonical (tryFetch f n s) := by
  unfold Machine.tryFetch
  split
  · split
    · extract_lets +onlyGivenNames _
      split
      next _ s1 e =>
        have h1 : Canonical s1 := .snd e h.issueRead
        exact h1.modPair
    · exact h.awaitRead
  · exact h

theorem finishCpl {c : Cmd} {opcode status result resultHi : Nat} {pre : List (Nat × List Byte)} {unpins : Option (Nat
    × List Nat)} (h : Canonical s) :
    Canonical (finishCpl c opcode status result resultHi pre unpins s) := by
  unfold Machine.finishCpl
  split
  · exact h
  · extract_lets +onlyGivenNames s1
    have h1 : Canonical s1 := h.modPair
    exact .each (.complete (.ite h1.modFn h1)) fun _ _ hu => hu.tryFetch

theorem finishPre {c : Cmd} {opcode status result resultHi : Nat} {pre : List (Nat × List Byte)} (h : Canonical s) :
    Canonical (finishPre c opcode status result resultHi pre s) := h.finishCpl

theorem finish {c : Cmd} {opcode status result resultHi : Nat} (h : Canonical s) :
    Canonical (finish c opcode status result resultHi s) := h.finishPre

theorem readBlock {c : Nat} (h : Canonical s) : Canonical (readBlock c s) := by
  unfold Machine.readBlock
  split
  · exact .ite (.ite h.issueRead h.awaitRead) h
  · exact h

theorem serveReads (h : Canonical s) : Canonical (serveReads s) :=
  .ite h (.each { h with } fun _ _ hu => .each (hu.each fun _ _ hu => hu.tryFetch) fun _ _ hu => hu.readBlock)

theorem dropTag {f k : Nat} (h : Canonical s) : Canonical (dropTag f k s) := h.modFn

theorem endTag {f k : Nat} (h : Canonical s) : Canonical (endTag f k s) := h.dropTag.serveReads

theorem resumeFn {f : Nat} (h : Canonical s) : Canonical (resumeFn f s) := h.each fun _ _ hu => hu.flushPair.tryFetch

/-! ### Machine/Stream.lean -/

theorem postPart {p code payload : Nat} (h : Canonical s) : Canonical (postPart p code payload s) := by
  unfold Machine.postPart
  exact h.postAll

theorem append {p : Nat} {r : Rec} (h : Canonical s) : Canonical (append p r s) := h.modPart

theorem appendAll {p : Nat} {rs : List Rec} (h : Canonical s) : Canonical (appendAll p rs s) :=
  h.each fun _ _ hu => hu.append

theorem releasePage {p n : Nat} (h : Canonical s) : Canonical (releasePage p n s) := by
  unfold Machine.releasePage
  exact .ite h.setPart (.ite h.setPart h.setPart)

theorem holdPage {p n : Nat} (h : Canonical s) : Canonical (holdPage p n s) := by
  unfold Machine.holdPage
  exact h.setPart

/-! ### Machine/Flags.lean -/

theorem rollOnce {m : Nat} (h : Canonical s) : Canonical (rollOnce m s) := by
  unfold Machine.rollOnce
  exact .each { h with } fun _ _ hu => .ite hu hu.modSeq

theorem rollFlags {k m : Nat} (h : Canonical s) : Canonical (rollFlags k m s) := by
  induction k generalizing s with
  | zero => exact h
  | succ k ih => exact .ite h (ih h.rollOnce)

theorem flagsTo {m : Nat} (h : Canonical s) : Canonical (flagsTo m s) := h.rollFlags

theorem clearSeq {p : Nat} {store : Bool} (h : Canonical s) : Canonical (clearSeq p store s) := by
  unfold Machine.clearSeq
  exact h.setSeq.setF.setF.setF

/-! ### Machine/Packer.lean -/

theorem oncePerFrame {key : Nat} {g : State → State} (h : Canonical s)
    (hg : ∀ u, Canonical u → Canonical (g u)) : Canonical (oncePerFrame key g s) :=
  .ite h (hg _ h.storeStamps)

theorem postBank {b code payload : Nat} (h : Canonical s) : Canonical (postBank b code payload s) := by
  unfold Machine.postBank
  split
  · exact h.postPart
  · exact h.postPfs

theorem appendBank {p b : Nat} {r : Rec} (h : Canonical s) : Canonical (appendBank p b r s) := by
  unfold Machine.appendBank
  exact .append (.bump (.ite h.modBank h))

theorem writeDue {p b : Nat} {forced : Bool} (h : Canonical s) : Canonical (writeDue p b forced s) := by
  refine .ite h (h.modBank.each fun r u hu => ?_)
  split
  · exact hu.appendBank
  · exact hu.append

theorem writeAfterDue {p b : Nat} {r : Rec} (h : Canonical s) : Canonical (writeAfterDue p b r s) :=
  .ite h.append h.modBank

theorem flushRun {p b : Nat} {k : Bool} (h : Canonical s) : Canonical (flushRun p b k s) := by
  unfold Machine.flushRun
  extract_lets +onlyGivenNames s1 _ s2
  have h1 : Canonical s1 := h.writeDue
  have h2 : Canonical s2 := h1.setBank
  split
  · exact h1
  · exact .ite h2 h2.appendBank

theorem setEnc {b pref cur : Nat} (h : Canonical s) : Canonical (setEnc b pref cur s) := by
  unfold Machine.setEnc
  extract_lets +onlyGivenNames _ s1
  have h1 : Canonical s1 := h.setF.setF
  exact .ite h1.setF h1

theorem switchEnc {p b enc cause blocks words : Nat} {at_ : Label} (h : Canonical s) :
    Canonical (switchEnc p b enc cause blocks words at_ s) := by
  unfold Machine.switchEnc
  exact h.writeAfterDue.bump.oncePerFrame fun _ hu => hu.postBank

theorem limitBlock {p b : Nat} {start upto : Label} (h : Canonical s) : Canonical (limitBlock p b start upto s) := by
  unfold Machine.limitBlock
  exact .ite (h.writeDue.flushRun.modBank.setEnc.switchEnc.setF.setF.oncePerFrame fun _ hu => hu.postBank) h.writeDue

theorem packTiming {p b : Nat} {start upto : Label} {write : Bool} (h : Canonical s) :
    Canonical (packTiming p b start upto write s) := by
  unfold Machine.packTiming
  extract_lets +onlyGivenNames _ _ _ _ _ _ _ _ s1
  have h1 : Canonical s1 := h.setBank
  split
  · exact h1
  · extract_lets +onlyGivenNames _ _ s4
    have h4 : Canonical s4 := .ite (.appendBank (.flushRun (.ite h1.bump h1))) (.modBank (.ite h1.flushRun h1))
    exact .ite h4.flushRun h4

theorem packBank {p b : Nat} {start upto : Label} {write : Bool} (h : Canonical s) :
    Canonical (packBank p b start upto write s) := .packTiming (.ite h.limitBlock h.writeDue)

theorem writeFrame {p b : Nat} {start : Label} {resumed : Bool} (h : Canonical s) :
    Canonical (writeFrame p b start resumed s) := by
  unfold Machine.writeFrame
  extract_lets +onlyGivenNames _ _ _ _ s1
  have h1 : Canonical s1 := h.setBank
  exact .ite h1.appendBank h1.modBank

theorem writeBankGaps {p b : Nat} {resume : Option Label} (h : Canonical s) :
    Canonical (writeBankGaps p b resume s) := by
  unfold Machine.writeBankGaps
  exact h.appendAll.modBank

theorem openRecords {p b : Nat} {t : Label} (h : Canonical s) : Canonical (openRecords p b t s) :=
  .writeFrame (.ite h h.writeBankGaps)

theorem crossTo {b : Nat} {t : Label} (h : Canonical s) : Canonical (crossTo b t s) := by
  unfold Machine.crossTo
  exact h.setBank

theorem flushState {p b : Nat} {k : Bool} (h : Canonical s) : Canonical (flushState p b k s) := by
  unfold Machine.flushState
  exact .ite h h.modBank.appendBank

theorem joinRun {p b : Nat} {e : StateSample} (h : Canonical s) : Canonical (joinRun p b e s) := by
  unfold Machine.joinRun
  extract_lets +onlyGivenNames _ s1
  have h1 : Canonical s1 := .modBank (.ite h h.flushState)
  exact .ite h1.flushState h1

theorem packSample {p b : Nat} {e : StateSample} (h : Canonical s) : Canonical (packSample p b e s) := by
  unfold Machine.packSample
  extract_lets +onlyGivenNames s1
  have h1 : Canonical s1 := .ite h.openRecords h
  split
  · exact h1.modBank.crossTo
  · extract_lets +onlyGivenNames s2 s3
    have h2 : Canonical s2 := by
      unfold s2
      split
      · exact h1.flushState.append
      · exact h1
    have h3 : Canonical s3 := h2.crossTo.modBank
    exact .ite h3.joinRun h3.flushState

theorem packState {p b : Nat} {upto : Label} {force k : Bool} (h : Canonical s) :
    Canonical (packState p b upto force k s) := by
  unfold Machine.packState
  extract_lets +onlyGivenNames _ s1
  have h1 : Canonical s1 := h.modBank.each fun _ _ hu => hu.packSample
  exact .ite h1.flushState h1

theorem writeStoreModes {p : Nat} (h : Canonical s) : Canonical (writeStoreModes p s) := h.modPart.appendAll

theorem packBlock {p : Nat} {start upto : Label} {force : Bool} (h : Canonical s) :
    Canonical (packBlock p start upto force s) := by
  unfold Machine.packBlock
  extract_lets +onlyGivenNames _ _ _ _ _ s4 s5
  have h4 : Canonical s4 := .each (.writeStoreModes (.ite h (h.each fun _ _ hu => .ite hu.limitBlock hu.writeDue)))
    fun _ _ hu => .ite hu.packState (by
    extract_lets +onlyGivenNames s3
    have h3 : Canonical s3 := hu.packTiming
    exact .ite h3.flushRun h3)
  have h5 : Canonical s5 := h4.modPart
  exact .ite h5.modPart h5

theorem packParts {k p : Nat} {upto : Label} (h : Canonical s) : Canonical (packParts k p upto s) := by
  induction k generalizing s with
  | zero => exact h
  | succ k ih => exact .ite h (ih h.packBlock.modPart)

theorem packBankTo {k p b : Nat} {a upto : Label} (h : Canonical s) : Canonical (packBankTo k p b a upto s) := by
  induction k generalizing a s with
  | zero => exact h
  | succ k ih => exact .ite h (ih h.packBank)

theorem stopStoring {p reason detail : Nat} {t : Label} (h : Canonical s) :
    Canonical (stopStoring p reason detail t s) := by
  unfold Machine.stopStoring
  extract_lets +onlyGivenNames _ s1 _ s3
  have h1 : Canonical s1 := .writeStoreModes (h.each fun _ _ hu => hu.flushRun)
  have h3 : Canonical s3 := .each (.ite (h1.each fun _ _ hu => hu.packState) h1) fun _ _ hu => hu.modBank
  exact .modPart (.ite (h3.each fun _ _ hu => .ite hu.modBank hu) h3)

theorem spreadGaps {p : Nat} (h : Canonical s) : Canonical (spreadGaps p s) :=
  .ite h (.modPart (h.each fun _ _ hu => .ite hu.modBank hu))

theorem writeGaps {p : Nat} {resume : Option Label} (h : Canonical s) : Canonical (writeGaps p resume s) := by
  unfold Machine.writeGaps
  exact h.spreadGaps.appendAll.modPart

theorem stopAtBlock {p reason detail : Nat} (h : Canonical s) : Canonical (stopAtBlock p reason detail s) :=
  .ite h.stopStoring h.modPart

/-! ### Machine/Segments.lean -/

theorem modSegment {p key : Nat} {g : Seg → Seg} (h : Canonical s) : Canonical (modSegment p key g s) := h.modPart

theorem modDelivery {id : Nat} {g : Delivery → Delivery} (h : Canonical s) : Canonical (modDelivery id g s) :=
  h.modPair

theorem countDead {p dead : Nat} (h : Canonical s) : Canonical (countDead p dead s) := .ite h h.bump.raiseCtr

theorem setEnd {p key : Nat} {t : Label} (h : Canonical s) : Canonical (setEnd p key t s) := by
  unfold Machine.setEnd
  exact h.modPart

theorem emptySeg {p key : Nat} (h : Canonical s) : Canonical (emptySeg p key s) := by
  unfold Machine.emptySeg
  split
  · exact h
  · extract_lets +onlyGivenNames s1
    have h1 : Canonical s1 := h.modPart
    exact .ite h1 h1.setF

theorem fixStart {p : Nat} {g : Seg} (h : Canonical s) : Canonical (fixStart p g s) := by
  unfold Machine.fixStart
  extract_lets +onlyGivenNames _ _
  split
  · exact h.emptySeg
  · split
    · exact h
    · split
      · exact h.emptySeg
      · extract_lets +onlyGivenNames _ _ _ _ _ _ _ _ s1 s2 s3
        have h1 : Canonical s1 := h.modSegment
        have h2 : Canonical s2 := .ite h1.setF h1
        have h3 : Canonical s3 := .ite h2.setEnd h2
        exact .ite h3.countDead h3

theorem fixReady {p : Nat} (h : Canonical s) : Canonical (fixReady p s) := by
  unfold Machine.fixReady
  exact h.each fun _ _ hu => by
    split
    · exact .ite hu.fixStart hu
    · exact hu

theorem applyStaged {a : Apply} {r : Reg} (h : Canonical s) : Canonical (applyStaged a r s) := by
  unfold Machine.applyStaged
  exact .ite h.applyReg h

theorem openSeg {p : Nat} {o : Label} {entry : Bool} (h : Canonical s) : Canonical (openSeg p o entry s) := by
  unfold Machine.openSeg
  exact .setPart (h.each fun _ _ hu => hu.applyStaged)

theorem opOpen {p : Nat} {o : Label} (h : Canonical s) : Canonical (opOpen p o s) := by
  unfold Machine.opOpen
  split
  · exact h
  · split
    · exact h.openSeg.fixReady
    · extract_lets +onlyGivenNames _ s2
      have h2 : Canonical s2 := h.setF.bump.oncePerFrame fun _ hu => hu.postPart
      exact .ite h2.modPart h2

theorem progNext {f n : Nat} (h : Canonical s) : Canonical (progNext f n s) := h.modPair

theorem progress {f n index bytes cand : Nat} {retracted : Bool} (h : Canonical s) :
    Canonical (progress f n index bytes cand retracted s) := .ite h.progNext.emit h

theorem abandonThen {post : List (Nat × List Byte)} {id p segId epoch : Nat} (h : Canonical s) :
    Canonical (abandonThen post id p segId epoch s) := by
  unfold Machine.abandonThen
  exact .modDelivery (h.modPair.each fun _ _ hu => hu.finishBufThen)

theorem abandonTaken {id p segId epoch : Nat} (h : Canonical s) : Canonical (abandonTaken id p segId epoch s) :=
  h.abandonThen

theorem writeSkip {id : Nat} (h : Canonical s) : Canonical (writeSkip id s) := by
  unfold Machine.writeSkip
  split
  · exact h.modDelivery.finishBuf
  · exact h

theorem skipSeg {id segId epoch : Nat} (h : Canonical s) : Canonical (skipSeg id segId epoch s) := by
  unfold Machine.skipSeg
  split
  · exact h
  · extract_lets +onlyGivenNames s1 s2
    have h1 : Canonical s1 := by
      unfold s1
      split
      · exact .ite h h.writeSkip
      · exact h
    have h2 : Canonical s2 := h1.modDelivery
    split
    · exact .ite h2.writeSkip h2
    · exact h2

theorem dropFrom {id p key segId epoch : Nat} (h : Canonical s) : Canonical (dropFrom id p key segId epoch s) := by
  unfold Machine.dropFrom
  extract_lets +onlyGivenNames s1
  have h1 : Canonical s1 := by
    unfold s1
    split
    · exact .ite h.abandonTaken h
    · exact h
  exact h1.modDelivery

theorem dropEarly {p key cand : Nat} {retracted : Bool} {id : Nat} (h : Canonical s) :
    Canonical (dropEarly p key cand retracted id s) := by
  unfold Machine.dropEarly
  split
  · split
    · extract_lets +onlyGivenNames _ _ _ s1
      have h1 : Canonical s1 := h.bump
      exact .abandonThen (.ite h1.progNext h1)
    · exact h
  · exact h

theorem abandonSeg {p key : Nat} (h : Canonical s) : Canonical (abandonSeg p key s) := by
  unfold Machine.abandonSeg
  exact h.modPart.setF.bump.each fun _ _ hu => hu.dropEarly

theorem opAbandon {p : Nat} (h : Canonical s) : Canonical (opAbandon p s) := by
  unfold Machine.opAbandon
  split
  · exact h
  · split
    · exact h
    · exact h.modPart
    · exact h.abandonSeg.fixReady

theorem abandonAll {p : Nat} (h : Canonical s) : Canonical (abandonAll p s) := by
  unfold Machine.abandonAll
  exact .modPart (h.each fun _ _ hu => hu.abandonSeg)

theorem commitSeg {p key : Nat} {t e : Label} (h : Canonical s) : Canonical (commitSeg p key t e s) := by
  unfold Machine.commitSeg
  split
  · exact h
  · extract_lets +onlyGivenNames _ _ _ _ _ _ _ _ _ _ _ s1 s2 _ s4 _ s6
    have h1 : Canonical s1 := h.setPart
    have h2 : Canonical s2 := .ite h1.setF h1
    have h4 : Canonical s4 := .bump (.ite h2.setF h2)
    have h6 : Canonical s6 := .each (.ite h4.countDead h4) fun _ _ hu => hu.modDelivery
    exact .fixReady (.each (.ite (h6.each fun _ _ hu => hu.dropEarly) h6) fun _ _ hu => .ite hu (hu.each fun _ _ hu =>
      hu.dropEarly))

theorem placeTrigger {p key : Nat} {r : Rec} (h : Canonical s) : Canonical (placeTrigger p key r s) := h.modPart

theorem dropTrigger {p : Nat} (h : Canonical s) : Canonical (dropTrigger p s) := by
  unfold Machine.dropTrigger
  exact h.setF.bump.oncePerFrame fun _ hu => hu.postPart

theorem resolveEnds {p : Nat} {t : Label} (h : Canonical s) : Canonical (resolveEnds p t s) := by
  unfold Machine.resolveEnds
  split
  · exact h
  · exact h.each fun _ _ hu => by
      extract_lets +onlyGivenNames s1
      have h1 : Canonical s1 := hu.fixReady
      split
      · exact .ite h1 h1.modPart.fixReady
      · exact h1

theorem opTrigger {p : Nat} {t : Label} {r : Rec} (h : Canonical s) : Canonical (opTrigger p t r s) := by
  unfold Machine.opTrigger
  extract_lets +onlyGivenNames s1 _
  have h1 : Canonical s1 := h.resolveEnds
  split
  · split
    · exact h1.placeTrigger
    · exact h1
  · split
    · split
      · exact h1
      · exact .ite h1.dropTrigger h1.modPart.commitSeg.placeTrigger
    · exact .ite h1.dropTrigger h1.modPart.openSeg.commitSeg.placeTrigger

theorem makeImago {p key cause : Nat} {truncated : Bool} (h : Canonical s) :
    Canonical (makeImago p key cause truncated s) := by
  unfold Machine.makeImago
  split
  · exact h
  · exact h.setPart.setF.setF.fixReady

theorem closeLost {p b : Nat} (h : Canonical s) : Canonical (closeLost p b s) := by
  unfold Machine.closeLost
  split
  · exact .ite h h.append.modBank
  · exact h

theorem endArmed {p cause : Nat} {upto : Label} (h : Canonical s) : Canonical (endArmed p cause upto s) := by
  unfold Machine.endArmed
  extract_lets +onlyGivenNames _ _ s2 s3
  have h2 : Canonical s2 := .each (.writeStoreModes (.ite h.packParts h)) fun _ _ hu => .ite hu.packState hu.flushRun
  have h3 : Canonical s3 := .ite (h2.each fun _ _ hu => hu.closeLost) h2
  exact .each (.setF (.clearSeq (.modSeq (.each (.modPart (.each (.abandonAll (.each (.ite h3 h3.writeGaps) fun _ _ hu
    => hu.writeBankGaps)) fun _ _ hu => hu.makeImago)) fun _ _ hu => hu.finish)))) fun _ _ hu => hu.writeSkip

theorem atLimit {p : Nat} (h : Canonical s) : Canonical (atLimit p s) := .ite h h.modPart.setF.bump.postPart

theorem releaseSeg {p : Nat} {g : Seg} (h : Canonical s) : Canonical (releaseSeg p g s) := by
  unfold Machine.releaseSeg
  extract_lets +onlyGivenNames _ s4
  have h4 : Canonical s4 := h.bump.each fun _ _ hu => by
    split
    · split
      · extract_lets +onlyGivenNames _ s3
        have h3 : Canonical s3 := hu.dropFrom.skipSeg
        exact .ite h3 h3.writeSkip
      · exact hu
    · exact hu
  exact h4.modPart

theorem releasePages {p : Nat} (h : Canonical s) : Canonical (releasePages p s) :=
  h.each fun _ _ hu => .ite hu hu.releasePage

theorem stopForPages {p : Nat} (h : Canonical s) : Canonical (stopForPages p s) := h.modPart

theorem overflowStop {p : Nat} (h : Canonical s) : Canonical (overflowStop p s) := by
  unfold Machine.overflowStop
  exact .postPart (.setF (.setF (.endArmed (.stopStoring (h.each fun _ _ hu => hu.flushRun)))))

theorem limitStep {p : Nat} (h : Canonical s) : ∀ t, limitStep p s = some t → Canonical t := by
  unfold Machine.limitStep
  extract_lets x
  split
  · split
    · rintro t ⟨⟩
      exact h.overflowStop.releasePages
    · rintro t ⟨⟩
  · split
    · rintro t ⟨⟩
      exact h.abandonSeg.fixReady.releasePages
    · split
      · split
        · rintro t ⟨⟩
          exact h.modPart
        · rintro t ⟨⟩
          exact h.releaseSeg.releasePages
      · rintro t ⟨⟩
  · split
    · rintro t ⟨⟩
      exact h.abandonSeg.fixReady.releasePages
    · rintro t ⟨⟩

theorem limitActs {enough : State → Bool} {k p : Nat} (h : Canonical s) : Canonical (limitActs enough k p s) := by
  induction k generalizing s with
  | zero => exact h
  | succ k ih =>
    unfold Machine.limitActs
    split
    · exact h
    · extract_lets u
      have hu : Canonical u := h.atLimit
      split
      next t e => exact ih (hu.limitStep t e)
      next => exact .ite hu.stopForPages hu

theorem holdPages {k p : Nat} (h : Canonical s) : Canonical (holdPages k p s) := by
  induction k generalizing s with
  | zero => exact h
  | succ k ih =>
    unfold Machine.holdPages
    split
    · exact h
    · split
      · exact ih h.holdPage
      · extract_lets u
        have hu : Canonical u := h.atLimit
        split
        next t e => exact ih (hu.limitStep t e)
        next => exact ih hu.stopForPages.holdPage

theorem releaseLate {p : Nat} (h : Canonical s) : Canonical (releaseLate p s) := by
  unfold Machine.releaseLate
  exact h.each fun _ _ hu => by
    split
    · split
      · exact hu
      · extract_lets +onlyGivenNames s1
        have h1 : Canonical s1 := hu.modPart
        exact .ite h1 h1.releaseSeg
    · exact hu.modPart

theorem countUndeliv {p : Nat} (h : Canonical s) : Canonical (countUndeliv p s) := by
  unfold Machine.countUndeliv
  extract_lets +onlyGivenNames _ _ s1
  have h1 : Canonical s1 := h.modPart
  exact .ite h1.setF.postPart h1

theorem clearLimit {p : Nat} (h : Canonical s) : Canonical (clearLimit p s) := .ite h.modPart.postPart h

theorem forgetSegs {p : Nat} (h : Canonical s) : Canonical (forgetSegs p s) := by
  unfold Machine.forgetSegs
  exact h.each fun _ _ hu => .ite (by
    extract_lets +onlyGivenNames _ _ s1
    have h1 : Canonical s1 := hu.each fun _ _ hu => by
      split
      · exact .ite hu.dropFrom.skipSeg hu
      · exact hu
    exact .ite h1 h1.modPart) hu

theorem unbind {id : Nat} (h : Canonical s) : Canonical (unbind id s) := by
  unfold Machine.unbind
  split
  · exact h
  · exact h.modPair.modPart

theorem endDone {id : Nat} (h : Canonical s) : Canonical (endDone id s) := by
  unfold Machine.endDone
  split
  · exact .ite h.unbind.finish h
  · exact h

theorem settle {p : Nat} (h : Canonical s) : Canonical (settle p s) := by
  unfold Machine.settle
  exact h.releaseLate.releasePages.holdPages.countUndeliv.clearLimit.forgetSegs.each fun _ _ hu => hu.endDone

theorem settleAll (h : Canonical s) : Canonical (settleAll s) := h.each fun _ _ hu => hu.settle

/-! ### Machine/Errors.lean -/

theorem mapReadBacks {h' : ReadBack → ReadBack} (h : Canonical s) : Canonical (mapReadBacks h' s) :=
  { h with fns := spWf_map _ _ h.fns }

theorem mapStored {p : Nat} {h' : Nat → Rec → Rec} (h : Canonical s) : Canonical (mapStored p h' s) :=
  h.modPart.mapReadBacks

theorem poisonWord {p : Nat} {key : Option Nat} {es : List (Nat × Rec)} {w : Nat} (h : Canonical s) :
    Canonical (poisonWord p key es w s) := by
  unfold Machine.poisonWord
  split
  · exact h
  · extract_lets +onlyGivenNames e own
    have hown (g : Seg → Seg) : Canonical (own g s) := by
      unfold own
      split
      · exact h.modSegment
      · exact h
    refine .mapReadBacks ?_
    split
    · exact hown _
    · exact hown _
    · exact hown _
    · exact hown _
    · exact h.mapStored

theorem loseStripes {n : Nat} (h : Canonical s) : Canonical (loseStripes n s) :=
  h.each fun _ _ hu => .ite hu hu.modPart.mapStored

theorem retire {n cause : Nat} (h : Canonical s) : Canonical (retire n cause s) :=
  .ite h (.setCause (.logFault (.postAll (h.withMgmt.setF.loseStripes.each fun _ _ hu => hu.stopAtBlock))))

theorem corrected {n : Nat} (h : Canonical s) : Canonical (corrected n s) := h.bump.logFault

theorem uncorrectable {n : Nat} {reserved : Bool} (h : Canonical s) : Canonical (uncorrectable n reserved s) := by
  unfold Machine.uncorrectable
  extract_lets +onlyGivenNames _ _ _ _ s3
  have h3 : Canonical s3 := .withMgmt (h.bump.logFault.limited fun _ hu => hu.event)
  exact .ite h3.retire h3

theorem logParity {es : List (CrossingId × Nat)} (h : Canonical s) : Canonical (logParity es s) :=
  h.each fun _ _ hu => .ite hu hu.logFault

theorem failWrites {p from_ : Nat} {es : List (CrossingId × Nat)} (h : Canonical s) :
    Canonical (failWrites p from_ es s) := by
  unfold Machine.failWrites
  exact h.mapStored.logParity

theorem meetErrors {p : Nat} {key : Option Nat} {es : List (Nat × Rec)} {skip count : Nat} {e : ReadErrors} (h :
    Canonical s) :
    Canonical (meetErrors p key es skip count e s) := by
  unfold Machine.meetErrors
  extract_lets +onlyGivenNames _ s1
  have h1 : Canonical s1 := .ite (h.each fun _ _ hu => hu.corrected) h
  exact .each (.logParity (.ite (h1.each fun _ _ hu => .ite hu.poisonWord.uncorrectable hu) h1)) fun _ _ hu => .ite
    hu.poisonWord hu

/-! ### Machine/Delivery.lean -/

theorem fillBuffers {k f n : Nat} {ws : List Out64} (h : Canonical s) : Canonical (fillBuffers k f n ws s).2 := by
  induction k generalizing ws s with
  | zero => exact h
  | succ k ih =>
    unfold Machine.fillBuffers
    extract_lets +onlyGivenNames x
    split
    · exact h
    · split
      · exact ih h.emit.modPair
      · split
        · exact h
        · exact ih h.modPair.tryFetch

theorem poisoned {id p segId count : Nat} (h : Canonical s) : Canonical (poisoned id p segId count s) := by
  unfold Machine.poisoned
  split
  · exact h
  · extract_lets +onlyGivenNames s1
    have h1 : Canonical s1 := h.bump
    split
    · exact .ite h1 h1.modDelivery.post
    · exact h1

theorem progressSteps {f n cand : Nat} {before : List Buf} (h : Canonical s) :
    Canonical (progressSteps f n cand before s) :=
  h.each fun _ _ hu => .ite hu (.ite hu.modPair.progress (.ite hu.modPair.progress hu.modPair))

theorem shipWords {id p key words : Nat} {early : Bool} {e : ReadErrors} (h : Canonical s) :
    Canonical (shipWords id p key words early e s) := by
  unfold Machine.shipWords
  split
  · extract_lets +onlyGivenNames _ _ _ _ _ _
    split
    · split
      next _ s2 e =>
        have h2 : Canonical s2 := .snd e h.meetErrors.fillBuffers
        extract_lets +onlyGivenNames _ _ s4
        have h4 : Canonical s4 := h2.modDelivery.poisoned
        exact .ite h4.bump.progressSteps h4
  · exact h

theorem takeNext {id p : Nat} (h : Canonical s) : Canonical (takeNext id p s) := by
  unfold Machine.takeNext
  split
  · split
    · exact .ite h.writeSkip.modDelivery h
    · exact .ite h.modDelivery h
    · exact h
  · exact h

theorem segCompletions {id p key segId epoch : Nat} {lossy trunc : Bool} {first last did : Nat} {l : List Buf}
    (h : Canonical s) : Canonical (segCompletions id p key segId epoch lossy trunc first last did l s) := by
  induction l generalizing did s with
  | nil => exact h
  | cons b r ih => exact ih h.finishBuf

theorem rewriteEarly {f : Nat} {bufs : List Buf} {early : Nat} {larvalHead : Bool} {recs : List Rec} (h : Canonical s)
    :
    Canonical (rewriteEarly f bufs early larvalHead recs s) := by
  unfold Machine.rewriteEarly
  exact h.each fun _ _ hu => by
    split
    · exact hu.emit
    · exact hu

theorem deliverDone {id p key : Nat} (h : Canonical s) : Canonical (deliverDone id p key s) := by
  unfold Machine.deliverDone
  split
  · exact .ite h h.rewriteEarly.modPair.segCompletions.modDelivery
  · exact h

theorem modReadBack {f n : Nat} {h' : ReadBack → ReadBack} (h : Canonical s) : Canonical (modReadBack f n h' s) :=
  h.modPair

theorem shipReadBack {f n words : Nat} {e : ReadErrors} (h : Canonical s) :
    Canonical (shipReadBack f n words e s) := by
  unfold Machine.shipReadBack
  split
  · exact h
  · extract_lets +onlyGivenNames _ _ _
    split
    · split
      next _ s2 e =>
        have h2 : Canonical s2 := .snd e h.meetErrors.fillBuffers
        exact h2.bump.modReadBack

theorem readBackCompletions {f n : Nat} {r : ReadBack} {epoch first last : Nat} {l : List Buf} (h : Canonical s) :
    Canonical (readBackCompletions f n r epoch first last l s) := by
  induction l generalizing s with
  | nil => exact h
  | cons b t ih => exact ih h.finishBuf

theorem readBackDone {f n : Nat} (h : Canonical s) : Canonical (readBackDone f n s) := by
  unfold Machine.readBackDone
  split
  · exact h
  · extract_lets +onlyGivenNames _
    split
    · exact h
    · extract_lets +onlyGivenNames _ _ _ s2
      have h2 : Canonical s2 := h.modPair.readBackCompletions
      exact .settle (.ite h2.unpin h2.finishCpl)

theorem discardRange {lo hi : Nat} (h : Canonical s) : Canonical (discardRange lo hi s) :=
  h.each fun _ _ hu => hu.discardReg.discardReg

theorem freeBank {b : Nat} (h : Canonical s) : Canonical (freeBank b s) := by
  unfold Machine.freeBank
  exact h.modBank.setF.setF

theorem stopAutoThreshold {p : Nat} (h : Canonical s) : Canonical (stopAutoThreshold p s) := by
  unfold Machine.stopAutoThreshold
  extract_lets +onlyGivenNames _
  split
  · extract_lets +onlyGivenNames s1
    have h1 : Canonical s1 := h.each fun _ _ hu => by
      split
      · exact hu.wrLive
      · exact hu
    exact h1.setPart.finish
  · exact h

theorem destroyPart {p event : Nat} (h : Canonical s) : Canonical (destroyPart p event s) := by
  unfold Machine.destroyPart
  extract_lets +onlyGivenNames s1 _ _ s5
  have h1 : Canonical s1 := h.stopAutoThreshold
  have h5 : Canonical s5 := .each (.ite h1.endArmed h1) fun _ _ hu => by
    extract_lets +onlyGivenNames s3 ending s4
    clear_value ending
    have h3 : Canonical s3 := by
      unfold s3
      split
      · split
        · exact hu.abandonTaken
        · exact hu
      · exact hu
    have h4 : Canonical s4 := h3.unbind
    split
    · exact h4.finish
    · exact h4
  exact .setPart (.setF (.setF (.setF (.wr (.setF (.discardRange (.discardRange (.discardRange (.discardRange (.each
    (.each (.each (h5.postAll.each fun _ _ hu => hu.freeBank) fun _ _ hu => hu.discardRange) fun _ _ hu =>
    hu.discardRange) fun _ _ hu => hu.discardRange))))))))))

theorem execFirstSampleFixed {p : PartId} (h : Canonical s) : NextCanonical (execFirstSampleFixed p s) :=
  .done h.fixReady.settle

theorem execFillComplete {p : PartId} (h : Canonical s) : NextCanonical (execFillComplete p s) := by
  unfold Machine.execFillComplete
  extract_lets +onlyGivenNames s1
  have h1 : Canonical s1 := h.resolveEnds
  split
  · exact .done h1
  · exact .done (.settle (.fixReady (.makeImago (.ite h1.emptySeg h1))))

theorem execRearmIntervalEnd {p : PartId} (h : Canonical s) : NextCanonical (execRearmIntervalEnd p s) :=
  .done h.modPart

theorem openContinuous {p : Nat} {t : Label} (h : Canonical s) : Canonical (openContinuous p t s) := by
  unfold Machine.openContinuous
  exact h.openSeg.modSegment.commitSeg

theorem execContinuousSegmentEnd {p : PartId} {t : Label} (h : Canonical s) :
    NextCanonical (execContinuousSegmentEnd p t s) := by
  unfold Machine.execContinuousSegmentEnd
  extract_lets +onlyGivenNames s1
  have h1 : Canonical s1 := h.advanceTo
  split
  · exact .ite (.done h1.openContinuous.settle) (.done h1)
  · exact .done h1

theorem served {level id : Nat} (h : Canonical s) : Canonical (served level id s) := h.withMgmt

theorem execEarlyShipWrite {f : FnId} {pair : PairId} {words : Nat} {e : ReadErrors} (h : Canonical s) :
    NextCanonical (execEarlyShipWrite f pair words s e) := by
  unfold Machine.execEarlyShipWrite
  extract_lets +onlyGivenNames _
  split
  · exact .done h
  · split
    · split
      · exact .done (.shipWords (.modDelivery (.served (.ite h.writeSkip h))))
      · exact .done h
    · exact .done h

theorem execEarlyThrottleChange {p : PartId} (h : Canonical s) : NextCanonical (execEarlyThrottleChange p s) := by
  unfold Machine.execEarlyThrottleChange
  exact .ite (.done h) (.done h.setF.setF.postPart)

theorem execSegmentDeliveryWrite {f : FnId} {pair : PairId} {words : Nat} {e : ReadErrors} (h : Canonical s) :
    NextCanonical (execSegmentDeliveryWrite f pair words s e) := by
  unfold Machine.execSegmentDeliveryWrite
  extract_lets +onlyGivenNames _
  split
  · exact .done h.served.shipReadBack.tryFetch
  · split
    · exact .done h
    · split
      · extract_lets +onlyGivenNames s1
        have h1 : Canonical s1 := h.served.takeNext
        split
        · exact .done h1.shipWords.tryFetch
        · exact .done h1
      · exact .done h

theorem execSegmentDeliveryDone {f : FnId} {pair : PairId} (h : Canonical s) :
    NextCanonical (execSegmentDeliveryDone f pair s) := by
  unfold Machine.execSegmentDeliveryDone
  extract_lets +onlyGivenNames _
  split
  · exact .done h
  · split
    · exact .done h.deliverDone.settle.tryFetch
    · exact .done h.readBackDone.tryFetch

theorem execModTimeExpiry {f : FnId} {pair : PairId} (h : Canonical s) :
    NextCanonical (execModTimeExpiry f pair s) := .ite (.done h.signalPair) (.done h)

/-! ### Machine/Detectors.lean -/

theorem fireDet {n : Nat} {time : Label} {exact : Bool} {aux : Nat} (h : Canonical s) :
    Canonical (fireDet n time exact aux s) := by
  unfold Machine.fireDet
  split
  · exact h
  · exact h.bump.modDet

theorem fireTimeouts {n t k : Nat} {r : Label} (h : Canonical s) : Canonical (fireTimeouts n t k r s) := by
  induction k generalizing r s with
  | zero => exact h
  | succ k ih => exact ih h.fireDet

theorem expireDet {n : Nat} {upto : Label} (h : Canonical s) : Canonical (expireDet n upto s) := by
  unfold Machine.expireDet
  extract_lets +onlyGivenNames _ _
  split
  · split
    · exact .ite h (.ite h.fireTimeouts.modDet h.fireDet.modDet)
    · exact h
  · exact .modDet (h.each fun _ _ hu => hu.fireDet)
  · split
    · exact .ite h.fireDet.modDet h
    · exact h
  · exact h

theorem pulse {n : Nat} {positive : Bool} {w : Nat} {at_ : Label} (h : Canonical s) :
    Canonical (pulse n positive w at_ s) := by
  unfold Machine.pulse
  exact .ite h.fireDet h

theorem setOpen {n : Nat} {o : Option (Label × Bool)} (h : Canonical s) : Canonical (setOpen n o s) := h.modDet

theorem setDown {n : Nat} {o : Option Label} (h : Canonical s) : Canonical (setDown n o s) := h.modDet

theorem skewCrossing {n : Nat} {sideB checked : Bool} {at_ : Label} (h : Canonical s) :
    Canonical (skewCrossing n sideB checked at_ s) := by
  unfold Machine.skewCrossing
  extract_lets +onlyGivenNames _ _ _ _ _ _ _ _ s1
  have h1 : Canonical s1 := h.modDet
  split
  · exact h1
  · split
    · extract_lets +onlyGivenNames s2
      have h2 : Canonical s2 := h1.setF.bump
      split
      · exact h2.oncePerFrame fun _ hu => hu.postPart
      · exact h2
    · exact h1.modDet

theorem detOne {n : Nat} {f : Feed} {u l : Bool} (h : Canonical s) : Canonical (detOne n f u l s) := by
  unfold Machine.detOne
  extract_lets +onlyGivenNames x t a dir watched notice onU onL o
  clear_value o
  split
  case h_1 => exact .ite h.fireDet h
  case h_2 | h_3 =>
    refine .ite h (.ite h.pulse (.setOpen ?_))
    split
    · exact .ite h h.pulse
    · exact h
  case h_4 =>
    split
    · split
      · exact .ite h.setOpen h
      · exact h
    · split
      · refine .ite (.ite h.setOpen h) ?_
        split
        · exact .setOpen (.ite h.fireDet h)
        · exact h.setOpen
        · exact h
      · refine .ite (.ite ?_ (.ite h.setOpen h)) h
        split
        · exact .setOpen (.ite h.fireDet h)
        · exact h.setOpen
        · exact h
  case h_5 => exact .ite h.modDet h
  case h_6 =>
    extract_lets +onlyGivenNames down
    clear_value down
    split
    · exact .ite h.setOpen (.ite h.setDown h)
    · extract_lets +onlyGivenNames close
      have hclose (o : Option Label) : Canonical (close o s) := by
        unfold close
        split
        · exact .ite h.fireDet h
        · exact h
      exact .ite (.ite (.ite h.setOpen h) (hclose _).setOpen.setDown)
        (.ite (.ite (hclose _).setOpen.setDown (.ite h.setDown h)) h)
  case h_7 =>
    refine .ite h ?_
    extract_lets u
    have hu : Canonical u := .ite h.skewCrossing h
    exact .ite hu.skewCrossing hu
  case h_8 => exact h

theorem patternStep {n : Nat} {t : Label} {u l : DWord} (h : Canonical s) : Canonical (patternStep n t u l s) := by
  unfold Machine.patternStep
  extract_lets +onlyGivenNames _ _
  split
  · exact h
  · split
    · exact h.modDet
    · extract_lets +onlyGivenNames s1
      have h1 : Canonical s1 := by
        unfold s1
        split
        · exact .ite h.fireDet h
        · exact h
      exact h1.modDet

theorem detFold {n : Nat} {ul : DWord × DWord} {l : List Feed} (h : Canonical s) : Canonical (detFold n ul l s) := by
  induction l generalizing ul s with
  | nil => exact h
  | cons f r ih => exact ih h.detOne

theorem detGroup {t : Label} {ul : DWord × DWord} {g : List Feed} {n : Nat} (h : Canonical s) :
    Canonical (detGroup t ul g n s) := by
  unfold Machine.detGroup
  split
  · exact h
  · extract_lets +onlyGivenNames s1
    have h1 : Canonical s1 := h.expireDet.detFold
    exact .ite h1.patternStep h1

theorem feedOnce {b : Nat} (h : Canonical s) : Canonical (feedOnce b s) := by
  unfold Machine.feedOnce
  extract_lets +onlyGivenNames _
  split
  · exact h
  · exact .setBank (h.each fun _ _ hu => hu.detGroup)

theorem feedTo {k b : Nat} {t : Label} (h : Canonical s) : Canonical (feedTo k b t s) := by
  induction k generalizing s with
  | zero => exact h
  | succ k ih =>
    unfold Machine.feedTo
    split
    · exact .ite (ih h.feedOnce) h
    · exact h

theorem detsTo {b : Nat} {t : Label} (h : Canonical s) : Canonical (detsTo b t s) := by
  unfold Machine.detsTo
  exact h.feedTo.each fun _ _ hu => .ite hu.expireDet hu

theorem feedUntil {k b n : Nat} (h : Canonical s) : Canonical (feedUntil k b n s) := by
  induction k generalizing s with
  | zero => exact h
  | succ k ih => exact .ite (ih h.feedOnce) h

theorem restartDet {t : Label} {n : Nat} (h : Canonical s) : Canonical (restartDet t n s) := by
  unfold Machine.restartDet
  exact h.setDet

theorem restartDets {b : Nat} {t : Label} (h : Canonical s) : Canonical (restartDets b t s) := by
  unfold Machine.restartDets
  exact h.setBank.each fun _ _ hu => hu.restartDet

theorem stopDets {b : Nat} (h : Canonical s) : Canonical (stopDets b s) := by
  unfold Machine.stopDets
  exact h.modBank.each fun _ _ hu => hu.modDet

theorem gpSample {p g : Nat} {t : Label} (h : Canonical s) : Canonical (gpSample p g t s) := by
  unfold Machine.gpSample
  extract_lets +onlyGivenNames _ _ _
  split
  · exact h
  · split
    · exact h.modDet
    · extract_lets +onlyGivenNames _ _ s1
      have h1 : Canonical s1 := h.modDet.setF
      exact .ite h1.fireDet h1

theorem presentOne {p n : Nat} (h : Canonical s) : Canonical (presentOne p n s) := by
  unfold Machine.presentOne
  split
  · exact h
  · extract_lets +onlyGivenNames s1
    have h1 : Canonical s1 := h.modDet
    exact .ite h1.modSeq h1

theorem presentTo {p : Nat} {t : Label} {k n : Nat} (h : Canonical s) : Canonical (presentTo p t k n s) := by
  induction k generalizing s with
  | zero => exact h
  | succ k ih =>
    unfold Machine.presentTo
    split
    · exact .ite (ih h.presentOne) h
    · exact h

theorem execDetectorEvent {d : DetId} (h : Canonical s) : NextCanonical (execDetectorEvent d s) := by
  unfold Machine.execDetectorEvent
  split
  · exact .done h
  · exact .ite (.done h.feedUntil.presentOne) (.done h.presentOne)

theorem expireAt {n : Nat} {t : Option Label} (h : Canonical s) : Canonical (expireAt n t s) := by
  unfold Machine.expireAt
  split
  · exact h
  · exact .ite h.advanceTo.detsTo h

theorem execTimeoutExpiry {d : DetId} (h : Canonical s) : NextCanonical (execTimeoutExpiry d s) := .done h.expireAt

theorem execSkewExpiry {d : DetId} (h : Canonical s) : NextCanonical (execSkewExpiry d s) := .done h.expireAt

theorem execPatternLongerExpiry {d : DetId} (h : Canonical s) : NextCanonical (execPatternLongerExpiry d s) :=
  .done h.expireAt

/-! ### Machine/Sequencer.lean -/

theorem setTmr {p k : Nat} {t : Tmr} (h : Canonical s) : Canonical (setTmr p k t s) := h.modSeq

theorem counterOp {p k op : Nat} (h : Canonical s) : Canonical (counterOp p k op s) := by
  unfold Machine.counterOp
  exact h.setSeq

theorem expireTmr {p k : Nat} {x upto : Label} (h : Canonical s) : Canonical (expireTmr p k x upto s) := by
  unfold Machine.expireTmr
  exact .ite h.setTmr h.setTmr

theorem deferExpiry {p k : Nat} {t : Label} (h : Canonical s) : Canonical (deferExpiry p k t s) := by
  unfold Machine.deferExpiry
  split
  · exact .ite h.modSeq.expireTmr h
  · exact h

theorem timerOp {p k op : Nat} {t : Label} (h : Canonical s) : Canonical (timerOp p k op t s) := by
  unfold Machine.timerOp
  split
  · exact h
  · extract_lets +onlyGivenNames s1 _ _
    have h1 : Canonical s1 := h.deferExpiry
    split
    · exact .ite h1 h1.setTmr.modSeq
    · exact .ite h1.setTmr h1
    · exact h1.setTmr
    · exact h1.setTmr.modSeq
    · exact h1

theorem setStore {p : Nat} {on : Bool} {t : Label} (h : Canonical s) : Canonical (setStore p on t s) :=
  .ite h h.modSeq.setF.modPart.modPart

theorem changeFlags {p mask : Nat} {set : Bool} (h : Canonical s) : Canonical (changeFlags p mask set s) := h.modSeq

theorem trigoutPulse {lead : Label} {n : Nat} (h : Canonical s) : Canonical (trigoutPulse lead n s) :=
  .ite h (.emit { h with })

theorem trigger {p : Nat} {t time : Label} {exact forced : Bool} {anchor level branch : Nat} {lead : Option Label} (h
    : Canonical s) :
    Canonical (trigger p t time exact forced anchor level branch lead s) := by
  unfold Machine.trigger
  exact h.setF.bump.opTrigger

theorem actions {p l b : Nat} {t at_ : Label} {exact : Bool} {anchor : Nat} (h : Canonical s) :
    Canonical (actions p l b t at_ exact anchor s) := by
  unfold Machine.actions
  extract_lets +onlyGivenNames _ _ _ _ _ _ _ s4 s5 s6 s7 s8 _ _ s10
  have h4 : Canonical s4 := .changeFlags (.changeFlags (.each (h.setF.each fun _ _ hu => hu.counterOp) fun _ _ hu =>
    hu.timerOp))
  have h5 : Canonical s5 := .ite h4.setStore (.ite h4.setStore h4)
  have h6 : Canonical s6 := .ite h5.append.bump h5
  have h7 : Canonical s7 := .ite h6.bump.opAbandon h6
  have h8 : Canonical s8 := .ite h7.bump.opOpen h7
  have h10 : Canonical s10 := .each (.ite h8.modSeq.trigger h8) fun _ _ hu => hu.trigoutPulse
  exact .ite h10.modSeq.setF h10

theorem branches {p l : Nat} {t ub : Label} {evs : List Ev} {exps : List (Nat × Label)} {bs : List Nat}
    (h : Canonical s) : Canonical (branches p l t ub evs exps bs s) := by
  induction bs generalizing s with
  | nil => exact h
  | cons b r ih =>
    unfold Machine.branches
    extract_lets +onlyGivenNames q eligible ts idx
    split
    · exact ih h
    · split
      · exact ih h.modSeq
      · extract_lets +onlyGivenNames s1
        have h1 : Canonical s1 := .ite h.modSeq h
        split
        · exact h1.actions
        · exact h1.actions
        · exact h1.spend.actions

theorem substep {p : Nat} {t ub : Label} {evs : List Ev} {exps : List (Nat × Label)} (h : Canonical s) :
    Canonical (substep p t ub evs exps s) := h.branches

theorem lateSubsteps {k p : Nat} {t ub : Label} (h : Canonical s) : Canonical (lateSubsteps k p t ub s) := by
  induction k generalizing s with
  | zero => exact h
  | succ k ih =>
    unfold Machine.lateSubsteps
    split
    · exact h
    · exact ih h.modSeq.substep

theorem gapSubsteps {k p : Nat} {t pos lo : Label} (h : Canonical s) : Canonical (gapSubsteps k p t pos lo s) := by
  induction k generalizing pos s with
  | zero => exact h
  | succ k ih =>
    unfold Machine.gapSubsteps
    extract_lets +onlyGivenNames q due dwell ends
    split
    · exact h
    · exact ih (h.each fun _ _ hu => hu.expireTmr).substep

theorem dueSubsteps {p : Nat} {t prev lo : Label} (h : Canonical s) : Canonical (dueSubsteps p t prev lo s) := by
  unfold Machine.dueSubsteps
  exact .gapSubsteps (.lateSubsteps (h.each fun _ _ hu => hu.modSeq.expireTmr))

theorem substeps {k p : Nat} {t pos : Label} {evs : List Ev} {exps : List (Nat × Label)} {force : Bool}
    (h : Canonical s) : Canonical (substeps k p t pos evs exps force s) := by
  induction k generalizing pos evs exps force s with
  | zero => exact h
  | succ k ih =>
    unfold Machine.substeps
    extract_lets +onlyGivenNames ahead ub now s1
    have h1 : Canonical s1 := .ite h.substep h
    exact .ite h1 (ih (h1.each fun _ _ hu => hu.expireTmr))

theorem evalSample {p : Nat} {t lo : Label} (h : Canonical s) : Canonical (evalSample p t lo s) := by
  unfold Machine.evalSample
  exact h.modSeq.dueSubsteps.substeps

theorem forceTrigger {p : Nat} {t : Label} (h : Canonical s) : Canonical (forceTrigger p t s) := by
  unfold Machine.forceTrigger
  extract_lets +onlyGivenNames _
  split
  · exact h
  · extract_lets +onlyGivenNames s1
    have h1 : Canonical s1 := h.modSeq
    exact .each (.ite h1 h1.trigger) fun _ _ hu => hu.finish

theorem keepCounters {p : Nat} {t : Label} (h : Canonical s) : Canonical (keepCounters p t s) := by
  unfold Machine.keepCounters
  exact h.modPart

theorem markStore {p : Nat} {t : Label} (h : Canonical s) : Canonical (markStore p t s) := by
  unfold Machine.markStore
  exact h.each fun _ _ hu => hu.modBank

theorem execSequencerSample {p : PartId} {t : Label} (h : Canonical s) :
    NextCanonical (execSequencerSample p t s) := by
  unfold Machine.execSequencerSample
  extract_lets +onlyGivenNames s1
  have h1 : Canonical s1 := h.advanceTo
  exact .ite (.done h1) (.done (.settle (.modSeq (.markStore (.forceTrigger (.evalSample (.keepCounters (.flagsTo
    (.each (.each (h1.each fun _ _ hu => hu.detsTo) fun _ _ hu => hu.gpSample) fun _ _ hu => hu.presentTo)))))))))

theorem execTmrExpiry {p : PartId} {k : Fin 4} (h : Canonical s) : NextCanonical (execTmrExpiry p k s) := by
  unfold Machine.execTmrExpiry
  split
  · exact .done h.advanceTo
  · exact .done h

theorem xfStateWrite {v : Word} (h : Canonical s) : Canonical (xfStateWrite v s) := by
  unfold Machine.xfStateWrite
  exact { h with }

theorem execTriginEdge {n : Fin 4} {rising : Bool} {tPin : Label} (h : Canonical s) :
    NextCanonical (execTriginEdge n rising tPin s) := by
  unfold Machine.execTriginEdge
  extract_lets +onlyGivenNames s1
  have h1 : Canonical s1 := h.advanceTo
  exact .ite (.done { h1 with }) (.done (.each { h1 with } fun _ _ hu => .ite hu.modSeq hu))

theorem startSeq {p : Nat} {t : Label} (h : Canonical s) : Canonical (startSeq p t s) := by
  unfold Machine.startSeq
  exact h.clearSeq.modSeq.setF

theorem resumeSeq {p : Nat} {t : Label} (h : Canonical s) : Canonical (resumeSeq p t s) :=
  .ite h.abandonAll.startSeq.setF.postPart h

/-! ### Machine/FrontEnd.lean -/

theorem feEvent {b code payload : Nat} {bit_ : Fld} (h : Canonical s) :
    Canonical (feEvent b code payload bit_ s) := h.setF.postBank

theorem comparatorsLow {b : Nat} (h : Canonical s) : Canonical (comparatorsLow b s) := h.modBank

theorem removePair {b : Nat} {first : Label} {w chan : Nat} {c : Cmp} {rising : Bool} (h : Canonical s) :
    Canonical (removePair b first w chan c rising s) := by
  unfold Machine.removePair
  extract_lets +onlyGivenNames _ _ _ _ _ _ _ _ s1
  have h1 : Canonical s1 := by
    unfold s1
    split
    · exact .ite h.modPart h
    · exact h
  exact h1.setBank.setF.bump.oncePerFrame fun _ hu => hu.postBank

theorem foldOld {b : Nat} {t : Label} (h : Canonical s) : Canonical (foldOld b t s) := .ite h h.setBank

theorem addCrossing {b chan : Nat} {c : Cmp} {rising : Bool} {label : Label} (h : Canonical s) :
    Canonical (addCrossing b chan c rising label s) := by
  unfold Machine.addCrossing
  exact .ite h.removePair h.setBank

theorem addSlow {b chan : Nat} {c : Cmp} {rising : Bool} {t : Label} (h : Canonical s) :
    Canonical (addSlow b chan c rising t s) := by
  unfold Machine.addSlow
  exact .ite h.setBank h.setBank

theorem execChannelCrossing {b : BankId} {c : ChanId} {cmp : Cmp} {rising : Bool} {tPin : Label} (h : Canonical s) :
    NextCanonical (execChannelCrossing b c cmp rising tPin s) := by
  unfold Machine.execChannelCrossing
  extract_lets +onlyGivenNames s1
  have h1 : Canonical s1 := h.advanceTo.foldOld
  exact .ite (.done h1) (.ite (.done h1.setBank) (.done (.ite h1.addSlow h1.addCrossing)))

theorem restartGpsOf {p b : Nat} (h : Canonical s) : Canonical (restartGpsOf p b s) :=
  h.each fun _ _ hu => .ite hu.modDet hu

theorem restartBank {p b : Nat} {t : Label} (h : Canonical s) : Canonical (restartBank p b t s) :=
  h.restartDets.restartGpsOf

theorem startBank {p b : Nat} {t : Label} (h : Canonical s) : Canonical (startBank p b t s) := by
  unfold Machine.startBank
  extract_lets +onlyGivenNames _ _ _ _ s1
  have h1 : Canonical s1 := h.setBank.restartBank
  exact .ite h1 h1.setEnc.setF

theorem openBank {p b : Nat} {t : Label} (h : Canonical s) : Canonical (openBank p b t s) := h.startBank.openRecords

theorem backAt {p b : Nat} {e : Label} (h : Canonical s) : Canonical (backAt p b e s) := by
  unfold Machine.backAt
  exact .ite h.modBank.restartBank h

theorem resumeBank {p b : Nat} {t : Label} (h : Canonical s) : Canonical (resumeBank p b t s) :=
  .ite (h.modBank.each fun _ _ hu => hu.backAt) h.openBank

theorem removePhase {b : Nat} {first : Label} {rising : Bool} (h : Canonical s) :
    Canonical (removePhase b first rising s) := by
  unfold Machine.removePhase
  exact h.setBank.setF.bump.oncePerFrame fun _ hu => hu.postBank

theorem takeStateSample {p b : Nat} {rising : Bool} {label : Label} (h : Canonical s) :
    Canonical (takeStateSample p b rising label s) := by
  unfold Machine.takeStateSample
  extract_lets +onlyGivenNames _ _ _ s1
  have h1 : Canonical s1 := h.setBank
  exact .ite h1.backAt (.ite h1 (.restartBank (h1.each fun _ _ hu => hu.modDet)))

theorem execStclkEdge {b : BankId} {rising : Bool} {tPin : Label} (h : Canonical s) :
    NextCanonical (execStclkEdge b rising tPin s) := by
  unfold Machine.execStclkEdge
  extract_lets +onlyGivenNames s1
  have h1 : Canonical s1 := h.advanceTo
  split
  · exact .done h1
  · split
    · exact .done h1
    · extract_lets +onlyGivenNames _ _
      split
      · exact .done h1.removePhase
      · extract_lets +onlyGivenNames s2
        have h2 : Canonical s2 := h1.modBank
        split
        · exact .ite (.done h2.takeStateSample) (.done h2)
        · exact .done h2

theorem setValid {b valid : Nat} (h : Canonical s) : Canonical (setValid b valid s) := h.setF.setF

theorem finishCal {e : Calib} (h : Canonical s) : Canonical (finishCal e s) := by
  unfold Machine.finishCal
  exact h.finish

theorem calEnded {b reason : Nat} (h : Canonical s) : Canonical (calEnded b reason s) := by
  unfold Machine.calEnded
  exact .each { h with } fun _ _ hu => hu.finishCal

theorem startCal {b steps : Nat} (h : Canonical s) : Canonical (startCal b steps s) := by
  unfold Machine.startCal
  split
  · exact h
  · extract_lets +onlyGivenNames _ _ s3
    have h3 : Canonical s3 := h.modBank.setF.setF.setF.setF
    exact .ite h3.comparatorsLow h3

theorem abortCal {b reason : Nat} (h : Canonical s) : Canonical (abortCal b reason s) :=
  .ite h h.modBank.setF.setF.setF.feEvent.calEnded

theorem abortAllCal {reason : Nat} (h : Canonical s) : Canonical (abortAllCal reason s) :=
  h.each fun _ _ hu => hu.abortCal

theorem calStepEnds {b : Nat} {tileTemp : ℤ} (h : Canonical s) : Canonical (calStepEnds b tileTemp s) := by
  unfold Machine.calStepEnds
  extract_lets +onlyGivenNames _ _ s2 s3
  have h2 : Canonical s2 := h.setF.setValid
  have h3 : Canonical s3 := .ite h2.setF.setF h2
  split
  · extract_lets +onlyGivenNames s4
    have h4 : Canonical s4 := h3.modBank.setF
    exact .ite h4.comparatorsLow h4
  · extract_lets +onlyGivenNames s5
    have h5 : Canonical s5 := h3.setF.setF
    exact .calEnded (.feEvent (.ite h5.comparatorsLow h5))

theorem execCalStepDone {b : BankId} {tileTemp : ℤ} {means : List Nat} (h : Canonical s) :
    NextCanonical (execCalStepDone b tileTemp means s) :=
  .ite (.done h) (.ite (.ite (.done h.abortCal) (.ite (.done h.abortCal) (.done (.calStepEnds (h.each fun _ _ hu =>
    hu.setF))))) (.done h.calStepEnds))

theorem execCalExtTimeout {b : BankId} (h : Canonical s) : NextCanonical (execCalExtTimeout b s) :=
  .ite (.done h.abortCal) (.done h)

theorem calWrite {b : Nat} {v : Word} (h : Canonical s) : Canonical (calWrite b v s).1 := by
  unfold Machine.calWrite
  extract_lets +onlyGivenNames steps start
  split
  · exact h
  · exact .ite h.setF.setF.setF.startCal h.setF.setF.setF

theorem stopBank {b reason detail : Nat} {t : Label} (h : Canonical s) :
    Canonical (stopBank b reason detail t s) := by
  unfold Machine.stopBank
  extract_lets +onlyGivenNames s4
  have h4 : Canonical s4 := by
    unfold s4
    split
    · exact h
    · exact .ite h (.ite h.modBank (.ite (.ite h h.modBank) (.ite h.packState.modBank h.packBankTo.flushRun.modBank)))
  exact h4.setF.stopDets

theorem execBankFault {b : BankId} {code : Fin 256} {chan : ChanId} (h : Canonical s) :
    NextCanonical (execBankFault b code chan s) := by
  unfold Machine.execBankFault
  extract_lets +onlyGivenNames _ _ _ _ _ _ _ _ s7
  have h7 : Canonical s7 := h.abortCal.stopBank.setF.setF.setF.bump.feEvent.logFault.modBank
  split
  · extract_lets +onlyGivenNames s8
    have h8 : Canonical s8 := h7.logFault
    exact .done (.ite h8.setCause h8)
  · exact .done h7

theorem softReset {b : Nat} (h : Canonical s) : Canonical (softReset b s) := by
  unfold Machine.softReset
  extract_lets +onlyGivenNames s1
  have h1 : Canonical s1 := h.abortCal
  exact .modBank (.ite h1.stopBank h1)

theorem execSoftResetDone {b : BankId} (h : Canonical s) : NextCanonical (execSoftResetDone b s) :=
  .ite (.done h) (.done h.modBank.comparatorsLow.setF.stopDets)

theorem execBankResume {b : BankId} {t : Label} (h : Canonical s) : NextCanonical (execBankResume b t s) := by
  unfold Machine.execBankResume
  extract_lets +onlyGivenNames s1
  have h1 : Canonical s1 := h.advanceTo
  split
  · exact .done h1
  · extract_lets +onlyGivenNames _ s2 s3
    have h2 : Canonical s2 := h1.modBank.setF
    have h3 : Canonical s3 := by
      unfold s3
      split
      · exact h2
      · exact .ite h2.resumeBank.settle h2
    exact .done (.ite h3.postBank h3)

/-! ### Machine/Blocks.lean -/

theorem restartGps {p : Nat} (h : Canonical s) : Canonical (restartGps p s) := h.each fun _ _ hu => hu.modDet

theorem stoppedPiece {b : Nat} {t : Label} (h : Canonical s) : Canonical (stoppedPiece b t s) := .ite h.modBank h

theorem resumePart {p : Nat} {t : Label} (h : Canonical s) : Canonical (resumePart p t s) := by
  unfold Machine.resumePart
  extract_lets +onlyGivenNames _ _ s2
  have h2 : Canonical s2 := .modPart (.ite h.resumeSeq h)
  exact .settle (.fixReady (.restartGps (.each (.each (.modPart (.ite h2.spreadGaps h2.writeGaps)) fun _ _ hu =>
    hu.resumeBank) fun _ _ hu => hu.stoppedPiece)))

theorem queueRoom {p : Nat} {t : Label} (h : Canonical s) : Canonical (queueRoom p t s) :=
  .ite h (h.each fun _ _ hu => .ite (.ite hu.flushRun.flushState.stopDets.modBank hu) (.ite hu.resumeBank hu))

theorem takeStops {p : Nat} {t : Label} (h : Canonical s) : Canonical (takeStops p t s) := by
  unfold Machine.takeStops
  exact h.modPart.each fun _ _ hu => hu.stopStoring

theorem oneBlock {p : Nat} {start upto : Label} (h : Canonical s) : Canonical (oneBlock p start upto s) := by
  unfold Machine.oneBlock
  exact h.packBlock.modPart.takeStops.queueRoom

theorem blocksUpTo {k p : Nat} {t : Label} (h : Canonical s) : Canonical (blocksUpTo k p t s) := by
  induction k generalizing s with
  | zero => exact h
  | succ k ih =>
    refine .ite h (.ite (ih h.oneBlock) (.modPart (.ite (.each h.takeStops ?_) h.takeStops)))
    exact fun _ _ hu => hu.packState

theorem blocksTo {p : Nat} {t : Label} (h : Canonical s) : Canonical (blocksTo p t s) := by
  unfold Machine.blocksTo
  extract_lets +onlyGivenNames _
  split
  · exact h
  · extract_lets +onlyGivenNames s1
    have h1 : Canonical s1 := h.blocksUpTo.settle
    exact .ite h1.resumePart h1

theorem beginInterval {p : Nat} {t : Label} (h : Canonical s) : Canonical (beginInterval p t s) := by
  unfold Machine.beginInterval
  extract_lets +onlyGivenNames _ _ _ _ _ s6 s7 s8
  have h6 : Canonical s6 := .restartGps (.each (.each (h.modSeq.startSeq.modPart.each fun _ _ hu => hu.modBank) fun _
    _ hu => hu.openBank) fun _ _ hu => hu.stoppedPiece)
  have h7 : Canonical s7 := .ite h6.openContinuous h6
  have h8 : Canonical s8 := by
    unfold s8
    split
    · exact h7.stopStoring
    · exact h7
  exact h8.fixReady.settle

theorem execBlockBoundary {p : PartId} {t : Label} {parity : List (CrossingId × Nat)} (h : Canonical s) :
    NextCanonical (execBlockBoundary p t s parity) := by
  unfold Machine.execBlockBoundary
  extract_lets +onlyGivenNames s1
  have h1 : Canonical s1 := h.advanceTo
  exact .ite (.done h1) (.ite (.done (.ite h1.beginInterval h1)) (.done h1.blocksTo.failWrites))

theorem postOpen {code : Nat} (h : Canonical s) : Canonical (postOpen code s) := h.spend.postPfs

theorem eventOpen {bit_ : Fld} {code : Nat} (h : Canonical s) : Canonical (eventOpen bit_ code s) := h.setF.postOpen

theorem qualityStep (h : Canonical s) : Canonical (qualityStep s) := by
  unfold Machine.qualityStep
  exact .ite h h.setF.setF.postOpen

theorem timingFrame {p b : Nat} {t : Label} (h : Canonical s) : Canonical (timingFrame p b t s) := by
  unfold Machine.timingFrame
  extract_lets +onlyGivenNames _ _ _ _ _ _ _
  split
  · extract_lets +onlyGivenNames _ _ _ s4
    have h4 : Canonical s4 := h.applyStaged.setF.setBank.setEnc.setF
    split
    · exact h4
    · extract_lets +onlyGivenNames s5
      have h5 : Canonical s5 := .ite h4 h4.writeFrame
      split
      · exact h5.switchEnc
      · exact .ite h5.switchEnc h5

theorem partFrame {p : Nat} {t : Label} (h : Canonical s) : Canonical (partFrame p t s) := by
  unfold Machine.partFrame
  split
  · exact h
  · extract_lets +onlyGivenNames s1
    have h1 : Canonical s1 := h.blocksTo
    exact .ite (h1.each fun _ _ hu => .ite hu hu.writeFrame) (h1.each fun _ _ hu => hu.timingFrame)

theorem execFrameStart {t : Label} (h : Canonical s) : NextCanonical (execFrameStart t s) := by
  unfold Machine.execFrameStart
  extract_lets +onlyGivenNames s1
  have h1 : Canonical s1 := h.advanceTo
  split
  · exact .done h1
  · extract_lets +onlyGivenNames _ _ s4 _ _ s6 s7
    have h4 : Canonical s4 := .qualityStep (.each (h1.each fun _ _ hu => hu.modBank) fun _ _ hu => hu.blocksTo)
    have h6 : Canonical s6 := by
      unfold s6
      split
      · exact h4
      · exact .ite h4 (.each { h4 with } fun _ _ hu => .ite hu.resumePart hu)
    have h7 : Canonical s7 := h6.each fun _ _ hu => hu.partFrame
    exact .done (.ite h7 (h7.each fun _ _ hu => hu.applyStaged))

/-! ### Machine/Time.lean -/

theorem modCic {g : Cicada → Cicada} (h : Canonical s) : Canonical (modCic g s) := { h with }

theorem modClk {g : Clocks → Clocks} (h : Canonical s) : Canonical (modClk g s) := { h with }

theorem enterHoldover (h : Canonical s) : Canonical (enterHoldover s) := .ite h h.setF.modCic.startInterval.eventOpen

theorem leaveHoldover (h : Canonical s) : Canonical (leaveHoldover s) := .ite h h.setF.modCic.stopInterval.postOpen

theorem retarget {jump : Option ℤ} (h : Canonical s) : Canonical (retarget jump s) := by
  unfold Machine.retarget
  extract_lets +onlyGivenNames _ _ _ _ _ s1 _ s3
  have h1 : Canonical s1 := h.modClk
  have h3 : Canonical s3 := .setF (.ite h1 h1.modClk)
  exact .ite h3.eventOpen h3

theorem steerBy {e : ℤ} (h : Canonical s) : Canonical (steerBy e s) := by
  unfold Machine.steerBy
  exact h.modCic.retarget

theorem changeInput {ref : Bool} (h : Canonical s) : Canonical (changeInput ref s) := .ite h (.setF { h with })

theorem showErr {e : ℤ} (h : Canonical s) : Canonical (showErr e s) := h.setF

theorem ppsOutlier (h : Canonical s) : Canonical (ppsOutlier s) := h.bump.eventOpen

theorem acceptEdge {t : Label} {e : ℤ} (h : Canonical s) : Canonical (acceptEdge t e s) := by
  unfold Machine.acceptEdge
  extract_lets +onlyGivenNames _ _ _ _ _ s2 s3 s4 s5
  have h2 : Canonical s2 := h.showErr.modCic
  have h3 : Canonical s3 := .ite h2.setF.eventOpen h2
  have h4 : Canonical s4 := .ite h3.eventOpen h3
  have h5 : Canonical s5 := .ite h4.leaveHoldover h4
  exact .ite h5.modCic.setF h5.modCic.steerBy

theorem execPpsEdge {t : Label} {rising : Bool} (h : Canonical s) : NextCanonical (execPpsEdge t rising s) := by
  unfold Machine.execPpsEdge
  extract_lets +onlyGivenNames s1
  have h1 : Canonical s1 := h.advanceTo
  split
  · exact .done h1
  · extract_lets +onlyGivenNames _ _ s2
    have h2 : Canonical s2 := h1.bump.showErr.modCic
    split
    · exact .done h2.ppsOutlier
    · split
      · exact .done h2.acceptEdge
      · extract_lets +onlyGivenNames _ s3
        have h3 : Canonical s3 := h2.ppsOutlier.modCic
        exact .ite (.done h3.acceptEdge) (.done h3)

theorem execPpsIntervalEnd (h : Canonical s) : NextCanonical (execPpsIntervalEnd s) := by
  unfold Machine.execPpsIntervalEnd
  extract_lets +onlyGivenNames _ _ s2
  have h2 : Canonical s2 := h.advanceTo.modCic
  split
  · exact .done h2
  · extract_lets +onlyGivenNames s3 s4
    have h3 : Canonical s3 := h2.bump.eventOpen
    have h4 : Canonical s4 := .ite h3.enterHoldover h3
    exact .done (.ite h4 h4.setF)

theorem ppsEnWrite {en : Bool} (h : Canonical s) : Canonical (ppsEnWrite en s) := by
  unfold Machine.ppsEnWrite
  extract_lets +onlyGivenNames s1
  have h1 : Canonical s1 := h.setF
  split
  · exact h1
  · extract_lets +onlyGivenNames _ s3
    have h3 : Canonical s3 := h1.modCic.setF
    exact .ite h3 h3.leaveHoldover

theorem karingBad (h : Canonical s) : Canonical (karingBad s) := h.bump.eventOpen

theorem karingCheck {n : Nat} {t : Label} (h : Canonical s) : Canonical (karingCheck n t s) := by
  unfold Machine.karingCheck
  split
  · exact h
  · split
    · exact h.modCic
    · extract_lets +onlyGivenNames _ s1
      have h1 : Canonical s1 := h.modCic
      exact .ite h1.modCic (.ite h1.modCic h1.modCic.eventOpen)

theorem execKtcFrame {t : Label} {frame : List Byte} {delimiterOk : Bool} (h : Canonical s) :
    NextCanonical (execKtcFrame t frame delimiterOk s) := by
  unfold Machine.execKtcFrame
  extract_lets +onlyGivenNames s1 _ _ _ _ _
  have h1 : Canonical s1 := h.advanceTo
  split
  · exact .done h1.karingBad
  · split
    · exact .done h1
    · split
      · exact .done h1.karingBad
      · extract_lets +onlyGivenNames _ _ _ _ _ _ s3 s4 _ s6
        have h3 : Canonical s3 := h1.bump.setF.setF.setF.setF.setF
        have h4 : Canonical s4 := .ite h3.postOpen h3
        have h6 : Canonical s6 := .modCic (.ite h4.postOpen h4)
        exact .done (.karingCheck (.ite h6.setF h6))

theorem requestSet {cmd : Option Cmd} (h : Canonical s) : Canonical (requestSet cmd s) := by
  unfold Machine.requestSet
  extract_lets +onlyGivenNames s1
  have h1 : Canonical s1 := by
    unfold s1
    split
    · exact h.finish
    · exact h
  exact h1.modCic.setF

theorem moveTime {d : ℤ} (h : Canonical s) : Canonical (moveTime d s) := by
  unfold Machine.moveTime
  exact { h with
      banks := spWf_map _ _ h.banks
      dets := spWf_map _ _ h.dets
      seqs := spWf_map _ _ h.seqs
      parts := spWf_map _ _ h.parts }

theorem recordStep {cause : Nat} {old new : Label} {sub secs : ℤ} (h : Canonical s) :
    Canonical (recordStep cause old new sub secs s) := by
  unfold Machine.recordStep
  exact .eventOpen (.bump (h.setF.modCic.each fun _ _ hu => hu.append))

theorem stopForStep {t : Label} (h : Canonical s) : Canonical (stopForStep t s) := by
  unfold Machine.stopForStep
  exact .each (h.each fun _ _ hu => hu.stopStoring) fun _ _ hu => hu.each fun _ _ hu => hu.stopDets

theorem karingOverrides (h : Canonical s) : Canonical (karingOverrides s) := by
  unfold Machine.karingOverrides
  extract_lets +onlyGivenNames s1
  have h1 : Canonical s1 := by
    unfold s1
    split
    · exact h.finish
    · exact h
  exact h1.modCic.setF.postOpen

theorem secondsLoad (h : Canonical s) : Canonical (secondsLoad s).2 := by
  unfold Machine.secondsLoad
  extract_lets +onlyGivenNames due
  clear_value due
  split
  · exact h.modCic.karingOverrides
  · exact .pairSnd h.modCic
  · extract_lets +onlyGivenNames cmd u
    have hu : Canonical u := h.modCic.setF
    clear_value cmd
    refine .pairSnd ?_
    split
    · exact hu.finish
    · exact hu
  · exact h

theorem applySteps {t : Label} (h : Canonical s) : Canonical (applySteps t s) := by
  unfold Machine.applySteps
  extract_lets +onlyGivenNames sat ref s1 c
  have h1 : Canonical s1 := h.modCic
  split
  next load s2 e =>
    have h2 : Canonical s2 := .snd e h1.secondsLoad
    extract_lets secs lower s3 sub s4 d r cause s5 s6 rest s7 s8
    have h3 : Canonical s3 := .ite h2.modCic.setF h2
    have h4 : Canonical s4 := .ite h3.stopForStep h3
    have h6 : Canonical s6 := .ite h4 (.recordStep (.ite h4 h4.moveTime))
    have h7 : Canonical s7 := h6.modCic.setF
    clear_value rest s7 s6
    refine .ite ?_ h6
    split
    · exact h7.steerBy
    · exact h7

theorem measureXo (h : Canonical s) : Canonical (measureXo s) := by
  unfold Machine.measureXo
  exact h.spend.modCic.setF

theorem execSecondBoundary (h : Canonical s) : NextCanonical (execSecondBoundary s) := by
  unfold Machine.execSecondBoundary
  extract_lets +onlyGivenNames here t s1 s2 held s3 _ _ _ s4 s5
  have h2 : Canonical s2 := h.advanceTo.each fun _ _ hu => hu.blocksTo
  have hheld : Canonical held := h2.moveTime
  have h3 : Canonical s3 := .ite (.ite hheld.setF hheld.modCic.setF.eventOpen) h2
  have h4 : Canonical s4 := h3.applyStaged.modCic.setF
  have h5 : Canonical s5 := .ite h4.measureXo h4
  exact .done (.modCic (.checkIntervals (.applySteps (.ite h5.spend.setF.retarget h5))))

/-! ### Machine/Clocks.lean -/

theorem bringUp (h : Canonical s) : Canonical (bringUp s) := .ite (h.withMgmt.each fun _ _ hu => hu.startCal) h

theorem bringUpAgain (h : Canonical s) : Canonical (bringUpAgain s) := .ite h.withMgmt h

theorem gatePart {p : Nat} (h : Canonical s) : Canonical (gatePart p s) := by
  unfold Machine.gatePart
  extract_lets +onlyGivenNames s1
  have h1 : Canonical s1 := h.blocksTo
  exact .each (.ite (.stopStoring (.ite h1.packBlock h1)) h1.stopStoring) fun _ _ hu => hu.stopDets

theorem gateOutputs (h : Canonical s) : Canonical (gateOutputs s) :=
  .ite h (.enterHoldover (.startInterval (.each (.abortAllCal (.bringUpAgain (.setF (.modCic (.modClk (.setF (.setF
    (h.each fun _ _ hu => hu.gatePart)))))))) fun _ _ hu => hu.stopAutoThreshold)))

theorem startRelock {full : Bool} (h : Canonical s) : Canonical (startRelock full s) := by
  unfold Machine.startRelock
  extract_lets +onlyGivenNames _ _ s2
  have h2 : Canonical s2 := h.changeInput.modClk
  exact .ite h2.setF h2.setF

theorem hostRelock {full : Bool} (h : Canonical s) : Canonical (hostRelock full s) :=
  .ite h.gateOutputs.modClk.startRelock h.startRelock

theorem lockLoss {detail : Nat} {lost : Bool} (h : Canonical s) : Canonical (lockLoss detail lost s) := by
  unfold Machine.lockLoss
  extract_lets +onlyGivenNames _ s2
  have h2 : Canonical s2 := h.gateOutputs.bump.eventOpen
  exact .startRelock (.logFault (.modClk (.ite h2.setF.eventOpen h2)))

theorem execSpllLockLoss {cause : LossCause} {phaseErr mv : Nat} (h : Canonical s) :
    NextCanonical (execSpllLockLoss cause s phaseErr mv) := by
  unfold Machine.execSpllLockLoss
  split
  · exact .done h
  · split
    · exact .ite (.done h.lockLoss) (.done h)
    · exact .done h.lockLoss
    · exact .ite (.done h.lockLoss) (.done h)

theorem execRefclkLost (h : Canonical s) : NextCanonical (execRefclkLost s) := by
  unfold Machine.execRefclkLost
  split
  · exact .done h
  · split
    · exact .done h.lockLoss
    · extract_lets +onlyGivenNames s1
      have h1 : Canonical s1 := h.setF.eventOpen
      exact .ite (.done h1.startRelock) (.done h1)

theorem relockDone {xoCycles : Nat} (h : Canonical s) : Canonical (relockDone xoCycles s) := by
  unfold Machine.relockDone
  extract_lets +onlyGivenNames s1 s2 s3
  have h1 : Canonical s1 := h.advanceTo
  have h2 : Canonical s2 := .stopInterval { h1 with }
  have h3 : Canonical s3 := by
    unfold s3
    split
    · exact h2.moveTime
    · exact h2
  exact h3.setF.setF.setF.modClk.postOpen.retarget.bringUp

theorem relockFails (h : Canonical s) : Canonical (relockFails s) := by
  unfold Machine.relockFails
  extract_lets +onlyGivenNames _ s1
  have h1 : Canonical s1 := .ite h.modClk h
  split
  · exact h1.modClk.setF
  · split
    · extract_lets +onlyGivenNames _ _ s4
      have h4 : Canonical s4 := h1.setF.eventOpen.logFault.setCause
      exact .ite h4.setF.startRelock h4.modClk
    · exact h1

theorem execRelockFailed (h : Canonical s) : NextCanonical (execRelockFailed s) := .done h.relockFails

theorem execRelockRetryTimeout (h : Canonical s) : NextCanonical (execRelockRetryTimeout s) :=
  .ite (.done h.startRelock) (.done h)

theorem execLockFiltPinTest {r : PinTest} (h : Canonical s) : NextCanonical (execLockFiltPinTest r s) := by
  unfold Machine.execLockFiltPinTest
  extract_lets +onlyGivenNames _ s1
  have h1 : Canonical s1 := h.setF
  split
  · exact .done h1
  · split
    · exact .done h1.modClk.event
    · exact .done h1
    · exact .done h1.relockFails

theorem execSpllLockDeclared {analog : Bool} {mv phaseErr cycles : Nat} (h : Canonical s) :
    NextCanonical (execSpllLockDeclared analog s mv phaseErr cycles) := by
  unfold Machine.execSpllLockDeclared
  extract_lets +onlyGivenNames _ _
  split
  · exact .done h
  · extract_lets +onlyGivenNames s1 s2
    have h1 : Canonical s1 := h.modClk
    have h2 : Canonical s2 := .ite h1.modClk h1
    exact .done (.ite h2.setF h2)

theorem hitlessReturn {err : ℤ} (h : Canonical s) : Canonical (hitlessReturn err s) := by
  unfold Machine.hitlessReturn
  exact h.changeInput.setF.modCic.retarget

theorem execRefclkQualified {phaseErr : ℤ} (h : Canonical s) : NextCanonical (execRefclkQualified phaseErr s) := by
  unfold Machine.execRefclkQualified
  split
  · exact .done h
  · extract_lets +onlyGivenNames _ s1 s2
    have h1 : Canonical s1 := h.setF
    have h2 : Canonical s2 := .postOpen (.ite h1.setF h1)
    exact .ite (.done h2.startRelock) (.ite (.done h2.startRelock) (.ite (.done h2) (.ite (.done h2.hitlessReturn)
      (.done h2.modCic.hostRelock))))

theorem execRefReturnComplete {err : ℤ} (h : Canonical s) : NextCanonical (execRefReturnComplete err s) := by
  unfold Machine.execRefReturnComplete
  split
  · exact .done h
  · extract_lets +onlyGivenNames _ s2
    have h2 : Canonical s2 := h.modCic.setF.retarget
    exact .ite (.done h2.eventOpen) (.done h2)

theorem execRefFreqAutoMeasure {nominal : Option (Fin 3)} {offset : ℤ} (h : Canonical s) :
    NextCanonical (execRefFreqAutoMeasure nominal offset s) := by
  unfold Machine.execRefFreqAutoMeasure
  split
  · exact .done h
  · split
    · exact .done h
    · extract_lets +onlyGivenNames _ _ s2
      have h2 : Canonical s2 := h.setF.setF.retarget
      exact .ite (.done h2) (.done h2.setF.hostRelock)

theorem refSelWrite {sel freq : Nat} (h : Canonical s) : Canonical (refSelWrite sel freq s).1 := by
  unfold Machine.refSelWrite
  split
  · exact h
  · extract_lets moved tuned old s1 s2 nominal s3
    have h1 : Canonical s1 := h.setF.setF
    have h2 : Canonical s2 := .ite h1.setF h1
    have h3 : Canonical s3 := .ite h2.setF h2
    split
    · exact h3
    · split
      · exact .pairFst h3.modClk
      · exact .pairFst h3.hostRelock

theorem relockWrite (h : Canonical s) : Canonical (relockWrite s) := .ite h.hostRelock h

theorem trimWrite {v : Nat} (h : Canonical s) : Canonical (trimWrite v s) := by
  unfold Machine.trimWrite
  extract_lets +onlyGivenNames _ s1
  have h1 : Canonical s1 := h.setF
  exact .ite h1.hostRelock.modClk h1.retarget

theorem execSysPllLockLoss (h : Canonical s) : NextCanonical (execSysPllLockLoss s) := by
  unfold Machine.execSysPllLockLoss
  exact .done (.logFault (.each (.eventOpen (.modClk (.setF (h.each fun _ _ hu => hu.blocksTo)))) fun _ _ hu =>
    hu.modBank.spend))

theorem sysRelocked (h : Canonical s) : Canonical (sysRelocked s) := by
  unfold Machine.sysRelocked
  exact .each (.modClk (.setF (h.each fun _ _ hu => hu.blocksTo))) fun _ _ hu => hu.modBank

theorem execSyncInEdge {t : Label} (h : Canonical s) : NextCanonical (execSyncInEdge s t) := by
  unfold Machine.execSyncInEdge
  exact .ite (.done h) (.done h.modClk)

theorem recordPhase {t n : Nat} (h : Canonical s) : Canonical (recordPhase t n s) := h.modClk

theorem execSyncRestart {moved : BitVec 6} {coreMove : ℤ} (h : Canonical s) :
    NextCanonical (execSyncRestart moved coreMove s) := by
  unfold Machine.execSyncRestart
  split
  · exact .done h
  · split
    · exact .done h
    · extract_lets +onlyGivenNames s1
      have h1 : Canonical s1 := h.modClk.advanceTo
      split
      · exact .done h1
      · extract_lets +onlyGivenNames _ _ _ s2 s3 _ s5 _ _ s8
        have h2 : Canonical s2 := h1.each fun _ _ hu => hu.recordPhase
        have h3 : Canonical s3 := .ite h2.modClk h2
        have h5 : Canonical s5 := .setF (.setF (.ite h3 h3.setF))
        have h8 : Canonical s8 := .event (.setF (.ite h5.eventOpen h5))
        exact .ite (.done h8.event) (.done h8)

theorem soFireWrite (h : Canonical s) : Canonical (soFireWrite s) := .ite h.modClk h

theorem execSyncOutPulse {t : Label} (h : Canonical s) : NextCanonical (execSyncOutPulse t s) := by
  unfold Machine.execSyncOutPulse
  extract_lets +onlyGivenNames s1
  have h1 : Canonical s1 := h.advanceTo
  split
  · exact .done h1
  · exact .ite (.done h1) (.done h1.modClk.emit)

/-! ### Machine/Memory.lean -/

theorem reclaimFor {k p budget : Nat} (h : Canonical s) : Canonical (reclaimFor k p budget s).2 := by
  induction k generalizing budget s with
  | zero => exact h
  | succ k ih =>
    unfold Machine.reclaimFor
    extract_lets +onlyGivenNames x short
    split
    · exact h
    · extract_lets +onlyGivenNames n
      split
      · exact h
      · exact ih (h.modPart.modPart.bump.setF.limited fun _ hu => hu.postPart)

theorem reclaimAll {ps : List Nat} {budget : Nat} (h : Canonical s) :
    Canonical (ps.foldl (fun (acc : Nat × State) p => Machine.reclaimFor 8 p acc.1 acc.2) (budget, s)).2 :=
  List.foldlRecOn ps _ (motive := fun acc : Nat × State => Canonical acc.2) h fun _ hu _ _ => hu.reclaimFor

theorem execRebalanceTick (h : Canonical s) : NextCanonical (execRebalanceTick s) :=
  .ite (.done h) (.done h.reclaimAll.settleAll)

theorem scrubPoison {m : MemPlace} (h : Canonical s) : Canonical (scrubPoison m s) := by
  unfold Machine.scrubPoison
  split
  · exact h.mapStored
  · split
    · exact h.poisonWord
    · exact h
  · exact h

theorem execScrubPass {ce : List PcId} {ue : List (PcId × MemPlace)} (h : Canonical s) :
    NextCanonical (execScrubPass ce ue s) :=
  .ite (.done h) (.done (.bump (.each (h.each fun _ _ hu => hu.corrected) fun _ _ hu =>
    hu.scrubPoison.uncorrectable)))

theorem execPcRetireDetect {n : PcId} {cause : Fin 3} (h : Canonical s) :
    NextCanonical (execPcRetireDetect n cause s) := .ite (.done h) (.done h.retire)

theorem pcTrained {st q us : Nat} (h : Canonical s) : Canonical (pcTrained st q us s) := by
  unfold Machine.pcTrained
  exact h.setF.setF.setF.spend

theorem execHbmPhyRetrain {n : PcId} {us : Nat} (h : Canonical s) : NextCanonical (execHbmPhyRetrain n us s) := by
  unfold Machine.execHbmPhyRetrain
  extract_lets +onlyGivenNames _ _ _ s2
  have h2 : Canonical s2 := h.setF.pcTrained
  exact .ite (.done h2.retire) (.done h2)

theorem retireWrite {v : Word} (h : Canonical s) : Canonical (retireWrite v s).1 := by
  unfold Machine.retireWrite
  extract_lets +onlyGivenNames n
  split
  · exact h
  · split
    · exact h
    · exact h.retire

theorem takeRingPages {k : Nat} (h : Canonical s) : Canonical (takeRingPages k s) := by
  induction k generalizing s with
  | zero => exact h
  | succ k ih =>
    unfold Machine.takeRingPages
    split
    · exact ih h.modPart
    · split
      · exact ih h.modPart
      · exact h

theorem remapOne {n : Nat} (h : Canonical s) : Canonical (remapOne n s) := by
  unfold Machine.remapOne
  extract_lets +onlyGivenNames _ _ _ _ _ s4
  have h4 : Canonical s4 := h.takeRingPages.loseStripes.setF.setF.withMgmt
  exact .setF (.ite h4.setF h4.setF)

theorem leaveAtLimit {p old : Nat} (h : Canonical s) : Canonical (leaveAtLimit p old s) := by
  unfold Machine.leaveAtLimit
  exact .ite h.limitActs h

theorem execRemapDone (h : Canonical s) : NextCanonical (execRemapDone s) := by
  unfold Machine.execRemapDone
  extract_lets +onlyGivenNames _
  split
  · exact .done h
  · extract_lets +onlyGivenNames _ _ _ _ s4
    have h4 : Canonical s4 := .each (.setF (.withMgmt (.each (h.each fun _ _ hu => hu.remapOne) fun _ _ hu =>
      hu.leaveAtLimit))) fun _ _ hu => hu.event
    exact .done (.settleAll (.ite h4.postOpen h4))

theorem execMirrorRebuildDone (h : Canonical s) : NextCanonical (execMirrorRebuildDone s) := .done h.withMgmt

/-! ### Machine/Checks.lean -/

theorem markStaged {r : Reg} (h : Canonical s) : Canonical (markStaged r s) := .ite h.storeStamps h

theorem stage {r : Reg} {w : Word} (h : Canonical s) : Canonical (stage r w s) := by
  unfold Machine.stage
  exact h.wr.markStaged

theorem stageAll {l : List (Nat × Reg × Word)} (h : Canonical s) : Canonical (stageAll l s) :=
  h.each fun _ _ hu => hu.stage

/-! ### Machine/Power.lean -/

theorem setDomain {d st : Nat} (h : Canonical s) : Canonical (setDomain d st s) := by
  unfold Machine.setDomain
  extract_lets +onlyGivenNames _
  split
  · exact h
  · extract_lets +onlyGivenNames _ s2
    have h2 : Canonical s2 := h.stopInterval.startInterval.setF
    exact .ite h2.bump h2

theorem startResidency (h : Canonical s) : Canonical (startResidency s) := h.each fun _ _ hu => hu.startInterval

theorem resetRange {keep : Reg → Word} {lo hi : Nat} (h : Canonical s) : Canonical (resetRange keep lo hi s) :=
  h.each fun _ _ hu => hu.wr.wrLive

theorem loseCtrs {c : Nat → Bool} (h : Canonical s) : Canonical (loseCtrs c s) :=
  { h with ctrs := spWf_filter _ _ h.ctrs }

theorem loseBank {b : Nat} (h : Canonical s) : Canonical (loseBank b s) := by
  unfold Machine.loseBank
  exact .loseCtrs (.setBank (h.resetRange.resetRange.each fun _ _ hu => hu.setDet))

theorem loseSequencers (h : Canonical s) : Canonical (loseSequencers s) := by
  unfold Machine.loseSequencers
  extract_lets +onlyGivenNames s1
  have h1 : Canonical s1 := h.resetRange
  exact .loseCtrs (.each { h1 with seqs := spWf_nil } fun _ _ hu => hu.setDet)

theorem powerOff {d : Nat} (h : Canonical s) : Canonical (powerOff d s) :=
  .ite h (.setDomain (.ite h.loseBank (.ite h.loseSequencers (.ite h.resetRange.loseCtrs (.ite h.gateOutputs.setF
    h)))))

theorem powerOn {d : Nat} (h : Canonical s) : Canonical (powerOn d s) := by
  unfold Machine.powerOn
  split
  · extract_lets +onlyGivenNames s1 s2
    have h1 : Canonical s1 := h.setDomain.setF
    have h2 : Canonical s2 := by
      unfold s2
      split
      · exact h1.comparatorsLow
      · exact h1
    exact .ite h2.startRelock h2
  · exact h

theorem wake {d : Nat} (h : Canonical s) : Canonical (wake d s) := .ite h.setDomain h

theorem powerPins {d : Nat} {pin forbid : Bool} (h : Canonical s) : Canonical (powerPins d pin forbid s) := by
  unfold Machine.powerPins
  extract_lets +onlyGivenNames _ s2 s3
  have h2 : Canonical s2 := h.setF.setF.setF.setF
  have h3 : Canonical s3 := .ite h2.powerOn h2
  exact .ite h3.wake h3

theorem powerRefused {off : Nat} (h : Canonical s) : Canonical (powerRefused off s) := h.event

theorem powerPin {again : Instr} {c : Cmd} {d : Nat} {pin forbid : Option Bool} (h : Canonical s) :
    Canonical (powerPin again c d pin forbid s) :=
  .ite h.finish (.ite h.finish (.ite { h with } (.ite h.finish (.finish (.ite h h.powerPins)))))

theorem execPowerPinRelease {c : Cmd} {d : Nat} (h : Canonical s) : NextCanonical (execPowerPinRelease c d s) :=
  .done h.powerPin

theorem execPowerPinOn {c : Cmd} {d : Nat} (h : Canonical s) : NextCanonical (execPowerPinOn c d s) :=
  .done h.powerPin

theorem execPowerForbidOff {c : Cmd} {d : Nat} (h : Canonical s) : NextCanonical (execPowerForbidOff c d s) :=
  .done h.powerPin

theorem execDomainIdleTimeout {d : DomId} (h : Canonical s) : NextCanonical (execDomainIdleTimeout d s) :=
  .ite (.done h) (.ite (.done h.setDomain) (.ite (.done h.setDomain) (.done h)))

theorem execDomainWake {d : DomId} (h : Canonical s) : NextCanonical (execDomainWake d s) := .done h.wake

theorem execDomainPowerOff {d : DomId} (h : Canonical s) : NextCanonical (execDomainPowerOff d s) :=
  .ite (.done h.powerOff) (.done h)

theorem execDomainPowerOn {d : DomId} (h : Canonical s) : NextCanonical (execDomainPowerOn d s) :=
  .ite (.done h.powerOn) (.done h)

theorem bankEnWrite {v : Nat} (h : Canonical s) : Canonical (bankEnWrite v s) := by
  unfold Machine.bankEnWrite
  exact .ite h.powerRefused (h.setF.each fun _ _ hu => .powerOff (.powerOff (.ite hu.spend.abortCal hu)))

/-! ### Machine/Arm.lean -/

theorem soon {p : Nat} (h : Canonical s) : Canonical (State.soon s p) := h.each fun _ _ hu => .ite hu.wr hu

theorem lowL {b : Nat} (h : Canonical s) : Canonical (lowL b s) := h.modBank

theorem newThr {b : Nat} {cs : List Nat} (h : Canonical s) : Canonical (newThr b cs s) := .ite h h.modBank

theorem armBank {b : Nat} (h : Canonical s) : Canonical (armBank b s) := by
  unfold Machine.armBank
  extract_lets +onlyGivenNames s1
  have h1 : Canonical s1 := h.modBank
  exact .ite h1.lowL h1

theorem applyArm {p : Nat} (h : Canonical s) : Canonical (applyArm p s) := by
  unfold Machine.applyArm
  exact .each (h.each fun _ _ hu => .ite hu hu.applyReg) fun _ _ hu => hu.newThr.armBank

theorem armRefusal {f p : Nat} {v : State} (h : Canonical s) : Canonical (armRefusal f p v s).2 := by
  unfold Machine.armRefusal
  iterate 5 (split; exact h)
  split
  · exact .pairSnd (h.each fun _ _ hu => hu.postBank)
  · split
    · exact .pairSnd h.postPart
    · split
      · exact .pairSnd h.postPart
      · iterate 2 (split; exact h)
        exact h

theorem armEncoding {p b : Nat} (h : Canonical s) : Canonical (armEncoding p b s) := by
  unfold Machine.armEncoding
  exact h.setEnc

theorem armDetector {n : Nat} (h : Canonical s) : Canonical (armDetector n s) := h.modDet

theorem becomeArmed {p pages : Nat} (h : Canonical s) : Canonical (becomeArmed p pages s) := by
  unfold Machine.becomeArmed
  exact .settle (.each (.each (h.setPart.setF.setF.wr.modSeq.clearSeq.setF.each fun _ _ hu => hu.armDetector) fun _ _
    hu => hu.powerOn) fun _ _ hu => hu.armEncoding)

theorem clearAuto {b : Nat} (h : Canonical s) : Canonical (clearAuto b s) := by
  unfold Machine.clearAuto
  exact .wr (.wr (h.each fun _ _ hu => hu.setF.setF))

theorem autoChannel {b c : Nat} {swing : Option Nat × Option Nat} (h : Canonical s) :
    Canonical (autoChannel b c swing s) := by
  unfold Machine.autoChannel
  extract_lets +onlyGivenNames _
  split
  · exact .ite (.setF (.ite h.setF h.setF)) h.setL.setL.setF
  · exact .setF (.ite h.setF h.setF)

theorem autoBank {swings : List (Nat × Option Nat × Option Nat)} {b : Nat} (h : Canonical s) :
    Canonical (autoBank swings b s) := by
  unfold Machine.autoBank
  extract_lets +onlyGivenNames _ _ _ _ _ s4
  have h4 : Canonical s4 := .postBank (.newThr (h.each fun _ _ hu => hu.autoChannel))
  exact .ite h4.feEvent h4

theorem execArm {c : Cmd} {p : Nat} (h : Canonical s) : NextCanonical (execArm c p s) := by
  unfold Machine.execArm
  extract_lets +onlyGivenNames v
  split
  next st s1 e =>
    have h1 : Canonical s1 := .snd e h.armRefusal
    exact .done h1.finish
  next s1 e =>
    have h1 : Canonical s1 := .snd e h.armRefusal
    extract_lets +onlyGivenNames pages old s2
    have h2 : Canonical s2 := h1.applyArm.each fun _ _ hu => hu.clearAuto
    exact .ite (.done h2.becomeArmed.finish) (.done h2.modPart)

theorem execAutoThresholdDone {p : PartId} {swings : List (Nat × Option Nat × Option Nat)} (h : Canonical s) :
    NextCanonical (execAutoThresholdDone p swings s) := by
  unfold Machine.execAutoThresholdDone
  split
  · exact .done h
  · exact .done (.finish (.becomeArmed (h.each fun _ _ hu => hu.autoBank)))

theorem execDisarm {c : Cmd} {p : Nat} (h : Canonical s) : NextCanonical (execDisarm c p s) := by
  unfold Machine.execDisarm
  split
  · exact .done h.finish
  · exact .done (.finish (.ite h.endArmed.settle h))

theorem execForceTrigger {c : Cmd} {p : Nat} (h : Canonical s) : NextCanonical (execForceTrigger c p s) := by
  unfold Machine.execForceTrigger
  split
  · exact .done h.finish
  · exact .ite (.done h.finish) (.done h.modSeq)

/-! ### Machine/Views.lean -/

theorem loadItem {code v : Nat} (h : Canonical s) : Canonical (loadItem code v s) := by
  unfold Machine.loadItem
  extract_lets +onlyGivenNames s1
  have h1 : Canonical s1 := h.loadCtr
  split
  · extract_lets +onlyGivenNames s2
    have h2 : Canonical s2 := h1.storeCtrs
    exact .ite h2 h2.startInterval
  · exact h1

/-! ### Machine/Fetch.lean -/

theorem passEntry {f n : Nat} (h : Canonical s) : Canonical (passEntry f n s).2 := h.setF

theorem takeBuffer {f n : Nat} {bs : List Byte} (h : Canonical s) : Canonical (takeBuffer f n bs s) := by
  unfold Machine.takeBuffer
  split
  next _ s1 e =>
    have h1 : Canonical s1 := .snd e h.passEntry
    exact .ite h1.modPair h1.finishBuf

theorem startCommand {f n : Nat} {bs : List Byte} (h : Canonical s) : Canonical (startCommand f n bs s) := by
  unfold Machine.startCommand
  split
  next _ s1 e =>
    have h1 : Canonical s1 := .snd e h.passEntry
    extract_lets +onlyGivenNames _ _ _ s2
    have h2 : Canonical s2 := h1.modPair
    split
    · exact h2.finish
    · split
      · exact h2.finish
      · split
        · exact h2.finish
        · extract_lets +onlyGivenNames s3
          have h3 : Canonical s3 := .ite h2.modPair h2
          exact .tryFetch (.ite h3.modPair h3)

theorem takeCommand {f n : Nat} {bs : List Byte} (h : Canonical s) : Canonical (takeCommand f n bs s) :=
  .ite h.modPair (.ite h.modPair h.startCommand)

theorem execDescriptorFetchDone {f : FnId} {pair : PairId} {tag : Nat} {bytes : List Byte} (h : Canonical s) :
    NextCanonical (execDescriptorFetchDone f pair tag s bytes) := by
  unfold Machine.execDescriptorFetchDone
  extract_lets +onlyGivenNames _
  split
  · exact .ite (.done h.endTag) (.done h)
  · extract_lets +onlyGivenNames s1
    have h1 : Canonical s1 := h.endTag.modPair
    exact .ite (.done (.tryFetch (h1.each fun _ _ hu => hu.takeBuffer))) (.ite (.done h1) (.done h1.takeCommand))

theorem takeParams {c : Cmd} (h : Canonical s) : Canonical (takeParams c s) := by
  unfold Machine.takeParams
  split
  · exact h.endTag.modPair
  · exact h

/-! ### Machine/Commands.lean -/

theorem bindOwner {f n p : Nat} {queue : List Nat} (h : Canonical s) : Canonical (bindOwner f n p queue s) := by
  unfold Machine.bindOwner
  exact h.modPair.modPart

theorem setOwner {f p : Nat} (h : Canonical s) : Canonical (setOwner f p s) := h.setF.setF

theorem execPartitionCreate {c : Cmd} {p : Nat} {banks : BitVec 8} {ring : Nat} {mode : BitVec 8} {contFrames pretrig
    posttrig : Nat} (h : Canonical s) :
    NextCanonical (execPartitionCreate c p banks ring mode contFrames pretrig posttrig s) := by
  unfold Machine.execPartitionCreate
  extract_lets +onlyGivenNames _
  split
  · exact .done h.finish
  · split
    · exact .done h.finish
    · split
      · exact .done h.finish
      · split
        · exact .done h.finish
        · split
          · exact .done h.powerOn.modClk
          · extract_lets +onlyGivenNames _ _ _ _ s5
            have h5 : Canonical s5 := h.setOwner.setF.setF.stage.stage.stage.stage.stage.bindOwner
            exact .done (.finish (.tryFetch (.ite h5.setCause h5)))

theorem execPartitionDestroy {c : Cmd} {p : Nat} (h : Canonical s) : NextCanonical (execPartitionDestroy c p s) := by
  unfold Machine.execPartitionDestroy
  split
  · exact .done h.finish
  · exact .done h.destroyPart.finish

theorem execBankConfig {c : Cmd} {bank : Nat} {flags : BitVec 8} {mask : BitVec 64} {image : List Word} (h : Canonical
    s) :
    NextCanonical (execBankConfig c bank flags mask image s) := by
  unfold Machine.execBankConfig
  extract_lets +onlyGivenNames s1 _ _
  have h1 : Canonical s1 := h.takeParams
  split
  · exact .done h1.finish
  · split
    · exact .done h1.finish
    · split
      · exact .done h1.finish
      · split
        · exact .done h1.finish
        · split
          · exact .done h1.finish
          · exact .ite (.done h1.finish) (.done (.tryFetch { h1 with }))

theorem stageDet {p n : Nat} {image : List Word} (h : Canonical s) : Canonical (stageDet p n image s) := by
  unfold Machine.stageDet
  extract_lets +onlyGivenNames s1
  have h1 : Canonical s1 := h.stageAll
  exact .ite h1 h1.setF.setF

theorem clearDetEn {n : Nat} (h : Canonical s) : Canonical (clearDetEn n s) :=
  .ite h.setF.markStaged h.setF.markStaged

theorem execDetectorLoad {c : Cmd} {p : Nat} {flags : BitVec 8} {entries : List (Nat × List Word)} {bad : Option Nat}
    (h : Canonical s) :
    NextCanonical (execDetectorLoad c p flags entries bad s) := by
  unfold Machine.execDetectorLoad
  extract_lets +onlyGivenNames s1
  have h1 : Canonical s1 := h.takeParams
  split
  · exact .done h1.finish
  · split
    · exact .done h1.finish
    · split
      · exact .done h1.finish
      · exact .done (.finish (.each (.ite (h1.each fun _ _ hu => hu.clearDetEn) h1) fun _ _ hu => hu.stageDet))

theorem execSequencerLoad {c : Cmd} {p : Nat} {flags : BitVec 8} {levels : BitVec 16} {image : List Word} (h :
    Canonical s) :
    NextCanonical (execSequencerLoad c p flags levels image s) := by
  unfold Machine.execSequencerLoad
  extract_lets +onlyGivenNames s1
  have h1 : Canonical s1 := h.takeParams
  split
  · exact .done h1.finish
  · split
    · exact .done h1.finish
    · extract_lets +onlyGivenNames _ _
      split
      · exact .done h1.finish
      · exact .done h1.stageAll.finish

theorem execTimeSet {c : Cmd} {seconds : Nat} (h : Canonical s) : NextCanonical (execTimeSet c seconds s) :=
  .ite (.done h.finish) (.ite (.done h.finish) (.done h.setF.setF.requestSet.tryFetch))

theorem calibrateBank {steps : Nat} {ext : Bool} {timeout b : Nat} (h : Canonical s) :
    Canonical (calibrateBank steps ext timeout b s) := by
  unfold Machine.calibrateBank
  extract_lets +onlyGivenNames _ s2
  have h2 : Canonical s2 := h.powerOn.powerOn.setF
  exact .startCal (.ite h2.setF.setF h2)

theorem execCalibrate {c : Cmd} {banks steps : BitVec 8} {extEdge : Bool} {extTimeout : Nat} (h : Canonical s) :
    NextCanonical (execCalibrate c banks steps extEdge extTimeout s) := by
  unfold Machine.execCalibrate
  exact .ite (.done h.finish) (.ite (.done h.finish) (.ite (.done h.finish) (.ite (.done { h with }) (.ite (.done
    h.finish) (.ite (.done h.finish) (.done (.tryFetch (.each { h with } fun _ _ hu => hu.calibrateBank))))))))

theorem execPolicySet {c : Cmd} {p : Nat} {select : BitVec 8} {block : List Word} (h : Canonical s) :
    NextCanonical (execPolicySet c p select block s) := by
  unfold Machine.execPolicySet
  extract_lets +onlyGivenNames s1 _
  have h1 : Canonical s1 := h.takeParams
  split
  · exact .done h1.finish
  · split
    · exact .done h1.finish
    · extract_lets +onlyGivenNames _
      split
      · exact .done h1.finish
      · split
        · exact .done h1.finish
        · exact .done h1.stageAll.settle.finish

/-! ### Machine/Deliveries.lean -/

theorem execGrantIssue {c : Cmd} {p : Nat} {modes : BitVec 8} {target : BitVec 16} (h : Canonical s) :
    NextCanonical (execGrantIssue c p modes target s) := by
  unfold Machine.execGrantIssue
  split
  · exact .done h.finish
  · exact .ite (.done h.finish) (.ite (.done h.finish) (.done h.spend.modPart.finish))

theorem execGrantRevoke {c : Cmd} {p token : Nat} (h : Canonical s) :
    NextCanonical (execGrantRevoke c p token s) := by
  unfold Machine.execGrantRevoke
  split
  · exact .done h.finish
  · exact .ite (.done h.modPart.finish) (.done h.finish)

theorem execGrantRevokeAll {c : Cmd} {p : Nat} (h : Canonical s) : NextCanonical (execGrantRevokeAll c p s) := by
  unfold Machine.execGrantRevokeAll
  split
  · exact .done h.finish
  · exact .done h.modPart.finish

theorem badGrant {c : Cmd} (h : Canonical s) : Canonical (badGrant c s) := by
  unfold Machine.badGrant
  extract_lets +onlyGivenNames _ _ _ _ s1
  have h1 : Canonical s1 := h.setFn
  exact .finish (.ite h1.post h1)

theorem bindSub {f n p : Nat} {lossy : Bool} (h : Canonical s) : Canonical (bindSub f n p lossy s) := by
  unfold Machine.bindSub
  exact h.modPair.modPart

theorem execSubscribe {c : Cmd} {p ring mode token : Nat} (h : Canonical s) :
    NextCanonical (execSubscribe c p ring mode token s) := by
  unfold Machine.execSubscribe
  exact .ite (.done h.badGrant) (.ite (.done h.finish) (.ite (.done h.finish) (.ite (.done h.badGrant) (.ite (.done
    h.finish) (.done h.bindSub.tryFetch.finish)))))

theorem endSub {id p : Nat} (h : Canonical s) : Canonical (endSub id p s) := by
  unfold Machine.endSub
  split
  · exact h
  · extract_lets +onlyGivenNames _ _ s2
    have h2 : Canonical s2 := .unbind (.ite h.abandonTaken h)
    split
    · exact h2.finish
    · exact h2

theorem execUnsubscribe {c : Cmd} {p ring : Nat} (h : Canonical s) : NextCanonical (execUnsubscribe c p ring s) := by
  unfold Machine.execUnsubscribe
  extract_lets +onlyGivenNames _ _
  split
  · exact .done h.finish
  · extract_lets +onlyGivenNames _
    split
    · exact .done h.modDelivery.modPart.settle
    · exact .done (.settle (.modPart (.modDelivery (.ite h.abandonTaken h))))

theorem execPartitionClaim {c : Cmd} {p ring token : Nat} (h : Canonical s) :
    NextCanonical (execPartitionClaim c p ring token s) := by
  unfold Machine.execPartitionClaim
  exact .ite (.done h.badGrant) (.ite (.done h.finish) (.ite (.done h.finish) (.ite (.done h.badGrant) (.done (.finish
    (.settle (.tryFetch (.postPart (.bindOwner (.setF (.setOwner (.modPart (h.each fun _ _ hu =>
    hu.endSub)))))))))))))

theorem pinPages {p : Nat} {l : List Nat} (h : Canonical s) : ∀ t, pinPages p l s = some t → Canonical t := by
  induction l generalizing s with
  | nil =>
    rintro t ⟨⟩
    exact h
  | cons n r ih =>
    unfold Machine.pinPages
    split
    · split
      · exact ih h.holdPage
      · rintro t ⟨⟩
    · exact ih h

theorem startReadBack {c : Cmd} {r : ReadBack} {ring : Nat} (h : Canonical s) :
    Canonical (startReadBack c r ring s) := by
  unfold Machine.startReadBack
  split
  next => exact h.limitActs.settle.finish
  next u e => exact (h.pinPages u e).modPart.modPair.tryFetch.tryFetch

theorem execReadBackSegment {c : Cmd} {p ring segId epoch : Nat} (h : Canonical s) :
    NextCanonical (execReadBackSegment c p ring segId epoch s) := by
  unfold Machine.execReadBackSegment
  extract_lets +onlyGivenNames _
  split
  · exact .done h.finish
  · split
    · exact .done h.finish
    · exact .done h.startReadBack

theorem execReadBackRange {c : Cmd} {p ring start len : Nat} (h : Canonical s) :
    NextCanonical (execReadBackRange c p ring start len s) := by
  unfold Machine.execReadBackRange
  extract_lets +onlyGivenNames _
  split
  · exact .done h.finish
  · exact .ite (.done h.finish) (.done h.startReadBack)

theorem answer {c : Cmd} {addr : Nat} {bs : List Byte} (h : Canonical s) : Canonical (answer c addr bs s) :=
  h.finishPre

theorem execQueryFunction {c : Cmd} {addr : Nat} (h : Canonical s) : NextCanonical (execQueryFunction c addr s) := by
  unfold Machine.execQueryFunction
  exact .done h.answer

theorem execQueryPartition {c : Cmd} {addr p : Nat} (h : Canonical s) :
    NextCanonical (execQueryPartition c addr p s) := by
  unfold Machine.execQueryPartition
  exact .ite (.done h.finish) (.ite (.done h.finish) (.done h.answer))

theorem execQueryCounter {c : Cmd} {addr item : Nat} (h : Canonical s) :
    NextCanonical (execQueryCounter c addr item s) := by
  unfold Machine.execQueryCounter
  extract_lets +onlyGivenNames _
  split
  · exact .done h.finish
  · exact .ite (.done h.finish) (.ite (.done h.finish) (.done (.answer (h.when_ fun _ hu => hu.spend))))

/-! ### Machine/Bar.lean -/

theorem urWrite {f : Nat} {bar2 : Bool} {off : Nat} (h : Canonical s) : Canonical (urWrite f bar2 off s) :=
  h.logErr.emit

theorem urRead {f : Nat} {bar2 : Bool} {off : Nat} (h : Canonical s) : Canonical (urRead f bar2 off s) :=
  h.logErr.emit

theorem containedWrite {f code : Nat} {bar2 : Bool} {off : Nat} (h : Canonical s) :
    Canonical (containedWrite f code bar2 off s) := h.limited fun _ hu => hu.logErr

theorem hostWrite {f off : Nat} {g : State → State} (h : Canonical s) (hg : Canonical (g s)) :
    Canonical (hostWrite f off g s) := by
  unfold Machine.hostWrite
  split
  · exact h.urWrite
  · split
    · exact h
    · split
      · exact h.containedWrite
      · split
        · exact h.domainDown
        · exact hg

theorem bar0 {c : Instr} {g : State → State} (h : Canonical s) (hg : Canonical (g s)) : NextCanonical (bar0 c g s) :=
  .done (.ite h.modClk hg)

theorem keepWrite {r : Reg} {v : Word} (h : Canonical s) : Canonical (keepWrite r v s) := by
  unfold Machine.keepWrite
  exact .ite h h.spend.wr

/-! ### Machine/Mailbox.lean -/

theorem setRecord {f c state status seq : Nat} (h : Canonical s) : Canonical (setRecord f c state status seq s) := by
  unfold Machine.setRecord
  exact h.setF.setF.setF.setF

theorem postRecord {p : Post} {c state status : Nat} (h : Canonical s) :
    Canonical (postRecord p c state status s) := by
  unfold Machine.postRecord
  split
  · exact .ite h h.setRecord
  · exact h.setRecord

theorem dropMbxTag {f c : Nat} (h : Canonical s) : Canonical (dropMbxTag f c s) := by
  unfold Machine.dropMbxTag
  split
  · exact h.endTag
  · exact h

theorem joinPost {c : Nat} {p : Post} (h : Canonical s) : Canonical (joinPost c p s) := by
  unfold Machine.joinPost
  extract_lets +onlyGivenNames s2
  have h2 : Canonical s2 := by
    unfold s2
    split
    · exact h.dropMbxTag.setF.bump.setRecord.post
    · exact h
  exact h2.modChan.setRecord.readBlock

theorem doorbell {f c seq : Nat} (h : Canonical s) : Canonical (doorbell f c seq s) :=
  .ite h.wr.setRecord.post (.joinPost (.bump (.ite h.wake.powerOn h)))

theorem execMbxDoorbell {f : FnId} {ch : MbxId} {seq : BitVec 16} (h : Canonical s) :
    NextCanonical (execMbxDoorbell f ch seq s) := h.bar0 (h.hostWrite h.doorbell)

theorem execMbxTake {ch : MbxId} {block : List Byte} (h : Canonical s) : NextCanonical (execMbxTake ch block s) := by
  unfold Machine.execMbxTake
  split
  · exact .done h
  · exact .ite (.done h.dropMbxTag) (.ite (.done h) (.done h.dropMbxTag.setChan.postRecord))

theorem execMbxDone {ch : MbxId} (h : Canonical s) : NextCanonical (execMbxDone ch s) := by
  unfold Machine.execMbxDone
  split
  · exact .done h
  · extract_lets +onlyGivenNames _
    split
    · exact .done h
    · extract_lets +onlyGivenNames _ _ _ s2
      have h2 : Canonical s2 := .modChan (.ite h.emit h)
      exact .done (.readBlock (.ite h2 h2.postRecord))

theorem answerMsg {f c type : Nat} {g : State → State × Nat × List Byte} (h : Canonical s)
    (hg : Canonical (g s).1) : Canonical (answerMsg f c type g s) := by
  unfold Machine.answerMsg
  split
  · split
    · exact hg.modChan
    · exact h
  · exact h

theorem losePost {c : Nat} {p : Post} (h : Canonical s) : Canonical (losePost c p s) :=
  .ite h h.dropMbxTag.postRecord.bump.post

theorem losePosts {firefly : Bool} (h : Canonical s) : Canonical (losePosts firefly s) :=
  h.each fun _ _ hu => .ite hu (.setChan (hu.each fun _ _ hu => hu.losePost))

theorem targetUp {firefly : Bool} (h : Canonical s) : Canonical (targetUp firefly s) := h.postPfs

theorem flrMailbox {f : Nat} (h : Canonical s) : Canonical (flrMailbox f s) := by
  unfold Machine.flrMailbox
  exact .each (.modFn (.each (.each (h.each fun _ _ hu => hu.setChan) fun _ _ hu => hu.each fun _ _ hu => hu.resetReg)
    fun _ _ hu => hu.resetReg)) fun _ _ hu => hu.readBlock

theorem repost {f : Nat} (h : Canonical s) : Canonical (repost f s) := by
  unfold Machine.repost
  exact h.modFn.each fun _ _ hu => hu.joinPost

theorem dropPost {f c : Nat} (h : Canonical s) : Canonical (dropPost f c s) := by
  unfold Machine.dropPost
  split
  · exact .ite h.modChan.modFn h
  · exact h

theorem notify {f : Nat} {n : Notice} (h : Canonical s) : Canonical (notify f n s) := by
  unfold Machine.notify
  exact .ite (h.setFn.bump.limited fun _ hu => hu.post) h.setFn

theorem notifyAll {n : Notice} (h : Canonical s) : Canonical (notifyAll n s) := h.each fun _ _ hu => hu.notify

theorem execNoticeWrite {f : FnId} (h : Canonical s) : NextCanonical (execNoticeWrite f s) := by
  unfold Machine.execNoticeWrite
  extract_lets +onlyGivenNames _ _ _ _
  split
  · exact .done h
  · exact .ite (.done h.setFn.emit.emit.setF.msix) (.done h)

theorem hostEnable {f : Nat} {v : Word} (h : Canonical s) : Canonical (hostEnable f v s) := by
  unfold Machine.hostEnable
  extract_lets +onlyGivenNames _ _ _
  split
  · exact h.cfgRefused
  · extract_lets +onlyGivenNames _ _ s2
    have h2 : Canonical s2 := h.keepWrite.wr
    exact .ite h2.setF.setF h2

theorem execMbxHostEnable {f : FnId} {v : Word} (h : Canonical s) : NextCanonical (execMbxHostEnable f v s) :=
  h.bar0 (h.hostWrite h.hostEnable)

theorem hostAck {f v : Nat} (h : Canonical s) : Canonical (hostAck f v s) := by
  unfold Machine.hostAck
  exact .ite h.setF h.post

theorem execMbxHostAck {f : FnId} {v : BitVec 16} (h : Canonical s) : NextCanonical (execMbxHostAck f v s) :=
  h.bar0 (h.hostWrite h.hostAck)

/-! ### Machine/Endpoint.lean -/

theorem rewind {k f n : Nat} (h : Canonical s) : Canonical (rewind k f n s) := by
  induction k generalizing s with
  | zero => exact h
  | succ k ih => exact ih h.setF

theorem freezePair {f n : Nat} (h : Canonical s) : Canonical (freezePair f n s) := by
  unfold Machine.freezePair
  exact h.setPair.rewind

theorem freezeFn {f : Nat} (h : Canonical s) : Canonical (freezeFn f s) := h.each fun _ _ hu => hu.freezePair

theorem resume {f : Nat} (h : Canonical s) : Canonical (resume f s) :=
  .ite (.settleAll (h.sendPending.resumeFn.repost.each fun _ _ hu => hu.readBlock)) h

theorem contain {f code : Nat} (h : Canonical s) : Canonical (contain f code s) :=
  .ite h h.freezeFn.setF.setF.setF.modFn

theorem containEvent {f : Nat} (h : Canonical s) : Canonical (containEvent f s) := by
  unfold Machine.containEvent
  split
  · extract_lets +onlyGivenNames _ _ _ _ s3
    have h3 : Canonical s3 := h.modFn.setF.post.modFn.msixNow
    exact .ite h3 h3.post
  · exact h

theorem execEpContained {f : FnId} (h : Canonical s) : NextCanonical (execEpContained f s) := .done h.containEvent

theorem failedRead {f : Nat} {t : Tag} (h : Canonical s) : Canonical (failedRead f t s) := .ite h.dropPost h

theorem execCompletionTimeout {f : FnId} {tag : Nat} (h : Canonical s) :
    NextCanonical (execCompletionTimeout f tag s) := by
  unfold Machine.execCompletionTimeout
  split
  · exact .done h
  · exact .done h.modFn.emit.logErr.failedRead.contain.serveReads

theorem unexpectedCpl {f tag source detail : Nat} (h : Canonical s) :
    Canonical (unexpectedCpl f tag source detail s) := by
  unfold Machine.unexpectedCpl
  exact h.emit.logErr.setF.post

theorem execUnexpectedCompletion {f : FnId} {tag : Nat} (h : Canonical s) :
    NextCanonical (execUnexpectedCompletion f tag s) := by
  unfold Machine.execUnexpectedCompletion
  split
  · exact .done h.spend.spend.unexpectedCpl
  · exact .ite (.done h) (.ite (.done h.endTag) (.done h.endTag.unexpectedCpl))

theorem execTagQuarantineEnd {f : FnId} {tag : Nat} (h : Canonical s) :
    NextCanonical (execTagQuarantineEnd f tag s) := .ite (.done h.endTag) (.done h)

theorem execCompletionError {f : FnId} {tag : Nat} {e : CplError} (h : Canonical s) :
    NextCanonical (execCompletionError f tag e s) := by
  unfold Machine.execCompletionError
  split
  · exact .done h
  · exact .ite (.done h.endTag) (.done h.dropTag.logErr.failedRead.contain.serveReads)

theorem execPoisonedRequest {f : FnId} {bar2 : Bool} {off : Nat} (h : Canonical s) :
    NextCanonical (execPoisonedRequest f bar2 off s) :=
  .ite (.done h.urWrite) (.ite (.done h) (.done h.emit.logErr.contain))

theorem execMalformedRequest {port : PortId} {f : Option FnId} (h : Canonical s) :
    NextCanonical (execMalformedRequest port f s) := by
  unfold Machine.execMalformedRequest
  exact .ite (.done h.emit.logErr.contain) (.done h)

theorem execAtsFault {f : FnId} {tag : Nat} (h : Canonical s) : NextCanonical (execAtsFault f tag s) := by
  unfold Machine.execAtsFault
  extract_lets +onlyGivenNames s1
  have h1 : Canonical s1 := by
    unfold s1
    split
    · exact h.failedRead
    · exact h
  exact .done h1.dropTag.logErr.contain.serveReads

theorem execAtsInvalidation {f : FnId} (h : Canonical s) : NextCanonical (execAtsInvalidation f s) := .done h.emit

theorem containRelease {f : Nat} {v : Word} (h : Canonical s) : Canonical (containRelease f v s) :=
  .ite h (.ite h.setF h.logErr.setF.post)

theorem execContainRelease {f : FnId} {v : Word} (h : Canonical s) : NextCanonical (execContainRelease f v s) :=
  h.bar0 (.ite (.ite h h.containRelease) h.urWrite)

theorem execContainReleaseDone {f : FnId} (h : Canonical s) : NextCanonical (execContainReleaseDone f s) :=
  .ite (.done h.containEvent.setF.setF.postAll.resume) (.done h)

theorem holdFn {f : Nat} (h : Canonical s) : Canonical (holdFn f s) := h.freezeFn

theorem portReady {port : Nat} (h : Canonical s) : Canonical (portReady port s) := by
  unfold Machine.portReady
  exact .ite h.withMgmt.setF.post h

theorem execBmeClear {f : FnId} (h : Canonical s) : NextCanonical (execBmeClear f s) :=
  .ite (.done h.modFn.holdFn) (.done h)

theorem execBmeSet {f : FnId} (h : Canonical s) : NextCanonical (execBmeSet f s) :=
  .ite (.done h.modFn.resume.portReady) (.done h)

theorem execMemorySpaceEnableWrite {f : FnId} {on : Bool} (h : Canonical s) :
    NextCanonical (execMemorySpaceEnableWrite f on s) := .ite (.done h.modFn.portReady) (.done h)

theorem execMsixVectorUnmask {f : FnId} {vec : Option (Fin 256)} (h : Canonical s) :
    NextCanonical (execMsixVectorUnmask f vec s) := by
  unfold Machine.execMsixVectorUnmask
  exact .done h.modFn.sendPending

theorem execDevctl2CtoWrite {f : FnId} {v : Fin 16} (h : Canonical s) :
    NextCanonical (execDevctl2CtoWrite f v s) := by
  unfold Machine.execDevctl2CtoWrite
  exact .ite (.done h.setF) (.done h)

theorem dropRegs {c : Nat → Nat → Bool} (h : Canonical s) : Canonical (dropRegs c s) := by
  unfold Machine.dropRegs
  exact { h with
      regs := spWf_filter _ _ h.regs
      live := spWf_filter _ _ h.live }

theorem orphanPart {p : Nat} (h : Canonical s) : Canonical (orphanPart p s) := by
  unfold Machine.orphanPart
  extract_lets +onlyGivenNames s1
  have h1 : Canonical s1 := by
    unfold s1
    split
    · exact h.modPart
    · exact h
  exact h1.modPart.setF.setF.postAll

theorem forgetCmds {f : Nat} (h : Canonical s) : Canonical (forgetCmds f s) := by
  unfold Machine.forgetCmds
  exact { h with
      seqs := spWf_map _ _ h.seqs
      parts := spWf_map _ _ h.parts }

theorem clearPair {f n : Nat} (h : Canonical s) : Canonical (clearPair f n s) := by
  unfold Machine.clearPair
  extract_lets +onlyGivenNames _ _ s2
  have h2 : Canonical s2 := .each (h.each fun _ _ hu => hu.unpin) fun _ _ hu => by
    split
    · exact hu.unpin
    · exact hu
  split
  · exact .ite h2.unbind h2
  · exact h2

theorem flrOne {f : Nat} (h : Canonical s) : Canonical (flrOne f s) := by
  unfold Machine.flrOne
  exact .serveReads (.settleAll (.dropRegs (.setFn (.flrMailbox (.each (.forgetCmds (h.each fun _ _ hu =>
    hu.clearPair)) fun _ _ hu => hu.orphanPart)))))

theorem lowPower (h : Canonical s) : Canonical (lowPower s) := by
  unfold Machine.lowPower
  extract_lets +onlyGivenNames _ _
  split
  · exact h
  · extract_lets +onlyGivenNames _ _ s2
    have h2 : Canonical s2 := h.withMgmt.setF
    exact .event (.ite (h2.each fun _ _ hu => .ite hu hu.setDomain) h2.wake.wake)

theorem execOrphanTimeout {p : PartId} (h : Canonical s) : NextCanonical (execOrphanTimeout p s) :=
  .ite (.done h.destroyPart.lowPower) (.done h)

theorem flrVf {f : Nat} (h : Canonical s) : Canonical (flrVf f s) := by
  unfold Machine.flrVf
  extract_lets +onlyGivenNames _ s1
  have h1 : Canonical s1 := h.flrOne
  exact .ite h1.post h1

theorem flrVfs {port : Nat} (h : Canonical s) : Canonical (flrVfs port s) := h.each fun _ _ hu => hu.flrVf

theorem execFlr {f : FnId} (h : Canonical s) : NextCanonical (execFlr f s) :=
  .ite (.done h) (.ite (.done h.flrOne.flrVfs.lowPower) (.done h.flrVf.lowPower))

theorem execVfEnableClear {port : PortId} (h : Canonical s) : NextCanonical (execVfEnableClear port s) :=
  .ite (.done h.flrVfs.lowPower) (.done h)

theorem execD3hotEntry {f : FnId} (h : Canonical s) : NextCanonical (execD3hotEntry f s) :=
  .ite (.done h.modFn.holdFn.lowPower) (.done h)

theorem execD0Return {f : FnId} (h : Canonical s) : NextCanonical (execD0Return f s) :=
  .ite (.done h.modFn.lowPower.resume) (.done h)

theorem execWakeTriginEdge {n : Fin 4} {rising : Bool} (h : Canonical s) :
    NextCanonical (execWakeTriginEdge n rising s) := by
  unfold Machine.execWakeTriginEdge
  extract_lets +onlyGivenNames _
  split
  · exact .done h
  · split
    · exact .ite (.done h) (.done h.withMgmt.emit)
    · exact .done (h.each fun _ _ hu => .ite (by
        extract_lets +onlyGivenNames s1
        have h1 : Canonical s1 := hu.modFn
        exact .ite h1.emit h1) hu)

theorem portReset {port : Nat} (h : Canonical s) : Canonical (portReset port s) := by
  unfold Machine.portReset
  exact h.flrOne.flrVfs.withMgmt.resetReg.lowPower

theorem execPortLinkUp {port : PortId} {speed : Fin 8} {width : Nat} {tags : TagWidth} (h : Canonical s) :
    NextCanonical (execPortLinkUp port speed width tags s) := by
  unfold Machine.execPortLinkUp
  extract_lets +onlyGivenNames _
  split
  · exact .done h
  · extract_lets +onlyGivenNames _ _ _ _ _ s3 s4
    have h3 : Canonical s3 := h.setF.setF.setF.withMgmt.setF.setF
    have h4 : Canonical s4 := .ite h3.setF.post h3
    exact .done (.portReady (.ite h4.withMgmt.setF h4))

theorem execAspmL1Entry {port : PortId} (h : Canonical s) : NextCanonical (execAspmL1Entry port s) :=
  .ite (.done h) (.done h.emit)

/-! ### Machine/RingRegs.lean -/

theorem ringRefused {f n : Nat} (h : Canonical s) : Canonical (ringRefused f n s) := h.setF.post

theorem ringUp {f n : Nat} (h : Canonical s) : Canonical (ringUp f n s) := by
  unfold Machine.ringUp
  exact h.modPair.setF.setF.setF

theorem ringDown {f n : Nat} (h : Canonical s) : Canonical (ringDown f n s) := by
  unfold Machine.ringDown
  exact h.setPair

theorem rcCfgWrite {f n : Nat} {v : Word} (h : Canonical s) : Canonical (rcCfgWrite f n v s) := by
  unfold Machine.rcCfgWrite
  split
  · exact h.ringRefused
  · extract_lets +onlyGivenNames _ _ s2
    have h2 : Canonical s2 := h.keepWrite.wr
    exact .ite h2.ringUp (.ite h2.ringDown h2)

theorem execRingEnable {f : FnId} {pair : PairId} {v : Word} (h : Canonical s) :
    NextCanonical (execRingEnable f pair v s) := h.bar0 (h.hostWrite h.rcCfgWrite)

theorem execRingDisable {f : FnId} {pair : PairId} {v : Word} (h : Canonical s) :
    NextCanonical (execRingDisable f pair v s) := h.bar0 (h.hostWrite h.rcCfgWrite)

theorem dbErr {f n : Nat} (h : Canonical s) : Canonical (dbErr f n s) := by
  unfold Machine.dbErr
  exact h.setF.limited fun _ hu => hu.post

theorem doorbellWrite {f off : Nat} {g : State → State} (h : Canonical s) (hg : Canonical (g s)) :
    Canonical (doorbellWrite f off g s) :=
  .ite h.urWrite (.ite h (.ite h.containedWrite hg))

theorem sqDoorbell {f n : Nat} {v : DWord} (h : Canonical s) : Canonical (sqDoorbell f n v s) := by
  unfold Machine.sqDoorbell
  exact .ite h.post (.ite h.modPair.tryFetch h.dbErr)

theorem cqDoorbell {f n : Nat} {v : DWord} (h : Canonical s) : Canonical (cqDoorbell f n v s) := by
  unfold Machine.cqDoorbell
  extract_lets +onlyGivenNames _ _
  split
  · exact h.post
  · split
    · split
      · extract_lets +onlyGivenNames s1
        have h1 : Canonical s1 := h.modPair
        exact .settleAll (.tryFetch (.flushPair (.ite h1 h1.setF)))
      · exact h.dbErr
    · exact h.dbErr

theorem execDbSqTail {f : FnId} {pair : PairId} {v : DWord} (h : Canonical s) :
    NextCanonical (execDbSqTail f pair v s) := .done (h.doorbellWrite h.sqDoorbell)

theorem execDbCqHead {f : FnId} {pair : PairId} {v : DWord} (h : Canonical s) :
    NextCanonical (execDbCqHead f pair v s) := .done (h.doorbellWrite h.cqDoorbell)

/-! ### Machine/Reset.lean -/

theorem finishFills {p : Nat} (h : Canonical s) : Canonical (finishFills p s) := by
  unfold Machine.finishFills
  exact h.each fun _ _ hu => .ite hu.makeImago hu

theorem haltPart {p : Nat} (h : Canonical s) : Canonical (haltPart p s) := .ite h h.blocksTo.finishFills.endArmed

theorem domainsUp (h : Canonical s) : Canonical (domainsUp s) := by
  unfold Machine.domainsUp
  exact h.each fun _ _ hu => by
    extract_lets +onlyGivenNames _ s1 s2
    have h1 : Canonical s1 := hu.setDomain
    have h2 : Canonical s2 := by
      unfold s2
      split
      · exact .ite h1.comparatorsLow h1
      · exact h1
    exact h2.setF.setF.setF

theorem showStraps (h : Canonical s) : Canonical (showStraps s) := by
  unfold Machine.showStraps
  exact h.setF.setF.setF

theorem deviceReset {kind : Nat} {kept : Bool} (h : Canonical s) : Canonical (deviceReset kind kept s) := by
  unfold Machine.deviceReset
  extract_lets +onlyGivenNames hot s1 s2 s3
  have h1 : Canonical s1 := { h with fns := spWf_map _ _ h.fns }
  have h2 : Canonical s2 := h1.each fun _ _ hu => hu.haltPart
  have h3 : Canonical s3 := .ite (h2.each fun _ _ hu => hu.remapOne) h2
  clear_value s3
  extract_lets running ps words valid m _ cic clk t u v w x
  have ht : Canonical t :=
    { regs := spWf_regsAfter _ _ _ _ h3.regs
      live := spWf_regsAfter _ _ _ _ h3.live
      ctrs := spWf_filter _ _ h3.ctrs
      banks := spWf_map _ _ h3.banks
      dets := spWf_nil
      seqs := spWf_nil
      parts := spWf_map _ _ (spWf_filter _ _ h3.parts)
      fns := spWf_nil
      chans := spWf_nil
      snaps := spWf_nil
      fltLog := h3.fltLog
      fltHold := h3.fltHold
      fltSeen := h3.fltSeen
      stamps := spWf_nil
      since := spWf_filter _ _ h3.since }
  have hu : Canonical u := ht.each fun _ _ hu => hu.releasePages
  have hv : Canonical v := hu.showStraps.domainsUp.setF
  have hw : Canonical w := hv.each fun _ _ hu => hu.setF
  exact hw.setF.setF.setF.setF.setF

theorem powerLost (h : Canonical s) : Canonical (powerLost s) := by
  unfold Machine.powerLost
  extract_lets +onlyGivenNames _ _ s1
  have h1 : Canonical s1 := h.deviceReset.setF
  exact .each (.each (.setF { h1 with }) fun _ _ hu => hu.setDomain) fun _ _ hu => hu.wr

theorem execPerstAssert (h : Canonical s) : NextCanonical (execPerstAssert s) := .ite (.done h) (.done h.deviceReset)

theorem execD3coldEntry (h : Canonical s) : NextCanonical (execD3coldEntry s) := .done h.withMgmt.powerLost

theorem execVauxPowerOn (h : Canonical s) : NextCanonical (execVauxPowerOn s) :=
  .ite (.done h) (.done h.withMgmt.showStraps.startResidency)

theorem execVauxLoss (_ : Canonical s) : NextCanonical (execVauxLoss s) := by
  unfold Machine.execVauxLoss
  exact .done { reset with }

theorem execMainRailsValid {portMode devidSrc : Bool} (h : Canonical s) :
    NextCanonical (execMainRailsValid portMode devidSrc s) :=
  .ite (.done h) (.done (.setF (h.withMgmt.setF.showStraps.domainsUp.each fun _ _ hu => hu.comparatorsLow)))

theorem execRailFault {rail : Fin 8} (h : Canonical s) : NextCanonical (execRailFault rail s) :=
  .ite (.done h) (.done (.withMgmt (.ite h h.deviceReset)))

/-! ### Machine/Boot.lean -/

theorem enterRecovery (h : Canonical s) : Canonical (enterRecovery s) := by
  unfold Machine.enterRecovery
  exact h.withMgmt.setF.setF.setF

theorem readCopy {i : ImageCopy} {copyB : Bool} {other : Option ImageCopy} (h : Canonical s) :
    Canonical (readCopy i copyB other s) := by
  unfold Machine.readCopy
  exact h.withMgmt.setF

theorem bootRom (h : Canonical s) : Canonical (bootRom s) := by
  unfold Machine.bootRom
  extract_lets +onlyGivenNames _ _ _ _ s2
  have h2 : Canonical s2 := h.withMgmt.setF.setF
  split
  · exact .ite h2.readCopy h2.readCopy
  · exact h2.readCopy
  · exact h2.readCopy
  · exact h2.enterRecovery

theorem bootImage {i : ImageCopy} {source : Nat} (h : Canonical s) : Canonical (bootImage i source s) := by
  unfold Machine.bootImage
  extract_lets +onlyGivenNames _ _ _ s3
  have h3 : Canonical s3 := h.withMgmt.setF.setF.setF.setF.setF
  exact .setF (.setF (.ite h3.setF h3))

theorem execPerstRelease {a b : ImageCopy} (h : Canonical s) : NextCanonical (execPerstRelease a b s) := by
  unfold Machine.execPerstRelease
  split
  · exact .done h
  · extract_lets +onlyGivenNames _ s1 s2
    have h1 : Canonical s1 := h.withMgmt
    have h2 : Canonical s2 := .ite h1.emit h1
    exact .ite (.done h2.bootRom) (.done h2)

theorem execRailFaultRestart (h : Canonical s) : NextCanonical (execRailFaultRestart s) := by
  unfold Machine.execRailFaultRestart
  split
  · exact .done h
  · extract_lets +onlyGivenNames _ s1
    have h1 : Canonical s1 := h.withMgmt
    exact .ite (.done h1) (.done h1.bootRom)

theorem hotReset (h : Canonical s) : Canonical (hotReset s) := h.deviceReset.bootRom

theorem execHotReset (h : Canonical s) : NextCanonical (execHotReset s) := .ite (.done h) (.done h.hotReset)

theorem execPortLinkDown {port : PortId} (h : Canonical s) : NextCanonical (execPortLinkDown port s) :=
  .ite (.done h) (.ite (.done h.hotReset) (.done h.portReset.post))

theorem execBootImageVerified {copyB : Bool} (h : Canonical s) : NextCanonical (execBootImageVerified copyB s) := by
  unfold Machine.execBootImageVerified
  split
  · exact .done h
  · split
    · exact .done h
    · extract_lets +onlyGivenNames _
      split
      · exact .done h.bootImage
      · extract_lets +onlyGivenNames s1
        have h1 : Canonical s1 := .ite h.setF h.setF
        split
        · exact .done h1.readCopy
        · exact .done h1.enterRecovery

theorem execCertAreaReadDone {area : CertArea} (h : Canonical s) : NextCanonical (execCertAreaReadDone area s) :=
  .ite (.done h) (.done h.withMgmt.setF)

theorem dropCoefficients {b : Nat} (h : Canonical s) : Canonical (dropCoefficients b s) := by
  unfold Machine.dropCoefficients
  exact .setF (.setValid (.ite (h.each fun _ _ hu => hu.setF.setL) h))

theorem slowBank {b : Nat} (h : Canonical s) : Canonical (slowBank b s) := h.modBank.lowL

theorem execReducedServiceDeclared {bad : BitVec 8} (h : Canonical s) :
    NextCanonical (execReducedServiceDeclared s bad) :=
  .ite (.done h) (.done (.bringUp (.setF (.setF (.setF (.each (h.withMgmt.each fun _ _ hu => hu.dropCoefficients) fun
    _ _ hu => hu.slowBank))))))

theorem execHbmTrainingDone {stack : Fin 2} {ok : Bool} {attempts : Nat} (h : Canonical s) :
    NextCanonical (execHbmTrainingDone stack ok attempts s) := by
  unfold Machine.execHbmTrainingDone
  split
  · exact .done h
  · extract_lets +onlyGivenNames s1
    have h1 : Canonical s1 := h.setF
    exact .ite (.done (.withMgmt (h1.each fun _ _ hu => hu.pcTrained))) (.done h1.logFault.setF.setCause)

theorem moveRing {p : Nat} (h : Canonical s) : Canonical (moveRing p s) := .ite h h.applyReg.limitActs.modPart

theorem showOrphan {e : Nat × Word × Word} (h : Canonical s) : Canonical (showOrphan e s) := by
  unfold Machine.showOrphan
  exact h.wr.wr.setF.setF.modPart.setF

theorem eclose (h : Canonical s) : Canonical (eclose s) := by
  unfold Machine.eclose
  extract_lets +onlyGivenNames _ _ _ _ _ _ _ _ s5
  have h5 : Canonical s5 := .each (.withMgmt (.loadCtr (.setF (.setF (.setF (.setF (.setF (h.withMgmt.setF.each fun _
    _ hu => hu.moveRing)))))))) fun _ _ hu => hu.showOrphan
  exact .settleAll (.notifyAll (.postAll (.setF (.ite h5.setF.event h5))))

theorem stopForEclosion {p : Nat} (h : Canonical s) : Canonical (stopForEclosion p s) :=
  .ite h (.ite h.stopStoring h.stopAtBlock)

theorem execEclosion {t : Label} (h : Canonical s) : NextCanonical (execEclosion t s) := by
  unfold Machine.execEclosion
  extract_lets +onlyGivenNames s1
  have h1 : Canonical s1 := h.advanceTo
  exact .ite (.done h1) (.ite (.done h1.eclose) (.done (.each (h1.withMgmt.each fun _ _ hu => hu.blocksTo) fun _ _ hu
    => hu.stopForEclosion)))

theorem execCaptureResume {p : PartId} {t : Label} (h : Canonical s) : NextCanonical (execCaptureResume p t s) := by
  unfold Machine.execCaptureResume
  extract_lets +onlyGivenNames s1
  have h1 : Canonical s1 := h.advanceTo.blocksTo
  split
  · exact .done h1
  · split
    · split
      · extract_lets +onlyGivenNames s2
        have h2 : Canonical s2 := h1.eclose
        exact .ite (.done h2.resumePart) (.done h2)
      · exact .done h1.stopStoring
    · exact .done h1.resumePart

theorem gateDomain {d : Nat} (h : Canonical s) : Canonical (gateDomain d s) := by
  unfold Machine.gateDomain
  split
  · exact h
  · extract_lets +onlyGivenNames _ s2
    have h2 : Canonical s2 := .setF (.powerOff (.ite h.abortCal h))
    exact .ite h2.event h2

theorem ungateDomain {d : Nat} (h : Canonical s) : Canonical (ungateDomain d s) := by
  unfold Machine.ungateDomain
  split
  · exact h
  · extract_lets +onlyGivenNames s1
    have h1 : Canonical s1 := h.setF
    exact .ite h1.powerOn h1

theorem followGate (h : Canonical s) : Canonical (followGate s) :=
  .ite h (h.each fun _ _ hu => .ite hu.gateDomain hu.ungateDomain)

theorem execScarabWatchdogExpiry {cause : CoreFault} (h : Canonical s) :
    NextCanonical (execScarabWatchdogExpiry cause s) := by
  unfold Machine.execScarabWatchdogExpiry
  split
  · exact .done h
  · extract_lets +onlyGivenNames _ _ _ _ s2
    have h2 : Canonical s2 := h.withMgmt.setF.logFault.losePosts
    exact .ite (.done h2.setF.event.logFault.setCause) (.done h2)

theorem runWaiting {i : Instr} (h : Canonical s) : Canonical (runWaiting i s) := by
  unfold Machine.runWaiting
  extract_lets r
  have hr : NextCanonical r := by
    unfold r
    split
    · exact h.execCalibrate
    · exact h.execPowerPinRelease
    · exact h.execPowerPinOn
    · exact h.execPowerForbidOff
    · exact .done h
  clear_value r
  split
  · exact hr _ rfl
  · exact h

theorem restartBringUp (h : Canonical s) : Canonical (restartBringUp s) :=
  .ite (h.each fun _ _ hu => .ite hu.startCal hu) h

theorem restartEval {b : Nat} (h : Canonical s) : Canonical (restartEval b s) := h.modBank

theorem execScarabRestarted (h : Canonical s) : NextCanonical (execScarabRestarted s) := by
  unfold Machine.execScarabRestarted
  split
  · exact .done h
  · exact .done (.each (.each (.restartBringUp (.followGate (.notifyAll (.targetUp (.event (.bump (.setF (.setF (.each
      { h with } fun _ _ hu => hu.restartEval))))))))) fun _ _ hu => hu.runWaiting) fun _ _ hu => hu.readBlock)

theorem execFireflyRestart {cause : CoreFault} (h : Canonical s) : NextCanonical (execFireflyRestart cause s) :=
  .ite (.done h) (.done h.logFault.losePosts.targetUp)

theorem tempDrift {b : Nat} (h : Canonical s) : Canonical (tempDrift b s) := by
  unfold Machine.tempDrift
  split
  · exact h
  · extract_lets +onlyGivenNames _ _ s1
    have h1 : Canonical s1 := h.setF
    exact .ite h1.feEvent h1

theorem execTelemetrySample {temps : List ℤ} {volts : List Nat} (h : Canonical s) :
    NextCanonical (execTelemetrySample temps volts s) :=
  .ite (.done h) (.done (.each (.setF (.each (h.each fun _ _ hu => hu.setF) fun _ _ hu => hu.setF)) fun _ _ hu =>
    hu.tempDrift))

theorem thermReport {k : Nat} {rise : Bool} (h : Canonical s) : Canonical (thermReport k rise s) := by
  unfold Machine.thermReport
  extract_lets +onlyGivenNames _ s1 _ s3
  have h1 : Canonical s1 := h.setF
  have h3 : Canonical s3 := .event (.ite h1.bump h1)
  exact .ite h3 h3.notifyAll

theorem execThermGate (h : Canonical s) : NextCanonical (execThermGate s) := by
  unfold Machine.execThermGate
  split
  · exact .done h
  · exact .done h.thermReport.bringUpAgain.followGate
  · exact .done h.thermReport.followGate.bringUp

theorem thermCtrlWrite (h : Canonical s) : Canonical (thermCtrlWrite s) := h.followGate.bringUp

theorem execThermWarn (h : Canonical s) : NextCanonical (execThermWarn s) := by
  unfold Machine.execThermWarn
  split
  · exact .done h
  · exact .done h.thermReport

theorem execThermStop (h : Canonical s) : NextCanonical (execThermStop s) := by
  unfold Machine.execThermStop
  split
  · exact .done h
  · exact .done (.logFault (h.thermReport.startInterval.bringUpAgain.abortAllCal.each fun _ _ hu => hu.stopAtBlock))
  · exact .done h.thermReport.stopInterval.bringUp

theorem execThermTrip (h : Canonical s) : NextCanonical (execThermTrip s) := by
  unfold Machine.execThermTrip
  split
  · exact .done h.thermReport.emit.withMgmt.powerLost
  · exact .done h

/-! ### Machine/Security.lean -/

theorem stageImage {i : ImageCopy} (h : Canonical s) : Canonical (stageImage i s) := by
  unfold Machine.stageImage
  exact h.withMgmt.postPfs.notifyAll

theorem execFwUpdate {f : FnId} {ch : MbxId} {img : ImageCopy} (h : Canonical s) :
    NextCanonical (execFwUpdate f ch img s) := by
  refine .done (h.answerMsg ?_)
  split
  · exact h
  · extract_lets c
    split
    · exact .pairFst h.stageImage
    · exact h

theorem advanceEpoch (h : Canonical s) : Canonical (advanceEpoch s) := by
  unfold Machine.advanceEpoch
  exact .ite h.withMgmt.showStraps.event h

theorem execEpochAdvance {f : FnId} {ch : MbxId} (h : Canonical s) : NextCanonical (execEpochAdvance f ch s) := by
  refine .done (h.answerMsg ?_)
  split
  · exact .pairFst h.advanceEpoch
  · exact h

theorem execKeyRevoke {f : FnId} {ch : MbxId} {slot : Byte} (h : Canonical s) :
    NextCanonical (execKeyRevoke f ch slot s) := by
  refine .done (h.answerMsg ?_)
  split
  · exact h
  · split
    · exact h
    · exact .pairFst h.withMgmt.showStraps

theorem execSecInfo {f : FnId} {ch : MbxId} (h : Canonical s) : NextCanonical (execSecInfo f ch s) :=
  .done (h.answerMsg h)

theorem execGetInfo {f : FnId} {ch : MbxId} (h : Canonical s) : NextCanonical (execGetInfo f ch s) :=
  .done (h.answerMsg h)

theorem execTelemetryRead {f : FnId} {ch : MbxId} (h : Canonical s) : NextCanonical (execTelemetryRead f ch s) :=
  .done (h.answerMsg h)

theorem spdm {port code : Nat} {data : List Byte} (h : Canonical s) : Canonical (spdm port code data s) := h.emit

theorem spdmError {port code : Nat} (h : Canonical s) : Canonical (spdmError port code s) := h.spdm

theorem spdmRequest {port : PortId} {g : State → State} (h : Canonical s)
    (hg : ∀ u, Canonical u → Canonical (g u)) : NextCanonical (spdmRequest port g s) := by
  have h1 : Canonical (Machine.bump 0x9006 1 (Machine.powerOn 27 (Machine.wake 27 s))) := h.wake.powerOn.bump
  exact .ite (.done h) (.ite (.done h1.spdmError) (.done (hg _ h1)))

theorem execGetVersion {port : PortId} (h : Canonical s) : NextCanonical (execGetVersion port s) :=
  h.spdmRequest fun _ hu => hu.spdm

theorem execGetCapabilities {port : PortId} (h : Canonical s) : NextCanonical (execGetCapabilities port s) :=
  h.spdmRequest fun _ hu => hu.spdm

theorem execNegotiateAlgorithms {port : PortId} {offersEd25519 offersSha384 : Bool} (h : Canonical s) :
    NextCanonical (execNegotiateAlgorithms port offersEd25519 offersSha384 s) :=
  h.spdmRequest fun _ hu => .ite hu.spdm hu.spdmError

theorem execGetDigests {port : PortId} (h : Canonical s) : NextCanonical (execGetDigests port s) :=
  h.spdmRequest fun _ hu => .ite hu.spdm hu.spdm

theorem execGetCertificate {port : PortId} {slot : Fin 8} {offset length : Nat} (h : Canonical s) :
    NextCanonical (execGetCertificate port slot offset length s) :=
  h.spdmRequest fun _ hu => .ite hu.spdmError (.ite hu.spdmError hu.spdm)

theorem execChallenge {port : PortId} {slot : Fin 8} {nonce : List Byte} (h : Canonical s) :
    NextCanonical (execChallenge port slot nonce s) :=
  h.spdmRequest fun _ hu => .ite hu.spdmError (.ite hu.spdmError hu.spdm)

theorem execGetMeasurements {port : PortId} {index : Fin 256} {signed : Bool} {nonce : List Byte} (h : Canonical s) :
    NextCanonical (execGetMeasurements port index signed nonce s) :=
  h.spdmRequest fun _ hu => .ite hu.spdmError (.ite hu.spdmError hu.spdm)

theorem execSpdmUnsupportedRequest {port : PortId} {code : Byte} (h : Canonical s) :
    NextCanonical (execSpdmUnsupportedRequest port code s) := h.spdmRequest fun _ hu => hu.spdm

theorem execRecoveryImageObject {offset : Nat} {data : List Byte} (h : Canonical s) :
    NextCanonical (execRecoveryImageObject offset data s) := .ite (.done h.withMgmt) (.done h)

theorem execRecoveryImageEnd {img : ImageCopy} (h : Canonical s) : NextCanonical (execRecoveryImageEnd img s) := by
  unfold Machine.execRecoveryImageEnd
  split
  · exact .done h
  · extract_lets +onlyGivenNames _ s1
    have h1 : Canonical s1 := h.setF
    exact .ite (.done h1.bootImage) (.done h1.withMgmt)

/-! ### Machine/Access.lean -/

theorem hostRead {f off : Nat} {g : State → State} (h : Canonical s) (hg : Canonical (g s)) :
    Canonical (hostRead f off g s) := by
  unfold Machine.hostRead
  split
  · exact h.urRead
  · split
    · exact h.emit
    · split
      · exact h.domainDown.emit
      · exact hg

theorem postDet {n code payload : Nat} (h : Canonical s) : Canonical (postDet n code payload s) :=
  .ite h.postBank (.ite h.postPart h.postPfs)

theorem refused {f : Nat} {r : Reg} (h : Canonical s) : Canonical (refused f r s) := by
  unfold Machine.refused
  exact .ite h.cfgRefused (.ite h.setF.post (.ite (.postPfs (h.each fun _ _ hu => hu.setF)) (.ite h.eventOpen (.ite
    h.eventOpen (.ite h.feEvent (.ite h.setF.postDet (.ite h.setF.postDet (.ite h.setF.postPart (.ite h.setF.postPart
    (.ite h.setF.postPart (.ite (h.setF.oncePerFrame fun _ hu => hu.postBank) (.ite h.event (.ite h.eventOpen (.ite
    h.ringRefused h.powerRefused))))))))))))))

theorem plainWrite {r : Reg} {v : Word} (h : Canonical s) : Canonical (plainWrite r v s) := by
  unfold Machine.plainWrite
  exact h.keepWrite.wr.stage

theorem csCtrlWrite {v : Word} (h : Canonical s) : Canonical (csCtrlWrite v s) := by
  unfold Machine.csCtrlWrite
  extract_lets +onlyGivenNames _ s1 _ _ s4
  have h1 : Canonical s1 := h.keepWrite
  have h4 : Canonical s4 := .refSelWrite (.setF (.setF (.ite h1 h1.modClk)))
  exact .ite h4.relockWrite h4

theorem timeCtrlWrite {v : Word} (h : Canonical s) : Canonical (timeCtrlWrite v s) := by
  unfold Machine.timeCtrlWrite
  extract_lets +onlyGivenNames _ s1
  have h1 : Canonical s1 := h.plainWrite
  exact .ite h1 h1.ppsEnWrite

theorem outDelayWrite {n : Nat} {v : Word} (h : Canonical s) : Canonical (outDelayWrite n v s) := by
  unfold Machine.outDelayWrite
  exact h.modClk.plainWrite

theorem triginCfgWrite {v : Word} (h : Canonical s) : Canonical (triginCfgWrite v s) := by
  unfold Machine.triginCfgWrite
  extract_lets +onlyGivenNames _ s1
  have h1 : Canonical s1 := h.plainWrite
  exact { h1 with }

theorem trigoutCfgWrite {n : Nat} {v : Word} (h : Canonical s) : Canonical (trigoutCfgWrite n v s) := by
  unfold Machine.trigoutCfgWrite
  extract_lets +onlyGivenNames _ s1 _ s2
  have h1 : Canonical s1 := h.plainWrite
  have h2 : Canonical s2 := .ite h1 { h1 with }
  exact .ite h2 h2.emit

theorem clearCounts (h : Canonical s) : Canonical (clearCounts s) := h.each fun _ _ hu => hu.setF

theorem fltCtrlWrite {v : Word} (h : Canonical s) : Canonical (fltCtrlWrite v s) := by
  unfold Machine.fltCtrlWrite
  extract_lets +onlyGivenNames s1
  have h1 : Canonical s1 := h.plainWrite
  exact .pinUpdate (.ite h1.clearCounts h1)

theorem pinCauseWrite {v : Word} (h : Canonical s) : Canonical (pinCauseWrite v s) := by
  unfold Machine.pinCauseWrite
  exact h.plainWrite.wr.pinUpdate

theorem downLogWrite {f : Nat} {v : Word} (h : Canonical s) : Canonical (downLogWrite f v s) := by
  unfold Machine.downLogWrite
  extract_lets +onlyGivenNames s1
  have h1 : Canonical s1 := h.keepWrite
  exact .ite h1.wr h1

theorem bankCtrlWrite {b : Nat} {v : Word} (h : Canonical s) : Canonical (bankCtrlWrite b v s) := by
  unfold Machine.bankCtrlWrite
  extract_lets +onlyGivenNames s1
  have h1 : Canonical s1 := h.plainWrite
  exact .ite h1.softReset h1

theorem calCtrlWrite {f b : Nat} {v : Word} (h : Canonical s) : Canonical (calCtrlWrite f b v s) := by
  unfold Machine.calCtrlWrite
  exact .ite h.refused h.keepWrite.calWrite

theorem retireCmdWrite {v : Word} (h : Canonical s) : Canonical (retireCmdWrite v s) := by
  unfold Machine.retireCmdWrite
  exact .ite h.event h.keepWrite.retireWrite

theorem pwrCtlWrite {d : Nat} {v : Word} (h : Canonical s) : Canonical (pwrCtlWrite d v s) := h.plainWrite.powerPins

theorem snapSelect {port : Nat} {v : Word} (h : Canonical s) : Canonical (snapSelect port v s) := by
  unfold Machine.snapSelect
  extract_lets +onlyGivenNames f code action s1 s2
  have h2 : Canonical s2 := h.plainWrite.setF.setF
  clear_value s2
  extract_lets +onlyGivenNames take
  split
  · exact h2.storeSnaps
  · extract_lets +onlyGivenNames s3
    have h3 : Canonical s3 := .ite h2.spend h2
    exact .ite h3.storeSnaps (.ite h3.storeSnaps (.ite h3.storeSnaps h3.loadItem.storeSnaps))

theorem execSnapshotCaptureDone {port : PortId} (h : Canonical s) :
    NextCanonical (execSnapshotCaptureDone port s) := by
  unfold Machine.execSnapshotCaptureDone
  extract_lets +onlyGivenNames _
  split
  · exact .done h
  · exact .done (.setF (.setF (.setF (.setF (h.storeSnaps.each fun _ _ hu => hu.setF)))))

theorem acceptWrite {f : Nat} {r : Reg} {v : Word} (h : Canonical s) : Canonical (acceptWrite f r v s) := by
  unfold Machine.acceptWrite
  split
  · exact h.snapSelect
  · exact h.downLogWrite
  · exact h.pinCauseWrite
  · exact h.plainWrite.pinUpdate
  · exact h.fltCtrlWrite
  · exact h.timeCtrlWrite
  · extract_lets +onlyGivenNames s1
    have h1 : Canonical s1 := h.plainWrite
    exact .ite h1.requestSet h1
  · exact .ite h.keepWrite h.plainWrite
  · exact h.csCtrlWrite
  · exact h.outDelayWrite
  · exact h.plainWrite.thermCtrlWrite
  · exact h.plainWrite.retarget
  · exact h.keepWrite.trimWrite
  · extract_lets +onlyGivenNames s2
    have h2 : Canonical s2 := h.plainWrite
    exact .ite h2.soFireWrite h2
  · exact h.bankCtrlWrite
  · exact h.calCtrlWrite
  · exact h.triginCfgWrite
  · exact h.trigoutCfgWrite
  · exact h.xfStateWrite
  · exact h.retireCmdWrite
  · exact h.pwrCtlWrite
  · exact h.keepWrite.bankEnWrite
  · exact h.keepWrite.containRelease
  · exact h.keepWrite.doorbell
  · exact h.hostEnable
  · exact h.keepWrite.hostAck
  · exact h.rcCfgWrite
  · exact h.plainWrite

theorem regWrite {f : Nat} {r : Reg} {v : Word} (h : Canonical s) : Canonical (regWrite f r v s) :=
  .ite h.refused h.acceptWrite

theorem slowOverrun {f cause : Nat} (h : Canonical s) : Canonical (slowOverrun f cause s) := by
  unfold Machine.slowOverrun
  exact h.setF.setF.limited fun _ hu => hu.post

theorem slowWrite {f : Nat} {direct : Bool} {off : Nat} {v : Word} (h : Canonical s) :
    Canonical (slowWrite f direct off v s).2 := by
  unfold Machine.slowWrite
  split
  · exact h
  · split
    · exact h.slowOverrun
    · split
      · exact h.slowOverrun
      · exact { h with }

theorem landWrite (h : Canonical s) : Canonical (landWrite s) := by
  unfold Machine.landWrite
  split
  · exact h
  · extract_lets +onlyGivenNames _ s1 s2
    have h1 : Canonical s1 := { h with }
    have h2 : Canonical s2 := by
      unfold s2
      split
      · exact .ite h1 h1.regWrite
      · exact h1
    split
    · exact h2.finish
    · exact h2

theorem execSlowWriteLanded (h : Canonical s) : NextCanonical (execSlowWriteLanded s) := .done h.landWrite

theorem slowNext {f : Nat} (h : Canonical s) : Canonical (slowNext f s) := by
  unfold Machine.slowNext
  exact .ite h.setF h

theorem slowDataWrite {f : Nat} {v : Word} (h : Canonical s) : Canonical (slowDataWrite f v s) := by
  unfold Machine.slowDataWrite
  split
  · exact h.slowOverrun
  · extract_lets +onlyGivenNames _
    split
    · exact h.domainDown
    · exact .ite h.slowWrite.slowNext h.slowWrite

theorem slowDataRead {f : Nat} (h : Canonical s) : Canonical (slowDataRead f s) := by
  unfold Machine.slowDataRead
  split
  · exact h.emit
  · extract_lets +onlyGivenNames _ s1
    have h1 : Canonical s1 := h.landWrite
    split
    · exact h1.domainDown.emit
    · exact h1.emit.slowNext

theorem wordWrite {f off : Nat} {v : Word} (h : Canonical s) : Canonical (wordWrite f off v s) := by
  unfold Machine.wordWrite
  split
  · exact h
  · exact .ite h (.ite h.slowWrite (.ite h.slowDataWrite h.regWrite))

theorem bar0Word {f off : Nat} {v : Word} (h : Canonical s) : Canonical (bar0Word f off v s) :=
  .ite h.wordWrite (h.hostWrite h.wordWrite)

theorem bar2Write {f off : Nat} {w : Access.Width} {v : DWord} (h : Canonical s) :
    Canonical (bar2Write f off w v s) := by
  unfold Machine.bar2Write
  extract_lets +onlyGivenNames _
  split
  · exact h.urWrite
  · split
    · extract_lets +onlyGivenNames s1
      have h1 : Canonical s1 := h.urWrite
      exact .ite h1 h1.spend.post
    · exact h.doorbellWrite (.ite h.spend.post (.ite h.sqDoorbell h.cqDoorbell))

theorem bar0Write {f off : Nat} {w : Access.Width} {v : DWord} (h : Canonical s) :
    Canonical (bar0Write f off w v s) := by
  unfold Machine.bar0Write
  extract_lets +onlyGivenNames _ _
  split
  · exact h.urWrite
  · exact h.urWrite
  · exact .ite h.bar0Word h.urWrite
  · exact .ite h.bar0Word.bar0Word h.urWrite

theorem execRegisterWrite {f : FnId} {bar2 : Bool} {off : Nat} {w : Access.Width} {v : DWord} (h : Canonical s) :
    NextCanonical (execRegisterWrite f bar2 off w v s) := .ite (.done h.bar2Write) (h.bar0 h.bar0Write)

theorem execSlowWindowWrite {f : FnId} {off : Nat} {v : Word} (h : Canonical s) :
    NextCanonical (execSlowWindowWrite f off v s) := .ite (h.bar0 h.bar0Write) (.done h)

theorem execSlowDataWrite {f : FnId} {v : Word} (h : Canonical s) : NextCanonical (execSlowDataWrite f v s) :=
  h.bar0 (h.hostWrite h.slowDataWrite)

theorem execSlowDataRead {f : FnId} (h : Canonical s) : NextCanonical (execSlowDataRead f s) :=
  h.bar0 (h.hostRead h.slowDataRead)

theorem execRelock {f : FnId} (h : Canonical s) : NextCanonical (execRelock f s) := h.bar0 (h.hostWrite h.relockWrite)

theorem execTrimWrite {f : FnId} {v : Word} (h : Canonical s) : NextCanonical (execTrimWrite f v s) :=
  h.bar0 (h.hostWrite h.acceptWrite)

theorem execRefSelWrite {f : FnId} {refSel refFreq : Fin 4} (h : Canonical s) :
    NextCanonical (execRefSelWrite f refSel refFreq s) := h.bar0 (h.hostWrite (.ite h.refused h.refSelWrite))

theorem execSoFire {f : FnId} (h : Canonical s) : NextCanonical (execSoFire f s) := h.bar0 (h.hostWrite h.soFireWrite)

theorem execSetReq {f : FnId} (h : Canonical s) : NextCanonical (execSetReq f s) := h.bar0 (h.hostWrite h.requestSet)

theorem execPpsEnWrite {f : FnId} {en : Bool} (h : Canonical s) : NextCanonical (execPpsEnWrite f en s) :=
  h.bar0 (h.hostWrite h.ppsEnWrite)

theorem execCalStart {f : FnId} {b : BankId} {v : Word} (h : Canonical s) : NextCanonical (execCalStart f b v s) :=
  h.bar0 (h.hostWrite h.calCtrlWrite)

theorem execSoftReset {f : FnId} {b : BankId} (h : Canonical s) : NextCanonical (execSoftReset f b s) :=
  h.bar0 (h.hostWrite h.softReset)

theorem execXfStateWrite {f : FnId} {v : Word} (h : Canonical s) : NextCanonical (execXfStateWrite f v s) :=
  h.bar0 (h.hostWrite h.xfStateWrite)

theorem execMemRetireCmd {f : FnId} {v : Word} (h : Canonical s) : NextCanonical (execMemRetireCmd f v s) :=
  h.bar0 (h.hostWrite h.retireCmdWrite)

theorem execPwrBankEnWrite {f : FnId} {v : Word} (h : Canonical s) : NextCanonical (execPwrBankEnWrite f v s) :=
  h.bar0 (h.hostWrite h.acceptWrite)

theorem snapWrite {f : FnId} {action : Nat} {item : BitVec 16} (h : Canonical s) :
    Canonical (snapWrite f action item s) := h.hostWrite h.snapSelect

theorem execSnapRead {f : FnId} {item : BitVec 16} (h : Canonical s) : NextCanonical (execSnapRead f item s) :=
  h.bar0 h.snapWrite

theorem execSnapReadClear {f : FnId} {item : BitVec 16} (h : Canonical s) :
    NextCanonical (execSnapReadClear f item s) := h.bar0 h.snapWrite

theorem execSnapLoad {f : FnId} {item : BitVec 16} (h : Canonical s) : NextCanonical (execSnapLoad f item s) :=
  h.bar0 h.snapWrite

theorem execVoteScrub {off : Nat} {lsb : Fin 32} (h : Canonical s) : NextCanonical (execVoteScrub off lsb s) :=
  .ite (.done h) (.done (.logFault (.limited (h.setF.setF.bump.each fun _ _ hu => hu.setF) fun _ hu => hu.postPfs)))

theorem execEvqPop {f : FnId} {wide : Bool} (h : Canonical s) : NextCanonical (execEvqPop f wide s) :=
  h.bar0 (h.hostRead h.setFn.emit)

theorem execEpErrPop {f : FnId} {wide : Bool} (h : Canonical s) : NextCanonical (execEpErrPop f wide s) :=
  h.bar0 (h.hostRead h.setFn.emit)

/-! ### Machine/Faults.lean -/

theorem cfgUe {mem off : Nat} {part : Option Nat} (h : Canonical s) : Canonical (cfgUe mem off part s) := by
  unfold Machine.cfgUe
  split
  · exact h.logFault.postPart.setCause
  · exact h.spend.logFault.postPfs.setCause

theorem killDet {n : Nat} (h : Canonical s) : Canonical (killDet n s) := h.modDet

theorem killSeq {p k : Nat} (h : Canonical s) : Canonical (killSeq p k s) := .ite h.modSeq (.ite h.modSeq h.modSeq)

theorem cfgUpset {off : Nat} {ue : Bool} (h : Canonical s) : Canonical (cfgUpset off ue s) :=
  .ite h (.ite (.ite h (.ite h.killDet.cfgUe h.logFault)) (.ite (.ite h (.ite h.killDet.cfgUe h.logFault)) (.ite (.ite
    h (.ite h.killSeq.cfgUe h.logFault)) h)))

theorem execCfgPatrol {upsets : List (Nat × Bool)} (h : Canonical s) : NextCanonical (execCfgPatrol upsets s) :=
  .done (h.each fun _ _ hu => hu.cfgUpset)

theorem execFltPop {port : PortId} {wide : Bool} (h : Canonical s) : NextCanonical (execFltPop port wide s) := by
  unfold Machine.execFltPop
  exact h.bar0 (h.hostRead (.emit { h with
      fltLog := spWf_spSet _ _ _ _ h.fltLog
      fltHold := spWf_spSet _ _ _ _ h.fltHold }))

theorem execFltPinCauseClear {f : FnId} {v : Word} (h : Canonical s) :
    NextCanonical (execFltPinCauseClear f v s) := h.bar0 (h.hostWrite h.pinCauseWrite)

theorem execFaultTest {f : FnId} {on : Bool} (h : Canonical s) : NextCanonical (execFaultTest f on s) :=
  h.bar0 (h.hostWrite h.setF.pinUpdate)

theorem execClearCounts {f : FnId} (h : Canonical s) : NextCanonical (execClearCounts f s) :=
  h.bar0 (h.hostWrite h.clearCounts)

theorem execLinkRecovery {port : PortId} (h : Canonical s) : NextCanonical (execLinkRecovery port s) := by
  unfold Machine.execLinkRecovery
  exact .ite (.done h.logFault) (.done h)

theorem execSmbusReadByte {code : Byte} (h : Canonical s) : NextCanonical (execSmbusReadByte code s) := by
  unfold Machine.execSmbusReadByte
  exact .done h.emit

/-! ### Machine/Held.lean -/

theorem after {o : Host.Outcome State Fault Refusal} (h : Canonical s) (ho : NextCanonical o) :
    Canonical (after s o) := by
  unfold Machine.after
  split
  · exact ho _ rfl
  · exact h

theorem runHeld {i : Instr} (h : Canonical s) : Canonical (runHeld i s) := by
  refine h.after ?_
  split
  · exact h.execRegisterWrite
  · exact h.execEvqPop
  · exact h.execRelock
  · exact h.execTrimWrite
  · exact h.execRefSelWrite
  · exact h.execSoFire
  · exact h.execSetReq
  · exact h.execPpsEnWrite
  · exact h.execCalStart
  · exact h.execSoftReset
  · exact h.execXfStateWrite
  · exact h.execMemRetireCmd
  · exact h.execRingEnable
  · exact h.execRingDisable
  · exact h.execEpErrPop
  · exact h.execContainRelease
  · exact h.execSnapRead
  · exact h.execSnapReadClear
  · exact h.execSnapLoad
  · exact h.execSlowWindowWrite
  · exact h.execSlowDataWrite
  · exact h.execSlowDataRead
  · exact h.execMbxDoorbell
  · exact h.execMbxHostEnable
  · exact h.execMbxHostAck
  · exact h.execPwrBankEnWrite
  · exact h.execFltPop
  · exact h.execFltPinCauseClear
  · exact h.execFaultTest
  · exact h.execClearCounts
  · exact .done h

theorem execSysPllRelockDone (h : Canonical s) : NextCanonical (execSysPllRelockDone s) :=
  .done (h.sysRelocked.each fun _ _ hu => hu.runHeld)

theorem runCreate {i : Instr} (h : Canonical s) : Canonical (runCreate i s) := by
  refine h.after ?_
  split
  · exact h.execPartitionCreate
  · exact .done h

theorem execRelockComplete {xoCycles : Nat} (h : Canonical s) : NextCanonical (execRelockComplete xoCycles s) := by
  unfold Machine.execRelockComplete
  exact .ite (.done h) (.done (h.relockDone.modClk.each fun _ _ hu => hu.runCreate))

/-! ### Machine/Dispatch.lean -/

theorem exec {i : Instr} (h : Canonical s) : NextCanonical (exec i s) := by
  cases i with
  | registerWrite => exact h.execRegisterWrite
  | evqPop => exact h.execEvqPop
  | secondBoundary => exact h.execSecondBoundary
  | frameStart => exact h.execFrameStart
  | blockBoundary => exact h.execBlockBoundary
  | sysPllLockLoss => exact h.execSysPllLockLoss
  | sysPllRelockDone => exact h.execSysPllRelockDone
  | refclkQualified => exact h.execRefclkQualified
  | refclkLost => exact h.execRefclkLost
  | refFreqAutoMeasure => exact h.execRefFreqAutoMeasure
  | lockFiltPinTest => exact h.execLockFiltPinTest
  | spllLockDeclared => exact h.execSpllLockDeclared
  | spllLockLoss => exact h.execSpllLockLoss
  | relockComplete => exact h.execRelockComplete
  | relockFailed => exact h.execRelockFailed
  | relockRetryTimeout => exact h.execRelockRetryTimeout
  | relock => exact h.execRelock
  | trimWrite => exact h.execTrimWrite
  | refSelWrite => exact h.execRefSelWrite
  | syncInEdge => exact h.execSyncInEdge
  | syncRestart => exact h.execSyncRestart
  | soFire => exact h.execSoFire
  | syncOutPulse => exact h.execSyncOutPulse
  | ppsEdge => exact h.execPpsEdge
  | ppsIntervalEnd => exact h.execPpsIntervalEnd
  | setReq => exact h.execSetReq
  | ppsEnWrite => exact h.execPpsEnWrite
  | ktcFrame => exact h.execKtcFrame
  | channelCrossing => exact h.execChannelCrossing
  | stclkEdge => exact h.execStclkEdge
  | triginEdge => exact h.execTriginEdge
  | calStart => exact h.execCalStart
  | calStepDone => exact h.execCalStepDone
  | calExtTimeout => exact h.execCalExtTimeout
  | autoThresholdDone => exact h.execAutoThresholdDone
  | bankFault => exact h.execBankFault
  | softReset => exact h.execSoftReset
  | softResetDone => exact h.execSoftResetDone
  | bankResume => exact h.execBankResume
  | detectorEvent => exact h.execDetectorEvent
  | timeoutExpiry => exact h.execTimeoutExpiry
  | skewExpiry => exact h.execSkewExpiry
  | patternLongerExpiry => exact h.execPatternLongerExpiry
  | sequencerSample => exact h.execSequencerSample
  | tmrExpiry => exact h.execTmrExpiry
  | xfStateWrite => exact h.execXfStateWrite
  | firstSampleFixed => exact h.execFirstSampleFixed
  | fillComplete => exact h.execFillComplete
  | rearmIntervalEnd => exact h.execRearmIntervalEnd
  | continuousSegmentEnd => exact h.execContinuousSegmentEnd
  | earlyShipWrite => exact h.execEarlyShipWrite
  | earlyThrottleChange => exact h.execEarlyThrottleChange
  | segmentDeliveryWrite => exact h.execSegmentDeliveryWrite
  | segmentDeliveryDone => exact h.execSegmentDeliveryDone
  | modTimeExpiry => exact h.execModTimeExpiry
  | orphanTimeout => exact h.execOrphanTimeout
  | rebalanceTick => exact h.execRebalanceTick
  | scrubPass => exact h.execScrubPass
  | pcRetireDetect => exact h.execPcRetireDetect
  | memRetireCmd => exact h.execMemRetireCmd
  | remapDone => exact h.execRemapDone
  | captureResume => exact h.execCaptureResume
  | mirrorRebuildDone => exact h.execMirrorRebuildDone
  | descriptorFetchDone => exact h.execDescriptorFetchDone
  | partitionCreate => exact h.execPartitionCreate
  | partitionDestroy => exact h.execPartitionDestroy
  | bankConfig => exact h.execBankConfig
  | detectorLoad => exact h.execDetectorLoad
  | sequencerLoad => exact h.execSequencerLoad
  | arm => exact h.execArm
  | disarm => exact h.execDisarm
  | forceTrigger => exact h.execForceTrigger
  | subscribe => exact h.execSubscribe
  | partitionClaim => exact h.execPartitionClaim
  | unsubscribe => exact h.execUnsubscribe
  | grantIssue => exact h.execGrantIssue
  | grantRevoke => exact h.execGrantRevoke
  | grantRevokeAll => exact h.execGrantRevokeAll
  | readBackSegment => exact h.execReadBackSegment
  | readBackRange => exact h.execReadBackRange
  | timeSet => exact h.execTimeSet
  | calibrate => exact h.execCalibrate
  | policySet => exact h.execPolicySet
  | queryFunction => exact h.execQueryFunction
  | queryPartition => exact h.execQueryPartition
  | queryCounter => exact h.execQueryCounter
  | powerPinRelease => exact h.execPowerPinRelease
  | powerPinOn => exact h.execPowerPinOn
  | powerForbidOff => exact h.execPowerForbidOff
  | dbSqTail => exact h.execDbSqTail
  | dbCqHead => exact h.execDbCqHead
  | ringEnable => exact h.execRingEnable
  | ringDisable => exact h.execRingDisable
  | epErrPop => exact h.execEpErrPop
  | completionTimeout => exact h.execCompletionTimeout
  | unexpectedCompletion => exact h.execUnexpectedCompletion
  | tagQuarantineEnd => exact h.execTagQuarantineEnd
  | completionError => exact h.execCompletionError
  | poisonedRequest => exact h.execPoisonedRequest
  | malformedRequest => exact h.execMalformedRequest
  | atsFault => exact h.execAtsFault
  | atsInvalidation => exact h.execAtsInvalidation
  | epContained => exact h.execEpContained
  | containRelease => exact h.execContainRelease
  | containReleaseDone => exact h.execContainReleaseDone
  | bmeClear => exact h.execBmeClear
  | bmeSet => exact h.execBmeSet
  | devctl2CtoWrite => exact h.execDevctl2CtoWrite
  | flr => exact h.execFlr
  | vfEnableClear => exact h.execVfEnableClear
  | d3hotEntry => exact h.execD3hotEntry
  | d0Return => exact h.execD0Return
  | d3coldEntry => exact h.execD3coldEntry
  | wakeTriginEdge => exact h.execWakeTriginEdge
  | portLinkDown => exact h.execPortLinkDown
  | portLinkUp => exact h.execPortLinkUp
  | linkRecovery => exact h.execLinkRecovery
  | snapRead => exact h.execSnapRead
  | snapReadClear => exact h.execSnapReadClear
  | snapLoad => exact h.execSnapLoad
  | snapshotCaptureDone => exact h.execSnapshotCaptureDone
  | voteScrub => exact h.execVoteScrub
  | slowWindowWrite => exact h.execSlowWindowWrite
  | slowDataWrite => exact h.execSlowDataWrite
  | slowDataRead => exact h.execSlowDataRead
  | slowWriteLanded => exact h.execSlowWriteLanded
  | mbxDoorbell => exact h.execMbxDoorbell
  | mbxTake => exact h.execMbxTake
  | mbxDone => exact h.execMbxDone
  | mbxHostEnable => exact h.execMbxHostEnable
  | noticeWrite => exact h.execNoticeWrite
  | mbxHostAck => exact h.execMbxHostAck
  | fwUpdate => exact h.execFwUpdate
  | epochAdvance => exact h.execEpochAdvance
  | keyRevoke => exact h.execKeyRevoke
  | secInfo => exact h.execSecInfo
  | getInfo => exact h.execGetInfo
  | telemetryRead => exact h.execTelemetryRead
  | getVersion => exact h.execGetVersion
  | getCapabilities => exact h.execGetCapabilities
  | negotiateAlgorithms => exact h.execNegotiateAlgorithms
  | getDigests => exact h.execGetDigests
  | getCertificate => exact h.execGetCertificate
  | challenge => exact h.execChallenge
  | getMeasurements => exact h.execGetMeasurements
  | spdmUnsupportedRequest => exact h.execSpdmUnsupportedRequest
  | recoveryImageObject => exact h.execRecoveryImageObject
  | recoveryImageEnd => exact h.execRecoveryImageEnd
  | perstAssert => exact h.execPerstAssert
  | perstRelease => exact h.execPerstRelease
  | hotReset => exact h.execHotReset
  | bootImageVerified => exact h.execBootImageVerified
  | certAreaReadDone => exact h.execCertAreaReadDone
  | reducedServiceDeclared => exact h.execReducedServiceDeclared
  | hbmTrainingDone => exact h.execHbmTrainingDone
  | eclosion => exact h.execEclosion
  | scarabWatchdogExpiry => exact h.execScarabWatchdogExpiry
  | scarabRestarted => exact h.execScarabRestarted
  | fireflyRestart => exact h.execFireflyRestart
  | telemetrySample => exact h.execTelemetrySample
  | thermGate => exact h.execThermGate
  | thermWarn => exact h.execThermWarn
  | thermStop => exact h.execThermStop
  | thermTrip => exact h.execThermTrip
  | domainIdleTimeout => exact h.execDomainIdleTimeout
  | domainWake => exact h.execDomainWake
  | domainPowerOff => exact h.execDomainPowerOff
  | domainPowerOn => exact h.execDomainPowerOn
  | pwrBankEnWrite => exact h.execPwrBankEnWrite
  | vauxPowerOn => exact h.execVauxPowerOn
  | mainRailsValid => exact h.execMainRailsValid
  | railFault => exact h.execRailFault
  | cfgPatrol => exact h.execCfgPatrol
  | fltPop => exact h.execFltPop
  | fltPinCauseClear => exact h.execFltPinCauseClear
  | faultTest => exact h.execFaultTest
  | clearCounts => exact h.execClearCounts
  | smbusReadByte => exact h.execSmbusReadByte
  | memorySpaceEnableWrite => exact h.execMemorySpaceEnableWrite
  | msixVectorUnmask => exact h.execMsixVectorUnmask
  | vauxLoss => exact h.execVauxLoss
  | railFaultRestart => exact h.execRailFaultRestart
  | refReturnComplete => exact h.execRefReturnComplete
  | aspmL1Entry => exact h.execAspmL1Entry
  | hbmPhyRetrain => exact h.execHbmPhyRetrain

/-! ### Machine/Step.lean -/

/-- A step keeps the canonical form: the queue is none of the tables. -/
theorem step (h : Canonical s) : NextCanonical (step s) := by
  unfold Machine.step
  split
  · exact .next h
  · exact Canonical.exec { h with }

end Canonical

/-- Settles O5: each operation of the model stores into a table, drops entries of it or changes the values in it, and
all three keep the keys strictly rising. -/
theorem stepsKeepTheCanonicalForm : Obligations.StepsKeepTheCanonicalForm := by
  intro s t hs hst
  have h : Canonical s := canonical_iff_wf.mpr hs
  exact canonical_iff_wf.mp (h.step t hst)

end Sys2Proof.Machine
end

section
/-! Proofs: block boundaries and frame boundaries (BLOCK_BOUNDARY and FRAME_START). -/

namespace Sys2Proof.Machine

variable (s : State)

/-! ### Doing an operation for each entry of a list -/

/-- An operation that leaves a part of the state alone for every entry leaves it alone for the list. -/
theorem each_proj {α β : Type} (π : State → β) (g : α → State → State) (hg : ∀ a u, π (g a u) = π u) (l : List α) :
    π (each g l s) = π s := by
  induction l generalizing s with
  | nil => rfl
  | cons a r ih => exact (ih (g a s)).trans (hg a s)

/-- An operation that changes nothing for any entry changes nothing for the list. -/
theorem each_eq_self {α : Type} (g : α → State → State) (l : List α) (h : ∀ a ∈ l, g a s = s) : each g l s = s := by
  induction l with
  | nil => rfl
  | cons a r ih =>
    rw [each, h a List.mem_cons_self]
    exact ih fun b hb => h b (List.mem_cons_of_mem a hb)

/-- What the entry `a` alone changes is, after the list, as `a` made it. `I` is what the operation relies on and keeps. -/
theorem each_at {α β : Type} (π : State → β) (g : α → State → State) (I : State → Prop) (a : α) (f : β → β)
    (hI : ∀ b u, I u → I (g b u)) (ha : ∀ u, I u → π (g a u) = f (π u))
    (hne : ∀ b u, b ≠ a → π (g b u) = π u) (l : List α) (hl : l.Nodup) (hm : a ∈ l) (hs : I s) :
    π (each g l s) = f (π s) := by
  induction l generalizing s with
  | nil => simp at hm
  | cons b r ih =>
    obtain ⟨hb, hr⟩ := List.nodup_cons.mp hl
    by_cases e : b = a
    · subst e
      have hrest : ∀ u, π (each g r u) = π u := by
        clear ih hm hl hr
        induction r with
        | nil => exact fun _ => rfl
        | cons c r ih =>
          obtain ⟨hc, hr'⟩ := not_or.mp (List.mem_cons.not.mp hb)
          exact fun u => (ih hr' _).trans (hne c u (Ne.symm hc))
      exact (hrest _).trans (ha s hs)
    · have hmr : a ∈ r := (List.mem_cons.mp hm).resolve_left fun h => e h.symm
      rw [each, ih _ hr hmr (hI b s hs), hne b s e]

/-! ### Time advances -/

theorem advanceTo_now (x : Label) : (advanceTo x s).now = max s.now x := by
  unfold advanceTo
  split
  next h => exact (Nat.max_eq_right h.le).symm
  next h => exact (Nat.max_eq_left (Nat.le_of_not_lt h)).symm

@[simp] theorem advanceTo_pending (x : Label) : (advanceTo x s).pending = s.pending := by
  unfold advanceTo
  split <;> rfl
@[simp] theorem advanceTo_regs (x : Label) : (advanceTo x s).regs = s.regs := by
  unfold advanceTo
  split <;> rfl
@[simp] theorem advanceTo_parts (x : Label) : (advanceTo x s).parts = s.parts := by
  unfold advanceTo
  split <;> rfl
@[simp] theorem advanceTo_banks (x : Label) : (advanceTo x s).banks = s.banks := by
  unfold advanceTo
  split <;> rfl
@[simp] theorem advanceTo_cic (x : Label) : (advanceTo x s).cic = s.cic := by
  unfold advanceTo
  split <;> rfl
@[simp] theorem advanceTo_stamps (x : Label) : (advanceTo x s).stamps = s.stamps := by
  unfold advanceTo
  split <;> rfl
@[simp] theorem advanceTo_part (x : Label) (p : Nat) : (advanceTo x s).part p = s.part p := by simp [State.part]
@[simp] theorem advanceTo_bank (x : Label) (b : Nat) : (advanceTo x s).bank b = s.bank b := by simp [State.bank]

/-- Whether CD13 has a clock is in two registers. -/
theorem noCore_congr {s t : State} (hst : t.rd .csStatus = s.rd .csStatus)
    (hout : t.rd (.csOutCtrl 2) = s.rd (.csOutCtrl 2)) : t.noCore = s.noCore := by
  unfold State.noCore State.outPeriod State.flag State.getF
  rw [hst, hout]

@[simp] theorem advanceTo_noCore (x : Label) : (advanceTo x s).noCore = s.noCore :=
  noCore_congr (rd_congr (advanceTo_regs s x) _) (rd_congr (advanceTo_regs s x) _)

/-! ### BLOCK_BOUNDARY -/

theorem execBlockBoundary_idle (p : PartId) (x : Label) (l : List (CrossingId × Nat))
    (h : (s.part p).armed = false ∨ s.noCore = true) : execBlockBoundary p x s l = done s (advanceTo x s) := by
  simp [execBlockBoundary, h]

theorem execBlockBoundary_waiting (p : PartId) (x : Label) (l : List (CrossingId × Nat)) (ha : (s.part p).armed = true)
    (hc : s.noCore = false) (hb : (s.part p).begun = none) :
    execBlockBoundary p x s l = done s (if (advanceTo x s).onBlock p x && s.cic.resumeAt.isNone then
      beginInterval p x (advanceTo x s) else advanceTo x s) := by
  simp [execBlockBoundary, ha, hc, hb]

theorem execBlockBoundary_begun (p : PartId) (x : Label) (l : List (CrossingId × Nat)) (ha : (s.part p).armed = true)
    (hc : s.noCore = false) (hb : (s.part p).begun ≠ none) :
    execBlockBoundary p x s l = done s (failWrites p (s.part p).writePos l (blocksTo p x (advanceTo x s))) := by
  simp [execBlockBoundary, ha, hc, hb]

/-! ### What reports leave of the stamps -/

@[simp] theorem msixNow_stamps (f vec : Nat) : (msixNow f vec s).stamps = s.stamps := by
  simp only [msixNow]
  split <;> rfl
@[simp] theorem msix_stamps (f vec : Nat) : (msix f vec s).stamps = s.stamps := by
  simp only [msix]
  split
  · rfl
  · exact msixNow_stamps s f vec
@[simp] theorem enqueue_stamps (f code payload : Nat) : (enqueue f code payload s).stamps = s.stamps := by
  simp only [enqueue]
  split
  · rfl
  · repeat' split
    all_goals simp
@[simp] theorem saturated_stamps (item : Nat) : (saturated item s).stamps = s.stamps :=
  each_proj _ State.stamps _ (fun f u => enqueue_stamps u f _ _) _
@[simp] theorem post_stamps (f code payload : Nat) : (post f code payload s).stamps = s.stamps := by
  simp only [post]
  split <;> simp
@[simp] theorem postPfs_stamps (code payload : Nat) : (postPfs code payload s).stamps = s.stamps :=
  each_proj _ State.stamps _ (fun f u => post_stamps u f _ _) _

/-! ### FRAME_START: the counts of removed pairs (R116, R266) -/

/-- The counts of removed pairs of a bank move on at frame start `x`. -/
def Bank.nextFrame (x : Label) (y : Bank) : Bank :=
  { y with mergedPrev := y.merged, merged := y.mergedNext, mergedNext := 0, countFrom := x }

/-- The counts of removed pairs of every bank move on at frame start `x`. -/
def countPairs (x : Label) (s : State) : State := each (fun b => modBank b (Bank.nextFrame x)) (List.range 8) s

theorem countPairs_bank (x : Label) {b : Nat} (hb : b < 8) : (countPairs x s).bank b = (s.bank b).nextFrame x :=
  each_at s (State.bank · b) _ (fun _ => True) b (Bank.nextFrame x) (fun _ _ h => h) (fun u _ => by simp)
    (fun _ u hc => bank_setBank_ne u (Ne.symm hc) _) _ List.nodup_range (List.mem_range.mpr hb) trivial

@[simp] theorem countPairs_parts (x : Label) : (countPairs x s).parts = s.parts :=
  each_proj s State.parts (fun b => modBank b (Bank.nextFrame x)) (fun _ _ => rfl) _
@[simp] theorem countPairs_regs (x : Label) : (countPairs x s).regs = s.regs :=
  each_proj s State.regs (fun b => modBank b (Bank.nextFrame x)) (fun _ _ => rfl) _
@[simp] theorem countPairs_now (x : Label) : (countPairs x s).now = s.now :=
  each_proj s State.now (fun b => modBank b (Bank.nextFrame x)) (fun _ _ => rfl) _
@[simp] theorem countPairs_stamps (x : Label) : (countPairs x s).stamps = s.stamps :=
  each_proj s State.stamps (fun b => modBank b (Bank.nextFrame x)) (fun _ _ => rfl) _

/-! ### FRAME_START: the time quality (R95) -/

/-- A change of the quality code writes TIME_STATUS, and all else of it is reports. -/
theorem qualityStep_cases : qualityStep s = s ∨
    ∃ a b, Quiet (setF F.timeStatusReconverging a (setF F.timeStatusQuality b s)) (qualityStep s) := by
  unfold qualityStep
  extract_lets q
  split
  · exact .inl rfl
  · exact .inr ⟨_, _, (Quiet.refl _).postOpen _⟩

@[simp] theorem qualityStep_now : (qualityStep s).now = s.now := by
  obtain h | ⟨a, b, h⟩ := qualityStep_cases s
  · rw [h]
  · exact h.now

@[simp] theorem qualityStep_banks : (qualityStep s).banks = s.banks := by
  obtain h | ⟨a, b, h⟩ := qualityStep_cases s
  · rw [h]
  · exact h.banks

@[simp] theorem qualityStep_stamps : (qualityStep s).stamps = s.stamps := by
  simp only [qualityStep, postOpen]
  split <;> simp

/-- The registers that neither show the time quality nor report. -/
theorem rd_qualityStep (r : Reg) (ht : r.key ≠ Reg.timeStatus.key) (hr : reportOff (r.key % 0x100000) = false) :
    (qualityStep s).rd r = s.rd r := by
  obtain h | ⟨a, b, h⟩ := qualityStep_cases s
  · rw [h]
  · rw [h.regs r hr, rd_setF_ne _ F.timeStatusReconverging r a ht, rd_setF_ne _ F.timeStatusQuality r b ht]

/-- What a partition holds but for its segments and pins. -/
theorem core_qualityStep (p : Nat) : ((qualityStep s).part p).core = (s.part p).core := by
  obtain h | ⟨a, b, h⟩ := qualityStep_cases s
  · rw [h]
  · exact h.parts p

@[simp] theorem qualityStep_begun (p : Nat) : ((qualityStep s).part p).begun = (s.part p).begun :=
  (congrArg Part.begun (core_qualityStep s p) :)
@[simp] theorem qualityStep_gaps (p : Nat) : ((qualityStep s).part p).gaps = (s.part p).gaps :=
  (congrArg Part.gaps (core_qualityStep s p) :)

/-! ### FRAME_START: what an armed interval adds -/

theorem blocksTo_idle (p : Nat) (x : Label) (h : (s.part p).begun = none) : blocksTo p x s = s := by
  simp [blocksTo, h]

theorem partFrame_idle (p : Nat) (x : Label) (h : (s.part p).begun = none) : partFrame p x s = s := by
  simp [partFrame, h]

/-- A time step that is over at frame start `x` holds no partition back any more. -/
def endHold (x : Label) (s : State) : State :=
  match s.cic.resumeAt with
  | none => s
  | some r => if x < r then s else { s with cic := { s.cic with resumeAt := none } }

/-- Storing of the partitions that a time step held back resumes at frame start `x` (R85). -/
def resumeStep (x : Label) (s : State) : State :=
  match s.cic.resumeAt with
  | none => s
  | some r =>
    if x < r then s
    else each (fun p s => if (s.part p).gaps ≠ [] ∧ s.heldBack p = false then resumePart p x s else s) (List.range 8)
      { s with cic := { s.cic with resumeAt := none } }

theorem resumeStep_idle (x : Label) (h : ∀ p, p < 8 → (s.part p).gaps = []) : resumeStep x s = endHold x s := by
  unfold resumeStep endHold
  split
  · rfl
  · split
    · rfl
    · exact each_eq_self _ _ _ fun p hp => if_neg fun hg => hg.1 (h p (List.mem_range.mp hp))

@[simp] theorem endHold_regs (x : Label) : (endHold x s).regs = s.regs := by
  unfold endHold
  repeat' split
  all_goals rfl
@[simp] theorem endHold_banks (x : Label) : (endHold x s).banks = s.banks := by
  unfold endHold
  repeat' split
  all_goals rfl
@[simp] theorem endHold_parts (x : Label) : (endHold x s).parts = s.parts := by
  unfold endHold
  repeat' split
  all_goals rfl
@[simp] theorem endHold_now (x : Label) : (endHold x s).now = s.now := by
  unfold endHold
  repeat' split
  all_goals rfl
@[simp] theorem endHold_stamps (x : Label) : (endHold x s).stamps = s.stamps := by
  unfold endHold
  repeat' split
  all_goals rfl

/-! ### FRAME_START: ENC_CTRL applies (R8, R10) -/

/-- The staged values of ENC_CTRL of every bank apply where CD13 has a clock. -/
def applyEncCtrl (s : State) : State :=
  if s.noCore then s else each (fun b => applyStaged .frame (.encCtrl b)) (List.range 8) s

theorem applyStaged_proj {β : Type} (π : State → β) (h : ∀ r w u, π (wrLive r w u) = π u) (a : Apply) (r : Reg) :
    π (applyStaged a r s) = π s := by
  simp only [applyStaged]
  split
  · exact h r _ s
  · rfl

theorem applyEncCtrl_proj {β : Type} (π : State → β) (h : ∀ r w u, π (wrLive r w u) = π u) :
    π (applyEncCtrl s) = π s := by
  unfold applyEncCtrl
  split
  · rfl
  · exact each_proj s π _ (fun _ u => applyStaged_proj u π h _ _) _

/-- A staged value that waits for nothing applies: the places of the fields of that boundary are taken over. -/
theorem rdLive_applyStaged_same (a : Apply) (r : Reg) (h : spGet 0 (stagedKey r) s.stamps = 0) :
    (applyStaged a r s).rdLive r = (s.rdLive r &&& ~~~fieldMask (fun x => x.apply == a) r.fields) |||
      (s.rd r &&& fieldMask (fun x => x.apply == a) r.fields) := by
  simp [applyStaged, h, applyReg]

theorem rdLive_applyStaged_ne (a : Apply) {r q : Reg} (h : q.key ≠ r.key) :
    (applyStaged a r s).rdLive q = s.rdLive q := by
  simp only [applyStaged]
  split
  · exact rdLive_wrLive_ne s h _
  · rfl

theorem encCtrl_key_ne {b c : Nat} (h : c ≠ b) : (Reg.encCtrl b).key ≠ (Reg.encCtrl c).key := by
  simp only [Reg.key, Reg.space, Reg.off]
  omega

theorem rdLive_applyEncCtrl {b : Nat} (hb : b < 8) (hc : s.noCore = false)
    (hst : ∀ b, b < 8 → spGet 0 (stagedKey (.encCtrl b)) s.stamps = 0) :
    (applyEncCtrl s).rdLive (.encCtrl b) =
      (s.rdLive (.encCtrl b) &&& ~~~fieldMask (fun x => x.apply == .frame) (Reg.encCtrl b).fields) |||
        (s.rd (.encCtrl b) &&& fieldMask (fun x => x.apply == .frame) (Reg.encCtrl b).fields) := by
  rw [applyEncCtrl, hc, if_neg Bool.false_ne_true]
  refine each_at s (State.rdLive · (.encCtrl b)) _ (fun u => u.stamps = s.stamps ∧ u.regs = s.regs) b
    (fun w => (w &&& ~~~_) ||| (s.rd (.encCtrl b) &&& _)) ?_ ?_
    (fun c u h => rdLive_applyStaged_ne u _ (encCtrl_key_ne h)) _ List.nodup_range (List.mem_range.mpr hb) ⟨rfl, rfl⟩
  · rintro c u ⟨h1, h2⟩
    exact ⟨(applyStaged_proj u State.stamps (fun _ _ _ => rfl) _ _).trans h1,
      (applyStaged_proj u State.regs (fun _ _ _ => rfl) _ _).trans h2⟩
  · rintro u ⟨h1, h2⟩
    rw [rdLive_applyStaged_same u _ _ (by rw [h1]; exact hst b hb), rd_congr h2]

/-- ENC_POLICY lies among the fields that apply at a frame boundary. -/
theorem encPolicy_get_applied (b : Nat) (l w : Word) :
    (F.encCtrlEncPolicy b).get ((l &&& ~~~fieldMask (fun x => x.apply == .frame) (Reg.encCtrl b).fields) |||
      (w &&& fieldMask (fun x => x.apply == .frame) (Reg.encCtrl b).fields)) = (F.encCtrlEncPolicy b).get w := by
  have hm : fieldMask (fun x => x.apply == .frame) (Reg.encCtrl b).fields = 0xFFFFFF03#32 := rfl
  rw [hm]
  apply Nat.eq_of_testBit_eq
  intro i
  rw [get_testBit, get_testBit]
  by_cases hi : i < 2
  · interval_cases i <;> simp
  · simp [hi]

theorem getL_applyEncCtrl {b : Nat} (hb : b < 8) (hc : s.noCore = false)
    (hst : ∀ b, b < 8 → spGet 0 (stagedKey (.encCtrl b)) s.stamps = 0) :
    (applyEncCtrl s).getL (F.encCtrlEncPolicy b) = s.getF (F.encCtrlEncPolicy b) := by
  rw [State.getL, rdLive_applyEncCtrl s hb hc hst, encPolicy_get_applied]
  rfl

/-! ### FRAME_START as a whole -/

theorem execFrameStart_off (x : Label) (h : frameOf x ≠ x) : execFrameStart x s = done s (advanceTo x s) := by
  simp [execFrameStart, h]

theorem execFrameStart_frame (x : Label) (h : frameOf x = x) :
    execFrameStart x s = done s (applyEncCtrl (each (fun p => partFrame p x) (List.range 8)
      (resumeStep x (qualityStep (each (fun p => blocksTo p x) (List.range 8) (countPairs x (advanceTo x s))))))) := by
  rw [execFrameStart, if_neg (not_not.mpr h)]
  rfl

/-- A frame start while no armed interval has begun. -/
def idleFrame (x : Label) (s : State) : State := endHold x (qualityStep (countPairs x (advanceTo x s)))

theorem execFrameStart_idle (x : Label) (h : frameOf x = x)
    (hp : ∀ p, p < 8 → (s.part p).begun = none ∧ (s.part p).gaps = []) :
    execFrameStart x s = done s (applyEncCtrl (idleFrame x s)) := by
  have hpart : ∀ p, (countPairs x (advanceTo x s)).part p = s.part p := fun p => by simp [State.part]
  have hblocks : each (fun p => blocksTo p x) (List.range 8) (countPairs x (advanceTo x s)) =
      countPairs x (advanceTo x s) :=
    each_eq_self _ _ _ fun p m => blocksTo_idle _ p x (by rw [hpart]; exact (hp p (List.mem_range.mp m)).1)
  have hresume : resumeStep x (qualityStep (countPairs x (advanceTo x s))) = idleFrame x s :=
    resumeStep_idle _ x fun p m => by rw [qualityStep_gaps, hpart]; exact (hp p m).2
  have hframe : each (fun p => partFrame p x) (List.range 8) (idleFrame x s) = idleFrame x s := by
    refine each_eq_self _ _ _ fun p m => partFrame_idle _ p x ?_
    have hsame : (idleFrame x s).part p = (qualityStep (countPairs x (advanceTo x s))).part p := by
      simp [idleFrame, State.part]
    rw [hsame, qualityStep_begun, hpart]
    exact (hp p (List.mem_range.mp m)).1
  rw [execFrameStart_frame s x h, hblocks, hresume, hframe]

theorem idleFrame_now (x : Label) : (idleFrame x s).now = max s.now x := by simp [idleFrame, advanceTo_now]

theorem idleFrame_bank (x : Label) {b : Nat} (hb : b < 8) : (idleFrame x s).bank b = (s.bank b).nextFrame x := by
  have h : (idleFrame x s).bank b = (countPairs x (advanceTo x s)).bank b := by simp [idleFrame, State.bank]
  rw [h, countPairs_bank _ x hb, advanceTo_bank]

theorem idleFrame_stamps (x : Label) : (idleFrame x s).stamps = s.stamps := by simp [idleFrame]

theorem rd_idleFrame (x : Label) (r : Reg) (ht : r.key ≠ Reg.timeStatus.key)
    (hr : reportOff (r.key % 0x100000) = false) : (idleFrame x s).rd r = s.rd r := by
  rw [idleFrame, rd_congr (endHold_regs _ x), rd_qualityStep _ r ht hr]
  exact rd_congr (by simp) r

theorem rd_encCtrl_idleFrame (x : Label) {b : Nat} (hb : b < 8) :
    (idleFrame x s).rd (.encCtrl b) = s.rd (.encCtrl b) := by
  refine rd_idleFrame s x _ ?_ ?_
  · simp only [Reg.key, Reg.space, Reg.off]
    omega
  · have hk : (Reg.encCtrl b).key % 0x100000 = 0x44000 + b * 0x20 := by
      simp only [Reg.key, Reg.space, Reg.off]
      omega
    simp [hk, reportOff]
    omega

@[simp] theorem idleFrame_noCore (x : Label) : (idleFrame x s).noCore = s.noCore :=
  noCore_congr (rd_idleFrame s x _ (by decide) (by decide)) (rd_idleFrame s x _ (by decide) (by decide))

/-- Settles O31: the cases of each command's rule, one lemma each. -/
theorem boundariesBeginIntervalsAndApplyFields : Obligations.BoundariesBeginIntervalsAndApplyFields := by
  refine ⟨fun p x l s h => ?_, fun p x l s ha hc hb => ?_, fun p x l s ha hc hb => ?_, fun x s => ?_⟩
  · exact execBlockBoundary_idle s p x l h
  · exact execBlockBoundary_waiting s p x l ha hc hb
  · exact execBlockBoundary_begun s p x l ha hc hb
  · by_cases hx : frameOf x = x
    · by_cases hp : ∀ p, p < 8 → (s.part p).begun = none ∧ (s.part p).gaps = []
      · refine ⟨_, execFrameStart_idle s x hx hp, fun h => absurd hx h, fun _ _ => ⟨?_, fun b hb => ?_, ?_⟩⟩
        · exact (applyEncCtrl_proj _ State.now fun _ _ _ => rfl).trans (idleFrame_now s x)
        · have h := (applyEncCtrl_proj (idleFrame x s) (State.bank · b) fun _ _ _ => rfl).trans (idleFrame_bank s x hb)
          exact ⟨congrArg Bank.merged h, congrArg Bank.mergedPrev h, congrArg Bank.mergedNext h⟩
        · intro hc hst b hb
          have h := getL_applyEncCtrl (idleFrame x s) hb (by simpa using hc) (by simpa [idleFrame_stamps] using hst)
          exact h.trans (congrArg _ (rd_encCtrl_idleFrame s x hb))
      · exact ⟨_, execFrameStart_frame s x hx, fun h => absurd hx h, fun _ h => absurd h hp⟩
    · exact ⟨_, execFrameStart_off s x hx, fun _ => rfl, fun h => absurd h hx⟩

end Sys2Proof.Machine
end

section
/-! Proofs: a register write that stores its word (REGISTER_WRITE, R7, R8). -/

namespace Sys2Proof.Machine

/-! ### The address map gives each register at its own offset

One lemma per block of R524, each read off the block's table (R527 to R538). -/

@[simp] theorem ofIdent_off (f o : Nat) : (Reg.ofIdent f o).off = o := by
  unfold Reg.ofIdent
  repeat' split
  all_goals simp only [Reg.off] <;> omega

@[simp] theorem ofAccess_off (f o : Nat) : (Reg.ofAccess f o).off = 0x1000 + o := by
  unfold Reg.ofAccess
  repeat' split
  all_goals simp only [Reg.off] <;> omega

@[simp] theorem ofEvq_off (f o : Nat) : (Reg.ofEvq f o).off = 0x2000 + o := by
  unfold Reg.ofEvq
  repeat' split
  all_goals simp only [Reg.off]

@[simp] theorem ofMbx_off (f o : Nat) : (Reg.ofMbx f o).off = 0x3000 + o := by
  unfold Reg.ofMbx
  repeat' split
  all_goals simp only [Reg.off] <;> omega

@[simp] theorem ofEp_off (f o : Nat) : (Reg.ofEp f o).off = 0x4000 + o := by
  unfold Reg.ofEp
  repeat' split
  all_goals simp only [Reg.off]

@[simp] theorem ofFlt_off (f o : Nat) : (Reg.ofFlt f o).off = 0x4800 + o := by
  unfold Reg.ofFlt
  repeat' split
  all_goals simp only [Reg.off] <;> omega

@[simp] theorem ofTime_off (o : Nat) : (Reg.ofTime o).off = 0x8000 + o := by
  unfold Reg.ofTime
  repeat' split
  all_goals simp only [Reg.off]

@[simp] theorem ofCs_off (o : Nat) : (Reg.ofCs o).off = 0x9000 + o := by
  unfold Reg.ofCs
  repeat' split
  all_goals simp only [Reg.off] <;> omega

@[simp] theorem ofFe_off (b o : Nat) : (Reg.ofFe b o).off = 0x10000 + b * 0x2000 + o := by
  unfold Reg.ofFe
  repeat' split
  all_goals simp only [Reg.off] <;> omega

@[simp] theorem ofDet_off (n o : Nat) : (Reg.ofDet n o).off = 0x20000 + n * 0x100 + o := by
  unfold Reg.ofDet
  repeat' split
  all_goals simp only [Reg.off] <;> omega

@[simp] theorem ofGp_off (g o : Nat) : (Reg.ofGp g o).off = 0x28000 + g * 0x100 + o := by
  unfold Reg.ofGp
  repeat' split
  all_goals simp only [Reg.off] <;> omega

@[simp] theorem ofTrig_off (o : Nat) : (Reg.ofTrig o).off = 0x2C000 + o := by
  unfold Reg.ofTrig
  repeat' split
  all_goals simp only [Reg.off] <;> omega

@[simp] theorem ofSeq_off (p o : Nat) : (Reg.ofSeq p o).off = 0x30000 + p * 0x2000 + o := by
  unfold Reg.ofSeq
  dsimp only
  repeat' split
  all_goals simp only [Reg.off] <;> omega

@[simp] theorem ofPart_off (p o : Nat) : (Reg.ofPart p o).off = 0x40000 + p * 0x400 + o := by
  unfold Reg.ofPart
  repeat' split
  all_goals simp only [Reg.off] <;> omega

@[simp] theorem ofEnc_off (b o : Nat) : (Reg.ofEnc b o).off = 0x44000 + b * 0x20 + o := by
  unfold Reg.ofEnc
  repeat' split
  all_goals simp only [Reg.off] <;> omega

@[simp] theorem ofMem_off (o : Nat) : (Reg.ofMem o).off = 0x50000 + o := by
  unfold Reg.ofMem
  repeat' split
  all_goals simp only [Reg.off] <;> omega

@[simp] theorem ofHbm_off (t o : Nat) : (Reg.ofHbm t o).off = 0x58000 + t * 0x4000 + o := by
  unfold Reg.ofHbm
  repeat' split
  all_goals simp only [Reg.off] <;> omega

@[simp] theorem ofRc_off (f n o : Nat) : (Reg.ofRc f n o).off = 0x60000 + n * 0x40 + o := by
  unfold Reg.ofRc
  repeat' split
  all_goals simp only [Reg.off] <;> omega

@[simp] theorem ofPwr_off (o : Nat) : (Reg.ofPwr o).off = 0x70000 + o := by
  unfold Reg.ofPwr
  repeat' split
  all_goals simp only [Reg.off] <;> omega

@[simp] theorem ofTel_off (o : Nat) : (Reg.ofTel o).off = 0x74000 + o := by
  unfold Reg.ofTel
  repeat' split
  all_goals simp only [Reg.off] <;> omega

@[simp] theorem ofSec_off (o : Nat) : (Reg.ofSec o).off = 0x78000 + o := by
  unfold Reg.ofSec
  repeat' split
  all_goals simp only [Reg.off]

/-- A row of the address map whose block answers at its own offset, put before rows that do. -/
theorem off_of_row {c : Prop} [Decidable c] {o : Nat} {a r : Reg} {x : Option Reg}
    (h : (if c then some a else x) = some r) (ha : c → a.off = o) (hx : x = some r → r.off = o) : r.off = o := by
  split at h
  next hc => exact Option.some.inj h ▸ ha hc
  next => exact hx h

/-- The address map (R524) gives at an offset a register of that offset. -/
theorem ofOff_off {f o : Nat} {r : Reg} (h : Reg.ofOff f o = some r) : r.off = o := by
  unfold Reg.ofOff at h
  iterate 21
    refine off_of_row h (fun _ => ?_) fun h => ?_
    · simp only [ofIdent_off, ofAccess_off, ofEvq_off, ofMbx_off, ofEp_off, ofFlt_off, ofTime_off, ofCs_off, ofFe_off,
        ofDet_off, ofGp_off, ofTrig_off, ofSeq_off, ofPart_off, ofEnc_off, ofMem_off, ofHbm_off, ofRc_off, ofPwr_off,
        ofTel_off, ofSec_off] <;> omega
  cases h

theorem barReg_pf {f : Nat} (hf : isPf f = true) (off : Nat) : barReg f off = Reg.ofOff f off := by
  rw [barReg, if_pos hf]

/-- The one register of a PF at 0x104C is SLOW_DATA, whose write acts. -/
theorem off_ne_slowData {f off : Nat} {r : Reg} (hf : isPf f = true) (hr : barReg f off = some r)
    (ha : r.actsOnWrite = false) : r.off ≠ 0x104C := by
  intro ho
  rw [barReg_pf hf] at hr
  obtain rfl : off = 0x104C := (ofOff_off hr).symm.trans ho
  obtain rfl : Reg.slowData f = r := Option.some.inj hr
  cases ha

/-! ### What the parts of a plain write leave and change -/

variable (s : State)

/-- An operation on the word of `r` alone: the live values and the registers of other keys are as they were. -/
def StoresOnly (r : Reg) (s t : State) : Prop := t.live = s.live ∧ ∀ q : Reg, q.key ≠ r.key → t.rd q = s.rd q

theorem StoresOnly.refl (r : Reg) : StoresOnly r s s := ⟨rfl, fun _ _ => rfl⟩

theorem StoresOnly.trans {r : Reg} {s t u : State} (h₁ : StoresOnly r s t) (h₂ : StoresOnly r t u) :
    StoresOnly r s u := by
  obtain ⟨hl₁, hq₁⟩ := h₁
  obtain ⟨hl₂, hq₂⟩ := h₂
  exact ⟨hl₂.trans hl₁, fun q hq => (hq₂ q hq).trans (hq₁ q hq)⟩

theorem storesOnly_wr (r : Reg) (w : Word) : StoresOnly r s (wr r w s) := ⟨rfl, fun _ hq => rd_wr_ne s hq w⟩

theorem storesOnly_markStaged (r q : Reg) : StoresOnly r s (markStaged q s) := by
  unfold markStaged
  split <;> exact .refl s r

@[simp] theorem rd_markStaged (q r : Reg) : (markStaged q s).rd r = s.rd r := by
  unfold markStaged
  split <;> rfl

theorem storesOnly_stage (r : Reg) (w : Word) : StoresOnly r s (stage r w s) :=
  (storesOnly_wr s r _).trans (storesOnly_markStaged _ r r)

theorem storesOnly_keepWrite (r : Reg) (v : Word) : StoresOnly r s (keepWrite r v s) := by
  unfold keepWrite
  dsimp only
  split
  · exact .refl s r
  · exact storesOnly_wr (spend s) r _

theorem storesOnly_plainWrite (r : Reg) (v : Word) : StoresOnly r s (plainWrite r v s) :=
  ((storesOnly_keepWrite s r v).trans (storesOnly_wr _ r _)).trans (storesOnly_stage _ r v)

/-- A bit of a word of which a mask's bits are replaced. -/
theorem masked_getLsbD (w v m : Word) {i : Nat} (hi : i < 32) :
    ((w &&& ~~~m) ||| (v &&& m)).getLsbD i = if m.getLsbD i then v.getLsbD i else w.getLsbD i := by
  rw [BitVec.getLsbD_or, BitVec.getLsbD_and, BitVec.getLsbD_and, BitVec.getLsbD_not]
  cases m.getLsbD i <;> simp [hi]

/-- The RW bits take the written word's (R7). -/
theorem stage_getLsbD (r : Reg) (w : Word) {i : Nat} (hi : i < 32) :
    ((stage r w s).rd r).getLsbD i = if (r.bitsWith .rw).getLsbD i then w.getLsbD i else (s.rd r).getLsbD i := by
  rw [stage, rd_markStaged, rd_wr_same]
  exact masked_getLsbD _ _ (r.bitsWith .rw) hi

/-- A bit that is no keep bit is as it was. -/
theorem keepWrite_getLsbD (r : Reg) (v : Word) {i : Nat} (hi : i < 32) (hk : (r.bitsWith .kp).getLsbD i = false) :
    ((keepWrite r v s).rd r).getLsbD i = (s.rd r).getLsbD i := by
  unfold keepWrite
  dsimp only
  split
  · rfl
  · rw [rd_wr_same]
    exact (masked_getLsbD _ _ (r.bitsWith .kp) hi).trans (if_neg (by simp [hk]))

/-- What a plain write makes of a bit: an RW bit takes the written one, a W1C bit clears on a 1 (R7). -/
theorem plainWrite_getLsbD (r : Reg) (v : Word) {i : Nat} (hi : i < 32) (hk : (r.bitsWith .kp).getLsbD i = false) :
    ((plainWrite r v s).rd r).getLsbD i =
      if (r.bitsWith .rw).getLsbD i then v.getLsbD i
      else if (r.bitsWith .w1c).getLsbD i && v.getLsbD i then false else (s.rd r).getLsbD i := by
  rw [plainWrite, stage_getLsbD _ r v hi, rd_wr_same]
  change (if _ then _ else ((keepWrite r v s).rd r &&& ~~~(v &&& r.bitsWith .w1c)).getLsbD i) = _
  rw [BitVec.getLsbD_and, keepWrite_getLsbD s r v hi hk, BitVec.getLsbD_not, BitVec.getLsbD_and]
  cases v.getLsbD i <;> cases (r.bitsWith .w1c).getLsbD i <;> simp [hi]

/-! ### The way of a write to its register -/

/-- A register whose write has no action of its own stores the word. -/
theorem acceptWrite_plain (f : Nat) {r : Reg} (v : Word) (ha : r.actsOnWrite = false) :
    acceptWrite f r v s = plainWrite r v s := by
  cases r <;> cases ha <;> rfl

/-- A word that a PF writes and that is not refused, to a register in no slow window. -/
theorem wordWrite_plain {f off : Nat} {r : Reg} {v : Word} (hf : isPf f = true) (hr : barReg f off = some r)
    (hw : slowWindow r.off = false) (ha : r.actsOnWrite = false) (hv : s.writeRefused r v = false) :
    wordWrite f off v s = plainWrite r v s := by
  simp [wordWrite, hr, hf, hw, off_ne_slowData hf hr ha, regWrite, hv, acceptWrite_plain s f v ha]

/-- A write that reaches its register is the write of its word. -/
theorem bar0Word_carriesOut {f off : Nat} (v : Word) (h : s.carriesOut f off = true) :
    bar0Word f off v s = wordWrite f off v s := by
  simp only [State.carriesOut, Bool.and_eq_true, Bool.not_eq_true', Option.isNone_iff_eq_none] at h
  obtain ⟨⟨⟨⟨⟨hopen, hsome⟩, hrec⟩, hcont⟩, hdom⟩, -⟩ := h
  have hnone : (barReg f off).isNone = false := by simpa using hsome
  unfold bar0Word
  split
  · rfl
  · simp [hostWrite, hopen, hnone, hrec, hcont, hdom]

theorem exec_registerWrite_carriesOut {f : FnId} {off : Nat} (v : DWord) (ho : off % 4 = 0)
    (h : s.carriesOut f off = true) :
    exec (.registerWrite f false off .w32 v) s = done s (wordWrite f off (v.setWidth 32) s) := by
  have hs : s.clk.sysHeld = false := by
    simp only [State.carriesOut, Bool.and_eq_true, Bool.not_eq_true'] at h
    exact h.2
  change bar0 _ (bar0Write f off .w32 v) s = _
  simp [bar0, hs, bar0Write, ho, bar0Word_carriesOut s _ h]

/-- Settles O8: such a write is a plain write of its word, whose parts act on the bits of their access code. -/
theorem registerWriteStores : Obligations.RegisterWriteStores := by
  unfold Obligations.RegisterWriteStores
  intro f off v r s hf ho hc hr hw ha hv
  obtain ⟨hlive, hother⟩ := storesOnly_plainWrite s r (v.setWidth 32)
  refine ⟨{ plainWrite r (v.setWidth 32) s with pending := s.pending }, ?_, hlive, hother, fun i hi hk => ?_⟩
  · rw [exec_registerWrite_carriesOut s v ho hc, wordWrite_plain s hf hr hw ha hv]
    rfl
  · change ((plainWrite r _ s).rd r).getLsbD i = _
    rw [plainWrite_getLsbD s r _ hi hk, BitVec.getLsbD_setWidth]
    simp [hi]

end Sys2Proof.Machine
end

section
/-! Proofs: the operations of clock synthesis (R39 to R67): what each does to the fields of the CS registers and to the
state of the clocks, and what it leaves of them. -/

namespace Sys2Proof.Machine

variable (s : State)

/-- A command that does nothing goes on with its state. -/
@[simp] theorem done_self : done s s = .next s := rfl

/-! ### Fields and flags -/

theorem flag_eq_true {x : Fld} : s.flag x = true ↔ s.getF x = 1 := beq_iff_eq
theorem flag_eq_false {x : Fld} : s.flag x = false ↔ s.getF x ≠ 1 := beq_eq_false_iff_ne

/-- A flag reads what its field reads. -/
theorem flag_of_getF {s t : State} {x : Fld} (h : t.getF x = s.getF x) : t.flag x = s.flag x :=
  congrArg (· == 1) h

@[simp] theorem getF_modClk (g : Clocks → Clocks) (x : Fld) : (modClk g s).getF x = s.getF x := rfl
@[simp] theorem flag_modClk (g : Clocks → Clocks) (x : Fld) : (modClk g s).flag x = s.flag x := rfl
@[simp] theorem modClk_clk (g : Clocks → Clocks) : (modClk g s).clk = g s.clk := rfl
@[simp] theorem modCic_cic (g : Cicada → Cicada) : (modCic g s).cic = g s.cic := rfl
@[simp] theorem advanceTo_clk (x : Label) : (advanceTo x s).clk = s.clk := by
  unfold advanceTo
  split <;> rfl

/-- A flag that is set, or cleared, reads so. -/
theorem flag_setF_bit (x : Fld) (v : Bool) (h : x.lo + x.width ≤ 32) (hw : x.width = 1) :
    (setF x (bit v) s).flag x = v := by
  rw [State.flag, getF_setF_same s x _ h, hw]
  cases v <;> rfl

/-- Two fields have no bit in common. -/
abbrev Fld.misses (x y : Fld) : Prop :=
  x.reg.key ≠ y.reg.key ∨ x.reg = y.reg ∧ (x.lo + x.width ≤ y.lo ∨ y.lo + y.width ≤ x.lo)

theorem getF_setF_misses (x y : Fld) (v : Nat) (hy : y.lo + y.width ≤ 32) (h : x.misses y) :
    (setF y v s).getF x = s.getF x := by
  rcases h with hk | ⟨hr, hb⟩
  · exact getF_setF_ne s y x v hk
  · exact getF_setF_other s y x v hy hr hb

/-! ### Events with a status bit -/

theorem getF_eventOpen (b x : Fld) (code : Nat) (h : reportOff (x.reg.key % 0x100000) = false) :
    (eventOpen b code s).getF x = (setF b 1 s).getF x := getF_postOpen _ x code h
@[simp] theorem eventOpen_clk (b : Fld) (code : Nat) : (eventOpen b code s).clk = s.clk := postOpen_clk _ code
@[simp] theorem eventOpen_cic (b : Fld) (code : Nat) : (eventOpen b code s).cic = s.cic := postOpen_cic _ code

theorem getF_event (b x : Fld) (code payload : Nat) (h : reportOff (x.reg.key % 0x100000) = false) :
    (event b code payload s).getF x = (setF b 1 s).getF x := getF_postPfs _ x code payload h
@[simp] theorem event_clk (b : Fld) (code payload : Nat) : (event b code payload s).clk = s.clk :=
  postPfs_clk _ code payload

/-! ### FAULT# (R493, R494) -/

/-- FAULT# follows its causes by reports, and by the level of the pin. -/
theorem pinUpdate_quiet : ∃ m, Quiet { s with mgmt := m } (pinUpdate s) := by
  unfold pinUpdate
  extract_lets low m s1 s2
  have h1 : Quiet { s with mgmt := { s.mgmt with faultPin := low } } s1 := (Quiet.refl _).emit _
  have h2 : Quiet { s with mgmt := { s.mgmt with faultPin := low } } s2 :=
    h1.each _ (fun f _ hu => hu.setF (F.fltStatusFaultPin f) _ (Quiet.fltStatus_report ..)) _
  clear_value s2
  split
  · exact ⟨s.mgmt, Quiet.refl s⟩
  · refine ⟨{ s.mgmt with faultPin := low }, ?_⟩
    split
    · split
      · exact h2.spend.postPfs _ _
      · exact h2.postPfs _ _
    · exact h2.postPfs _ _

theorem getF_setCause (n : Nat) (x : Fld) (h : reportOff (x.reg.key % 0x100000) = false) :
    (setCause n s).getF x = (setF ⟨.fltPinCause, n, 1⟩ 1 s).getF x := by
  obtain ⟨m, hq⟩ := pinUpdate_quiet (setF ⟨.fltPinCause, n, 1⟩ 1 s)
  exact hq.getF x h

/-- A cause of FAULT# joins those in force. -/
theorem fltPinCause_setCause {n : Nat} (hn : n < 6) :
    (setCause n s).getF F.fltPinCauseCause = s.getF F.fltPinCauseCause ||| 2 ^ n := by
  rw [getF_setCause s n _ (by decide)]
  apply Nat.eq_of_testBit_eq
  intro i
  simp only [State.getF, setF, rd_wr_same, Nat.testBit_or, Nat.testBit_two_pow, get_testBit]
  rw [put_getLsbD _ _ _ _ (by simp only; omega)]
  by_cases hi : i = n
  · subst hi
    simp [hn]
  · have hni : ¬ n = i := fun e => hi e.symm
    have hout : ¬ (n ≤ i ∧ i ≤ n) := by omega
    simp [hni, hout]

/-! ### The live offset (R53 to R55, R86) -/

theorem getF_retarget (j : Option Int) (x : Fld) (h : reportOff (x.reg.key % 0x100000) = false)
    (hl : x.misses F.csSteerLiveSteerLive) (he : x.misses F.csEventsSteerClamped) :
    (retarget j s).getF x = s.getF x := by
  unfold retarget
  extract_lets sum cut clipped from_ was s1 s2 s3
  have h2 : s2.getF x = s.getF x := by
    unfold s2
    split <;> rfl
  have h3 : s3.getF x = s.getF x := (getF_setF_misses s2 x F.csSteerLiveSteerLive _ (by decide) hl).trans h2
  split
  · rw [getF_eventOpen _ _ _ _ h, getF_setF_misses _ x F.csEventsSteerClamped _ (by decide) he, h3]
  · exact h3

/-- CS_STATUS does not show the live offset. -/
theorem csStatus_retarget (j : Option Int) (lo w : Nat) :
    (retarget j s).getF ⟨.csStatus, lo, w⟩ = s.getF ⟨.csStatus, lo, w⟩ := by
  have hq : reportOff (Reg.csStatus.key % 0x100000) = false := by decide
  have hl : Reg.csStatus.key ≠ Reg.csSteerLive.key := by decide
  have he : Reg.csStatus.key ≠ Reg.csEvents.key := by decide
  exact getF_retarget s j _ hq (.inl hl) (.inl he)

/-- A new target of the live offset is a new ramp, and says whether it was cut. -/
theorem retarget_clk (j : Option Int) : ∃ c f a t,
    (retarget j s).clk = { s.clk with clamped := c, rampFrom := f, rampAt := a, trimTarget := t } := by
  unfold retarget
  extract_lets sum cut clipped from_ was s1 s2 s3
  have h3 : ∃ c f a t, s3.clk = { s.clk with clamped := c, rampFrom := f, rampAt := a, trimTarget := t } := by
    simp only [s3, s2, setF_clk]
    split <;> exact ⟨_, _, _, _, rfl⟩
  split
  · simpa using h3
  · exact h3

@[simp] theorem retarget_cic (j : Option Int) : (retarget j s).cic = s.cic := by
  unfold retarget
  extract_lets sum cut clipped from_ was s1 s2 s3
  have h3 : s3.cic = s.cic := by
    simp only [s3, s2, setF_cic]
    split <;> rfl
  split
  · rw [eventOpen_cic, h3]
  · exact h3

/-! ### The input of the sample PLL (R86) -/

@[simp] theorem changeInput_clk (r : Bool) : (changeInput r s).clk = s.clk := by
  unfold changeInput
  split <;> rfl

theorem flag_changeInput (r : Bool) : (changeInput r s).flag F.csStatusSpllInput = r := by
  unfold changeInput
  split
  next h => exact h
  next => exact flag_setF_bit _ F.csStatusSpllInput r (by decide) rfl

theorem getF_changeInput (r : Bool) (x : Fld) (h : x.misses F.csStatusSpllInput) :
    (changeInput r s).getF x = s.getF x := by
  unfold changeInput
  split
  · rfl
  · exact getF_setF_misses _ x F.csStatusSpllInput _ (by decide) h

/-! ### Relocks (R60 to R63) -/

/-- The clocks as a relock starts: no path has declared lock (R56), a full relock owed before is still owed (R62). -/
def Clocks.relock (full : Bool) (c : Clocks) : Clocks :=
  { c with fallback := false, retryDue := false, needFull := full || c.needFull, declaredA := false,
           declaredD := false }

/-- A relock that starts turns to the selected input, and then names its kind (R61, R62). -/
theorem startRelock_eq (full : Bool) : ∃ t k, startRelock full s = setF F.csStatusRelockState k t ∧
    k = (if s.getF F.csCtrlRefSel = 1 ∧ s.flag F.csStatusRefQualified = false then 4
      else if full || s.clk.needFull then 2 else 1) ∧
    t.clk = s.clk.relock full ∧ ∀ x, t.getF x = (changeInput s.wantsRef s).getF x := by
  refine ⟨{ changeInput s.wantsRef s with clk := s.clk.relock full }, _, ?_, rfl, rfl, fun x => rfl⟩
  have hsel : (changeInput s.wantsRef s).getF F.csCtrlRefSel = s.getF F.csCtrlRefSel :=
    getF_changeInput s _ _ (by decide)
  have hq : (changeInput s.wantsRef s).flag F.csStatusRefQualified = s.flag F.csStatusRefQualified :=
    flag_of_getF (getF_changeInput s _ _ (by decide))
  unfold startRelock
  simp only [changeInput_clk, getF_modClk, flag_modClk, hsel, hq]
  simp only [modClk, changeInput_clk]
  split <;> rfl

@[simp] theorem startRelock_clk (full : Bool) : (startRelock full s).clk = s.clk.relock full := by
  obtain ⟨t, k, h, -, hclk, -⟩ := startRelock_eq s full
  rw [h, setF_clk, hclk]

/-- A relock that starts is fast, or full where one is owed, or waits for REFCLK (R61, R62). -/
theorem relockState_startRelock (full : Bool) : (startRelock full s).getF F.csStatusRelockState =
    if s.getF F.csCtrlRefSel = 1 ∧ s.flag F.csStatusRefQualified = false then 4
    else if full || s.clk.needFull then 2 else 1 := by
  obtain ⟨t, k, h, hk, -, -⟩ := startRelock_eq s full
  rw [h, getF_setF_same _ _ _ (by decide), hk]
  repeat' split
  all_goals rfl

theorem relockState_startRelock_mem (full : Bool) : (startRelock full s).getF F.csStatusRelockState ∈ [1, 2, 4] := by
  rw [relockState_startRelock]
  repeat' split
  all_goals decide

theorem relockState_startRelock_full : (startRelock true s).getF F.csStatusRelockState ∈ [2, 4] := by
  rw [relockState_startRelock]
  simp only [Bool.true_or, if_true]
  split <;> decide

/-- A relock that does not wait for REFCLK is fast or full. -/
theorem relockState_startRelock_runs (full : Bool)
    (h : s.getF F.csCtrlRefSel ≠ 1 ∨ s.flag F.csStatusRefQualified = true) :
    (startRelock full s).getF F.csStatusRelockState ∈ [1, 2] := by
  rw [relockState_startRelock, if_neg (by simpa [imp_iff_not_or] using h)]
  split <;> decide

theorem flag_startRelock_input (full : Bool) : (startRelock full s).flag F.csStatusSpllInput = s.wantsRef := by
  obtain ⟨t, k, h, -, -, hx⟩ := startRelock_eq s full
  have hf : (setF F.csStatusRelockState k t).getF F.csStatusSpllInput = t.getF F.csStatusSpllInput :=
    getF_setF_misses _ _ _ _ (by decide) (by decide)
  rw [h, flag_of_getF hf, flag_of_getF (hx F.csStatusSpllInput), flag_changeInput]

theorem getF_startRelock (full : Bool) (x : Fld) (hi : x.misses F.csStatusSpllInput)
    (hr : x.misses F.csStatusRelockState) : (startRelock full s).getF x = s.getF x := by
  obtain ⟨t, k, h, -, -, hx⟩ := startRelock_eq s full
  rw [h, getF_setF_misses _ _ _ _ (by decide) hr, hx, getF_changeInput s _ _ hi]

theorem relockState_hostRelock_mem (full : Bool) : (hostRelock full s).getF F.csStatusRelockState ∈ [1, 2, 4] := by
  unfold hostRelock
  split <;> exact relockState_startRelock_mem _ _

theorem relockState_hostRelock_full : (hostRelock true s).getF F.csStatusRelockState ∈ [2, 4] := by
  unfold hostRelock
  split
  · exact relockState_startRelock_full _
  · exact relockState_startRelock_full _

end Sys2Proof.Machine
end

section
/-! Proofs: the ends of a relock (RELOCK_COMPLETE, RELOCK_FAILED, RELOCK_RETRY_TIMEOUT, LOCK_FILT_PIN_TEST; R57 to
R64). -/

namespace Sys2Proof.Machine

variable (s : State)

/-! ### The calibration of bring-up leaves clock synthesis alone -/

theorem csStatus_key_ne_feCalStatus (b : Nat) : Reg.csStatus.key ≠ (Reg.feCalStatus b).key := by
  simp only [Reg.key, Reg.space, Reg.off]
  omega

theorem csStatus_key_ne_feBankStatus (b : Nat) : Reg.csStatus.key ≠ (Reg.feBankStatus b).key := by
  simp only [Reg.key, Reg.space, Reg.off]
  omega

theorem rd_comparatorsLow (b : Nat) (r : Reg) : (comparatorsLow b s).rd r = s.rd r := rd_congr rfl r

theorem rd_csStatus_startCal (b steps : Nat) : (startCal b steps s).rd .csStatus = s.rd .csStatus := by
  have hcal := csStatus_key_ne_feCalStatus b
  have hbank := csStatus_key_ne_feBankStatus b
  unfold startCal
  split
  · rfl
  next k r _ =>
    extract_lets s1 s2 s3
    have h1 : s1.rd .csStatus = s.rd .csStatus := rd_congr rfl _
    have h2 : s2.rd .csStatus = s1.rd .csStatus :=
      ((rd_setF_ne _ (F.feCalStatusStepRunning b) _ _ hcal).trans
        (rd_setF_ne _ (F.feCalStatusStepsDone b) _ _ hcal)).trans (rd_setF_ne _ (F.feCalStatusAbortReason b) _ _ hcal)
    have h3 : s3.rd .csStatus = s2.rd .csStatus := rd_setF_ne _ (F.feBankStatusCalRunning b) _ _ hbank
    have hs : s3.rd .csStatus = s.rd .csStatus := h3.trans (h2.trans h1)
    split
    · exact (rd_comparatorsLow s3 b _).trans hs
    · exact hs

@[simp] theorem startCal_clk (b steps : Nat) : (startCal b steps s).clk = s.clk := by
  unfold startCal
  split
  · rfl
  · dsimp only
    split <;> rfl

theorem rd_csStatus_bringUp : (bringUp s).rd .csStatus = s.rd .csStatus := by
  unfold bringUp
  split
  · exact each_proj _ (State.rd · .csStatus) _ (fun b u => rd_csStatus_startCal u b _) _
  · rfl

@[simp] theorem bringUp_clk : (bringUp s).clk = s.clk := by
  unfold bringUp
  split
  · exact each_proj _ State.clk _ (fun b u => startCal_clk u b _) _
  · rfl

/-! ### RELOCK_COMPLETE (R59, R60, R64) -/

theorem Quiet.stopInterval {s t : State} (h : Quiet s t) (code : Nat) : Quiet s (stopInterval code t) := by
  have hc : Quiet t (checkInterval code t) := by
    simp only [checkInterval]
    split
    · refine Quiet.saturated ?_ code
      exact { Quiet.refl t with }
    · exact Quiet.refl t
  exact (h.trans hc).trans { Quiet.refl _ with }

@[simp] theorem moveTime_clk (d : Int) : (moveTime d s).clk = s.clk := rfl

/-- A completed relock gives lock and ungates the outputs; it then posts, forms the live offset and calibrates. -/
theorem relockDone_eq (n : Nat) : ∃ t j, relockDone n s = bringUp (retarget j (postOpen 0x0901 t)) ∧
    t.clk.creating = s.clk.creating ∧ t.getF F.csStatusSpllLocked = 1 ∧ t.getF F.csStatusOutputsGated = 0 ∧
    t.getF F.csStatusRelockState = 0 := by
  unfold relockDone
  extract_lets s1 s2 s3 j s4 s5
  have h2 : s2.clk = s.clk := ((Quiet.refl _).stopInterval 0x0021).clk.trans (advanceTo_clk s _)
  have h3 : s3.clk = s.clk := by
    unfold s3
    split
    · exact (moveTime_clk s2 _).trans h2
    · exact h2
  refine ⟨s5, j, rfl, (congrArg Clocks.creating h3 :), ?_, ?_, ?_⟩ <;>
    simp (disch := decide) [s5, s4, getF_setF_same, getF_setF_misses]

/-- What a completed relock leaves of the clocks: lock, the outputs no longer gated, the partitions that waited. -/
theorem relockDone_locks (n : Nat) : (relockDone n s).clk.creating = s.clk.creating ∧
    (relockDone n s).flag F.csStatusSpllLocked = true ∧ (relockDone n s).flag F.csStatusOutputsGated = false ∧
    (relockDone n s).getF F.csStatusRelockState = 0 := by
  obtain ⟨t, j, h, hc, hl, hg, hr⟩ := relockDone_eq s n
  have hx : ∀ lo w, (relockDone n s).getF ⟨.csStatus, lo, w⟩ = t.getF ⟨.csStatus, lo, w⟩ := by
    intro lo w
    have hq : reportOff (Reg.csStatus.key % 0x100000) = false := by decide
    calc (relockDone n s).getF ⟨.csStatus, lo, w⟩
        = (retarget j (postOpen 0x0901 t)).getF ⟨.csStatus, lo, w⟩ := by rw [h, State.getF, rd_csStatus_bringUp]; rfl
      _ = (postOpen 0x0901 t).getF ⟨.csStatus, lo, w⟩ := csStatus_retarget _ j lo w
      _ = t.getF ⟨.csStatus, lo, w⟩ := getF_postOpen _ _ _ hq
  obtain ⟨c, f, a, u, hclk⟩ := retarget_clk (postOpen 0x0901 t) j
  refine ⟨?_, ?_, ?_, ?_⟩
  · rw [h, bringUp_clk, hclk, postOpen_clk, ← hc]
  · rw [flag_eq_true, hx, hl]
  · rw [flag_eq_false, hx, hg]
    decide
  · rw [hx, hr]

theorem execRelockComplete_waits (n : Nat) (h : s.flag F.csStatusOutputsGated = false ∨ s.lockDeclared = false) :
    execRelockComplete n s = .next s := by
  unfold execRelockComplete
  rw [if_pos (h.elim .inl fun h => .inr (.inr h)), done_self]

theorem execRelockComplete_done (n : Nat) (hg : s.flag F.csStatusOutputsGated = true)
    (hr : s.getF F.csStatusRelockState = 1 ∨ s.getF F.csStatusRelockState = 2) (hd : s.lockDeclared = true) :
    execRelockComplete n s = done s (each runCreate (relockDone n s).clk.creating
      (modClk (fun c => { c with creating := [] }) (relockDone n s))) := by
  have hst : ¬ (s.getF F.csStatusRelockState ≠ 1 ∧ s.getF F.csStatusRelockState ≠ 2) := by omega
  simp [execRelockComplete, hg, hd, hst]

/-! ### RELOCK_FAILED (R62, R63) -/

/-- A failed full relock is reported (R63): RELOCK_FAILED, the fault log, FAULT#. -/
def reportFailedRelock (s : State) : State :=
  setCause 1 (logFault 0x0B 0 (min 255 (s.clk.attempts + 1)) (eventOpen F.csEventsRelockFailed 0x0909
    (setF F.csStatusRelockState 5 (modClk (fun c => { c with attempts := c.attempts + 1, fallback := false }) s))))

theorem getF_reportFailedRelock (x : Fld) (h : reportOff (x.reg.key % 0x100000) = false)
    (hc : x.misses ⟨.fltPinCause, 1, 1⟩) (he : x.misses F.csEventsRelockFailed) (hs : x.misses F.csStatusRelockState) :
    (reportFailedRelock s).getF x = s.getF x := by
  rw [reportFailedRelock, getF_setCause _ _ _ h, getF_setF_misses _ x ⟨.fltPinCause, 1, 1⟩ _ (by decide) hc,
    getF_logFault _ _ _ _ _ (by decide) h, getF_eventOpen _ _ _ _ h, getF_setF_misses _ _ _ _ (by decide) he,
    getF_setF_misses _ _ _ _ (by decide) hs, getF_modClk]

theorem reportFailedRelock_shows : (reportFailedRelock s).getF F.csStatusRelockState = 5 ∧
    (reportFailedRelock s).flag F.csEventsRelockFailed = true ∧
    (reportFailedRelock s).getF F.fltPinCauseCause = s.getF F.fltPinCauseCause ||| 2 := by
  refine ⟨?_, flag_eq_true _ |>.mpr ?_, ?_⟩
  · simp (disch := decide) [reportFailedRelock, getF_setCause, getF_logFault, getF_eventOpen, getF_setF_misses,
      getF_setF_same]
  · simp (disch := decide) [reportFailedRelock, getF_setCause, getF_logFault, getF_eventOpen, getF_setF_misses,
      getF_setF_same]
  · rw [reportFailedRelock, fltPinCause_setCause _ (by decide)]
    simp (disch := decide) [getF_logFault, getF_eventOpen, getF_setF_misses]

theorem relockFails_fast (h : s.getF F.csStatusRelockState = 1) : relockFails s = setF F.csStatusRelockState 2
    (modClk (fun c => { c with attempts := c.attempts + 1, fallback := false, needFull := true,
                               declaredA := false, declaredD := false }) s) := by
  simp [relockFails, h, modClk]

theorem relockFails_full (h : s.getF F.csStatusRelockState = 2) : relockFails s =
    if s.getF F.csCtrlRefSel = 2 then startRelock true (setF F.csStatusRefQualified 0 (reportFailedRelock s))
    else modClk (fun c => { c with retryDue := true }) (reportFailedRelock s) := by
  have hsel : (reportFailedRelock s).getF F.csCtrlRefSel = s.getF F.csCtrlRefSel :=
    getF_reportFailedRelock s _ (by decide) (by decide) (by decide) (by decide)
  unfold relockFails
  extract_lets st s1 s2 s3 s4
  have h1 : s1 = modClk (fun c => { c with attempts := c.attempts + 1, fallback := false }) s := if_pos (.inr h)
  have h4 : s4 = reportFailedRelock s := by
    simp only [s4, s3, s2, h1, reportFailedRelock, eventOpen_clk, setF_clk, modClk_clk]
  have hst : st ≠ 1 := fun e => by rw [show st = 2 from h] at e; cases e
  rw [if_neg hst, if_pos h, h4, hsel]

theorem relockFails_outside (h1 : s.getF F.csStatusRelockState ≠ 1) (h2 : s.getF F.csStatusRelockState ≠ 2) :
    relockFails s = s := by
  simp [relockFails, h1, h2]

/-- Under AUTO a failed full relock disqualifies REFCLK, and a full one on XO_IN follows at once (R63). -/
theorem relockFails_auto (h : s.getF F.csStatusRelockState = 2) (hsel : s.getF F.csCtrlRefSel = 2) :
    (relockFails s).getF F.csStatusRelockState = 2 ∧ (relockFails s).flag F.csStatusRefQualified = false ∧
      (relockFails s).flag F.csEventsRelockFailed = true := by
  obtain ⟨-, hev, -⟩ := reportFailedRelock_shows s
  have hsel' : (setF F.csStatusRefQualified 0 (reportFailedRelock s)).getF F.csCtrlRefSel = 2 := by
    rw [getF_setF_misses _ _ _ _ (by decide) (by decide),
      getF_reportFailedRelock s _ (by decide) (by decide) (by decide) (by decide), hsel]
  rw [relockFails_full s h, if_pos hsel]
  refine ⟨?_, ?_, ?_⟩
  · rw [relockState_startRelock, hsel']
    rfl
  · rw [flag_of_getF (getF_startRelock _ _ _ (by decide) (by decide)), flag_eq_false,
      getF_setF_same _ _ _ (by decide)]
    decide
  · rw [flag_of_getF (getF_startRelock _ _ _ (by decide) (by decide)),
      flag_of_getF (getF_setF_misses _ _ _ _ (by decide) (by decide)), hev]

/-- Else the next attempt is due, and FAILED is shown until it starts (R63). -/
theorem relockFails_retries (h : s.getF F.csStatusRelockState = 2) (hsel : s.getF F.csCtrlRefSel ≠ 2) :
    (relockFails s).getF F.csStatusRelockState = 5 ∧ (relockFails s).clk.retryDue = true ∧
      (relockFails s).getF F.fltPinCauseCause = s.getF F.fltPinCauseCause ||| 2 := by
  obtain ⟨hst, -, hflt⟩ := reportFailedRelock_shows s
  rw [relockFails_full s h, if_neg hsel]
  exact ⟨hst, rfl, hflt⟩

/-- A failure of an attempt leaves what the pin test showed. -/
theorem lockFiltState_relockFails :
    (relockFails s).getF F.csStatusLockFiltState = s.getF F.csStatusLockFiltState := by
  have hrep : (reportFailedRelock s).getF F.csStatusLockFiltState = s.getF F.csStatusLockFiltState :=
    getF_reportFailedRelock s _ (by decide) (by decide) (by decide) (by decide)
  by_cases h1 : s.getF F.csStatusRelockState = 1
  · rw [relockFails_fast s h1, getF_setF_misses _ _ _ _ (by decide) (by decide), getF_modClk]
  · by_cases h2 : s.getF F.csStatusRelockState = 2
    · rw [relockFails_full s h2]
      split
      · rw [getF_startRelock _ _ _ (by decide) (by decide), getF_setF_misses _ _ _ _ (by decide) (by decide), hrep]
      · rw [getF_modClk, hrep]
    · rw [relockFails_outside s h1 h2]

/-! ### RELOCK_RETRY_TIMEOUT (R63) -/

theorem execRelockRetryTimeout_due (h : s.getF F.csStatusRelockState = 5) (hd : s.clk.retryDue = true) :
    execRelockRetryTimeout s = done s (startRelock true s) := if_pos ⟨hd, h⟩

theorem execRelockRetryTimeout_idle (h : s.getF F.csStatusRelockState ≠ 5 ∨ s.clk.retryDue = false) :
    execRelockRetryTimeout s = .next s :=
  if_neg fun ⟨hd, hst⟩ => h.elim (absurd hst) fun h => by rw [hd] at h; cases h

/-! ### LOCK_FILT_PIN_TEST (R57) -/

/-- LOCK_FILT_STATE of a pin test's result. -/
def pinTestCode : PinTest → Nat
  | .ok => 1
  | .open => 2
  | .short => 3

/-- A pin test's result is shown. -/
def showPinTest (r : PinTest) (s : State) : State := setF F.csStatusLockFiltState (pinTestCode r) s

theorem lockFiltState_showPinTest (r : PinTest) :
    (showPinTest r s).getF F.csStatusLockFiltState = pinTestCode r := by
  rw [showPinTest, getF_setF_same _ _ _ (by decide)]
  cases r <;> rfl

theorem execLockFiltPinTest_eq (r : PinTest) : execLockFiltPinTest r s =
    if pinTestCode r = 1 then done s (showPinTest r s)
    else match s.getF F.csCtrlLockSource with
      | 3 => done s (event F.csEventsLockFallback 0x0904 (pinTestCode r * 2 ^ 16)
          (modClk (fun c => { c with fallback := true }) (showPinTest r s)))
      | 1 => done s (showPinTest r s)
      | _ => done s (relockFails (showPinTest r s)) := by
  cases r <;> rfl

/-- Whatever else a pin test does, its result is shown (R57). -/
theorem execLockFiltPinTest_shows (r : PinTest) : ∃ t, execLockFiltPinTest r s = .next t ∧
    t.getF F.csStatusLockFiltState = pinTestCode r := by
  rw [execLockFiltPinTest_eq]
  split
  · exact ⟨_, rfl, lockFiltState_showPinTest s r⟩
  · split
    · refine ⟨_, rfl, (getF_event _ _ F.csStatusLockFiltState _ _ (by decide)).trans ?_⟩
      rw [getF_setF_misses _ _ _ _ (by decide) (by decide), getF_modClk, lockFiltState_showPinTest]
    · exact ⟨_, rfl, lockFiltState_showPinTest s r⟩
    · exact ⟨_, rfl, (lockFiltState_relockFails _).trans (lockFiltState_showPinTest s r)⟩

/-- Settles O17: each of the four commands by the cases of RELOCK_STATE that its rule names. -/
theorem relockOutcomes : Obligations.RelockOutcomes := by
  refine ⟨fun n s hg hr hd => ?_, fun n s h => execRelockComplete_waits s n h, fun s => ?_, fun s => ?_, fun r s => ?_⟩
  · obtain ⟨hc, hl, hgated, hstate⟩ := relockDone_locks s n
    exact ⟨relockDone n s, hc ▸ execRelockComplete_done s n hg hr hd, hl, hgated, hstate⟩
  · refine ⟨_, rfl, fun h => ?_, fun h hsel => relockFails_retries s h hsel, fun h hsel => relockFails_auto s h hsel,
      fun h1 h2 => by rw [relockFails_outside s h1 h2]⟩
    rw [relockFails_fast s h]
    exact ⟨getF_setF_same _ F.csStatusRelockState 2 (by decide), rfl⟩
  · by_cases h : s.getF F.csStatusRelockState = 5 ∧ s.clk.retryDue = true
    · obtain ⟨hst, hd⟩ := h
      have hstate : (startRelock true s).getF F.csStatusRelockState = 2 ∨
          (startRelock true s).getF F.csStatusRelockState = 4 := by simpa using relockState_startRelock_full s
      refine ⟨_, execRelockRetryTimeout_due s hst hd, fun _ _ => ⟨?_, hstate⟩, fun h => ?_⟩
      · exact congrArg Clocks.retryDue (startRelock_clk s true)
      · exact absurd h (by simp [hst, hd])
    · refine ⟨s, execRelockRetryTimeout_idle s ?_, fun hst hd => absurd ⟨hst, hd⟩ h, fun _ => rfl⟩
      simpa [imp_iff_not_or] using h
  · obtain ⟨t, h, hcode⟩ := execLockFiltPinTest_shows s r
    exact ⟨t, h, hcode.trans (by cases r <;> rfl)⟩

end Sys2Proof.Machine
end

section
/-! Proofs: the declaration of lock, a write of TRIM and the system PLL (SPLL_LOCK_DECLARED, TRIM_WRITE,
SYSPLL_LOCK_LOSS, SYSPLL_RELOCK_DONE; R40, R53, R55, R56). -/

namespace Sys2Proof.Machine

variable (s : State)

/-! ### SPLL_LOCK_DECLARED (R56) -/

/-- The condition of a path of lock declaration (R56). -/
def State.pathHolds (s : State) (analog : Bool) (mv err cycles : Nat) : Bool :=
  if analog then decide (800 < mv)
  else decide (err ≤ 2 * s.getF F.csLockDetLockWin) && decide (s.getF F.csLockDetLockCount ≤ cycles)

/-- Whether a path may declare lock: with lock, and during a relock (R56). -/
def State.mayDeclare (s : State) : Prop :=
  s.flag F.csStatusSpllLocked = true ∨ s.getF F.csStatusRelockState = 1 ∨ s.getF F.csStatusRelockState = 2

/-- The clocks once a path has declared lock. -/
def Clocks.declare (analog : Bool) (source : Nat) (c : Clocks) : Clocks :=
  { c with declaredA := c.declaredA || analog, declaredD := c.declaredD || !analog,
           analogUsed := c.analogUsed || (analog && decide (source ≠ 1)) }

/-- A path has declared lock. -/
def declareLock (analog : Bool) (s : State) : State := modClk (Clocks.declare analog (s.getF F.csCtrlLockSource)) s

/-- LOCK_PATH names the path that makes the declaration complete. -/
def namePath (analog : Bool) (before s : State) : State :=
  if s.lockDeclared && !before.lockDeclared then setF F.csStatusLockPath (bit (!analog)) s else s

theorem execSpllLockDeclared_idle (analog : Bool) (mv err cycles : Nat)
    (h : s.pathHolds analog mv err cycles = false ∨ ¬ s.mayDeclare) :
    execSpllLockDeclared analog s mv err cycles = .next s := by
  have hc : s.pathHolds analog mv err cycles = false ∨ s.flag F.csStatusSpllLocked = false ∧
      s.getF F.csStatusRelockState ≠ 1 ∧ s.getF F.csStatusRelockState ≠ 2 := by
    simpa [State.mayDeclare] using h
  unfold execSpllLockDeclared
  exact if_pos hc

theorem execSpllLockDeclared_declares (analog : Bool) (mv err cycles : Nat)
    (h : s.pathHolds analog mv err cycles = true) (hd : s.mayDeclare) :
    execSpllLockDeclared analog s mv err cycles = done s (namePath analog s (declareLock analog s)) := by
  have hc : ¬ (s.pathHolds analog mv err cycles = false ∨ s.flag F.csStatusSpllLocked = false ∧
      s.getF F.csStatusRelockState ≠ 1 ∧ s.getF F.csStatusRelockState ≠ 2) := by
    rintro (hp | ⟨hl, h1, h2⟩)
    · rw [h] at hp
      cases hp
    · rcases hd with hl' | h' | h'
      · rw [hl] at hl'
        cases hl'
      · exact h1 h'
      · exact h2 h'
  unfold execSpllLockDeclared
  refine (if_neg hc).trans ?_
  cases analog
  · simp [namePath, declareLock, modClk, Clocks.declare]
  · by_cases hsrc : s.getF F.csCtrlLockSource = 1 <;> simp [namePath, declareLock, modClk, Clocks.declare, hsrc]

@[simp] theorem namePath_clk (analog : Bool) (u : State) : (namePath analog u s).clk = s.clk := by
  unfold namePath
  split <;> rfl

theorem rd_namePath (analog : Bool) (u : State) (r : Reg) (h : r.key ≠ Reg.csStatus.key) :
    (namePath analog u s).rd r = s.rd r := by
  unfold namePath
  split
  · exact rd_setF_ne s F.csStatusLockPath r _ h
  · rfl

theorem lockDeclared_congr {s t : State} (hc : t.clk = s.clk)
    (hs : t.getF F.csCtrlLockSource = s.getF F.csCtrlLockSource) : t.lockDeclared = s.lockDeclared := by
  unfold State.lockDeclared
  rw [hc, hs]

theorem lockDeclared_namePath (analog : Bool) (u : State) : (namePath analog u s).lockDeclared = s.lockDeclared :=
  lockDeclared_congr (namePath_clk s analog u) (congrArg _ (rd_namePath s analog u _ (by decide)))

theorem flag_namePath (analog : Bool) {u : State} (hu : u.lockDeclared = false) (hs : s.lockDeclared = true) :
    (namePath analog u s).flag F.csStatusLockPath = !analog := by
  rw [namePath, hu, hs]
  exact flag_setF_bit s F.csStatusLockPath (!analog) (by decide) rfl

/-! ### TRIM_WRITE (R53, R55) -/

/-- A field of a register in which no keep bit lies is left by a change of the keep bits. -/
theorem getF_keepWrite (x : Fld) (v : Word) (h : x.lo + x.width ≤ 32)
    (hk : ∀ i < x.width, (x.reg.bitsWith .kp).getLsbD (x.lo + i) = false) :
    (keepWrite x.reg v s).getF x = s.getF x := by
  apply Nat.eq_of_testBit_eq
  intro i
  rw [State.getF, get_testBit, State.getF, get_testBit]
  by_cases hi : i < x.width
  · rw [keepWrite_getLsbD s x.reg v (by omega) (hk i hi)]
  · simp [hi]

theorem getF_keepWrite_ne (r : Reg) (x : Fld) (v : Word) (h : x.reg.key ≠ r.key) :
    (keepWrite r v s).getF x = s.getF x :=
  congrArg x.get ((storesOnly_keepWrite s r v).2 x.reg h)

/-- A write of TRIM by which a relock takes the jump (R55): more than 1 ppm, with TRIM_RELOCK and lock. -/
def State.trimJumps (s : State) (v : Nat) : Prop :=
  s.flag F.csCtrlTrimRelock = true ∧ s.flag F.csStatusSpllLocked = true ∧
    4295 < (signed 24 (v % 2 ^ 24) - s.trim).natAbs

theorem trimWrite_jumps {v : Nat} (h : s.trimJumps v) : trimWrite v s =
    modClk (fun c => { c with trimJump := some (signed 24 (v % 2 ^ 24)) })
      (hostRelock false (setF F.csTrimTrim v s)) := by
  obtain ⟨hr, hl, hj⟩ := h
  exact if_pos ⟨hj, hr, hl⟩

theorem trimWrite_ramps {v : Nat} (h : ¬ s.trimJumps v) :
    trimWrite v s = retarget none (setF F.csTrimTrim v s) :=
  if_neg fun ⟨hj, hr, hl⟩ => h ⟨hr, hl, hj⟩

/-- A change of the keep bits of CS_TRIM changes nothing of the jump. -/
theorem trimJumps_keepWrite (v : Nat) (w : Word) : (keepWrite .csTrim w s).trimJumps v ↔ s.trimJumps v := by
  have htrim : (keepWrite .csTrim w s).getF F.csTrimTrim = s.getF F.csTrimTrim :=
    getF_keepWrite s F.csTrimTrim w (by decide) (by decide)
  have hr : (keepWrite .csTrim w s).flag F.csCtrlTrimRelock = s.flag F.csCtrlTrimRelock :=
    flag_of_getF (getF_keepWrite_ne s .csTrim _ w (by decide))
  have hl : (keepWrite .csTrim w s).flag F.csStatusSpllLocked = s.flag F.csStatusSpllLocked :=
    flag_of_getF (getF_keepWrite_ne s .csTrim _ w (by decide))
  simp only [State.trimJumps, State.trim, htrim, hr, hl]

theorem execTrimWrite_carriesOut {f : FnId} (v : Word) (h : s.carriesOut f 0x9010 = true) :
    execTrimWrite f v s = done s (trimWrite (v.toNat % 2 ^ 24) (keepWrite .csTrim v s)) :=
  bar0_acts h _ _

/-! ### The system PLL (R40) -/

theorem flag_eventOpen (b : Fld) (code : Nat) (h : reportOff (b.reg.key % 0x100000) = false)
    (hb : b.lo + b.width ≤ 32) (hw : b.width = 1) : (eventOpen b code s).flag b = true := by
  rw [flag_of_getF (getF_eventOpen s b b code h)]
  exact flag_setF_bit s b true hb hw

/-- How full X04 of a bank is, is not given while the system PLL has no lock. -/
def fillX04 (b : Nat) (s : State) : State := spend (modBank b (fun x => { x with x04 := s.freeN % 4097 }) s)

theorem getF_each_fillX04 (x : Fld) (l : List Nat) : (each fillX04 l s).getF x = s.getF x :=
  each_proj s (State.getF · x) fillX04 (fun _ _ => getF_congr rfl x) l

@[simp] theorem each_fillX04_clk (l : List Nat) : (each fillX04 l s).clk = s.clk :=
  each_proj s State.clk fillX04 (fun _ _ => rfl) l

/-- The system PLL has lost lock: SYSPLL_LOCKED is clear, and the requests wait. -/
def sysPllLost (s : State) : State := modClk (fun c => { c with sysHeld := true }) (setF F.csStatusSyspllLocked 0 s)

/-- What is reported of a loss of lock of the system PLL. -/
def reportSysPllLoss (s : State) : State :=
  logFault 0x0C 0 0 (each fillX04 (List.range 8) (eventOpen F.csEventsSyspllLoss 0x090A s))

theorem getF_reportSysPllLoss (x : Fld) (h : reportOff (x.reg.key % 0x100000) = false) :
    (reportSysPllLoss s).getF x = (eventOpen F.csEventsSyspllLoss 0x090A s).getF x :=
  (getF_logFault _ x 0x0C 0 0 (by decide) h).trans (getF_each_fillX04 _ x _)

@[simp] theorem reportSysPllLoss_clk : (reportSysPllLoss s).clk = s.clk := by
  rw [reportSysPllLoss, ((Quiet.refl _).logFault _ _ _ (by decide)).clk, each_fillX04_clk, eventOpen_clk]

theorem execSysPllLockLoss_eq : execSysPllLockLoss s =
    done s (reportSysPllLoss (sysPllLost (each (fun p s => blocksTo p s.now s) (List.range 8) s))) := by
  unfold execSysPllLockLoss reportSysPllLoss sysPllLost
  rfl

theorem sysPllLost_shows : (reportSysPllLoss (sysPllLost s)).flag F.csStatusSyspllLocked = false ∧
    (reportSysPllLoss (sysPllLost s)).clk.sysHeld = true ∧
    (reportSysPllLoss (sysPllLost s)).flag F.csEventsSyspllLoss = true := by
  refine ⟨?_, ?_, ?_⟩
  · rw [flag_of_getF (getF_reportSysPllLoss _ _ (by decide)), flag_of_getF (getF_eventOpen _ _ _ _ (by decide)),
      flag_of_getF (getF_setF_misses _ _ _ _ (by decide) (by decide))]
    exact flag_setF_bit s F.csStatusSyspllLocked false (by decide) rfl
  · rw [reportSysPllLoss_clk]
    rfl
  · rw [flag_of_getF (getF_reportSysPllLoss _ _ (by decide))]
    exact flag_eventOpen _ F.csEventsSyspllLoss _ (by decide) (by decide) rfl

/-- X04 of a bank has drained. -/
def drainX04 (b : Nat) : State → State := modBank b fun x => { x with x04 := 0 }

theorem each_drainX04_bank {b : Nat} (hb : b < 8) : ((each drainX04 (List.range 8) s).bank b).x04 = 0 :=
  congrArg Bank.x04 (each_at s (State.bank · b) drainX04 (fun _ => True) b (fun x => { x with x04 := 0 })
    (fun _ _ h => h) (fun u _ => bank_setBank_same u b _) (fun _ u hc => bank_setBank_ne u (Ne.symm hc) _) _
    List.nodup_range (List.mem_range.mpr hb) trivial)

theorem flag_each_drainX04 (x : Fld) (l : List Nat) : (each drainX04 l s).flag x = s.flag x :=
  each_proj s (State.flag · x) drainX04 (fun _ _ => flag_congr rfl x) l

@[simp] theorem each_drainX04_clk (l : List Nat) : (each drainX04 l s).clk = s.clk :=
  each_proj s State.clk drainX04 (fun _ _ => rfl) l

/-- The system PLL has lock again: SYSPLL_LOCKED is set, and no request waits any more. -/
def sysPllLocked (s : State) : State :=
  modClk (fun c => { c with sysHeld := false, held := [] }) (setF F.csStatusSyspllLocked 1 s)

theorem flag_sysPllLocked : (sysPllLocked s).flag F.csStatusSyspllLocked = true := by
  rw [sysPllLocked, flag_modClk]
  exact flag_setF_bit s F.csStatusSyspllLocked true (by decide) rfl

theorem sysRelocked_eq : sysRelocked s =
    each drainX04 (List.range 8) (sysPllLocked (each (fun p s => blocksTo p s.now s) (List.range 8) s)) := by
  unfold sysRelocked sysPllLocked
  rfl

/-- The system PLL has lock: X04 has drained, and no request is held any more (R40). -/
theorem sysRelocked_releases : (sysRelocked s).flag F.csStatusSyspllLocked = true ∧
    (sysRelocked s).clk.sysHeld = false ∧ (sysRelocked s).clk.held = [] ∧
    ∀ b, b < 8 → ((sysRelocked s).bank b).x04 = 0 := by
  rw [sysRelocked_eq, flag_each_drainX04, each_drainX04_clk]
  exact ⟨flag_sysPllLocked _, rfl, rfl, fun b hb => each_drainX04_bank _ hb⟩

/-- A BAR0 request that arrives while the system PLL relocks waits (R40). -/
theorem bar0_held (h : s.clk.sysHeld = true) (i : Instr) (g : State → State) :
    bar0 i g s = .next (modClk (fun k => { k with held := k.held ++ [i] }) s) := by
  rw [bar0, if_pos h]
  rfl

theorem execContainRelease_held (h : s.clk.sysHeld = true) (f : FnId) (v : Word) : execContainRelease f v s =
    .next (modClk (fun k => { k with held := k.held ++ [.containRelease f v] }) s) := by
  unfold execContainRelease
  exact bar0_held s h _ _

/-- Settles O18: the declaration by its two cases, the write of TRIM by whether it jumps, the system PLL by what its
loss and its return leave, and the requests each by the one way that they share. -/
theorem lockPathTrimAndSystemPll : Obligations.LockPathTrimAndSystemPll := by
  refine ⟨fun analog mv err cycles s => ?_, fun f v s hc => ?_, fun s => ?_, fun s => ?_, ?_⟩
  · by_cases h : s.pathHolds analog mv err cycles = true ∧ s.mayDeclare
    · obtain ⟨hp, hd⟩ := h
      refine ⟨_, execSpllLockDeclared_declares s analog mv err cycles hp hd, fun q hq => ?_, fun _ _ _ => ?_,
        fun ha hd => ?_⟩
      · exact rd_namePath (declareLock analog s) analog s q hq
      · refine ⟨?_, ?_, ?_, fun hs ht => ?_⟩
        · exact congrArg Clocks.declaredA (namePath_clk (declareLock analog s) analog s)
        · exact congrArg Clocks.declaredD (namePath_clk (declareLock analog s) analog s)
        · exact congrArg Clocks.analogUsed (namePath_clk (declareLock analog s) analog s)
        · exact flag_namePath _ analog hs ((lockDeclared_namePath (declareLock analog s) analog s).symm.trans ht)
      · cases analog
        · have := hd rfl
          simp [State.pathHolds] at hp
          omega
        · have := ha rfl
          simp [State.pathHolds] at hp
          omega
    · have hidle : s.pathHolds analog mv err cycles = false ∨ ¬ s.mayDeclare := by
        simpa [imp_iff_not_or] using h
      refine ⟨s, execSpllLockDeclared_idle s analog mv err cycles hidle, fun q _ => rfl, fun hd ha hdig => ?_,
        fun _ _ => rfl⟩
      refine absurd ⟨?_, hd⟩ h
      cases analog
      · simpa [State.pathHolds] using hdig rfl
      · simpa [State.pathHolds] using ha rfl
  · intro jump
    have hj : jump ↔ (keepWrite .csTrim v s).trimJumps (v.toNat % 2 ^ 24) := by
      rw [trimJumps_keepWrite, State.trimJumps, Nat.mod_mod]
    refine ⟨_, execTrimWrite_carriesOut s v hc, fun h => ?_, fun h => ?_⟩
    · rw [trimWrite_ramps _ (mt hj.mpr h)]
      refine (getF_retarget _ none F.csTrimTrim (by decide) (by decide) (by decide)).trans ?_
      rw [getF_setF_same _ _ _ (by decide)]
      exact Nat.mod_mod _ _
    · rw [trimWrite_jumps _ (hj.mp h), Nat.mod_mod]
      exact ⟨relockState_hostRelock_mem _ false, rfl⟩
  · obtain ⟨hl, hh, he⟩ := sysPllLost_shows (each (fun p s => blocksTo p s.now s) (List.range 8) s)
    change ∃ t, execSysPllLockLoss s = .next t ∧ _
    rw [execSysPllLockLoss_eq]
    generalize reportSysPllLoss _ = u at hl hh he ⊢
    exact ⟨_, rfl, hl, hh, he⟩
  · exact ⟨sysRelocked s, rfl, sysRelocked_releases s⟩
  · intro i f p n b c off w d v h x y e s hs hi
    simp only [List.mem_cons, List.not_mem_nil, or_false] at hi
    obtain rfl | rfl | rfl | rfl | rfl | rfl | rfl | rfl | rfl | rfl | rfl | rfl | rfl | rfl | rfl | rfl | rfl | rfl |
      rfl | rfl | rfl | rfl | rfl | rfl | rfl | rfl | rfl | rfl | rfl := hi
    pick_goal 16
    · exact execContainRelease_held s hs f v
    all_goals exact bar0_held s hs _ _

end Sys2Proof.Machine
end

section
/-! Proofs: the reference of the sample PLL (REFCLK_QUALIFIED, REFCLK_LOST, REF_FREQ_AUTO_MEASURE, REF_RETURN_COMPLETE;
R41, R42, R61, R65, R96). -/

namespace Sys2Proof.Machine

variable (s : State)

/-! ### REFCLK_QUALIFIED (R41, R61, R65) -/

/-- REFCLK is qualified, and a nominal that REF_FREQ gives is the active one (R41, R42). -/
def qualifyRef (s : State) : State :=
  postOpen 0x0903 (if s.getF F.csCtrlRefFreq ≠ 3 then
    setF F.csStatusRefFreqActive (s.getF F.csCtrlRefFreq) (setF F.csStatusRefQualified 1 s)
    else setF F.csStatusRefQualified 1 s)

theorem getF_qualifyRef (x : Fld) (h : reportOff (x.reg.key % 0x100000) = false)
    (hf : x.misses F.csStatusRefFreqActive) :
    (qualifyRef s).getF x = (setF F.csStatusRefQualified 1 s).getF x := by
  rw [qualifyRef, getF_postOpen _ _ _ h]
  split
  · exact getF_setF_misses _ _ _ _ (by decide) hf
  · rfl

theorem getF_qualifyRef_misses (x : Fld) (h : reportOff (x.reg.key % 0x100000) = false)
    (hf : x.misses F.csStatusRefFreqActive) (hq : x.misses F.csStatusRefQualified) :
    (qualifyRef s).getF x = s.getF x :=
  (getF_qualifyRef s x h hf).trans (getF_setF_misses s x _ _ (by decide) hq)

theorem flag_qualifyRef : (qualifyRef s).flag F.csStatusRefQualified = true :=
  (flag_of_getF (getF_qualifyRef s _ (by decide) (by decide))).trans
    (flag_setF_bit s F.csStatusRefQualified true (by decide) rfl)

/-- A return to REFCLK through a relock: the error is taken off device time at the reload (R65, R96). -/
def relockReturn (e : Int) (s : State) : State :=
  hostRelock false (modCic (fun c => { c with refStep := some (stepFor e) }) s)

theorem execRefclkQualified_same (e : Int) (h : s.flag F.csStatusRefQualified = true) :
    execRefclkQualified e s = .next s := if_pos h

/-- What a qualification of REFCLK does, by RELOCK_STATE, the input, lock and the phase. -/
theorem execRefclkQualified_eq (e : Int) (h : s.flag F.csStatusRefQualified = false) : execRefclkQualified e s =
    if s.getF F.csStatusRelockState = 4 then done s (startRelock false (qualifyRef s))
    else if s.getF F.csCtrlRefSel = 2 ∧ s.flag F.csStatusSpllInput = false ∧
        (s.getF F.csStatusRelockState = 1 ∨ s.getF F.csStatusRelockState = 2) then
      done s (startRelock (s.getF F.csStatusRelockState == 2) (qualifyRef s))
    else if s.flag F.csStatusSpllLocked = false ∨ s.flag F.csStatusSpllInput = true ∨ s.getF F.csCtrlRefSel ≠ 2 then
      done s (qualifyRef s)
    else if e.natAbs ≤ 256 ∨ s.flag F.timeCtrlRefReturn = false then done s (hitlessReturn e (qualifyRef s))
    else done s (relockReturn e (qualifyRef s)) := by
  have hst : (qualifyRef s).getF F.csStatusRelockState = s.getF F.csStatusRelockState :=
    getF_qualifyRef_misses s _ (by decide) (by decide) (by decide)
  have hsel : (qualifyRef s).getF F.csCtrlRefSel = s.getF F.csCtrlRefSel :=
    getF_qualifyRef_misses s _ (by decide) (by decide) (by decide)
  have hin : (qualifyRef s).flag F.csStatusSpllInput = s.flag F.csStatusSpllInput :=
    flag_of_getF (getF_qualifyRef_misses s _ (by decide) (by decide) (by decide))
  have hlock : (qualifyRef s).flag F.csStatusSpllLocked = s.flag F.csStatusSpllLocked :=
    flag_of_getF (getF_qualifyRef_misses s _ (by decide) (by decide) (by decide))
  have hret : (qualifyRef s).flag F.timeCtrlRefReturn = s.flag F.timeCtrlRefReturn :=
    flag_of_getF (getF_qualifyRef_misses s _ (by decide) (by decide) (by decide))
  rw [← hst, ← hsel, ← hin, ← hlock, ← hret]
  exact if_neg (by simp [h])

/-- Under AUTO REFCLK is selected where it is qualified (R41). -/
theorem wantsRef_auto (h : s.getF F.csCtrlRefSel = 2) : s.wantsRef = s.flag F.csStatusRefQualified := by
  rw [State.wantsRef, h]
  rfl

/-- A relock that starts once REFCLK is qualified does not wait. -/
theorem startRelock_qualifyRef (full : Bool) :
    (startRelock full (qualifyRef s)).getF F.csStatusRelockState ∈ [1, 2] ∧
      (startRelock full (qualifyRef s)).flag F.csStatusRefQualified = true :=
  ⟨relockState_startRelock_runs _ full (.inr (flag_qualifyRef s)),
    (flag_of_getF (getF_startRelock _ full _ (by decide) (by decide))).trans (flag_qualifyRef s)⟩

/-- Under AUTO a relock that starts once REFCLK is qualified turns to it. -/
theorem startRelock_qualifyRef_input (full : Bool) (h : s.getF F.csCtrlRefSel = 2) :
    (startRelock full (qualifyRef s)).flag F.csStatusSpllInput = true := by
  have hsel : (qualifyRef s).getF F.csCtrlRefSel = 2 :=
    (getF_qualifyRef_misses s _ (by decide) (by decide) (by decide)).trans h
  rw [flag_startRelock_input, wantsRef_auto _ hsel, flag_qualifyRef]

/-- A hitless return turns to REFCLK and keeps lock (R65). -/
theorem hitlessReturn_shows (e : Int) : (hitlessReturn e s).getF F.csStatusRelockState = 3 ∧
    (hitlessReturn e s).flag F.csStatusSpllInput = true ∧
    (hitlessReturn e s).flag F.csStatusSpllLocked = s.flag F.csStatusSpllLocked := by
  have hx : ∀ lo w, (hitlessReturn e s).getF ⟨.csStatus, lo, w⟩ =
      (setF F.csStatusRelockState 3 (changeInput true s)).getF ⟨.csStatus, lo, w⟩ :=
    fun lo w => csStatus_retarget _ none lo w
  refine ⟨?_, ?_, ?_⟩
  · rw [hx, getF_setF_same _ F.csStatusRelockState _ (by decide)]
    rfl
  · rw [flag_of_getF (hx _ _), flag_of_getF (getF_setF_misses _ _ _ _ (by decide) (by decide)), flag_changeInput]
  · rw [flag_of_getF (hx _ _), flag_of_getF (getF_setF_misses _ _ _ _ (by decide) (by decide)),
      flag_of_getF (getF_changeInput _ _ _ (by decide))]

/-- Under AUTO the PLL is on XO_IN, from which it turns to REFCLK once that is qualified (R41, R61). -/
def State.autoOnXo (s : State) : Prop := s.getF F.csCtrlRefSel = 2 ∧ s.flag F.csStatusSpllInput = false

/-- The phase of REFCLK is near, or is to be slewed away: no relock is needed to return to it (R65, R96). -/
def State.returnsHitless (s : State) (e : Int) : Prop := e.natAbs ≤ 256 ∨ s.flag F.timeCtrlRefReturn = false

/-- `t` follows `s` as a qualification of REFCLK with phase `e` asks: a fact for each state it can meet. -/
structure RefFollowed (e : Int) (s t : State) : Prop where
  ended : s.getF F.csStatusRelockState = 4 →
    t.getF F.csStatusRelockState ∈ [1, 2] ∧ t.flag F.csStatusRefQualified = true
  turned : s.getF F.csStatusRelockState ≠ 4 → s.autoOnXo →
    (s.getF F.csStatusRelockState = 1 ∨ s.getF F.csStatusRelockState = 2) →
    t.getF F.csStatusRelockState ∈ [1, 2] ∧ t.flag F.csStatusSpllInput = true
  kept : s.getF F.csStatusRelockState ≠ 4 → ¬ s.autoOnXo →
    t.getF F.csStatusRelockState = s.getF F.csStatusRelockState ∧ t.flag F.csStatusRefQualified = true
  hitless : s.getF F.csStatusRelockState = 0 → s.autoOnXo → s.flag F.csStatusSpllLocked = true → s.returnsHitless e →
    t.getF F.csStatusRelockState = 3 ∧ t.flag F.csStatusSpllInput = true ∧ t.flag F.csStatusSpllLocked = true
  relocked : s.getF F.csStatusRelockState = 0 → s.autoOnXo → s.flag F.csStatusSpllLocked = true → ¬ s.returnsHitless e →
    t.getF F.csStatusRelockState ∈ [1, 2, 4]

theorem RefFollowed.requeue {e : Int} {s t : State} (h : RefFollowed e s t) (q : List Instr) :
    RefFollowed e s { t with pending := q } := ⟨h.ended, h.turned, h.kept, h.hitless, h.relocked⟩

/-- The wait for REFCLK ends in a relock. -/
theorem refFollowed_ended (e : Int) (h4 : s.getF F.csStatusRelockState = 4) :
    RefFollowed e s (startRelock false (qualifyRef s)) where
  ended _ := startRelock_qualifyRef s false
  turned h := absurd h4 h
  kept h := absurd h4 h
  hitless h := absurd (h4.symm.trans h) (by decide)
  relocked h := absurd (h4.symm.trans h) (by decide)

/-- A relock toward XO_IN turns to REFCLK. -/
theorem refFollowed_turned (e : Int) (full : Bool) (ha : s.autoOnXo)
    (hst : s.getF F.csStatusRelockState = 1 ∨ s.getF F.csStatusRelockState = 2) :
    RefFollowed e s (startRelock full (qualifyRef s)) where
  ended _ := startRelock_qualifyRef s full
  turned _ _ _ := ⟨(startRelock_qualifyRef s full).1, startRelock_qualifyRef_input s full ha.1⟩
  kept _ h := absurd ha h
  hitless h := by omega
  relocked h := by omega

/-- Elsewhere the PLL goes on. -/
theorem refFollowed_kept (e : Int) (h4 : s.getF F.csStatusRelockState ≠ 4)
    (hst : s.autoOnXo → ¬ (s.getF F.csStatusRelockState = 1 ∨ s.getF F.csStatusRelockState = 2))
    (hl : s.autoOnXo → s.flag F.csStatusSpllLocked = false) : RefFollowed e s (qualifyRef s) where
  ended h := absurd h h4
  turned _ ha h := absurd h (hst ha)
  kept _ _ := ⟨getF_qualifyRef_misses s _ (by decide) (by decide) (by decide), flag_qualifyRef s⟩
  hitless _ ha h := absurd h (by simp [hl ha])
  relocked _ ha h := absurd h (by simp [hl ha])

/-- A locked PLL on XO_IN returns to REFCLK without unlocking. -/
theorem refFollowed_hitless (e : Int) (h4 : s.getF F.csStatusRelockState ≠ 4)
    (hst : ¬ (s.getF F.csStatusRelockState = 1 ∨ s.getF F.csStatusRelockState = 2)) (ha : s.autoOnXo)
    (hnear : s.returnsHitless e) : RefFollowed e s (hitlessReturn e (qualifyRef s)) where
  ended h := absurd h h4
  turned _ _ h := absurd h hst
  kept _ h := absurd ha h
  hitless _ _ hl _ := by
    obtain ⟨hstate, hin, hlock⟩ := hitlessReturn_shows (qualifyRef s) e
    have hq : (qualifyRef s).flag F.csStatusSpllLocked = s.flag F.csStatusSpllLocked :=
      flag_of_getF (getF_qualifyRef_misses s _ (by decide) (by decide) (by decide))
    exact ⟨hstate, hin, hlock.trans (hq.trans hl)⟩
  relocked _ _ _ h := absurd hnear h

/-- A locked PLL on XO_IN returns to REFCLK through a relock. -/
theorem refFollowed_relocked (e : Int) (h4 : s.getF F.csStatusRelockState ≠ 4)
    (hst : ¬ (s.getF F.csStatusRelockState = 1 ∨ s.getF F.csStatusRelockState = 2)) (ha : s.autoOnXo)
    (hfar : ¬ s.returnsHitless e) : RefFollowed e s (relockReturn e (qualifyRef s)) where
  ended h := absurd h h4
  turned _ _ h := absurd h hst
  kept _ h := absurd ha h
  hitless _ _ _ h := absurd h hfar
  relocked _ _ _ _ := relockState_hostRelock_mem _ false

theorem execRefclkQualified_follows (e : Int) (h : s.flag F.csStatusRefQualified = false) :
    ∃ t, execRefclkQualified e s = .next t ∧ RefFollowed e s t := by
  rw [execRefclkQualified_eq s e h]
  split
  next h4 => exact ⟨_, rfl, (refFollowed_ended s e h4).requeue _⟩
  next h4 =>
    split
    next hturn =>
      obtain ⟨hsel, hin, hst⟩ := hturn
      exact ⟨_, rfl, (refFollowed_turned s e _ ⟨hsel, hin⟩ hst).requeue _⟩
    next hturn =>
      have hst : s.autoOnXo → ¬ (s.getF F.csStatusRelockState = 1 ∨ s.getF F.csStatusRelockState = 2) :=
        fun ⟨hsel, hin⟩ hst => hturn ⟨hsel, hin, hst⟩
      split
      next hon =>
        refine ⟨_, rfl, (refFollowed_kept s e h4 hst ?_).requeue _⟩
        rintro ⟨hsel, hin⟩
        simpa [hsel, hin] using hon
      next hon =>
        have ha : s.autoOnXo := ⟨by omega, by simpa using fun h => hon (.inr (.inl h))⟩
        split
        next hnear => exact ⟨_, rfl, (refFollowed_hitless s e h4 (hst ha) ha hnear).requeue _⟩
        next hfar => exact ⟨_, rfl, (refFollowed_relocked s e h4 (hst ha) ha hfar).requeue _⟩

/-! ### REFCLK_LOST (R42, R58, R61) -/

/-- REFCLK is lost: it is disqualified, and LOSS_OF_REF says so. -/
def loseRef (s : State) : State := eventOpen F.csEventsLossOfRef 0x0902 (setF F.csStatusRefQualified 0 s)

theorem getF_loseRef (x : Fld) (h : reportOff (x.reg.key % 0x100000) = false) (he : x.misses F.csEventsLossOfRef)
    (hq : x.misses F.csStatusRefQualified) : (loseRef s).getF x = s.getF x := by
  rw [loseRef, getF_eventOpen _ _ _ _ h, getF_setF_misses _ _ _ _ (by decide) he,
    getF_setF_misses _ _ _ _ (by decide) hq]

theorem loseRef_shows : (loseRef s).flag F.csStatusRefQualified = false ∧
    (loseRef s).flag F.csEventsLossOfRef = true := by
  refine ⟨?_, flag_eventOpen _ F.csEventsLossOfRef _ (by decide) (by decide) rfl⟩
  rw [loseRef, flag_of_getF (getF_eventOpen _ _ _ _ (by decide)),
    flag_of_getF (getF_setF_misses _ _ _ _ (by decide) (by decide))]
  exact flag_setF_bit s F.csStatusRefQualified false (by decide) rfl

/-- A relock that starts leaves what the loss of REFCLK shows. -/
theorem startRelock_refLost (full : Bool) (hq : s.flag F.csStatusRefQualified = false)
    (he : s.flag F.csEventsLossOfRef = true) : (startRelock full s).flag F.csStatusRefQualified = false ∧
      (startRelock full s).flag F.csEventsLossOfRef = true :=
  ⟨(flag_of_getF (getF_startRelock s full _ (by decide) (by decide))).trans hq,
    (flag_of_getF (getF_startRelock s full _ (by decide) (by decide))).trans he⟩

/-- A loss of lock by the loss of the input shows both losses, and a relock starts (R58, R61). -/
theorem lockLoss_lost (detail : Nat) : ((lockLoss detail true s).flag F.csStatusRefQualified = false ∧
    (lockLoss detail true s).flag F.csEventsLossOfRef = true) ∧
    (lockLoss detail true s).flag F.csEventsLossOfLock = true ∧
    (lockLoss detail true s).getF F.csStatusRelockState ∈ [1, 2, 4] := by
  unfold lockLoss
  extract_lets s1 s2 s3 s4
  have hloss : s2.flag F.csEventsLossOfLock = true :=
    flag_eventOpen s1 F.csEventsLossOfLock _ (by decide) (by decide) rfl
  have h4 : ∀ x : Fld, reportOff (x.reg.key % 0x100000) = false → s4.getF x = (loseRef s2).getF x :=
    fun x h => getF_logFault _ x _ _ _ (by decide) h
  clear_value s2 s4
  obtain ⟨hq, he⟩ := loseRef_shows s2
  refine ⟨startRelock_refLost s4 false ?_ ?_, ?_, relockState_startRelock_mem s4 false⟩
  · exact (flag_of_getF (h4 _ (by decide))).trans hq
  · exact (flag_of_getF (h4 _ (by decide))).trans he
  · rw [flag_of_getF (getF_startRelock s4 _ _ (by decide) (by decide)), flag_of_getF (h4 _ (by decide)),
      flag_of_getF (getF_loseRef s2 _ (by decide) (by decide) (by decide)), hloss]

theorem execRefclkLost_unqualified (h : s.flag F.csStatusRefQualified = false) : execRefclkLost s = .next s := if_pos h

/-- REFCLK is lost: with lock on it that is a loss of lock, else a relock toward it starts anew, or no more is done. -/
theorem execRefclkLost_eq (h : s.flag F.csStatusRefQualified = true) : execRefclkLost s =
    if s.flag F.csStatusSpllInput && s.flag F.csStatusSpllLocked then done s (lockLoss 1 true s)
    else if s.flag F.csStatusSpllInput = true ∧
        (s.getF F.csStatusRelockState = 1 ∨ s.getF F.csStatusRelockState = 2) then
      done s (startRelock (s.getF F.csStatusRelockState == 2) (loseRef s))
    else done s (loseRef s) := if_neg (by simp [h])

/-- A loss of REFCLK is shown; where it is the input of a locked PLL it is a loss of lock. -/
theorem execRefclkLost_shows (h : s.flag F.csStatusRefQualified = true) : ∃ t, execRefclkLost s = .next t ∧
    t.flag F.csStatusRefQualified = false ∧ t.flag F.csEventsLossOfRef = true ∧
    (s.flag F.csStatusSpllInput = true → s.flag F.csStatusSpllLocked = true →
      t.flag F.csEventsLossOfLock = true ∧ t.getF F.csStatusRelockState ∈ [1, 2, 4]) := by
  obtain ⟨hq, he⟩ := loseRef_shows s
  rw [execRefclkLost_eq s h]
  split
  next hl =>
    obtain ⟨⟨hq, he⟩, hloss, hst⟩ := lockLoss_lost s 1
    generalize lockLoss 1 true s = u at hq he hloss hst ⊢
    exact ⟨_, rfl, hq, he, fun _ _ => ⟨hloss, hst⟩⟩
  next hl =>
    have hno : s.flag F.csStatusSpllInput = true → s.flag F.csStatusSpllLocked = true → False := by
      intro hi hl'
      simp [hi, hl'] at hl
    split
    · obtain ⟨hq', he'⟩ := startRelock_refLost _ (s.getF F.csStatusRelockState == 2) hq he
      generalize startRelock _ _ = u at hq' he' ⊢
      exact ⟨_, rfl, hq', he', fun hi hl => (hno hi hl).elim⟩
    · generalize loseRef s = u at hq he ⊢
      exact ⟨_, rfl, hq, he, fun hi hl => (hno hi hl).elim⟩

/-! ### REF_FREQ_AUTO_MEASURE (R41, R54, R55) -/

/-- What a measurement shows: the nominal it finds, the offset, and the live offset that follows it (R41, R54). -/
def measureRef (n : Fin 3) (offset : Int) (s : State) : State :=
  retarget none (setF F.csRefMeasRefOffset (twos 16 (clampInt (-10000) 10000 offset))
    (setF F.csStatusRefFreqActive n s))

theorem refFreqActive_measureRef (n : Fin 3) (offset : Int) :
    (measureRef n offset s).getF F.csStatusRefFreqActive = n := by
  rw [measureRef, getF_retarget _ none _ (by decide) (by decide) (by decide),
    getF_setF_misses _ _ _ _ (by decide) (by decide), getF_setF_same _ F.csStatusRefFreqActive _ (by decide)]
  exact Nat.mod_eq_of_lt (by simp only; omega)

/-- A number of 16 bits reads back from its two's complement. -/
theorem signed_twos_16 {v : Int} (hlo : -32768 ≤ v) (hhi : v < 32768) : signed 16 (twos 16 v % 2 ^ 16) = v := by
  unfold signed twos
  split <;> omega

theorem refOffset_measureRef (n : Fin 3) {offset : Int} (hlo : -10000 ≤ offset) (hhi : offset ≤ 10000) :
    signed 16 ((measureRef n offset s).getF F.csRefMeasRefOffset) = offset := by
  have hclamp : clampInt (-10000) 10000 offset = offset := by
    rw [clampInt, if_neg (by omega), if_neg (by omega)]
  rw [measureRef, getF_retarget _ none _ (by decide) (by decide) (by decide),
    getF_setF_same _ F.csRefMeasRefOffset _ (by decide), hclamp]
  exact signed_twos_16 (by omega) (by omega)

theorem execRefFreqAutoMeasure_fixed (n : Option (Fin 3)) (offset : Int) (h : s.getF F.csCtrlRefFreq ≠ 3) :
    execRefFreqAutoMeasure n offset s = .next s := if_pos h

theorem execRefFreqAutoMeasure_none (offset : Int) : execRefFreqAutoMeasure none offset s = .next s := by
  unfold execRefFreqAutoMeasure
  split <;> rfl

/-- Under AUTO the nominal found is adopted; a change of it is a full relock (R41). -/
theorem execRefFreqAutoMeasure_some (n : Fin 3) (offset : Int) (h : s.getF F.csCtrlRefFreq = 3) :
    execRefFreqAutoMeasure (some n) offset s =
      if s.getF F.csStatusRefFreqActive = 3 ∨ s.getF F.csStatusRefFreqActive = n.val then done s (measureRef n offset s)
      else done s (hostRelock true (setF F.csStatusRefQualified 0 (measureRef n offset s))) :=
  if_neg (not_not.mpr h)

/-! ### TIME_EVENTS keeps its bits through reports -/

@[simp] theorem msixNow_regs (f vec : Nat) : (msixNow f vec s).regs = s.regs := by
  simp only [msixNow]
  split <;> rfl
@[simp] theorem msix_regs (f vec : Nat) : (msix f vec s).regs = s.regs := by
  simp only [msix]
  split
  · rfl
  · exact msixNow_regs s f vec

theorem timeEvents_key_ne_evqStatus (f : Nat) : Reg.timeEvents.key ≠ (Reg.evqStatus f).key := by
  simp only [Reg.key, Reg.space, Reg.off]
  omega

theorem rd_timeEvents_enqueue (f code payload : Nat) :
    (enqueue f code payload s).rd .timeEvents = s.rd .timeEvents := by
  have hset : ∀ (t : State) (lo w v : Nat), (setF ⟨.evqStatus f, lo, w⟩ v t).rd .timeEvents = t.rd .timeEvents :=
    fun t lo w v => rd_setF_ne t ⟨.evqStatus f, lo, w⟩ _ v (timeEvents_key_ne_evqStatus f)
  have hmsix : ∀ t : State, (msix f 0 t).rd .timeEvents = t.rd .timeEvents := fun t => rd_congr (msix_regs t f 0) _
  have hfn : ∀ (t : State) (x : Fn), (setFn f x t).rd .timeEvents = t.rd .timeEvents := fun t x => rd_congr rfl _
  have hraw : ∀ (t : State) (c n : Nat), (bumpRaw c n t).rd .timeEvents = t.rd .timeEvents :=
    fun t c n => rd_congr rfl _
  simp only [enqueue]
  repeat' split
  all_goals simp only [hset, hmsix, hfn, hraw]

/-- A post can add COUNTER_SAT to TIME_EVENTS, and leaves the other bits. -/
theorem timeEvents_post (f code payload lo w : Nat) (h : Fld.misses ⟨.timeEvents, lo, w⟩ F.timeEventsCounterSat) :
    (post f code payload s).getF ⟨.timeEvents, lo, w⟩ = s.getF ⟨.timeEvents, lo, w⟩ := by
  have henq : ∀ (t : State) (f c p : Nat), (enqueue f c p t).getF ⟨.timeEvents, lo, w⟩ = t.getF ⟨.timeEvents, lo, w⟩ :=
    fun t f c p => congrArg _ (rd_timeEvents_enqueue t f c p)
  simp only [post]
  split
  · refine (each_proj _ (State.getF · ⟨.timeEvents, lo, w⟩) _ (fun f u => henq u f _ _) _).trans ?_
    exact (getF_setF_misses _ _ F.timeEventsCounterSat _ (by decide) h).trans (henq s f code payload)
  · exact henq s f code payload

/-- An event of TIME_EVENTS other than COUNTER_SAT stays set through its own post. -/
theorem flag_eventOpen_timeEvents (lo code : Nat) (h : lo < 32)
    (hm : Fld.misses ⟨.timeEvents, lo, 1⟩ F.timeEventsCounterSat) :
    (eventOpen ⟨.timeEvents, lo, 1⟩ code s).flag ⟨.timeEvents, lo, 1⟩ = true := by
  have hpost : (eventOpen ⟨.timeEvents, lo, 1⟩ code s).getF ⟨.timeEvents, lo, 1⟩ =
      (spend (setF ⟨.timeEvents, lo, 1⟩ 1 s)).getF ⟨.timeEvents, lo, 1⟩ :=
    each_proj _ (State.getF · ⟨.timeEvents, lo, 1⟩) _ (fun f u => timeEvents_post u f _ _ lo 1 hm) _
  rw [flag_of_getF hpost]
  exact flag_setF_bit s ⟨.timeEvents, lo, 1⟩ true (by simp only; omega) rfl

/-! ### REF_RETURN_COMPLETE (R65, R96) -/

/-- The return to REFCLK is over: the slew ends. -/
def endReturn (s : State) : State :=
  retarget none (setF F.csStatusRelockState 0
    (modCic (fun c => { c with returning := false, slewing := false, retErr := 0 }) s))

theorem relockState_endReturn : (endReturn s).getF F.csStatusRelockState = 0 := by
  rw [endReturn, getF_retarget _ none _ (by decide) (by decide) (by decide),
    getF_setF_same _ F.csStatusRelockState _ (by decide)]
  rfl

theorem endReturn_cic : (endReturn s).cic = { s.cic with returning := false, slewing := false, retErr := 0 } := by
  rw [endReturn, retarget_cic, setF_cic, modCic_cic]

theorem execRefReturnComplete_idle (err : Int) (h : s.getF F.csStatusRelockState ≠ 3 ∨ 10 < err.natAbs) :
    execRefReturnComplete err s = .next s := if_pos h

theorem execRefReturnComplete_ends (err : Int) (h : s.getF F.csStatusRelockState = 3) (he : err.natAbs ≤ 10) :
    execRefReturnComplete err s =
      if s.cic.slewing then done s (eventOpen F.timeEventsReconverged 0x0806 (endReturn s)) else done s (endReturn s) :=
  if_neg (by simp [h, he])

/-- A return that is over is shown, and after a slew RECONVERGED is posted (R96). -/
theorem execRefReturnComplete_shows (err : Int) (h : s.getF F.csStatusRelockState = 3) (he : err.natAbs ≤ 10) :
    ∃ t, execRefReturnComplete err s = .next t ∧ t.getF F.csStatusRelockState = 0 ∧ t.cic.returning = false ∧
      t.cic.slewing = false ∧ (s.cic.slewing = true → t.flag F.timeEventsReconverged = true) := by
  have hst := relockState_endReturn s
  have hret : (endReturn s).cic.returning = false := congrArg Cicada.returning (endReturn_cic s)
  have hslew : (endReturn s).cic.slewing = false := congrArg Cicada.slewing (endReturn_cic s)
  rw [execRefReturnComplete_ends s err h he]
  generalize endReturn s = u at hst hret hslew ⊢
  split
  · have hflag : (eventOpen F.timeEventsReconverged 0x0806 u).flag F.timeEventsReconverged = true :=
      flag_eventOpen_timeEvents u _ _ (by decide) (by decide)
    have hst' : (eventOpen F.timeEventsReconverged 0x0806 u).getF F.csStatusRelockState = 0 := by
      rw [getF_eventOpen _ _ _ _ (by decide), getF_setF_misses _ _ _ _ (by decide) (by decide), hst]
    have hcic := eventOpen_cic u F.timeEventsReconverged 0x0806
    generalize eventOpen F.timeEventsReconverged 0x0806 u = w at hflag hst' hcic ⊢
    exact ⟨_, rfl, hst', (congrArg Cicada.returning hcic).trans hret, (congrArg Cicada.slewing hcic).trans hslew,
      fun _ => hflag⟩
  next hno => exact ⟨_, rfl, hst, hret, hslew, fun hs => absurd hs hno⟩

/-- Settles O19: each command by the cases of its own equation. -/
theorem referenceChangesAreFollowed : Obligations.ReferenceChangesAreFollowed := by
  refine ⟨fun e s h => execRefclkQualified_same s e h, fun e s h => ?_, fun s h => ?_,
    fun s h => execRefclkLost_unqualified s h, fun n offset s h => ?_,
    fun offset s => execRefFreqAutoMeasure_none s offset,
    fun n offset s h => execRefFreqAutoMeasure_fixed s n offset h, fun err s => ?_⟩
  · obtain ⟨t, hnext, hf⟩ := execRefclkQualified_follows s e h
    exact ⟨t, hnext, hf.ended, hf.turned, hf.kept, hf.hitless, hf.relocked⟩
  · exact execRefclkLost_shows s h
  · intro same
    change ∃ t, execRefFreqAutoMeasure (some n) offset s = .next t ∧ _
    rw [execRefFreqAutoMeasure_some s n offset h]
    split
    next hs =>
      exact ⟨_, rfl, fun _ => ⟨refFreqActive_measureRef s n offset, fun hlo hhi => refOffset_measureRef s n hlo hhi⟩,
        fun hn => absurd hs hn⟩
    next hs => exact ⟨_, rfl, fun h => absurd h hs, fun _ => relockState_hostRelock_full _⟩
  · by_cases h : s.getF F.csStatusRelockState = 3 ∧ err.natAbs ≤ 10
    · obtain ⟨hst, herr⟩ := h
      obtain ⟨t, hnext, hst', hret, hslew, hflag⟩ := execRefReturnComplete_shows s err hst herr
      exact ⟨t, hnext, fun _ _ => ⟨hst', hret, hslew, hflag⟩, fun hno => by omega⟩
    · have hidle : s.getF F.csStatusRelockState ≠ 3 ∨ 10 < err.natAbs := by omega
      exact ⟨s, execRefReturnComplete_idle s err hidle, fun hst herr => absurd ⟨hst, herr⟩ h, fun _ => rfl⟩

end Sys2Proof.Machine
end

section
/-! Proofs: divider alignment and SYNC_OUT (SYNC_IN_EDGE, SYNC_RESTART, SO_FIRE, SYNC_OUT_PULSE; R48 to R52). -/

namespace Sys2Proof.Machine

variable (s : State)

/-! ### SYNC_IN_EDGE (R48, R49, R66) -/

/-- Whether an edge of SYNC_IN is taken: REFCLK is the input, the outputs run, no relock is under way, and the mode is
repeated or armed (R48, R49, R66). -/
def State.takesSyncIn (s : State) : Prop :=
  s.getF F.csCtrlRefSel ≠ 0 ∧ s.flag F.csStatusSpllInput = true ∧ s.flag F.csStatusOutputsGated = false ∧
    s.getF F.csStatusRelockState ≠ 1 ∧ s.getF F.csStatusRelockState ≠ 2 ∧
    (s.flag F.csSyncCtrlSyncMode = true ∨ s.flag F.csSyncCtrlSyncArm = true)

theorem takesSyncIn_iff : s.takesSyncIn ↔ ¬ (s.getF F.csCtrlRefSel = 0 ∨ s.flag F.csStatusSpllInput = false ∨
    s.flag F.csStatusOutputsGated = true ∨ s.getF F.csStatusRelockState = 1 ∨ s.getF F.csStatusRelockState = 2 ∨
    (s.flag F.csSyncCtrlSyncMode = false ∧ s.flag F.csSyncCtrlSyncArm = false)) := by
  simp only [State.takesSyncIn, not_or, not_and_or, Bool.not_eq_false, Bool.not_eq_true, ne_eq]

theorem execSyncInEdge_taken (u : Label) (h : s.takesSyncIn) : execSyncInEdge s u = done s (modClk (fun c => { c with
    syncDue := c.syncDue ++ [s.elapsed + (u - s.now) + (8 + s.getF F.csSyncCtrlSyncLatency) * 40] }) s) :=
  if_neg ((takesSyncIn_iff s).mp h)

theorem execSyncInEdge_dropped (u : Label) (h : ¬ s.takesSyncIn) : execSyncInEdge s u = .next s :=
  if_pos (not_not.mp (mt (takesSyncIn_iff s).mpr h))

/-! ### SYNC_RESTART (R48 to R51, R101) -/

/-- The outputs whose dividers restart: those whose SYNC_EN is set, the capture outputs spared while a partition is not
IDLE (R47, R50). -/
def State.restarting (s : State) (held : Bool) : List Nat :=
  (List.range 6).filter fun n => s.flag (F.csOutCtrlSyncEn n) && (!held || decide (4 ≤ n))

/-- The restarted outputs that were not at the restart phase, a bit each (R51). -/
def lastMoved (moved : BitVec 6) (outs : List Nat) : Nat := (outs.map fun n => if moved.getLsbD n then 2 ^ n else 0).sum

/-- The phases of the restarted outputs are recorded, that of the SYNC output as the base of SYNC_OUT (R51, R52). -/
def recordPhases (due last : Nat) (outs : List Nat) (base : Nat) (s : State) : State :=
  if outs.contains 5 ∧ (last.testBit 5 = true ∨ base = 0) then
    modClk (fun c => { c with soBase := due + 1 }) (each (recordPhase due) outs s)
  else each (recordPhase due) outs s

@[simp] theorem recordPhases_regs (due last : Nat) (outs : List Nat) (base : Nat) :
    (recordPhases due last outs base s).regs = s.regs := by
  have h : (each (recordPhase due) outs s).regs = s.regs :=
    each_proj s State.regs (recordPhase due) (fun _ _ => rfl) outs
  unfold recordPhases
  split <;> exact h

@[simp] theorem recordPhases_syncDue (due last : Nat) (outs : List Nat) (base : Nat) :
    (recordPhases due last outs base s).clk.syncDue = s.clk.syncDue := by
  have h : (each (recordPhase due) outs s).clk.syncDue = s.clk.syncDue :=
    each_proj s (fun u => u.clk.syncDue) (recordPhase due) (fun _ _ => rfl) outs
  unfold recordPhases
  split <;> exact h

/-- A restart uses up SYNC_ARM, except in mode EVERY (`every`) (R49). -/
def disarmSync (every : Bool) (s : State) : State := if every then s else setF F.csSyncCtrlSyncArm 0 s

/-- SYNC_STATUS names the outputs moved, and whether the capture outputs were spared (R51). -/
def showMoved (held : Bool) (last : Nat) (s : State) : State :=
  setF F.csSyncStatusLastRefused (bit held) (setF F.csSyncStatusLastMoved last s)

/-- Capture outputs that were spared are reported (R51). -/
def reportSpared (held : Bool) (s : State) : State := if held then eventOpen F.csEventsSyncRefused 0x0907 s else s

/-- A restart is counted (R51). -/
def countRestart (s : State) : State :=
  setF F.csSyncStatusSyncAppliedCount (s.getF F.csSyncStatusSyncAppliedCount + 1) s

/-- What a restart shows and reports (R49, R51). -/
def reportRestart (every held : Bool) (last : Nat) (s : State) : State :=
  event F.csEventsSyncApplied 0x0906 (last * 2 ^ 16)
    (countRestart (reportSpared held (showMoved held last (disarmSync every s))))

@[simp] theorem disarmSync_clk (every : Bool) : (disarmSync every s).clk = s.clk := by
  unfold disarmSync
  split <;> rfl

@[simp] theorem reportSpared_clk (held : Bool) : (reportSpared held s).clk = s.clk := by
  unfold reportSpared
  split
  · exact eventOpen_clk s _ _
  · rfl

@[simp] theorem reportRestart_clk (every held : Bool) (last : Nat) : (reportRestart every held last s).clk = s.clk := by
  rw [reportRestart, event_clk, countRestart, setF_clk, reportSpared_clk, showMoved, setF_clk, setF_clk, disarmSync_clk]

theorem getF_disarmSync (every : Bool) (x : Fld) (h : x.misses F.csSyncCtrlSyncArm) :
    (disarmSync every s).getF x = s.getF x := by
  unfold disarmSync
  split
  · rfl
  · exact getF_setF_misses s x _ _ (by decide) h

theorem getF_reportSpared (held : Bool) (x : Fld) (h : reportOff (x.reg.key % 0x100000) = false)
    (he : x.misses F.csEventsSyncRefused) : (reportSpared held s).getF x = s.getF x := by
  unfold reportSpared
  split
  · rw [getF_eventOpen _ _ _ _ h, getF_setF_misses _ _ _ _ (by decide) he]
  · rfl

theorem getF_reportRestart (every held : Bool) (last : Nat) (x : Fld) (h : reportOff (x.reg.key % 0x100000) = false)
    (ha : x.misses F.csEventsSyncApplied) : (reportRestart every held last s).getF x =
      (countRestart (reportSpared held (showMoved held last (disarmSync every s)))).getF x := by
  rw [reportRestart, getF_event _ _ _ _ _ h, getF_setF_misses _ _ _ _ (by decide) ha]

/-- The restart is counted, whether capture outputs were spared is shown, and mode ONCE is disarmed. -/
theorem reportRestart_shows (every held : Bool) (last : Nat) :
    (reportRestart every held last s).getF F.csSyncStatusSyncAppliedCount =
      (s.getF F.csSyncStatusSyncAppliedCount + 1) % 65536 ∧
    (reportRestart every held last s).flag F.csSyncStatusLastRefused = held ∧
    (every = false → (reportRestart every held last s).flag F.csSyncCtrlSyncArm = false) := by
  refine ⟨?_, ?_, fun hm => ?_⟩
  · have hcount : (reportSpared held (showMoved held last (disarmSync every s))).getF F.csSyncStatusSyncAppliedCount =
        s.getF F.csSyncStatusSyncAppliedCount := by
      rw [getF_reportSpared _ _ _ (by decide) (by decide), showMoved, getF_setF_misses _ _ _ _ (by decide) (by decide),
        getF_setF_misses _ _ _ _ (by decide) (by decide), getF_disarmSync _ _ _ (by decide)]
    rw [getF_reportRestart _ _ _ _ _ (by decide) (by decide), countRestart, getF_setF_same _ _ _ (by decide), hcount]
    rfl
  · rw [flag_of_getF (getF_reportRestart s every held last _ (by decide) (by decide)), countRestart,
      flag_of_getF (getF_setF_misses _ _ _ _ (by decide) (by decide)),
      flag_of_getF (getF_reportSpared _ _ _ (by decide) (by decide))]
    exact flag_setF_bit _ F.csSyncStatusLastRefused held (by decide) rfl
  · have hoff : (disarmSync every s).flag F.csSyncCtrlSyncArm = false := by
      rw [disarmSync, hm]
      exact flag_setF_bit s F.csSyncCtrlSyncArm false (by decide) rfl
    rw [flag_of_getF (getF_reportRestart s every held last _ (by decide) (by decide)), countRestart,
      flag_of_getF (getF_setF_misses _ _ _ _ (by decide) (by decide)),
      flag_of_getF (getF_reportSpared _ _ _ (by decide) (by decide)), showMoved,
      flag_of_getF (getF_setF_misses _ _ _ _ (by decide) (by decide)),
      flag_of_getF (getF_setF_misses _ _ _ _ (by decide) (by decide)), hoff]

/-- The instant of a restart has come, and it is no longer due. -/
def reachRestart (due : Nat) (rest : List Nat) (s : State) : State :=
  advanceTo (s.now + (due - s.elapsed)) (modClk (fun c => { c with syncDue := rest }) s)

@[simp] theorem reachRestart_regs (due : Nat) (rest : List Nat) : (reachRestart due rest s).regs = s.regs :=
  advanceTo_regs _ _

@[simp] theorem reachRestart_syncDue (due : Nat) (rest : List Nat) : (reachRestart due rest s).clk.syncDue = rest := by
  rw [reachRestart, advanceTo_clk]
  rfl

theorem execSyncRestart_idle (moved : BitVec 6) (d : Int)
    (h : s.clk.syncDue = [] ∨ s.flag F.csStatusOutputsGated = true) : execSyncRestart moved d s = .next s := by
  unfold execSyncRestart
  split
  · rfl
  next hd =>
    have hg : s.flag F.csStatusOutputsGated = true := h.resolve_left (by simp [hd])
    rw [if_pos hg, done_self]

/-- A restart that is due comes; without SYNC_ARM in mode ONCE nothing restarts (R49). -/
theorem execSyncRestart_due (moved : BitVec 6) (d : Int) {due : Nat} {r : List Nat} (h : s.clk.syncDue = due :: r)
    (hg : s.flag F.csStatusOutputsGated = false) : execSyncRestart moved d s =
      if s.flag F.csSyncCtrlSyncMode = false ∧ s.flag F.csSyncCtrlSyncArm = false then done s (reachRestart due r s)
      else
        let outs := s.restarting s.captureHeld
        let last := lastMoved moved outs
        let u := reportRestart (s.flag F.csSyncCtrlSyncMode) s.captureHeld last
          (recordPhases due last outs s.clk.soBase (reachRestart due r s))
        if last.testBit 2 then done s (event F.timeEventsPhaseAdj 0x080D (twos 16 d * 2 ^ 16) u) else done s u := by
  have hrun : ¬ s.flag F.csStatusOutputsGated = true := by simp [hg]
  unfold execSyncRestart
  rw [h]
  exact if_neg hrun

/-- A move of CORE is reported (R101). -/
def reportCoreMove (d : Int) (last : Nat) (s : State) : State :=
  if last.testBit 2 then event F.timeEventsPhaseAdj 0x080D (twos 16 d * 2 ^ 16) s else s

theorem getF_reportCoreMove (d : Int) (last : Nat) (x : Fld) (h : reportOff (x.reg.key % 0x100000) = false)
    (hx : x.misses F.timeEventsPhaseAdj) : (reportCoreMove d last s).getF x = s.getF x := by
  unfold reportCoreMove
  split
  · rw [getF_event _ _ _ _ _ h, getF_setF_misses _ _ _ _ (by decide) hx]
  · rfl

@[simp] theorem reportCoreMove_clk (d : Int) (last : Nat) : (reportCoreMove d last s).clk = s.clk := by
  unfold reportCoreMove
  split
  · exact event_clk s _ _ _
  · rfl

/-- A restart that comes in mode EVERY or armed: what it records, then what it shows (R49 to R51). -/
theorem execSyncRestart_restarts (moved : BitVec 6) (d : Int) {due : Nat} {r : List Nat} (h : s.clk.syncDue = due :: r)
    (hg : s.flag F.csStatusOutputsGated = false)
    (ha : s.flag F.csSyncCtrlSyncMode = true ∨ s.flag F.csSyncCtrlSyncArm = true) : ∃ last v,
      execSyncRestart moved d s = done s (reportCoreMove d last
        (reportRestart (s.flag F.csSyncCtrlSyncMode) s.captureHeld last v)) ∧
      v.regs = s.regs ∧ v.clk.syncDue = r := by
  have hno : ¬ (s.flag F.csSyncCtrlSyncMode = false ∧ s.flag F.csSyncCtrlSyncArm = false) := by
    rintro ⟨hm, harm⟩
    simp [hm, harm] at ha
  refine ⟨lastMoved moved (s.restarting s.captureHeld), recordPhases due
    (lastMoved moved (s.restarting s.captureHeld)) (s.restarting s.captureHeld) s.clk.soBase (reachRestart due r s), ?_,
    by rw [recordPhases_regs, reachRestart_regs], by rw [recordPhases_syncDue, reachRestart_syncDue]⟩
  rw [execSyncRestart_due s moved d h hg, if_neg hno, reportCoreMove]
  split
  next hb => exact if_pos hb
  next hb => exact if_neg hb

/-- The fields that a restart shows, and the list of restarts to come. -/
theorem execSyncRestart_shows (moved : BitVec 6) (d : Int) {due : Nat} {r : List Nat} (h : s.clk.syncDue = due :: r)
    (hg : s.flag F.csStatusOutputsGated = false)
    (ha : s.flag F.csSyncCtrlSyncMode = true ∨ s.flag F.csSyncCtrlSyncArm = true) :
    ∃ t, execSyncRestart moved d s = .next t ∧ t.clk.syncDue = r ∧
      t.getF F.csSyncStatusSyncAppliedCount = (s.getF F.csSyncStatusSyncAppliedCount + 1) % 65536 ∧
      t.flag F.csSyncStatusLastRefused = s.captureHeld ∧
      (s.flag F.csSyncCtrlSyncMode = false → t.flag F.csSyncCtrlSyncArm = false) := by
  obtain ⟨last, v, hexec, hregs, hdue⟩ := execSyncRestart_restarts s moved d h hg ha
  obtain ⟨hcount, href, harm⟩ := reportRestart_shows v (s.flag F.csSyncCtrlSyncMode) s.captureHeld last
  have hclk := reportRestart_clk v (s.flag F.csSyncCtrlSyncMode) s.captureHeld last
  rw [hexec]
  generalize reportRestart (s.flag F.csSyncCtrlSyncMode) s.captureHeld last v = u at hclk hcount href harm ⊢
  have hclk' : (reportCoreMove d last u).clk = v.clk := (reportCoreMove_clk u d last).trans hclk
  have hx : ∀ x : Fld, reportOff (x.reg.key % 0x100000) = false → x.misses F.timeEventsPhaseAdj →
      (reportCoreMove d last u).getF x = u.getF x := fun x => getF_reportCoreMove u d last x
  generalize reportCoreMove d last u = t at hclk' hx ⊢
  refine ⟨_, rfl, (congrArg Clocks.syncDue hclk').trans hdue, ?_, ?_, fun hm => ?_⟩
  · refine (hx F.csSyncStatusSyncAppliedCount (by decide) (by decide)).trans ?_
    rw [hcount, getF_congr hregs]
  · exact (flag_of_getF (hx F.csSyncStatusLastRefused (by decide) (by decide))).trans href
  · exact (flag_of_getF (hx F.csSyncCtrlSyncArm (by decide) (by decide))).trans
      (harm hm)

/-! ### SYNC_OUT (R52) -/

@[simp] theorem advanceTo_out (t : Label) : (advanceTo t s).out = s.out := by
  unfold advanceTo
  split <;> rfl

/-- The period of an output is in its registers. -/
theorem outPeriod_congr {s t : State} (h : t.regs = s.regs) (n : Nat) : t.outPeriod n = s.outPeriod n := by
  unfold State.outPeriod State.flag State.getF State.rd
  rw [h]

theorem outPeriod_advanceTo (t : Label) (n : Nat) : (advanceTo t s).outPeriod n = s.outPeriod n :=
  outPeriod_congr (advanceTo_regs s t) n

theorem execSyncOutPulse_pulse (t : Label) {per : Nat} (hp : s.outPeriod 5 = some per)
    (hd : (advanceTo t s).syncOutDue per = true) : execSyncOutPulse t s =
      done s (emit (.syncOut t (s.getF F.csSyncoutCtrlSoWidth) ((advanceTo t s).outDelay 5))
        (modClk (fun c => { c with soFire := 0, soAt := (advanceTo t s).elapsed + 1 }) (advanceTo t s))) := by
  simp [execSyncOutPulse, outPeriod_advanceTo, hp, hd]

theorem execSyncOutPulse_none (t : Label)
    (h : ∀ per, s.outPeriod 5 = some per → (advanceTo t s).syncOutDue per = false) :
    execSyncOutPulse t s = done s (advanceTo t s) := by
  unfold execSyncOutPulse
  dsimp only
  rw [outPeriod_advanceTo]
  split
  · rfl
  next per hp => rw [if_pos (h per hp)]

theorem execSoFire_carriesOut {f : FnId} (h : s.carriesOut f 0x9028 = true) :
    execSoFire f s = done s (soFireWrite s) := bar0_acts h _ _

theorem soFireWrite_regs : (soFireWrite s).regs = s.regs := by
  unfold soFireWrite
  split <;> rfl

theorem soFireWrite_soFire : (soFireWrite s).clk.soFire =
    if s.getF F.csSyncoutCtrlSoMode = 3 then s.elapsed + 1 else s.clk.soFire := by
  unfold soFireWrite
  split <;> rfl

/-- Settles O20: the edge by whether it is taken, the restart by whether it is due and armed, the pulse by whether its
mode gives it. -/
theorem syncInAndOut : Obligations.SyncInAndOut := by
  refine ⟨fun u s => ?_, fun moved d s h => execSyncRestart_idle s moved d h, fun moved d due r s h hg => ?_,
    fun f s h => ?_, fun u per s hp hd => ?_, fun u s h => execSyncOutPulse_none s u h⟩
  · by_cases h : s.takesSyncIn
    · refine ⟨_, execSyncInEdge_taken s u h, rfl, fun _ _ _ _ _ _ => rfl, fun hno => absurd h ?_⟩
      rw [takesSyncIn_iff, not_not]
      tauto
    · exact ⟨s, execSyncInEdge_dropped s u h, rfl,
        fun h1 h2 h3 h4 h5 h6 => absurd ⟨h1, h2, h3, h4, h5, h6⟩ h, fun _ => rfl⟩
  · by_cases ha : s.flag F.csSyncCtrlSyncMode = true ∨ s.flag F.csSyncCtrlSyncArm = true
    · obtain ⟨t, hexec, hdue, hcount, href, harm⟩ := execSyncRestart_shows s moved d h hg ha
      refine ⟨t, hexec, hdue, fun _ => ⟨hcount, href, harm⟩, fun hm hs => ?_⟩
      simp [hm, hs] at ha
    · obtain ⟨hm, hs⟩ : s.flag F.csSyncCtrlSyncMode = false ∧ s.flag F.csSyncCtrlSyncArm = false := by
        simpa [not_or] using ha
      exact ⟨_, (execSyncRestart_due s moved d h hg).trans (if_pos ⟨hm, hs⟩), reachRestart_syncDue s due r,
        fun h => absurd h ha, fun _ _ => reachRestart_regs s due r⟩
  · exact ⟨_, execSoFire_carriesOut s h, soFireWrite_regs s, soFireWrite_soFire s⟩
  · refine ⟨_, execSyncOutPulse_pulse s u hp hd, ?_, rfl, ?_⟩
    · exact congrArg _ (advanceTo_out s u)
    · exact advanceTo_regs s u

end Sys2Proof.Machine
end

section
/-! Proofs: the Karing time code and second boundaries (KTC_FRAME, SECOND_BOUNDARY; R32, R90, R91). -/

namespace Sys2Proof.Machine

variable (s : State)

/-! ### The frame CRC (R90) -/

/-- One bit of the rule: the register shifts up, and takes the polynomial where the bit that leaves it differs from bit
`7 - k` of the byte. -/
def crcTakeBit (b : Byte) (c : BitVec 16) (k : Nat) : BitVec 16 :=
  (c <<< 1) ^^^ (if c.getLsbD 15 ≠ b.getLsbD (7 - k) then 0x1021 else 0)

theorem karingBit_eq (c : BitVec 16) : karingBit c = (c <<< 1) ^^^ (if c.getLsbD 15 then 0x1021 else 0) := by
  unfold karingBit
  split <;> simp

/-- The bits of the byte that are still to come stand at the top of the model's register, so that the bit that leaves it
is the difference of which the rule speaks. -/
theorem karingBit_xor_rest (b : Byte) (c : BitVec 16) {k : Nat} (hk : k < 8) :
    karingBit (c ^^^ (b.setWidth 16 <<< (8 + k))) = crcTakeBit b c k ^^^ (b.setWidth 16 <<< (8 + (k + 1))) := by
  have htop : (c ^^^ (b.setWidth 16 <<< (8 + k))).getLsbD 15 = (c.getLsbD 15 ^^ b.getLsbD (7 - k)) := by
    have hge : ¬ 15 < 8 + k := by omega
    have hsub : 15 - (8 + k) = 7 - k := by omega
    simp [hge, hsub]
  rw [karingBit_eq, htop, BitVec.shiftLeft_xor_distrib, ← BitVec.shiftLeft_add, crcTakeBit, ← Nat.add_assoc,
    BitVec.xor_assoc, BitVec.xor_assoc, BitVec.xor_comm (b.setWidth 16 <<< (8 + k + 1))]
  cases c.getLsbD 15 <;> cases b.getLsbD (7 - k) <;> rfl

/-- After `n` bits the model's register is the rule's, with the rest of the byte added at its top. -/
theorem karingBit_iterate (b : Byte) (c : BitVec 16) {n : Nat} (hn : n ≤ 8) :
    karingBit^[n] (c ^^^ (b.setWidth 16 <<< 8)) =
      (List.range n).foldl (crcTakeBit b) c ^^^ (b.setWidth 16 <<< (8 + n)) := by
  induction n with
  | zero => rfl
  | succ n ih =>
    rw [Function.iterate_succ_apply', ih (by omega), karingBit_xor_rest b _ (by omega), List.range_succ,
      List.foldl_append]
    rfl

theorem karingByte_eq_foldl (c : BitVec 16) (b : Byte) : karingByte c b = (List.range 8).foldl (crcTakeBit b) c := by
  have hout : b.setWidth 16 <<< (8 + 8) = 0#16 := BitVec.shiftLeft_eq_zero le_rfl
  have h := karingBit_iterate b c (le_refl 8)
  rw [hout, BitVec.xor_zero] at h
  exact h

/-- The check value of the rule. -/
theorem karingCrc_digits : karingCrc [0x31, 0x32, 0x33, 0x34, 0x35, 0x36, 0x37, 0x38, 0x39] = 0x29B1 := by
  simp [karingCrc, karingByte, karingBit]

/-- Settles O23: the model takes a byte into the register at once and shifts it out, which is the rule bit by bit. -/
theorem karingCrcIsTheRules : Obligations.KaringCrcIsTheRules := by
  refine ⟨fun bs => ?_, karingCrc_digits⟩
  have hbyte : karingByte = fun c b => (List.range 8).foldl (crcTakeBit b) c :=
    funext fun c => funext fun b => karingByte_eq_foldl c b
  rw [karingCrc, hbyte]
  rfl

/-! ### Bad frames (R91) -/

theorem rd_eventOpen (b : Fld) (r : Reg) (code : Nat) (h : reportOff (r.key % 0x100000) = false)
    (hb : r.key ≠ b.reg.key) : (eventOpen b code s).rd r = s.rd r := by
  rw [eventOpen, rd_postOpen _ _ _ h, rd_setF_ne s b r 1 hb]

/-- A frame whose delimiter, length or CRC fails (R90, R91). -/
theorem execKtcFrame_bad (t : Label) {frame : List Byte} {ok : Bool}
    (h : ok = false ∨ frame.length ≠ 11 ∨ leAt frame 9 2 ≠ (karingCrc (frame.take 9)).toNat) :
    execKtcFrame t frame ok s = done s (karingBad (advanceTo t s)) := by
  refine if_pos (h.imp_right fun hf => ?_)
  rw [Bool.and_eq_false_iff, decide_eq_false_iff_not, beq_eq_false_iff_ne]
  exact hf

theorem flag_karingBad : (karingBad s).flag F.timeEventsKtcBad = true :=
  flag_eventOpen_timeEvents _ _ _ (by decide) (by decide)

theorem rd_karingBad : (karingBad s).rd .timeKtcStatus = s.rd .timeKtcStatus := by
  rw [karingBad, rd_eventOpen _ _ _ _ (by decide) (by decide), rd_bump _ _ _ _ (by decide)]

@[simp] theorem karingBad_cic : (karingBad s).cic = s.cic := by
  rw [karingBad, eventOpen_cic, bump_cic]

/-! ### Good frames (R90, R91) -/

theorem leNat_lt : ∀ bs : List Byte, leNat bs < 256 ^ bs.length
  | [] => by decide
  | b :: bs => by
    have hb := b.isLt
    have h := leNat_lt bs
    rw [leNat, List.length_cons, pow_succ']
    omega

theorem leAt_lt (bs : List Byte) (lo n : Nat) : leAt bs lo n < 256 ^ n :=
  (leNat_lt _).trans_le (Nat.pow_le_pow_right (by decide) (List.length_take_le n _))

/-- What TIME_KTC_STATUS shows of a frame. -/
def showFrame (frame : List Byte) (s : State) : State :=
  let b8 := leAt frame 8 1
  setF F.timeKtcStatusKtcVersion 1 (setF F.timeKtcStatusKtcHoldover (bitsOf b8 6 1)
    (setF F.timeKtcStatusKtcQuality (bitsOf b8 2 4) (setF F.timeKtcStatusLeap (b8 % 4)
      (setF F.timeKtcStatusEpoch (leAt frame 6 2) s))))

theorem ktcVersion_showFrame (frame : List Byte) : (showFrame frame s).getF F.timeKtcStatusKtcVersion = 1 :=
  getF_setF_same _ _ _ (by decide)

theorem leap_showFrame (frame : List Byte) : (showFrame frame s).getF F.timeKtcStatusLeap = leAt frame 8 1 % 4 := by
  rw [showFrame, getF_setF_misses _ _ _ _ (by decide) (by decide), getF_setF_misses _ _ _ _ (by decide) (by decide),
    getF_setF_misses _ _ _ _ (by decide) (by decide), getF_setF_same _ _ _ (by decide)]
  exact Nat.mod_mod _ 4

theorem epoch_showFrame {frame : List Byte} (h : leAt frame 6 2 < 65536) :
    (showFrame frame s).getF F.timeKtcStatusEpoch = leAt frame 6 2 := by
  rw [showFrame, getF_setF_misses _ _ _ _ (by decide) (by decide), getF_setF_misses _ _ _ _ (by decide) (by decide),
    getF_setF_misses _ _ _ _ (by decide) (by decide), getF_setF_misses _ _ _ _ (by decide) (by decide),
    getF_setF_same _ _ _ (by decide)]
  exact Nat.mod_eq_of_lt h

/-- The check of the announced second writes only what Cicada awaits of the code, and may report a mismatch. -/
theorem karingCheck_cases (n : Nat) (t : Label) : ∃ g : Cicada → Cicada, (∀ c, (g c).ktcNow = c.ktcNow) ∧
    (karingCheck n t s = modCic g s ∨
      karingCheck n t s = eventOpen F.timeEventsKtcMismatch 0x0808 (modCic g s)) := by
  unfold karingCheck
  split
  · exact ⟨id, fun _ => rfl, .inl rfl⟩
  split
  · exact ⟨fun c => { c with karingOk := true, karingWait := none }, fun _ => rfl, .inl rfl⟩
  extract_lets wait u
  split
  · exact ⟨fun c => { c with karingOk := false, karing := some n }, fun _ => rfl, .inl rfl⟩
  split
  · exact ⟨fun c => { c with karingOk := false, karing := some n, karingWait := none }, fun _ => rfl, .inl rfl⟩
  · exact ⟨fun c => { c with karingOk := false, karingWait := some ((n + 1) % 2 ^ 40), karingAge := 0 },
      fun _ => rfl, .inr rfl⟩

theorem rd_karingCheck (n : Nat) (t : Label) : (karingCheck n t s).rd .timeKtcStatus = s.rd .timeKtcStatus := by
  obtain ⟨g, -, h | h⟩ := karingCheck_cases s n t
  · rw [h]
    rfl
  · rw [h, rd_eventOpen _ _ _ _ (by decide) (by decide)]
    rfl

theorem ktcNow_karingCheck (n : Nat) (t : Label) : (karingCheck n t s).cic.ktcNow = s.cic.ktcNow := by
  obtain ⟨g, hg, h | h⟩ := karingCheck_cases s n t
  · rw [h]
    exact hg s.cic
  · rw [h, eventOpen_cic]
    exact hg s.cic

/-- A good frame that starts in its window is shown, and its second is checked (R90, R91). -/
theorem execKtcFrame_good (t : Label) {frame : List Byte} (hlen : frame.length = 11)
    (hcrc : leAt frame 9 2 = (karingCrc (frame.take 9)).toNat) (hver : leAt frame 0 1 = 1)
    (hlo : 51200000000 ≤ subsecOf t) (hhi : subsecOf t ≤ 460800000000) :
    ∃ u, execKtcFrame t frame true s = done s (karingCheck (leAt frame 1 5) t u) ∧ u.cic.ktcNow = true ∧
      u.rd .timeKtcStatus = (showFrame frame (bump 0x0013 1 (advanceTo t s))).rd .timeKtcStatus := by
  have hgood : ¬ (true = false ∨ (decide (frame.length = 11) &&
      leAt frame 9 2 == (karingCrc (frame.take 9)).toNat) = false) := by simp [hlen, hcrc]
  have htype : ¬ (leAt frame 0 1 / 16 ≠ 0 ∧ leAt frame 0 1 % 16 = 1) := by simp [hver]
  have hwindow : ¬ (leAt frame 0 1 % 16 ≠ 1 ∨
      (decide (51200000000 ≤ subsecOf t) && decide (subsecOf t ≤ 460800000000)) = false) := by simp [hver, hlo, hhi]
  have hpost : ∀ (c : Prop) [Decidable c] (code : Nat) (v : State),
      (if c then postOpen code v else v).rd .timeKtcStatus = v.rd .timeKtcStatus := by
    intro c _ code v
    split
    · exact rd_postOpen v _ code (by decide)
    · rfl
  unfold execKtcFrame
  extract_lets s1 payload sub inWindow crcOk b0 b8 epoch leap oldEpoch oldLeap s2 s3 s4 s5 s6 s7
  rw [if_neg hgood, if_neg htype, if_neg hwindow]
  have h5 : s5.rd .timeKtcStatus = s3.rd .timeKtcStatus := (hpost _ _ s4).trans (hpost _ _ s3)
  refine ⟨s7, rfl, ?_, ?_⟩
  · unfold s7
    split <;> rfl
  · refine Eq.trans ?_ h5
    unfold s7
    split
    · exact rd_setF_ne _ _ _ _ (by decide)
    · rfl

theorem execKtcFrame_good_shows (t : Label) {frame : List Byte} (hlen : frame.length = 11)
    (hcrc : leAt frame 9 2 = (karingCrc (frame.take 9)).toNat) (hver : leAt frame 0 1 = 1)
    (hlo : 51200000000 ≤ subsecOf t) (hhi : subsecOf t ≤ 460800000000) :
    ∃ u, execKtcFrame t frame true s = .next u ∧ u.getF F.timeKtcStatusKtcVersion = 1 ∧
      u.getF F.timeKtcStatusEpoch = leAt frame 6 2 ∧ u.getF F.timeKtcStatusLeap = leAt frame 8 1 % 4 ∧
      u.cic.ktcNow = true := by
  obtain ⟨u, hexec, hnow, hrd⟩ := execKtcFrame_good s t hlen hcrc hver hlo hhi
  have hnow' := (ktcNow_karingCheck u (leAt frame 1 5) t).trans hnow
  have hrd' := (rd_karingCheck u (leAt frame 1 5) t).trans hrd
  rw [hexec]
  generalize karingCheck (leAt frame 1 5) t u = v at hnow' hrd' ⊢
  have hx : ∀ lo w, v.getF ⟨.timeKtcStatus, lo, w⟩ =
      (showFrame frame (bump 0x0013 1 (advanceTo t s))).getF ⟨.timeKtcStatus, lo, w⟩ := fun lo w => congrArg _ hrd'
  exact ⟨_, rfl, (hx 24 4).trans (ktcVersion_showFrame _ frame),
    (hx 0 16).trans (epoch_showFrame _ (leAt_lt frame 6 2)), (hx 16 2).trans (leap_showFrame _ frame), hnow'⟩

/-! ### Second boundaries (R32) -/

/-- The present boundary is marked, and the keep-alive counter takes the main counter where CD13 has a clock. -/
def markBoundary (s : State) : State :=
  modCic (fun c => { c with boundaryAt := if s.now % ticksPerSecond = 0 then s.now + 1 else 0,
                            keepAlive := if s.noCore then c.keepAlive else s.now }) s

theorem execSecondBoundary_marks : ∃ u, execSecondBoundary s = done s (markBoundary u) := ⟨_, rfl⟩

theorem keepAlive_markBoundary (h : (markBoundary s).noCore = false) : (markBoundary s).cic.keepAlive = s.now :=
  if_neg (by rw [show s.noCore = false from h]; decide)

theorem boundaryAt_markBoundary (h : s.now % ticksPerSecond = 0) : (markBoundary s).cic.boundaryAt = s.now + 1 :=
  if_pos h

/-- Settles O22: a frame by whether it is good, a boundary by the mark with which it ends. -/
theorem karingFramesAndSecondBoundaries : Obligations.KaringFramesAndSecondBoundaries := by
  refine ⟨fun t frame s hlen hcrc hver hlo hhi => execKtcFrame_good_shows s t hlen hcrc hver hlo hhi,
    fun t frame ok s h => ⟨_, execKtcFrame_bad s t h, flag_karingBad _, ?_, ?_⟩, fun s => ?_⟩
  · exact (rd_karingBad _).trans (rd_congr (advanceTo_regs s t) _)
  · exact (karingBad_cic _).trans (advanceTo_cic s t)
  · obtain ⟨u, hexec⟩ := execSecondBoundary_marks s
    exact ⟨_, hexec, keepAlive_markBoundary u, boundaryAt_markBoundary u⟩

end Sys2Proof.Machine
end

section
/-! Proofs: PPS edges, the ends of PPS intervals, PPS_EN and the loads of SECONDS (PPS_EDGE, PPS_INTERVAL_END,
PPS_EN_WRITE, SET_REQ, TIME_SET; R80 to R84, R88, R330). -/

namespace Sys2Proof.Machine

variable (s : State)

@[simp] theorem advanceTo_live (x : Label) : (advanceTo x s).live = s.live := by
  unfold advanceTo
  split <;> rfl

/-! ### TIME_EVENTS keeps its bits through other events -/

section
variable {lo w : Nat} (h : Fld.misses ⟨.timeEvents, lo, w⟩ F.timeEventsCounterSat)
include h

theorem timeEvents_saturated (item : Nat) :
    (saturated item s).getF ⟨.timeEvents, lo, w⟩ = s.getF ⟨.timeEvents, lo, w⟩ :=
  (each_proj _ (State.getF · ⟨.timeEvents, lo, w⟩) _ 
    (fun f u => congrArg (Fld.get ⟨.timeEvents, lo, w⟩) (rd_timeEvents_enqueue u f _ _)) _).trans
    (getF_setF_misses s _ F.timeEventsCounterSat _ (by decide) h)

theorem timeEvents_postOpen (code : Nat) :
    (postOpen code s).getF ⟨.timeEvents, lo, w⟩ = s.getF ⟨.timeEvents, lo, w⟩ :=
  each_proj (spend s) (State.getF · ⟨.timeEvents, lo, w⟩) _ (fun f u => timeEvents_post u f _ _ lo w h) _

theorem timeEvents_eventOpen (b : Fld) (code : Nat) (hb : b.lo + b.width ≤ 32)
    (hm : Fld.misses ⟨.timeEvents, lo, w⟩ b) :
    (eventOpen b code s).getF ⟨.timeEvents, lo, w⟩ = s.getF ⟨.timeEvents, lo, w⟩ :=
  (timeEvents_postOpen _ h code).trans (getF_setF_misses s _ b 1 hb hm)

theorem timeEvents_stopInterval (code : Nat) :
    (stopInterval code s).getF ⟨.timeEvents, lo, w⟩ = s.getF ⟨.timeEvents, lo, w⟩ := by
  change (checkInterval code s).getF _ = _
  unfold checkInterval
  extract_lets v
  split
  · exact timeEvents_saturated _ h code
  · rfl

theorem timeEvents_retarget (j : Option Int) :
    (retarget j s).getF ⟨.timeEvents, lo, w⟩ = s.getF ⟨.timeEvents, lo, w⟩ := by
  have hlive : Reg.timeEvents.key ≠ Reg.csSteerLive.key := by decide
  have hevents : Reg.timeEvents.key ≠ Reg.csEvents.key := by decide
  unfold retarget
  extract_lets sum cut clipped from_ was s1 s2 s3
  have h2 : s2.getF ⟨.timeEvents, lo, w⟩ = s.getF ⟨.timeEvents, lo, w⟩ := by
    unfold s2
    split <;> rfl
  have h3 : s3.getF ⟨.timeEvents, lo, w⟩ = s.getF ⟨.timeEvents, lo, w⟩ :=
    (getF_setF_misses s2 ⟨.timeEvents, lo, w⟩ F.csSteerLiveSteerLive _ (by decide) (.inl hlive)).trans h2
  split
  · exact (timeEvents_eventOpen s3 h F.csEventsSteerClamped _ (by decide) (.inl hevents)).trans h3
  · exact h3

end

/-! ### What Cicada holds of the present PPS interval (R82) -/

/-- The edges of the present interval, and the last accepted edge of all. -/
def Cicada.edges (c : Cicada) : Bool × Bool × List Int × Label := (c.accepted, c.measured, c.outliers, c.lastPps)

theorem Cicada.accepted_of_edges {c d : Cicada} (h : c.edges = d.edges) : c.accepted = d.accepted := congrArg (·.1) h
theorem Cicada.measured_of_edges {c d : Cicada} (h : c.edges = d.edges) : c.measured = d.measured := congrArg (·.2.1) h

theorem edges_enterHoldover : (enterHoldover s).cic.edges = s.cic.edges := by
  unfold enterHoldover
  split
  · rfl
  · rw [eventOpen_cic]
    rfl

theorem edges_leaveHoldover : (leaveHoldover s).cic.edges = s.cic.edges := by
  unfold leaveHoldover
  split
  · rfl
  · rw [postOpen_cic, ((Quiet.refl _).stopInterval 0x0016).cic]
    rfl

theorem edges_steerBy (e : Int) : (steerBy e s).cic.edges = s.cic.edges := by
  rw [steerBy, retarget_cic]
  rfl

/-! ### Fields that holdover leaves (R80) -/

theorem timeEvents_enterHoldover {lo w : Nat} (h : Fld.misses ⟨.timeEvents, lo, w⟩ F.timeEventsCounterSat)
    (he : Fld.misses ⟨.timeEvents, lo, w⟩ F.timeEventsHoldoverEntered) :
    (enterHoldover s).getF ⟨.timeEvents, lo, w⟩ = s.getF ⟨.timeEvents, lo, w⟩ := by
  have hk : Reg.timeEvents.key ≠ Reg.timeStatus.key := by decide
  unfold enterHoldover
  split
  · rfl
  · rw [timeEvents_eventOpen _ h _ _ (by decide) he, getF_congr (startInterval_regs _ _)]
    exact getF_setF_ne s F.timeStatusHoldover _ _ hk

theorem getF_leaveHoldover (x : Fld) (h : reportOff (x.reg.key % 0x100000) = false)
    (hx : x.misses F.timeStatusHoldover) : (leaveHoldover s).getF x = s.getF x := by
  unfold leaveHoldover
  split
  · rfl
  · rw [getF_postOpen _ _ _ h, ((Quiet.refl _).stopInterval 0x0016).getF x h]
    exact getF_setF_misses s x F.timeStatusHoldover _ (by decide) hx

theorem timeEvents_leaveHoldover {lo w : Nat} (h : Fld.misses ⟨.timeEvents, lo, w⟩ F.timeEventsCounterSat) :
    (leaveHoldover s).getF ⟨.timeEvents, lo, w⟩ = s.getF ⟨.timeEvents, lo, w⟩ := by
  have hk : Reg.timeEvents.key ≠ Reg.timeStatus.key := by decide
  unfold leaveHoldover
  split
  · rfl
  · rw [timeEvents_postOpen _ h, timeEvents_stopInterval _ h]
    exact getF_setF_ne s F.timeStatusHoldover _ _ hk

/-! ### An accepted edge (R82 to R84) -/

/-- What an accepted edge is, before what follows from it. -/
def countEdge (t : Label) (e : Int) (s : State) : State :=
  modCic (fun c => { c with everPps := true, accepted := true, measured := true, outliers := [],
                            lastErr := e, lastPps := t }) (showErr e s)

/-- The first accepted edge acquires PPS. -/
def acquirePps (first : Bool) (s : State) : State :=
  if first then eventOpen F.timeEventsPpsAcquired 0x0800 (setF F.timeStatusPpsAligned 1 s) else s

/-- An edge that finds the error back within 10 ticks is reported. -/
def reportReconverged (e prev : Int) (s : State) : State :=
  if e.natAbs ≤ 10 ∧ 10 < prev.natAbs then eventOpen F.timeEventsReconverged 0x0806 s else s

/-- An accepted edge ends holdover where the sample PLL has lock (R80). -/
def endHoldover (s : State) : State := if s.flag F.csStatusSpllLocked then leaveHoldover s else s

/-- An error is removed by a step, where no step is pending and the policy steps for it, or by steering (R83, R84,
R86). -/
def removeErr (idle : Bool) (e : Int) (s : State) : State :=
  if idle && s.policySteps e then
    setF F.timeStatusStepPending 1
      (modCic (fun c => { c with step := some (stepFor e, s.elapsed + 1280), residual := some (e + stepFor e) }) s)
  else steerBy e (modCic (fun c => { c with residual := none }) s)

/-- An edge is accepted in five parts; a pending step counts in its error (R84). -/
theorem acceptEdge_eq (t : Label) (e : Int) : ∃ idle first e' prev,
    acceptEdge t e s =
      removeErr idle e' (endHoldover (reportReconverged e' prev (acquirePps first (countEdge t e' s)))) :=
  ⟨_, _, _, _, rfl⟩

theorem acquirePps_cic (first : Bool) : (acquirePps first s).cic = s.cic := by
  unfold acquirePps
  split
  · rw [eventOpen_cic, setF_cic]
  · rfl

theorem reportReconverged_cic (e prev : Int) : (reportReconverged e prev s).cic = s.cic := by
  unfold reportReconverged
  split
  · exact eventOpen_cic s _ _
  · rfl

theorem edges_endHoldover : (endHoldover s).cic.edges = s.cic.edges := by
  unfold endHoldover
  split
  · exact edges_leaveHoldover s
  · rfl

theorem edges_removeErr (idle : Bool) (e : Int) : (removeErr idle e s).cic.edges = s.cic.edges := by
  unfold removeErr
  split
  · rfl
  · rw [edges_steerBy]
    rfl

theorem edges_acceptEdge (t : Label) (e : Int) : (acceptEdge t e s).cic.edges = (true, true, [], t) := by
  obtain ⟨idle, first, e', prev, h⟩ := acceptEdge_eq s t e
  rw [h, edges_removeErr, edges_endHoldover, reportReconverged_cic, acquirePps_cic]
  rfl

theorem acceptEdge_shows (t : Label) (e : Int) : (acceptEdge t e s).cic.accepted = true ∧
    (acceptEdge t e s).cic.measured = true ∧ (acceptEdge t e s).cic.outliers = [] ∧
    (acceptEdge t e s).cic.lastPps = t := by
  have h := edges_acceptEdge s t e
  simpa only [Cicada.edges, Prod.mk.injEq] using h

/-! PPS_OUTLIER is none of the bits that an accepted edge sets. -/

theorem outlier_misses_counterSat : Fld.misses F.timeEventsPpsOutlier F.timeEventsCounterSat := by decide

theorem outlier_acquirePps (first : Bool) :
    (acquirePps first s).getF F.timeEventsPpsOutlier = s.getF F.timeEventsPpsOutlier := by
  unfold acquirePps
  split
  · rw [timeEvents_eventOpen _ outlier_misses_counterSat _ _ (by decide) (by decide),
      getF_setF_misses _ _ _ _ (by decide) (by decide)]
  · rfl

theorem outlier_reportReconverged (e prev : Int) :
    (reportReconverged e prev s).getF F.timeEventsPpsOutlier = s.getF F.timeEventsPpsOutlier := by
  unfold reportReconverged
  split
  · exact timeEvents_eventOpen s outlier_misses_counterSat _ _ (by decide) (by decide)
  · rfl

theorem outlier_endHoldover : (endHoldover s).getF F.timeEventsPpsOutlier = s.getF F.timeEventsPpsOutlier := by
  unfold endHoldover
  split
  · exact timeEvents_leaveHoldover s outlier_misses_counterSat
  · rfl

theorem outlier_removeErr (idle : Bool) (e : Int) :
    (removeErr idle e s).getF F.timeEventsPpsOutlier = s.getF F.timeEventsPpsOutlier := by
  unfold removeErr
  split
  · exact getF_setF_misses _ _ _ _ (by decide) (by decide)
  · rw [steerBy, timeEvents_retarget _ outlier_misses_counterSat]
    rfl

theorem outlier_acceptEdge (t : Label) (e : Int) :
    (acceptEdge t e s).getF F.timeEventsPpsOutlier = s.getF F.timeEventsPpsOutlier := by
  obtain ⟨idle, first, e', prev, h⟩ := acceptEdge_eq s t e
  have hcount : (countEdge t e' s).getF F.timeEventsPpsOutlier = s.getF F.timeEventsPpsOutlier :=
    getF_setF_ne s F.timeLastErrLastErr _ _ (by decide)
  rw [h, outlier_removeErr, outlier_endHoldover, outlier_reportReconverged, outlier_acquirePps, hcount]

theorem flag_ppsOutlier : (ppsOutlier s).flag F.timeEventsPpsOutlier = true :=
  flag_eventOpen_timeEvents _ _ _ (by decide) (by decide)

@[simp] theorem ppsOutlier_cic : (ppsOutlier s).cic = s.cic := by
  rw [ppsOutlier, eventOpen_cic, bump_cic]

/-! ### PPS_EDGE (R81, R82) -/

/-- An edge is measured: it is counted, and its error shown (R81). -/
def measureEdge (t : Label) (s : State) : State :=
  modCic (fun c => { c with measured := true }) (showErr (s.ppsError t) (bump 0x0010 1 (advanceTo t s)))

/-- An edge that is in the window, or that may be the first one (R82). -/
def State.nearEdge (s : State) (t : Label) : Prop :=
  s.flag F.timeStatusPpsAligned = false ∨ (s.ppsError t).natAbs ≤ s.getF F.timePpsCfgPpsWindow

theorem measureEdge_cic (t : Label) : (measureEdge t s).cic = { s.cic with measured := true } := by
  rw [measureEdge, modCic_cic, showErr, setF_cic, bump_cic, advanceTo_cic]

/-- An edge outside the window is an outlier; `run` are the last outliers near one another (R82). -/
def farEdge (run : List Int) (t : Label) (s : State) : State :=
  modCic (fun c => { c with outliers := run }) (ppsOutlier (measureEdge t s))

theorem flag_farEdge (run : List Int) (t : Label) : (farEdge run t s).flag F.timeEventsPpsOutlier = true := by
  rw [farEdge, flag_congr (modCic_regs _ _), flag_ppsOutlier]

theorem measured_farEdge (run : List Int) (t : Label) : (farEdge run t s).cic.measured = true := by
  rw [farEdge, modCic_cic, ppsOutlier_cic, measureEdge_cic]

theorem aligned_measureEdge (t : Label) :
    (measureEdge t s).flag F.timeStatusPpsAligned = s.flag F.timeStatusPpsAligned := by
  refine flag_of_getF ?_
  calc (measureEdge t s).getF F.timeStatusPpsAligned
      = (bump 0x0010 1 (advanceTo t s)).getF F.timeStatusPpsAligned :=
        getF_setF_misses _ F.timeStatusPpsAligned F.timeLastErrLastErr _ (by decide) (by decide)
    _ = (advanceTo t s).getF F.timeStatusPpsAligned := getF_bump _ _ _ _ (by decide)
    _ = s.getF F.timeStatusPpsAligned := getF_congr (advanceTo_regs s t) _

/-- The error of an edge depends on the cable delay in effect alone. -/
theorem ppsError_advanceTo (t : Label) : (advanceTo t s).ppsError t = s.ppsError t := by
  unfold State.ppsError State.cableDelay State.getL State.rdLive
  rw [advanceTo_live]

theorem polarity_iff (n : Nat) (rising : Bool) : ((n == 0) ≠ rising) ↔ ¬ (rising = true ↔ n = 0) := by
  cases rising <;> simp

/-- An edge that is not measured: PPS_EN is 0, the outputs are gated, or it has the other polarity (R82). -/
theorem execPpsEdge_unmeasured (t : Label) {rising : Bool} (h : s.flag F.timeCtrlPpsEn = false ∨
    s.flag F.csStatusOutputsGated = true ∨ ¬ (rising = true ↔ s.getF F.timeCtrlPpsEdge = 0)) :
    execPpsEdge t rising s = done s (advanceTo t s) := by
  refine if_pos ?_
  rw [flag_congr (advanceTo_regs s t), flag_congr (advanceTo_regs s t), getF_congr (advanceTo_regs s t), polarity_iff]
  exact h

section
variable {rising : Bool} (hen : s.flag F.timeCtrlPpsEn = true) (hg : s.flag F.csStatusOutputsGated = false)
  (hpol : rising = true ↔ s.getF F.timeCtrlPpsEdge = 0)
include hen hg hpol

/-- A measured edge is a second one of its interval; or near, and accepted; or an outlier, accepted where it ends a run
of outliers near one another (R82). -/
theorem execPpsEdge_measured (t : Label) :
    (s.cic.accepted = true ∧ execPpsEdge t rising s = done s (ppsOutlier (measureEdge t s))) ∨
    (s.cic.accepted = false ∧ s.nearEdge t ∧
      execPpsEdge t rising s = done s (acceptEdge t (s.ppsError t) (measureEdge t s))) ∨
    (¬ s.nearEdge t ∧ ∃ run, execPpsEdge t rising s = done s (acceptEdge t (s.ppsError t) (farEdge run t s)) ∨
      execPpsEdge t rising s = done s (farEdge run t s)) := by
  have hmeasured : ¬ ((advanceTo t s).flag F.timeCtrlPpsEn = false ∨
      (advanceTo t s).flag F.csStatusOutputsGated = true ∨
      ((advanceTo t s).getF F.timeCtrlPpsEdge == 0) ≠ rising) := by
    rw [flag_congr (advanceTo_regs s t), flag_congr (advanceTo_regs s t), getF_congr (advanceTo_regs s t),
      polarity_iff]
    simp [hen, hg, hpol]
  have hacc : (measureEdge t s).cic.accepted = s.cic.accepted :=
    (congrArg Cicada.accepted (measureEdge_cic s t) :)
  unfold execPpsEdge
  extract_lets s1 e w u run out
  rw [if_neg hmeasured]
  have he : e = s.ppsError t := ppsError_advanceTo s t
  have hw : w = s.getF F.timePpsCfgPpsWindow := getF_congr (advanceTo_regs s t) _
  have hu : u = measureEdge t s := by rw [measureEdge, ← he]
  have hout : out = farEdge run t s := by rw [farEdge, ← hu]
  clear_value run out u w e
  subst he hw hu hout
  rw [hacc, aligned_measureEdge]
  split
  next ha => exact .inl ⟨ha, rfl⟩
  next ha =>
    split
    next hn => exact .inr (.inl ⟨Bool.eq_false_of_not_eq_true ha, hn, rfl⟩)
    next hn =>
      refine .inr (.inr ⟨hn, run, ?_⟩)
      split
      · exact .inl rfl
      · exact .inr rfl

/-- What a measured edge shows. -/
theorem execPpsEdge_shows (t : Label) : ∃ u, execPpsEdge t rising s = .next u ∧ u.cic.measured = true ∧
    (s.cic.accepted = false → s.nearEdge t → u.cic.accepted = true ∧ u.cic.lastPps = t ∧ u.cic.outliers = []) ∧
    (s.cic.accepted = true ∨ ¬ s.nearEdge t → u.flag F.timeEventsPpsOutlier = true) := by
  obtain ⟨ha, h⟩ | ⟨ha, hn, h⟩ | ⟨hn, run, h | h⟩ := execPpsEdge_measured s hen hg hpol t
  · have hcic := (ppsOutlier_cic (measureEdge t s)).trans (measureEdge_cic s t)
    have hflag := flag_ppsOutlier (measureEdge t s)
    generalize ppsOutlier (measureEdge t s) = u at h hcic hflag
    refine ⟨_, h, (congrArg Cicada.measured hcic :), fun hno => ?_, fun _ => hflag⟩
    simp [ha] at hno
  · obtain ⟨hacc, hmeas, hout, hlast⟩ := acceptEdge_shows (measureEdge t s) t (s.ppsError t)
    generalize acceptEdge t (s.ppsError t) (measureEdge t s) = u at h hacc hmeas hout hlast
    exact ⟨_, h, hmeas, fun _ _ => ⟨hacc, hlast, hout⟩, fun hno => absurd hn (hno.resolve_left (by simp [ha]))⟩
  · obtain ⟨-, hmeas, -, -⟩ := acceptEdge_shows (farEdge run t s) t (s.ppsError t)
    have hflag := (flag_of_getF (outlier_acceptEdge (farEdge run t s) t (s.ppsError t))).trans (flag_farEdge s run t)
    generalize acceptEdge t (s.ppsError t) (farEdge run t s) = u at h hmeas hflag
    exact ⟨_, h, hmeas, fun _ hn' => absurd hn' hn, fun _ => hflag⟩
  · have hmeas := measured_farEdge s run t
    have hflag := flag_farEdge s run t
    generalize farEdge run t s = u at h hmeas hflag
    exact ⟨_, h, hmeas, fun _ hn' => absurd hn' hn, fun _ => hflag⟩

end

/-! ### PPS_INTERVAL_END (R80, R82) -/

/-- The next interval begins at `x`, with no edge. -/
def beginPpsInterval (x : Label) (s : State) : State :=
  modCic (fun c => { c with accepted := false, measured := false }) (advanceTo x s)

/-- A missing edge is reported, and an aligned PPS goes into holdover (R80, R82). -/
def missEdge (s : State) : State :=
  let u := eventOpen F.timeEventsPpsMissing 0x0801 (bump 0x0011 1 s)
  if u.flag F.timeStatusPpsAligned then enterHoldover u else u

theorem edges_missEdge : (missEdge s).cic.edges = s.cic.edges := by
  have hcic : (eventOpen F.timeEventsPpsMissing 0x0801 (bump 0x0011 1 s)).cic = s.cic := by
    rw [eventOpen_cic, bump_cic]
  unfold missEdge
  extract_lets u
  split
  · rw [edges_enterHoldover, hcic]
  · rw [hcic]

theorem flag_missEdge : (missEdge s).flag F.timeEventsPpsMissing = true := by
  have hflag : (eventOpen F.timeEventsPpsMissing 0x0801 (bump 0x0011 1 s)).flag F.timeEventsPpsMissing = true :=
    flag_eventOpen_timeEvents _ _ _ (by decide) (by decide)
  unfold missEdge
  extract_lets u
  split
  · exact (flag_of_getF (timeEvents_enterHoldover u (by decide) (by decide))).trans hflag
  · exact hflag

theorem execPpsIntervalEnd_quiet (h : s.flag F.timeCtrlPpsEn = false ∨ s.cic.accepted = true) :
    ∃ x, execPpsIntervalEnd s = done s (beginPpsInterval x s) := by
  refine ⟨s.ppsEnd, ?_⟩
  unfold execPpsIntervalEnd
  generalize s.ppsEnd = x
  refine if_pos ?_
  rw [flag_congr (advanceTo_regs s x), advanceTo_cic]
  exact h

theorem execPpsIntervalEnd_missing (hen : s.flag F.timeCtrlPpsEn = true) (ha : s.cic.accepted = false) :
    ∃ x, execPpsIntervalEnd s = done s (if s.cic.measured then missEdge (beginPpsInterval x s)
      else setF F.timeStatusPpsAligned 0 (missEdge (beginPpsInterval x s))) := by
  refine ⟨s.ppsEnd, ?_⟩
  unfold execPpsIntervalEnd
  generalize s.ppsEnd = x
  have hno : ¬ ((advanceTo x s).flag F.timeCtrlPpsEn = false ∨ (advanceTo x s).cic.accepted = true) := by
    rw [flag_congr (advanceTo_regs s x), advanceTo_cic]
    simp [hen, ha]
  rw [← advanceTo_cic s x]
  exact if_neg hno

/-- What the end of a PPS interval shows. -/
theorem execPpsIntervalEnd_shows : ∃ u, execPpsIntervalEnd s = .next u ∧ u.cic.accepted = false ∧
    u.cic.measured = false ∧ (s.flag F.timeCtrlPpsEn = true → s.cic.accepted = false →
      u.flag F.timeEventsPpsMissing = true ∧ (s.cic.measured = false → u.flag F.timeStatusPpsAligned = false)) := by
  by_cases h : s.flag F.timeCtrlPpsEn = false ∨ s.cic.accepted = true
  · obtain ⟨x, hexec⟩ := execPpsIntervalEnd_quiet s h
    exact ⟨_, hexec, rfl, rfl, fun hen ha => by simp [hen, ha] at h⟩
  · obtain ⟨hen, ha⟩ : s.flag F.timeCtrlPpsEn = true ∧ s.cic.accepted = false := by simpa [not_or] using h
    obtain ⟨x, hexec⟩ := execPpsIntervalEnd_missing s hen ha
    have hflag := flag_missEdge (beginPpsInterval x s)
    have hacc : (missEdge (beginPpsInterval x s)).cic.accepted = false :=
      Cicada.accepted_of_edges (edges_missEdge (beginPpsInterval x s))
    have hmeas : (missEdge (beginPpsInterval x s)).cic.measured = false :=
      Cicada.measured_of_edges (edges_missEdge (beginPpsInterval x s))
    rw [hexec]
    generalize missEdge (beginPpsInterval x s) = u at hacc hmeas hflag ⊢
    split
    next hm => exact ⟨_, rfl, hacc, hmeas, fun _ _ => ⟨hflag, fun hm' => by simp [hm] at hm'⟩⟩
    next =>
      have hkept : (setF F.timeStatusPpsAligned 0 u).getF F.timeEventsPpsMissing = u.getF F.timeEventsPpsMissing :=
        getF_setF_misses u _ _ 0 (by decide) (by decide)
      have hclear : (setF F.timeStatusPpsAligned 0 u).flag F.timeStatusPpsAligned = false :=
        flag_setF_bit u F.timeStatusPpsAligned false (by decide) rfl
      exact ⟨_, rfl, hacc, hmeas, fun _ _ => ⟨(flag_of_getF hkept).trans hflag, fun _ => hclear⟩⟩

/-! ### PPS_EN_WRITE (R80, R82) -/

theorem ppsEn_ppsEnWrite (en : Bool) : (ppsEnWrite en s).flag F.timeCtrlPpsEn = en := by
  have hset : (setF F.timeCtrlPpsEn (bit en) s).flag F.timeCtrlPpsEn = en :=
    flag_setF_bit s F.timeCtrlPpsEn en (by decide) rfl
  unfold ppsEnWrite
  extract_lets s1 s2 s3
  have h3 : s3.flag F.timeCtrlPpsEn = en :=
    (flag_of_getF (getF_setF_misses s2 _ F.timeStatusPpsAligned 0 (by decide) (by decide))).trans hset
  split
  · exact hset
  split
  · exact h3
  · exact (flag_of_getF (getF_leaveHoldover s3 _ (by decide) (by decide))).trans h3

/-- PPS_EN 0 ends the alignment, and the present interval has no edge (R82). -/
theorem ppsEnWrite_off : (ppsEnWrite false s).flag F.timeStatusPpsAligned = false ∧
    (ppsEnWrite false s).cic.accepted = false := by
  unfold ppsEnWrite
  extract_lets s1 s2 s3
  have h3 : s3.flag F.timeStatusPpsAligned = false := flag_setF_bit s2 F.timeStatusPpsAligned false (by decide) rfl
  rw [if_neg (by decide)]
  split
  · exact ⟨h3, rfl⟩
  · exact ⟨(flag_of_getF (getF_leaveHoldover s3 _ (by decide) (by decide))).trans h3,
      Cicada.accepted_of_edges (edges_leaveHoldover s3)⟩

/-! ### Loads of SECONDS (R88, R330) -/

/-- A TIME_SET command that waits is superseded (R330). -/
def supersedeSet (s : State) : State :=
  match s.cic.setCmd with
  | some c => finish c 0x0D stSuperseded 0 0 s
  | none => s

theorem supersedeSet_quiet : Quiet s (supersedeSet s) := by
  unfold supersedeSet
  split
  · exact (Quiet.refl s).finish _ _ _ _ _
  · exact Quiet.refl s

theorem requestSet_cic (cmd : Option Cmd) : (requestSet cmd s).cic =
    { s.cic with setAt := some (s.setSeconds, s.elapsed + 1280), setCmd := cmd } := by
  have hq := supersedeSet_quiet s
  have hsec : (supersedeSet s).setSeconds = s.setSeconds := by
    rw [State.setSeconds, State.setSeconds, hq.getF _ (by decide), hq.getF _ (by decide)]
  change ({ (supersedeSet s).cic with
    setAt := some ((supersedeSet s).setSeconds, (supersedeSet s).elapsed + 1280), setCmd := cmd } : Cicada) = _
  rw [hsec, hq.elapsed, hq.cic]

theorem setPending_requestSet (cmd : Option Cmd) : (requestSet cmd s).flag F.timeStatusSetPending = true :=
  flag_setF_bit _ F.timeStatusSetPending true (by decide) rfl

/-- SECONDS written to TIME_SET_LO and TIME_SET_HI. -/
def writeSetSeconds (seconds : Nat) (s : State) : State :=
  setF F.timeSetHiSetSecondsHi (seconds / 2 ^ 32) (setF F.timeSetLoSetSecondsLo seconds s)

theorem setSeconds_writeSetSeconds {seconds : Nat} (h : seconds < 2 ^ 40) :
    (writeSetSeconds seconds s).setSeconds = seconds := by
  rw [State.setSeconds, writeSetSeconds, getF_setF_same _ F.timeSetHiSetSecondsHi _ (by decide),
    getF_setF_misses _ _ _ _ (by decide) (by decide), getF_setF_same _ F.timeSetLoSetSecondsLo _ (by decide)]
  simp only
  omega

theorem execTimeSet_pf (c : Cmd) {seconds : Nat} (hf : isPf c.fn = true) (h : seconds < 2 ^ 40) :
    execTimeSet c seconds s = done s (tryFetch c.fn c.pair (requestSet (some c) (writeSetSeconds seconds s))) := by
  rw [execTimeSet, if_neg (by simp [hf]), if_neg (Nat.not_le.mpr h)]
  rfl

theorem execTimeSet_vf (c : Cmd) (seconds : Nat) (hf : isPf c.fn = false) :
    execTimeSet c seconds s = done s (finish c 0x0D stNotOwner 0 0 s) := if_pos hf

/-- The load of SECONDS that a TIME_SET asks for is pending (R88, R330). -/
theorem execTimeSet_pf_shows (c : Cmd) {seconds : Nat} (hf : isPf c.fn = true) (h : seconds < 2 ^ 40) :
    ∃ u, execTimeSet c seconds s = .next u ∧ u.cic.setAt = some (seconds, s.elapsed + 1280) ∧
      u.cic.setCmd = some c ∧ u.flag F.timeStatusSetPending = true := by
  have hcic := requestSet_cic (writeSetSeconds seconds s) (some c)
  have hflag := setPending_requestSet (writeSetSeconds seconds s) (some c)
  rw [setSeconds_writeSetSeconds s h] at hcic
  rw [execTimeSet_pf s c hf h]
  generalize requestSet (some c) (writeSetSeconds seconds s) = v at hcic hflag ⊢
  have hcic' := (tryFetch_cic v c.fn c.pair).trans hcic
  exact ⟨_, rfl, (congrArg Cicada.setAt hcic' :), (congrArg Cicada.setCmd hcic' :),
    (flag_of_getF (getF_tryFetch v F.timeStatusSetPending c.fn c.pair (by decide))).trans hflag⟩

/-- Settles O21: an edge by whether it is measured, the end of an interval by whether one is missing, a load of SECONDS
by what its request leaves. -/
theorem ppsEdgesAndSecondsLoads : Obligations.PpsEdgesAndSecondsLoads := by
  refine ⟨fun t rising s hen hg hpol => execPpsEdge_shows s hen hg hpol t,
    fun t rising s h => execPpsEdge_unmeasured s t h, fun s => execPpsIntervalEnd_shows s,
    fun f en s h => ?_, fun f s h => ?_, fun c seconds s hf h => execTimeSet_pf_shows s c hf h,
    fun c seconds s hf hi => ⟨_, execTimeSet_vf s c seconds hf, finish_cic s c _ _ _ _, ?_⟩⟩
  · refine ⟨_, bar0_acts h _ _, ppsEn_ppsEnWrite s en, fun hoff => ?_⟩
    subst hoff
    exact ppsEnWrite_off s
  · exact ⟨_, bar0_acts h _ _, (congrArg Cicada.setAt (requestSet_cic s none) :), setPending_requestSet s none⟩
  · exact completed_finish c 0x0D stNotOwner 0 0 s hi

end Sys2Proof.Machine
end

section
/-! Proofs: the registers and the bank state of the front end: what its events leave, and the labels of state-clock and
TRIGIN edges (STCLK_EDGE, TRIGIN_EDGE; R119, R120, R179, R198, R202). -/

namespace Sys2Proof.Machine

variable (s : State)

/-! ### Registers of the front end -/

/-- The blocks from clock synthesis to the HBM stacks hold no register that reports write. -/
theorem reportOff_of_off {r : Reg} (hs : r.space = 256) (hlo : 0x9000 ≤ r.off) (hhi : r.off < 0x60000) :
    reportOff (r.key % 0x100000) = false := by
  have hoff : r.key % 0x100000 = r.off := by
    rw [Reg.key, hs]
    omega
  simp only [hoff, reportOff, Bool.or_eq_false_iff, Bool.and_eq_false_iff, beq_eq_false_iff_ne, decide_eq_false_iff_not]
  omega

theorem reportOff_feBankStatus (b : BankId) : reportOff ((Reg.feBankStatus b).key % 0x100000) = false :=
  reportOff_of_off rfl (by simp only [Reg.off]; omega) (by simp only [Reg.off]; omega)
theorem reportOff_feBankEvents (b : BankId) : reportOff ((Reg.feBankEvents b).key % 0x100000) = false :=
  reportOff_of_off rfl (by simp only [Reg.off]; omega) (by simp only [Reg.off]; omega)

/-- Two fields of one register with no bit in common. -/
theorem misses_of_bits {r : Reg} {lo w lo' w' : Nat} (h : lo + w ≤ lo' ∨ lo' + w' ≤ lo) :
    Fld.misses ⟨r, lo, w⟩ ⟨r, lo', w'⟩ := .inr ⟨rfl, h⟩

theorem flag_setF_one (r : Reg) {lo : Nat} (h : lo + 1 ≤ 32) : (setF ⟨r, lo, 1⟩ 1 s).flag ⟨r, lo, 1⟩ = true :=
  flag_setF_bit s ⟨r, lo, 1⟩ true h rfl
theorem flag_setF_zero (r : Reg) {lo : Nat} (h : lo + 1 ≤ 32) : (setF ⟨r, lo, 1⟩ 0 s).flag ⟨r, lo, 1⟩ = false :=
  flag_setF_bit s ⟨r, lo, 1⟩ false h rfl
theorem getF_setF_bits (r : Reg) {lo w v : Nat} (h : lo + w ≤ 32) (hv : v < 2 ^ w) :
    (setF ⟨r, lo, w⟩ v s).getF ⟨r, lo, w⟩ = v :=
  (getF_setF_same s ⟨r, lo, w⟩ v h).trans (Nat.mod_eq_of_lt hv)

theorem feBankStatus_key_ne_feBankEvents (b : Nat) : (Reg.feBankStatus b).key ≠ (Reg.feBankEvents b).key := by
  simp only [Reg.key, Reg.space, Reg.off]
  omega

/-! ### What depends on the registers alone -/

section
variable {s} {t : State} (h : t.regs = s.regs)
include h

theorem partOf_congr (b : Nat) : t.partOf b = s.partOf b := by simp [State.partOf, State.exists_, State.flag, getF_congr h]
theorem noSample_congr : t.noSample = s.noSample := by
  have hc : t.noCore = s.noCore := noCore_congr (rd_congr h _) (rd_congr h _)
  rw [State.noSample, State.noSample, hc, outPeriod_congr h, outPeriod_congr h]
theorem disconnected_congr (b : Nat) : t.disconnected b = s.disconnected b := by
  rw [State.disconnected, State.disconnected, getF_congr h]

end

theorem getL_congr {s t : State} (h : t.live = s.live) (x : Fld) : t.getL x = s.getL x := by
  simp [State.getL, State.rdLive, h]

@[simp] theorem advanceTo_seqs (x : Label) : (advanceTo x s).seqs = s.seqs := by
  unfold advanceTo
  split <;> rfl
@[simp] theorem advanceTo_flags (x : Label) : (advanceTo x s).flags = s.flags := by
  unfold advanceTo
  split <;> rfl

/-! ### Banks -/

@[simp] theorem bank_modBank_same (b : Nat) (g : Bank → Bank) : (modBank b g s).bank b = g (s.bank b) :=
  bank_setBank_same s b _

/-- A bank reads from the table of the banks alone. -/
theorem bank_congr {s t : State} (h : t.banks = s.banks) (b : Nat) : t.bank b = s.bank b := by simp [State.bank, h]

@[simp] theorem restartDet_banks (t : Label) (n : Nat) : (restartDet t n s).banks = s.banks := setDet_banks _ _ _

@[simp] theorem restartDets_stEdge (b : Nat) (t : Label) :
    ((restartDets b t s).bank b).stEdge = (s.bank b).stEdge := by
  unfold restartDets
  extract_lets x old after u
  have hbanks : (each (restartDet t) (detsOf b) u).banks = u.banks :=
    each_proj u State.banks _ (fun n v => restartDet_banks v t n) _
  rw [bank_congr hbanks]
  exact (congrArg Bank.stEdge (bank_setBank_same s b _) :)

@[simp] theorem restartGpsOf_banks (p b : Nat) : (restartGpsOf p b s).banks = s.banks :=
  each_proj s State.banks _ (fun g u => by split <;> rfl) _

@[simp] theorem restartBank_stEdge (p b : Nat) (t : Label) :
    ((restartBank p b t s).bank b).stEdge = (s.bank b).stEdge := by
  rw [restartBank, bank_congr (restartGpsOf_banks _ p b), restartDets_stEdge]

@[simp] theorem backAt_stEdge (p b : Nat) (e : Label) : ((backAt p b e s).bank b).stEdge = (s.bank b).stEdge := by
  unfold backAt
  dsimp only
  split
  · rw [restartBank_stEdge, bank_modBank_same]
  · rfl

/-! ### STCLK_EDGE (R119, R120) -/

/-- A state sample is taken, and the label of the last edge stays. -/
theorem takeStateSample_stEdge (p b : Nat) (rising : Bool) (label : Label) :
    ((takeStateSample p b rising label s).bank b).stEdge = (s.bank b).stEdge := by
  unfold takeStateSample
  extract_lets x gone e u
  have hu : (u.bank b).stEdge = (s.bank b).stEdge := (congrArg Bank.stEdge (bank_setBank_same s b _) :)
  have hdets : (each (fun n => modDet n fun d => { d with events := [] }) (detsOf b) u).banks = u.banks :=
    each_proj u State.banks _ (fun n v => modDet_banks v n _) _
  split
  · rw [backAt_stEdge, hu]
  · split
    · exact hu
    · rw [restartBank_stEdge, bank_congr hdets, hu]

/-- A bank of partition `p` uses the edges of its state clock (R119). -/
structure State.takesStclk (s : State) (p b : Nat) : Prop where
  part : s.partOf b = some p
  stateMode : s.stateMode p = true
  samples : s.noSample = false
  runs : s.flag (F.feBankStatusStopped b) = false
  connected : s.disconnected b = false

/-- Whether the edges are used does not depend on the instant. -/
theorem takesStclk_advanceTo (x : Label) (p b : Nat) : (advanceTo x s).takesStclk p b ↔ s.takesStclk p b := by
  have hr := advanceTo_regs s x
  have hm : (advanceTo x s).stateMode p = s.stateMode p := by
    rw [State.stateMode, State.flagL, getL_congr (advanceTo_live s x)]
    rfl
  constructor <;> rintro ⟨h1, h2, h3, h4, h5⟩ <;> constructor <;>
    simp_all [partOf_congr hr, noSample_congr hr, flag_congr hr, disconnected_congr hr]

/-- The label of an edge of a bank's state clock at the pin (R119). -/
def State.stclkLabel (s : State) (b : Nat) (tPin : Label) : Label := tPin + s.getL (F.feStclkCfgStclkDeskew b)

/-- The edge comes less than 100 ticks after the last one of the bank (R120). -/
def State.endsPhase (s : State) (b : Nat) (label : Label) : Prop :=
  (s.bank b).stEdge ≠ 0 ∧ label < (s.bank b).stEdge - 1 + 100

/-- The label of the last edge of a bank is set. -/
def markEdge (b : Nat) (label : Label) : State → State := modBank b fun x => { x with stEdge := label + 1 }

theorem markEdge_stEdge (b : Nat) (label : Label) : ((markEdge b label s).bank b).stEdge = label + 1 :=
  congrArg Bank.stEdge (bank_modBank_same s b _)

theorem execStclkEdge_idle (b : BankId) (rising : Bool) (tPin : Label) (h : ∀ p, ¬ s.takesStclk p b) :
    execStclkEdge b rising tPin s = done s (advanceTo tPin s) := by
  unfold execStclkEdge
  extract_lets u
  split
  · rfl
  next p hp =>
    refine if_pos (by_contra fun hn => h p ?_)
    simp only [not_or, Bool.not_eq_false, Bool.not_eq_true] at hn
    obtain ⟨hm, hs, hr, hd⟩ := hn
    have hu : u.takesStclk p b := ⟨hp, hm, hs, hr, hd⟩
    exact (takesStclk_advanceTo s tPin p b).mp hu

section
variable {s} {p : Nat} {b : BankId} (h : s.takesStclk p b) (rising : Bool) (tPin : Label)
include h

theorem execStclkEdge_merged (hl : s.endsPhase b (s.stclkLabel b tPin)) :
    execStclkEdge b rising tPin s = done s (removePhase b ((s.bank b).stEdge - 1) rising (advanceTo tPin s)) := by
  obtain ⟨hp, hm, hs, hr, hd⟩ := (takesStclk_advanceTo s tPin p b).mpr h
  unfold State.endsPhase State.stclkLabel at hl
  simp [execStclkEdge, hp, hm, hs, hr, hd, hl, getL_congr (advanceTo_live s tPin)]

/-- An edge that stays is the last one, whether or not it takes a sample. -/
theorem execStclkEdge_kept (hl : ¬ s.endsPhase b (s.stclkLabel b tPin)) :
    ∃ u, execStclkEdge b rising tPin s = done s u ∧ (u.bank b).stEdge = s.stclkLabel b tPin + 1 := by
  obtain ⟨hp, hm, hs, hr, hd⟩ := (takesStclk_advanceTo s tPin p b).mpr h
  unfold State.endsPhase State.stclkLabel at hl
  have hmark := markEdge_stEdge (advanceTo tPin s) b (s.stclkLabel b tPin)
  simp only [execStclkEdge, hp, hm, hs, hr, hd, hl, getL_congr (advanceTo_live s tPin), advanceTo_bank,
    Bool.true_eq_false, Bool.false_eq_true, or_self, if_false]
  split
  · split
    · exact ⟨_, rfl, (takeStateSample_stEdge _ p b rising _).trans hmark⟩
    · exact ⟨_, rfl, hmark⟩
  · exact ⟨_, rfl, hmark⟩

end

/-- The two edges of a short phase are removed, and the rest is reports (R120). -/
theorem removePhase_quiet (b : Nat) (first : Label) (rising : Bool) : ∃ y : Bank, y.stEdge = 0 ∧
    Quiet (setF (F.feBankEventsStclkMerge b) 1 (setBank b y s)) (removePhase b first rising s) := by
  unfold removePhase
  extract_lets x top had lost y u
  exact ⟨y, rfl, ((Quiet.refl _).bump _ _).oncePerFrame _ _ fun v hv => hv.postBank _ _ _⟩

theorem removePhase_shows (b : BankId) (first : Label) (rising : Bool) :
    ((removePhase b first rising s).bank b).stEdge = 0 ∧
      (removePhase b first rising s).flag (F.feBankEventsStclkMerge b) = true := by
  obtain ⟨y, hy, hq⟩ := removePhase_quiet s b first rising
  refine ⟨?_, ?_⟩
  · rw [bank_congr hq.banks]
    exact (congrArg Bank.stEdge (bank_setBank_same s b y)).trans hy
  · rw [hq.flag (F.feBankEventsStclkMerge b) (reportOff_feBankEvents b)]
    exact flag_setF_one _ _ (by decide)

/-! ### TRIGIN_EDGE (R179, R198, R202) -/

/-- Whether an edge at the pin takes an input up: TRIGIN_POL inverts it (R198). -/
def State.triginUp (s : State) (n : Nat) (rising : Bool) : Bool := rising != (s.getF F.triginCfgTriginPol).testBit n

/-- The levels of the inputs once input `n` has gone up or down. -/
def triginSet (n : Fin 4) (up : Bool) (l : BitVec 4) : BitVec 4 :=
  if up then l ||| BitVec.ofNat 4 (2 ^ n.val) else l &&& ~~~BitVec.ofNat 4 (2 ^ n.val)

theorem triginSet_getLsbD (n : Fin 4) (up : Bool) (l : BitVec 4) : (triginSet n up l).getLsbD n = up := by
  have hbit : (BitVec.ofNat 4 (2 ^ n.val)).getLsbD n = true := by
    rw [BitVec.getLsbD_ofNat, Nat.testBit_two_pow_self]
    simp
  cases up
  · exact (BitVec.getLsbD_and ..).trans (by rw [BitVec.getLsbD_not, hbit]; simp)
  · exact (BitVec.getLsbD_or ..).trans (by rw [hbit, Bool.or_true])

/-- The level of an input follows its pin, and the edges kept for the terms of the sequencers are `edges`. -/
def showTrigin (n : Fin 4) (up : Bool) (edges : List (Label × Nat × Bool)) (s : State) : State :=
  { s with flags := { s.flags with triginLevel := triginSet n up s.flags.triginLevel, triginEdges := edges } }

/-- The event of an edge, with its label (R178, R179). -/
def State.triginEvent (s : State) (n : Fin 4) (rising : Bool) (tPin : Label) : Ev :=
  let time := tPin + s.getF (F.triginDeskewDeskew n)
  { sel := 0x2000 + (if s.triginUp n rising then 0 else 4) + n.val, time := time, exact := true, sample := time,
    aux := 0 }

theorem triginEvent_sel (n : Fin 4) (rising : Bool) (tPin : Label) : (s.triginEvent n rising tPin).sel % 4 = n := by
  simp only [State.triginEvent]
  split <;> omega

/-- The sequencer of an armed partition hears of an event. -/
def hearEvent (e : Ev) (p : Nat) (s : State) : State :=
  if (s.part p).armed then modSeq p (fun q => { q with inbox := q.inbox ++ [e] }) s else s

@[simp] theorem hearEvent_parts (e : Ev) (p : Nat) : (hearEvent e p s).parts = s.parts := by
  unfold hearEvent
  split <;> rfl
@[simp] theorem hearEvent_flags (e : Ev) (p : Nat) : (hearEvent e p s).flags = s.flags := by
  unfold hearEvent
  split <;> rfl

theorem seq_hearEvent_ne (e : Ev) {p q : Nat} (h : q ≠ p) : (hearEvent e p s).seq q = s.seq q := by
  unfold hearEvent
  split
  · exact seq_setSeq_ne s h _
  · rfl

/-- Each of the eight sequencers hears of an event, where its partition is armed. -/
theorem seq_each_hearEvent (e : Ev) {p : Nat} (hp : p < 8) : (each (hearEvent e) (List.range 8) s).seq p =
    if (s.part p).armed then { s.seq p with inbox := (s.seq p).inbox ++ [e] } else s.seq p := by
  refine each_at s (State.seq · p) (hearEvent e) (fun u => u.parts = s.parts) p
    (fun q => if (s.part p).armed then { q with inbox := q.inbox ++ [e] } else q)
    (fun q u hu => (hearEvent_parts u e q).trans hu) (fun u hu => ?_)
    (fun q u hq => seq_hearEvent_ne u e (Ne.symm hq)) _ List.nodup_range (List.mem_range.mpr hp) rfl
  have hpart : u.part p = s.part p := by simp [State.part, hu]
  simp only [hearEvent, hpart]
  split
  · exact seq_setSeq_same u p _
  · rfl

/-- Without CORE an edge moves the level alone (R202). -/
theorem execTriginEdge_gated (n : Fin 4) (rising : Bool) (tPin : Label) (h : s.noCore = true) :
    ∃ u, execTriginEdge n rising tPin s = done s u ∧ u.seqs = s.seqs ∧
      u.flags.triginLevel = triginSet n (s.triginUp n rising) s.flags.triginLevel := by
  unfold execTriginEdge
  simp only [advanceTo_noCore, h, if_true]
  exact ⟨_, rfl, advanceTo_seqs s tPin, rfl⟩

/-- An edge moves the level, and the sequencer of every armed partition hears of it (R179). -/
theorem execTriginEdge_heard (n : Fin 4) (rising : Bool) (tPin : Label) (h : s.noCore = false) :
    ∃ u, execTriginEdge n rising tPin s = done s u ∧
      u.flags.triginLevel = triginSet n (s.triginUp n rising) s.flags.triginLevel ∧
      ∀ p, p < 8 → u.seq p = if (s.part p).armed then
        { s.seq p with inbox := (s.seq p).inbox ++ [s.triginEvent n rising tPin] } else s.seq p := by
  unfold execTriginEdge
  simp only [advanceTo_noCore, h, Bool.false_eq_true, if_false]
  refine ⟨each (hearEvent (s.triginEvent n rising tPin)) (List.range 8) (showTrigin n (s.triginUp n rising)
    (((advanceTo tPin s).flags.triginEdges.filter fun e => decide (tPin ≤ e.1 + ticksPerFrame)) ++
      [(tPin + s.getF (F.triginDeskewDeskew n), n.val, s.triginUp n rising)]) (advanceTo tPin s)), ?_, ?_, fun p hp => ?_⟩
  · rw [showTrigin, advanceTo_flags]
    rfl
  · rw [each_proj _ State.flags _ (fun p u => hearEvent_flags u _ p), showTrigin, advanceTo_flags]
  · have hseq : (advanceTo tPin s).seq p = s.seq p := by
      rw [State.seq, State.seq, advanceTo_seqs]
    have hpart := advanceTo_part s tPin p
    rw [← hseq, ← hpart]
    exact seq_each_hearEvent _ _ hp

/-- Settles O25: an edge of a state clock by whether it is used and whether it ends a short phase, an edge of TRIGIN by
whether CORE runs. -/
theorem clockAndTriggerEdgesAreLabelled : Obligations.ClockAndTriggerEdgesAreLabelled := by
  refine ⟨fun b rising tPin s => ?_, fun n rising tPin s => ?_⟩
  · intro label last takes
    by_cases ht : takes
    · obtain ⟨⟨p, hp, hm⟩, hs, hr, hd⟩ := ht
      have hu : s.takesStclk p b := ⟨hp, hm, hs, hr, hd⟩
      by_cases hl : s.endsPhase b (s.stclkLabel b tPin)
      · have hgone := removePhase_shows (advanceTo tPin s) b (last - 1) rising
        refine ⟨_, execStclkEdge_merged hu rising tPin hl, fun _ hn => ?_, fun _ _ _ => hgone, fun hn => ?_⟩
        · obtain ⟨h0, hlt⟩ := hl
          exact absurd hn (not_or.mpr ⟨h0, Nat.not_le.mpr hlt⟩)
        · exact absurd ⟨⟨p, hp, hm⟩, hs, hr, hd⟩ hn
      · obtain ⟨u, hx, hedge⟩ := execStclkEdge_kept hu rising tPin hl
        exact ⟨_, hx, fun _ _ => hedge, fun _ h0 hlt => absurd ⟨h0, hlt⟩ hl, fun hn =>
          absurd ⟨⟨p, hp, hm⟩, hs, hr, hd⟩ hn⟩
    · have hidle : ∀ p, ¬ s.takesStclk p b := fun p hu =>
        ht ⟨⟨p, hu.part, hu.stateMode⟩, hu.samples, hu.runs, hu.connected⟩
      exact ⟨_, execStclkEdge_idle s b rising tPin hidle, fun h => absurd h ht, fun h => absurd h ht,
        fun _ => ⟨advanceTo_banks s tPin, advanceTo_regs s tPin⟩⟩
  · by_cases hc : s.noCore = true
    · obtain ⟨u, hx, hseqs, hlvl⟩ := execTriginEdge_gated s n rising tPin hc
      refine ⟨_, hx, ?_, fun _ => hseqs, fun hn => by rw [hc] at hn; cases hn⟩
      exact (congrArg (BitVec.getLsbD · n) hlvl).trans (triginSet_getLsbD n _ _)
    · obtain ⟨u, hx, hlvl, hseq⟩ := execTriginEdge_heard s n rising tPin (by simpa using hc)
      refine ⟨_, hx, ?_, fun h => absurd h hc, fun _ p hp => ⟨fun ha => ?_, fun ha => ?_⟩⟩
      · exact (congrArg (BitVec.getLsbD · n) hlvl).trans (triginSet_getLsbD n _ _)
      · refine ⟨s.triginEvent n rising tPin, ?_, rfl, rfl, triginEvent_sel s n rising tPin⟩
        exact congrArg Seq.inbox ((hseq p hp).trans (if_pos ha))
      · exact (hseq p hp).trans (if_neg (by simp [ha]))

end Sys2Proof.Machine
end

section
/-! Proofs: bank faults, soft resets and the resume of a bank (BANK_FAULT, SOFT_RESET, SOFT_RESET_DONE, BANK_RESUME;
R133, R134). -/

namespace Sys2Proof.Machine

variable (s : State)

/-! ### BANK_FAULT (R133) -/

@[simp] theorem setCause_banks (n : Nat) : (setCause n s).banks = s.banks := by
  obtain ⟨m, hq⟩ := pinUpdate_quiet (setF ⟨.fltPinCause, n, 1⟩ 1 s)
  exact hq.banks

/-- A bank after a fault: a soft reset starts unless the bank stays stopped (R133, R134). -/
def Bank.fault (stays : Bool) (x : Bank) : Bank :=
  { x with faulted := true, softDone := false, softRun := !stays, stuck := stays }

/-- A fault marks the bank, and what follows leaves the banks alone. -/
theorem execBankFault_marks (b : BankId) (code : Fin 256) (chan : ChanId) :
    ∃ stays u v, execBankFault b code chan s = done s v ∧ v.banks = (modBank b (Bank.fault stays) u).banks := by
  unfold execBankFault
  extract_lets s1 s2 s3 s4 s5 s6 rec_ stays s7 s8
  refine ⟨stays, s6, ?_⟩
  have h8 : s8.banks = s7.banks := ((Quiet.refl s7).logFault 0x09 b code (by decide)).banks
  split
  · refine ⟨_, rfl, ?_⟩
    split
    · rw [setCause_banks, h8]
      rfl
    · exact h8
  · exact ⟨_, rfl, rfl⟩

/-! ### SOFT_RESET and SOFT_RESET_DONE (R134) -/

theorem execSoftReset_carriesOut {f : FnId} {b : BankId} (h : s.carriesOut f (0x10000 + b.val * 0x2000) = true) :
    execSoftReset f b s = done s (softReset b s) := bar0_acts h _ _

/-- A bank whose soft reset begins. -/
def Bank.softStart (x : Bank) : Bank := { x with softRun := true, softDone := false, stuck := false }

theorem softReset_starts (b : Nat) : ∃ u, softReset b s = modBank b Bank.softStart u := ⟨_, rfl⟩

@[simp] theorem stopDets_regs (b : Nat) : (stopDets b s).regs = s.regs :=
  each_proj _ State.regs _ (fun n u => modDet_regs u n _) _

/-- The detectors of a bank stop, and of the bank itself only what waits for them is lost. -/
theorem stopDets_bank (b : Nat) : (stopDets b s).bank b =
    { s.bank b with feed := [], fedU := (s.bank b).lvlU, fedL := (s.bank b).lvlL } := by
  unfold stopDets
  extract_lets u
  rw [bank_congr (each_proj u State.banks _ (fun n v => modDet_banks v n _) _)]
  exact bank_modBank_same s b _

/-- A bank once its soft reset is done: it waits to resume where it was stopped. -/
def Bank.softEnd (at_ : Nat) (stopped : Bool) (x : Bank) : Bank :=
  { x with softRun := false, stEdge := 0, softAt := at_ + 1, softDone := stopped }

/-- A bank whose comparators start low. -/
def Bank.low (x : Bank) : Bank :=
  { x with lvlU := 0, lvlL := 0, startU := 0, startL := 0, fedU := 0, fedL := 0, cross := [], feed := [], lastX := [] }

theorem comparatorsLow_bank (b : Nat) : (comparatorsLow b s).bank b = (s.bank b).low := bank_modBank_same s b _

/-- A bank at the end of its soft reset. -/
def softEnded (b : Nat) (s : State) : State :=
  stopDets b (setF (F.feBankStatusFault b) 0 (comparatorsLow b
    (modBank b (Bank.softEnd s.elapsed (s.flag (F.feBankStatusStopped b))) s)))

theorem flag_softEnded (b : Nat) : (softEnded b s).flag (F.feBankStatusFault b) = false := by
  rw [softEnded, flag_congr (stopDets_regs _ b)]
  exact flag_setF_zero _ _ (by decide)

theorem softEnded_bank (b : Nat) : ((softEnded b s).bank b).softRun = false ∧ ((softEnded b s).bank b).cross = [] ∧
    ((softEnded b s).bank b).softDone = s.flag (F.feBankStatusStopped b) ∧
    ((softEnded b s).bank b).softAt = s.elapsed + 1 := by
  rw [softEnded, stopDets_bank, bank_congr (setF_banks _ _ _), comparatorsLow_bank, bank_modBank_same]
  exact ⟨rfl, rfl, rfl, rfl⟩

theorem execSoftResetDone_runs (b : BankId) (h : (s.bank b).softRun = true) :
    execSoftResetDone b s = done s (softEnded b s) := if_neg (by simp [h])

theorem execSoftResetDone_idle (b : BankId) (h : (s.bank b).softRun = false) : execSoftResetDone b s = .next s := if_pos h

/-! ### BANK_RESUME (R133 step 4) -/

/-- A bank may resume at `x`: its soft reset is done, `x` is a frame boundary, and the reset lies 9 core cycles back. -/
def State.mayResume (s : State) (b : Nat) (x : Label) : Prop :=
  (s.bank b).softDone = true ∧ frameOf x = x ∧ (s.bank b).softAt + 9 * ticksPerCore + (s.now - x) ≤ s.elapsed + 1

/-- A bank that delivers again. -/
def Bank.resume (at_ : Nat) (x : Bank) : Bank :=
  { x with softDone := false, faulted := false, stuck := false, recovered := if x.faulted then at_ else x.recovered }

/-- STOPPED clears, and the bank has recovered. -/
def bankRuns (b : Nat) (s : State) : State :=
  setF (F.feBankStatusStopped b) 0 (modBank b (Bank.resume (s.elapsed + 1)) s)

theorem flag_bankRuns (b : Nat) : (bankRuns b s).flag (F.feBankStatusStopped b) = false :=
  flag_setF_zero _ _ (by decide)

theorem bankRuns_bank (b : Nat) : (bankRuns b s).bank b = (s.bank b).resume (s.elapsed + 1) := bank_modBank_same s b _

theorem execBankResume_waits (b : BankId) (x : Label) (h : ¬ (advanceTo x s).mayResume b x) :
    execBankResume b x s = done s (advanceTo x s) := by
  unfold execBankResume
  refine if_pos (by_contra fun hn => h ?_)
  simp only [not_or, Bool.not_eq_false, Nat.not_lt, not_not] at hn
  exact hn

theorem partOf_of_rd {s t : State} (h : ∀ p, t.rd (.partOwner p) = s.rd (.partOwner p)) (b : Nat) :
    t.partOf b = s.partOf b := by
  simp [State.partOf, State.exists_, State.flag, State.getF, h]

theorem bankRuns_partOf (b : BankId) : (bankRuns b s).partOf b = s.partOf b := by
  refine partOf_of_rd (fun p => ?_) b
  have hk : (Reg.partOwner p).key ≠ (Reg.feBankStatus b).key := by
    simp only [Reg.key, Reg.space, Reg.off]
    omega
  exact rd_setF_ne _ (F.feBankStatusStopped b) _ _ hk

/-- FE_BANK_RECOVERED is posted where a fault caused the stop (R134). -/
def reportRecovered (faulted : Bool) (b : Nat) (s : State) : State := if faulted then postBank b 0x1001 b s else s

theorem reportRecovered_quiet (faulted : Bool) (b : Nat) : Quiet s (reportRecovered faulted b s) := by
  unfold reportRecovered
  split
  · exact (Quiet.refl s).postBank _ _ _
  · exact Quiet.refl s

section
variable {s} {b : BankId} {x : Label} (h : (advanceTo x s).mayResume b x)
include h

theorem not_resumeHeld : ¬ (((advanceTo x s).bank b).softDone = false ∨ frameOf x ≠ x ∨ (advanceTo x s).elapsed + 1 <
    ((advanceTo x s).bank b).softAt + 9 * ticksPerCore + ((advanceTo x s).now - x)) := by
  obtain ⟨hd, hf, ha⟩ := h
  rintro (hn | hn | hn)
  · rw [hd] at hn
    cases hn
  · exact hn hf
  · omega

/-- A bank of no armed interval that has begun delivers again without a record. -/
theorem execBankResume_alone (hb : ∀ p, s.partOf b = some p → (s.part p).begun = none) :
    execBankResume b x s = done s (reportRecovered (s.bank b).faulted b (bankRuns b (advanceTo x s))) := by
  have hpart : (bankRuns b (advanceTo x s)).partOf b = s.partOf b :=
    (bankRuns_partOf _ b).trans (partOf_congr (advanceTo_regs s x) b)
  have hparts : ∀ p, (bankRuns b (advanceTo x s)).part p = s.part p := fun p => advanceTo_part s x p
  unfold execBankResume
  refine (if_neg (not_resumeHeld h)).trans ?_
  extract_lets faulted u v
  have hv : v = u := by
    unfold v
    split
    · rfl
    next p hp =>
      have hbegun : (u.part p).begun = none := (congrArg Part.begun (hparts p)).trans (hb p (hpart.symm.trans hp))
      exact if_neg (by simp [hbegun])
  rw [hv, reportRecovered, ← advanceTo_bank s x]
  split <;> rfl

/-- A bank of a running interval delivers again with its records, and the partition settles. -/
theorem execBankResume_opens {p : Nat} (hp : s.partOf b = some p) (hb : (s.part p).begun.isSome = true)
    (hg : (s.part p).gaps = []) : execBankResume b x s = done s (reportRecovered (s.bank b).faulted b
      (settle p (resumeBank p b x (bankRuns b (advanceTo x s))))) := by
  have hpart : (bankRuns b (advanceTo x s)).partOf b = some p :=
    ((bankRuns_partOf _ b).trans (partOf_congr (advanceTo_regs s x) b)).trans hp
  have hparts : (bankRuns b (advanceTo x s)).part p = s.part p := advanceTo_part s x p
  unfold execBankResume
  refine (if_neg (not_resumeHeld h)).trans ?_
  extract_lets faulted u v
  have hv : v = settle p (resumeBank p b x u) := by
    unfold v
    split
    next hn => exact absurd (hpart.symm.trans hn) (by simp)
    next q hq =>
      obtain rfl : p = q := Option.some.inj (hpart.symm.trans hq)
      have hu : u.part p = s.part p := hparts
      exact if_pos (by rw [hu]; exact ⟨hb, hg⟩)
  rw [hv, reportRecovered, ← advanceTo_bank s x]
  split <;> rfl

end

theorem execBankResume_next (b : BankId) (x : Label) : ∃ t, execBankResume b x s = .next t := by
  unfold execBankResume
  dsimp only
  split <;> exact ⟨_, rfl⟩

/-- What the resume of a bank shows of it. -/
theorem reportRecovered_shows (faulted : Bool) (b : BankId) :
    (reportRecovered faulted b (bankRuns b s)).flag (F.feBankStatusStopped b) = false ∧
      ((reportRecovered faulted b (bankRuns b s)).bank b).softDone = false ∧
      ((reportRecovered faulted b (bankRuns b s)).bank b).faulted = false := by
  have hq := reportRecovered_quiet (bankRuns b s) faulted b
  rw [hq.flag (F.feBankStatusStopped b) (reportOff_feBankStatus b), bank_congr hq.banks, bankRuns_bank]
  exact ⟨flag_bankRuns s b, rfl, rfl⟩

/-- Settles O27: each command by its own equation, and the resume by whether the bank's partition has begun. -/
theorem bankFaultsAndSoftResets : Obligations.BankFaultsAndSoftResets := by
  refine ⟨fun b code chan s => ?_, fun f b s hc => ?_, fun b s => ?_, fun b x s => ?_⟩
  · obtain ⟨stays, u, v, hx, hbanks⟩ := execBankFault_marks s b code chan
    have hbank : v.bank b = (u.bank b).fault stays := (bank_congr hbanks b).trans (bank_modBank_same u b _)
    exact ⟨_, hx, congrArg Bank.faulted hbank, congrArg Bank.softDone hbank⟩
  · obtain ⟨u, hu⟩ := softReset_starts s b
    have hbank : (softReset b s).bank b = (u.bank b).softStart := by rw [hu, bank_modBank_same]
    exact ⟨_, execSoftReset_carriesOut s hc, congrArg Bank.softRun hbank, congrArg Bank.softDone hbank⟩
  · by_cases h : (s.bank b).softRun = true
    · obtain ⟨hrun, hcross, hdone, hat⟩ := softEnded_bank s b
      have hfault := flag_softEnded s b
      have hx : exec (.softResetDone b) s = done s (softEnded b s) := execSoftResetDone_runs s b h
      generalize softEnded b s = u at hrun hcross hdone hat hfault hx
      exact ⟨_, hx, fun _ => ⟨hrun, hfault, hcross, hdone, hat⟩, fun hn => by rw [h] at hn; cases hn⟩
    · exact ⟨s, execSoftResetDone_idle s b (by simpa using h), fun hn => absurd hn h, fun _ => rfl⟩
  · intro s1 resumes
    by_cases h : s1.mayResume b x
    · by_cases hn : ∀ p, s.partOf b = some p → (s.part p).begun = none
      · have hshows := reportRecovered_shows s1 (s.bank b).faulted b
        have hx : exec (.bankResume b x) s = _ := execBankResume_alone h hn
        generalize reportRecovered _ _ _ = u at hshows hx
        exact ⟨_, hx, fun _ _ => hshows,
          fun _ p hp hb => by simp [hn p hp] at hb, fun hr => absurd h hr⟩
      · obtain ⟨p, hp, hb⟩ : ∃ p, s.partOf b = some p ∧ (s.part p).begun ≠ none := by simpa using hn
        have hbegun : (s.part p).begun.isSome = true := Option.isSome_iff_ne_none.mpr hb
        by_cases hg : (s.part p).gaps = []
        · refine ⟨_, execBankResume_opens h hp hbegun hg, fun _ hall => absurd hall hn, fun _ q hq _ _ => ?_,
            fun hr => absurd h hr⟩
          obtain rfl : p = q := Option.some.inj (hp.symm.trans hq)
          exact ⟨bankRuns b s1, _, rfl, flag_bankRuns s1 b, congrArg Bank.softDone (bankRuns_bank s1 b), rfl⟩
        · obtain ⟨t, ht⟩ := execBankResume_next s b x
          refine ⟨t, ht, fun _ hall => absurd hall hn, fun _ q hq _ hgaps => ?_, fun hr => absurd h hr⟩
          obtain rfl : p = q := Option.some.inj (hp.symm.trans hq)
          exact absurd hgaps hg
    · exact ⟨_, execBankResume_waits s b x h, fun hn => absurd hn h, fun hn => absurd hn h, fun _ => rfl⟩

end Sys2Proof.Machine
end

section
/-! Proofs: calibration of a bank (CAL_START, CAL_STEP_DONE, CAL_EXT_TIMEOUT; R125 to R128, R328). -/

namespace Sys2Proof.Machine

variable (s : State)

/-! ### Fields of a bank's calibration registers -/

theorem feCalStatus_key_ne_feBankStatus (b : Nat) : (Reg.feCalStatus b).key ≠ (Reg.feBankStatus b).key := by
  simp only [Reg.key, Reg.space, Reg.off]
  omega
theorem feCalStatus_key_ne_feBankEvents (b : Nat) : (Reg.feCalStatus b).key ≠ (Reg.feBankEvents b).key := by
  simp only [Reg.key, Reg.space, Reg.off]
  omega
theorem feBankStatus_key_ne_feCalCtrl (b : Nat) : (Reg.feBankStatus b).key ≠ (Reg.feCalCtrl b).key := by
  simp only [Reg.key, Reg.space, Reg.off]
  omega
theorem chCfg_key_ne_feBankStatus (b c : Nat) : (Reg.chCfg b c).key ≠ (Reg.feBankStatus b).key := by
  simp only [Reg.key, Reg.space, Reg.off]
  omega
theorem chCfg_key_ne_feCalStatus (b c : Nat) : (Reg.chCfg b c).key ≠ (Reg.feCalStatus b).key := by
  simp only [Reg.key, Reg.space, Reg.off]
  omega
theorem chCfg_key_ne_feBankEvents (b c : Nat) : (Reg.chCfg b c).key ≠ (Reg.feBankEvents b).key := by
  simp only [Reg.key, Reg.space, Reg.off]
  omega

theorem reportOff_feCalStatus (b : BankId) : reportOff ((Reg.feCalStatus b).key % 0x100000) = false :=
  reportOff_of_off rfl (by simp only [Reg.off]; omega) (by simp only [Reg.off]; omega)
theorem reportOff_feCalCtrl (b : BankId) : reportOff ((Reg.feCalCtrl b).key % 0x100000) = false :=
  reportOff_of_off rfl (by simp only [Reg.off]; omega) (by simp only [Reg.off]; omega)
theorem reportOff_chCfg (b : BankId) (c : ChanId) : reportOff ((Reg.chCfg b c).key % 0x100000) = false :=
  reportOff_of_off rfl (by simp only [Reg.off]; omega) (by simp only [Reg.off]; omega)

/-- A field reads past a store to another one of its register. -/
theorem getF_setF_apart (r : Reg) {lo w lo' w' v : Nat} (h : lo + w ≤ 32) (hm : lo' + w' ≤ lo ∨ lo + w ≤ lo') :
    (setF ⟨r, lo, w⟩ v s).getF ⟨r, lo', w'⟩ = s.getF ⟨r, lo', w'⟩ :=
  getF_setF_other s ⟨r, lo, w⟩ ⟨r, lo', w'⟩ v h rfl hm

/-- A field reads past a store to another register. -/
theorem getF_setF_key {q r : Reg} {lo w lo' w' v : Nat} (h : q.key ≠ r.key) :
    (setF ⟨r, lo, w⟩ v s).getF ⟨q, lo', w'⟩ = s.getF ⟨q, lo', w'⟩ := getF_setF_ne s _ _ _ h

@[simp] theorem getF_modBank (b : Nat) (g : Bank → Bank) (x : Fld) : (modBank b g s).getF x = s.getF x := rfl
@[simp] theorem getF_comparatorsLow (b : Nat) (x : Fld) : (comparatorsLow b s).getF x = s.getF x := rfl

/-! ### The beginning of a calibration (R126) -/

/-- Step `k` of a calibration runs, and the steps `r` come after it. -/
def runCal (b k : Nat) (r : List Nat) (s : State) : State :=
  setF (F.feBankStatusCalRunning b) 1 (setF (F.feCalStatusStepRunning b) (2 ^ k) (setF (F.feCalStatusStepsDone b) 0
    (setF (F.feCalStatusAbortReason b) 0 (modBank b (fun x => { x with calSteps := r }) s))))

theorem startCal_cons {b steps k : Nat} {r : List Nat} (h : (List.range 5).filter steps.testBit = k :: r) :
    startCal b steps s = if k < 4 then comparatorsLow b (runCal b k r s) else runCal b k r s := by
  unfold startCal
  rw [h]
  rfl

theorem getF_startCal_cons {b steps k : Nat} {r : List Nat} (h : (List.range 5).filter steps.testBit = k :: r)
    (x : Fld) : (startCal b steps s).getF x = (runCal b k r s).getF x := by
  rw [startCal_cons s h]
  split
  · exact getF_comparatorsLow _ b x
  · rfl

/-- The steps of a mask that is not 0 are some of the five. -/
theorem steps_ne_nil {n : Nat} (h : n ≠ 0) (hn : n < 32) : (List.range 5).filter n.testBit ≠ [] := by
  intro hnil
  refine h (Nat.eq_of_testBit_eq fun k => ?_)
  rw [Nat.zero_testBit]
  by_cases hk : k < 5
  · exact Bool.eq_false_iff.mpr (List.filter_eq_nil_iff.mp hnil k (List.mem_range.mpr hk))
  · exact Nat.testBit_lt_two_pow (Nat.lt_of_lt_of_le hn (Nat.pow_le_pow_right (by decide) (Nat.le_of_not_lt hk) : 2 ^ 5 ≤ 2 ^ k))

/-- The first of the steps of a mask is its lowest one. -/
theorem steps_head {n k j : Nat} {r : List Nat} (h : (List.range 5).filter n.testBit = j :: r) (hk : k < 5)
    (hs : n.testBit k = true) (hl : ∀ i, i < k → n.testBit i = false) : j = k := by
  have hfind : (List.range 5).find? n.testBit = some k :=
    List.find?_range_eq_some.mpr ⟨hs, List.mem_range.mpr hk, fun i hi => by simp [hl i hi]⟩
  rw [← List.head?_filter, h] at hfind
  exact Option.some.inj hfind

/-- A calibration that starts runs a step, none is done, and the step is the lowest one of the mask (R126). -/
theorem startCal_shows (b : Nat) {steps : Nat} (h : steps ≠ 0) (hn : steps < 32) :
    (startCal b steps s).flag (F.feBankStatusCalRunning b) = true ∧
    (startCal b steps s).getF (F.feCalStatusStepsDone b) = 0 ∧
    ∀ k, k < 5 → steps.testBit k = true → (∀ j, j < k → steps.testBit j = false) →
      (startCal b steps s).getF (F.feCalStatusStepRunning b) = 2 ^ k := by
  obtain ⟨k, r, hsteps⟩ := List.exists_cons_of_ne_nil (steps_ne_nil h hn)
  have hk := (feCalStatus_key_ne_feBankStatus b)
  refine ⟨?_, ?_, fun i hi hs hl => ?_⟩
  · rw [flag_of_getF (getF_startCal_cons s hsteps _), runCal]
    exact flag_setF_one _ _ (by decide)
  · rw [getF_startCal_cons s hsteps, runCal, getF_setF_key _ hk, getF_setF_apart _ _ (by decide) (by decide),
      getF_setF_bits _ _ (by decide) (by decide)]
  · obtain rfl := steps_head hsteps hi hs hl
    rw [getF_startCal_cons s hsteps, runCal, getF_setF_key _ hk,
      getF_setF_bits _ _ (by decide) (Nat.pow_lt_pow_right (by decide) hi)]

/-! ### CAL_START (R126) -/

/-- The fields of FE_CAL_CTRL that a write of `v` sets. -/
def writeCal (b : Nat) (v : Word) (s : State) : State :=
  setF (F.feCalCtrlExtEdge b) (bitsOf v.toNat 16 1) (setF (F.feCalCtrlExtTimeout b) (bitsOf v.toNat 8 8)
    (setF (F.feCalCtrlSteps b) (bitsOf v.toNat 0 5) s))

/-- A write of FE_CAL_CTRL starts a calibration: START, and a mask that is not 0 (R126). -/
def calStarts (v : Word) : Prop := v.getLsbD 5 = true ∧ bitsOf v.toNat 0 5 ≠ 0

theorem bitsOf_one_eq_one (v : Word) (k : Nat) : bitsOf v.toNat k 1 = 1 ↔ v.getLsbD k = true := by
  rw [BitVec.getLsbD, Nat.testBit_eq_decide_div_mod_eq, decide_eq_true_iff, bitsOf, Nat.pow_one]

theorem bitsOf_lt (n lo w : Nat) : bitsOf n lo w < 2 ^ w := Nat.mod_lt _ (Nat.two_pow_pos w)

theorem partState_congr {s t : State} (hparts : t.parts = s.parts)
    (hown : ∀ p, t.rd (.partOwner p) = s.rd (.partOwner p)) (p : Nat) : t.partState p = s.partState p := by
  have hx : t.exists_ p = s.exists_ p := by simp only [State.exists_, State.flag, State.getF, hown]
  have hp : t.part p = s.part p := by simp only [State.part, hparts]
  unfold State.partState
  rw [hx, hp]

/-- Whether a calibration may start does not depend on FE_CAL_CTRL. -/
theorem calAllowed_congr {s t : State} {b : BankId} (hparts : t.parts = s.parts)
    (hr : ∀ q : Reg, q.key ≠ (Reg.feCalCtrl b).key → t.rd q = s.rd q) : t.calAllowed b = s.calAllowed b := by
  have hown : ∀ p, t.rd (.partOwner p) = s.rd (.partOwner p) := fun p => hr _ (by
    simp only [Reg.key, Reg.space, Reg.off]
    omega)
  have hlock : t.rd .csStatus = s.rd .csStatus := hr _ (by
    simp only [Reg.key, Reg.space, Reg.off]
    omega)
  have hrun : t.rd (.feBankStatus b) = s.rd (.feBankStatus b) := hr _ (feBankStatus_key_ne_feCalCtrl b)
  simp only [State.calAllowed, State.flag, State.getF, hlock, hrun, partOf_of_rd hown, partState_congr hparts hown,
    State.part, hparts]

@[simp] theorem keepWrite_parts (r : Reg) (v : Word) : (keepWrite r v s).parts = s.parts := by
  unfold keepWrite
  dsimp only
  split <;> rfl

theorem calAllowed_keepWrite (b : BankId) (v : Word) :
    (keepWrite (.feCalCtrl b) v s).calAllowed b = s.calAllowed b :=
  calAllowed_congr (keepWrite_parts s _ v) (storesOnly_keepWrite s (.feCalCtrl b) v).2

theorem execCalStart_carriesOut {f : FnId} {b : BankId} (v : Word)
    (h : s.carriesOut f (0x10010 + b.val * 0x2000) = true) :
    execCalStart f b v s = done s (calCtrlWrite f b v s) := bar0_acts h _ _

section
variable {s} {f : FnId} {b : BankId} {v : Word}

theorem calCtrlWrite_refused (h : bitsOf v.toNat 8 8 = 0 ∨ (calStarts v ∧ s.calAllowed b = false)) :
    calCtrlWrite f b v s = refused f (.feCalCtrl b) s := by
  have hw : calWrite b v (keepWrite (.feCalCtrl b) v s) = (keepWrite (.feCalCtrl b) v s, true) := by
    refine if_pos ?_
    rw [bitsOf_one_eq_one, calAllowed_keepWrite]
    exact h.symm
  rw [calCtrlWrite, hw]
  rfl

theorem calCtrlWrite_starts (he : bitsOf v.toNat 8 8 ≠ 0) (hs : calStarts v) (ha : s.calAllowed b = true) :
    calCtrlWrite f b v s = startCal b (bitsOf v.toNat 0 5) (writeCal b v (keepWrite (.feCalCtrl b) v s)) := by
  have hs' : bitsOf v.toNat 5 1 = 1 ∧ bitsOf v.toNat 0 5 ≠ 0 := by rwa [bitsOf_one_eq_one]
  have hw : calWrite b v (keepWrite (.feCalCtrl b) v s) =
      (startCal b (bitsOf v.toNat 0 5) (writeCal b v (keepWrite (.feCalCtrl b) v s)), false) := by
    refine (if_neg ?_).trans (congrArg (·, false) (if_pos hs'))
    rw [calAllowed_keepWrite, ha]
    simp [he]
  rw [calCtrlWrite, hw]
  rfl

theorem calCtrlWrite_sets (he : bitsOf v.toNat 8 8 ≠ 0) (hs : ¬ calStarts v) :
    calCtrlWrite f b v s = writeCal b v (keepWrite (.feCalCtrl b) v s) := by
  have hs' : ¬ (bitsOf v.toNat 5 1 = 1 ∧ bitsOf v.toNat 0 5 ≠ 0) := by rwa [bitsOf_one_eq_one]
  have hw : calWrite b v (keepWrite (.feCalCtrl b) v s) = (writeCal b v (keepWrite (.feCalCtrl b) v s), false) := by
    refine (if_neg ?_).trans (congrArg (·, false) (if_neg hs'))
    rintro (⟨hn, -⟩ | hn)
    · exact hs' hn
    · exact he hn
  rw [calCtrlWrite, hw]
  rfl

end

theorem writeCal_shows (b : BankId) (v : Word) :
    (writeCal b v s).getF (F.feCalCtrlSteps b) = bitsOf v.toNat 0 5 ∧
    (writeCal b v s).getF (F.feCalCtrlExtTimeout b) = bitsOf v.toNat 8 8 ∧
    (writeCal b v s).rd (.feBankStatus b) = s.rd (.feBankStatus b) := by
  have hk := feBankStatus_key_ne_feCalCtrl b
  refine ⟨?_, ?_, ?_⟩
  · rw [writeCal, getF_setF_apart _ _ (by decide) (by decide), getF_setF_apart _ _ (by decide) (by decide),
      getF_setF_bits _ _ (by decide) (bitsOf_lt _ _ _)]
  · rw [writeCal, getF_setF_apart _ _ (by decide) (by decide), getF_setF_bits _ _ (by decide) (bitsOf_lt _ _ _)]
  · rw [writeCal, rd_setF_ne _ (F.feCalCtrlExtEdge b) _ _ hk, rd_setF_ne _ (F.feCalCtrlExtTimeout b) _ _ hk,
      rd_setF_ne _ (F.feCalCtrlSteps b) _ _ hk]

/-- A refused write of FE_CAL_CTRL sets CFG_REFUSED of the bank, and the rest is reports (R136). -/
theorem refused_feCalCtrl (f : Nat) (b : BankId) :
    Quiet (setF (F.feBankEventsCfgRefused b) 1 s) (refused f (.feCalCtrl b) s) := by
  have hx : refused f (.feCalCtrl b) s = feEvent b 0x100A b (F.feBankEventsCfgRefused b) s := by
    unfold refused
    extract_lets o bank
    have ho : o = 0x10010 + b.val * 0x2000 := rfl
    refine (if_neg (by omega)).trans <| (if_neg (by omega)).trans <| (if_neg (by omega)).trans <|
      (if_neg (by omega)).trans <| (if_neg (by omega)).trans <| (if_pos (by omega)).trans ?_
    rw [show bank = b by simp only [bank]; omega]
  rw [hx]
  exact (Quiet.refl _).postBank _ _ _

/-- What a refused write leaves and shows. -/
theorem refused_feCalCtrl_shows (f : Nat) (b : BankId) :
    (refused f (.feCalCtrl b) s).flag (F.feBankEventsCfgRefused b) = true ∧
    (refused f (.feCalCtrl b) s).rd (.feCalCtrl b) = s.rd (.feCalCtrl b) ∧
    (refused f (.feCalCtrl b) s).flag (F.feBankStatusCalRunning b) = s.flag (F.feBankStatusCalRunning b) := by
  have hq := refused_feCalCtrl s f b
  have hk : (Reg.feCalCtrl b).key ≠ (Reg.feBankEvents b).key := by
    simp only [Reg.key, Reg.space, Reg.off]
    omega
  refine ⟨?_, ?_, ?_⟩
  · rw [hq.flag (F.feBankEventsCfgRefused b) (reportOff_feBankEvents b)]
    exact flag_setF_one _ _ (by decide)
  · rw [hq.regs _ (reportOff_feCalCtrl b)]
    exact rd_setF_ne s (F.feBankEventsCfgRefused b) _ _ hk
  · rw [hq.flag (F.feBankStatusCalRunning b) (reportOff_feBankStatus b)]
    exact flag_of_getF (getF_setF_key s (feBankStatus_key_ne_feBankEvents b))

/-- A write without START sets the fields and leaves whether a calibration runs. -/
theorem calCtrlWrite_sets_shows {f : FnId} {b : BankId} {v : Word} (he : bitsOf v.toNat 8 8 ≠ 0)
    (hs : ¬ calStarts v) : (calCtrlWrite f b v s).getF (F.feCalCtrlSteps b) = bitsOf v.toNat 0 5 ∧
      (calCtrlWrite f b v s).getF (F.feCalCtrlExtTimeout b) = bitsOf v.toNat 8 8 ∧
      (calCtrlWrite f b v s).flag (F.feBankStatusCalRunning b) = s.flag (F.feBankStatusCalRunning b) := by
  obtain ⟨hsteps, hext, hstatus⟩ := writeCal_shows (keepWrite (.feCalCtrl b) v s) b v
  have hkeep := (storesOnly_keepWrite s (.feCalCtrl b) v).2 _ (feBankStatus_key_ne_feCalCtrl b)
  rw [calCtrlWrite_sets he hs]
  exact ⟨hsteps, hext, flag_of_getF (congrArg _ (hstatus.trans hkeep))⟩

/-! ### The end of a calibration (R127, R128, R328) -/

/-- A CALIBRATE that completes does so by reports. -/
theorem calEnded_quiet (b reason : Nat) : ∃ c, Quiet { s with cals := c } (calEnded b reason s) := by
  unfold calEnded
  extract_lets all
  exact ⟨_, (Quiet.refl _).each _ (fun e _ hu => hu.finish e.cmd _ _ _ _) _⟩

/-- The calibration of a bank ends: it runs no more, no step runs, and an event tells of it. -/
def endCal (b code : Nat) (bit_ : Fld) (reason : Nat) (s : State) : State :=
  calEnded b reason (feEvent b code b bit_ s)

theorem getF_endCal (b code : Nat) (bit_ x : Fld) (reason : Nat) (h : reportOff (x.reg.key % 0x100000) = false) :
    (endCal b code bit_ reason s).getF x = (setF bit_ 1 s).getF x := by
  obtain ⟨c, hq⟩ := calEnded_quiet (feEvent b code b bit_ s) b reason
  exact (hq.getF x h).trans (getF_postBank _ x b code b h)

@[simp] theorem endCal_banks (b code : Nat) (bit_ : Fld) (reason : Nat) :
    (endCal b code bit_ reason s).banks = s.banks := by
  obtain ⟨c, hq⟩ := calEnded_quiet (feEvent b code b bit_ s) b reason
  exact hq.banks.trans (postBank_banks _ b code b)

/-- A calibration is cut short: no step is left, none runs, and ABORT_REASON says why. -/
def stopCal (b reason : Nat) (s : State) : State :=
  setF (F.feBankStatusCalRunning b) 0 (setF (F.feCalStatusStepRunning b) 0 (setF (F.feCalStatusAbortReason b) reason
    (modBank b (fun x => { x with calSteps := [] }) s)))

theorem calSteps_modBank (b : Nat) (r : List Nat) :
    ((modBank b (fun x => { x with calSteps := r }) s).bank b).calSteps = r :=
  (congrArg Bank.calSteps (bank_modBank_same s b fun x => { x with calSteps := r }) :)

theorem abortCal_running {b : Nat} (reason : Nat) (h : s.flag (F.feBankStatusCalRunning b) = true) :
    abortCal b reason s = endCal b 0x1003 (F.feBankEventsCalAborted b) reason (stopCal b reason s) :=
  if_neg (by simp [h])

theorem abortCal_idle {b : Nat} (reason : Nat) (h : s.flag (F.feBankStatusCalRunning b) = false) :
    abortCal b reason s = s := if_pos h

/-- An abort ends the calibration with its reason (R127, R128). -/
theorem abortCal_shows (b : BankId) {reason : Nat} (hr : reason < 256) (h : s.flag (F.feBankStatusCalRunning b) = true) :
    (abortCal b reason s).flag (F.feBankStatusCalRunning b) = false ∧
    (abortCal b reason s).getF (F.feCalStatusAbortReason b) = reason ∧
    ((abortCal b reason s).bank b).calSteps = [] := by
  have hcal := feCalStatus_key_ne_feBankStatus b
  rw [abortCal_running s reason h]
  refine ⟨?_, ?_, ?_⟩
  · rw [flag_of_getF (getF_endCal _ _ _ _ (F.feBankStatusCalRunning b) _ (reportOff_feBankStatus b)),
      flag_of_getF (getF_setF_key _ (feBankStatus_key_ne_feBankEvents b))]
    exact flag_setF_zero _ _ (by decide)
  · rw [getF_endCal _ _ _ _ (F.feCalStatusAbortReason b) _ (reportOff_feCalStatus b),
      getF_setF_key _ (feCalStatus_key_ne_feBankEvents b), stopCal, getF_setF_key _ hcal,
      getF_setF_apart _ _ (by decide) (by decide), getF_setF_bits _ _ (by decide) hr]
  · rw [bank_congr (endCal_banks _ _ _ _ _)]
    exact calSteps_modBank s b []

/-! ### A step ends (R125, R128) -/

/-- STEPS_VALID and UNCALIBRATED once step mask `run` is valid too. -/
def validate (b run : Nat) (s : State) : State :=
  setValid b ((BitVec.ofNat 5 (s.getF (F.feBankStatusStepsValid b)) ||| BitVec.ofNat 5 run).toNat) s

/-- The running step counts as done and as valid; after TDC_DENSITY the tile's temperature is kept (R128). -/
def keepStep (b : Nat) (temp : Int) (s : State) : State :=
  let run := s.getF (F.feCalStatusStepRunning b)
  let u := validate b run (setF (F.feCalStatusStepsDone b) (s.getF (F.feCalStatusStepsDone b) + run) s)
  if run = 4 then setF (F.feBankStatusTempDrift b) 0 (setF (F.feBankStatusTempAtCal b) (twos 8 temp) u) else u

@[simp] theorem keepStep_banks (b : Nat) (temp : Int) : (keepStep b temp s).banks = s.banks := by
  unfold keepStep
  dsimp only
  split <;> rfl

theorem rd_chCfg_keepStep (b : Nat) (temp : Int) (c : Nat) : (keepStep b temp s).rd (.chCfg b c) = s.rd (.chCfg b c) := by
  have hb := chCfg_key_ne_feBankStatus b c
  have hcal := chCfg_key_ne_feCalStatus b c
  unfold keepStep validate setValid
  dsimp only
  split <;> simp [rd_setF_ne, hb, hcal]

theorem validate_stepsValid (b : Nat) {run k : Nat} (hk : k < 5) (h : run = 2 ^ k) :
    ((validate b run s).getF (F.feBankStatusStepsValid b)).testBit k = true := by
  rw [validate, setValid, getF_setF_apart _ _ (by decide) (by decide),
    getF_setF_bits _ _ (by decide) (BitVec.isLt _), h]
  change BitVec.getLsbD _ k = true
  rw [BitVec.getLsbD_or, BitVec.getLsbD_ofNat _ (2 ^ k), Nat.testBit_two_pow_self]
  simp [hk]

theorem keepStep_stepsValid (b : Nat) (temp : Int) {k : Nat} (hk : k < 5)
    (h : s.getF (F.feCalStatusStepRunning b) = 2 ^ k) :
    ((keepStep b temp s).getF (F.feBankStatusStepsValid b)).testBit k = true := by
  unfold keepStep
  extract_lets run u
  have hu : (u.getF (F.feBankStatusStepsValid b)).testBit k = true := validate_stepsValid _ b hk h
  split
  · rw [getF_setF_apart _ _ (by decide) (by decide), getF_setF_apart _ _ (by decide) (by decide), hu]
  · exact hu

theorem keepStep_calRunning (b : Nat) (temp : Int) :
    (keepStep b temp s).flag (F.feBankStatusCalRunning b) = s.flag (F.feBankStatusCalRunning b) := by
  have hcal := (feCalStatus_key_ne_feBankStatus b).symm
  refine flag_of_getF ?_
  unfold keepStep validate setValid
  dsimp only
  split <;> simp [getF_setF_apart, getF_setF_key, hcal]

/-- The next step of a calibration runs. -/
def nextStep (b k : Nat) (r : List Nat) (s : State) : State :=
  setF (F.feCalStatusStepRunning b) (2 ^ k) (modBank b (fun x => { x with calSteps := r }) s)

/-- The last step of a calibration has run. -/
def lastStep (b : Nat) (s : State) : State :=
  setF (F.feBankStatusCalRunning b) 0 (setF (F.feCalStatusStepRunning b) 0 s)

/-- The comparators of a bank start low where `c` holds. -/
def lowIf (c : Prop) [Decidable c] (b : Nat) (s : State) : State := if c then comparatorsLow b s else s

theorem getF_lowIf (c : Prop) [Decidable c] (b : Nat) (x : Fld) : (lowIf c b s).getF x = s.getF x := by
  unfold lowIf
  split
  · exact getF_comparatorsLow s b x
  · rfl

theorem lowIf_calSteps (c : Prop) [Decidable c] (b : Nat) :
    ((lowIf c b s).bank b).calSteps = (s.bank b).calSteps := by
  unfold lowIf
  split
  · rw [comparatorsLow_bank]
    rfl
  · rfl

theorem calStepEnds_next {b : Nat} (temp : Int) {k : Nat} {r : List Nat} (h : (s.bank b).calSteps = k :: r) :
    calStepEnds b temp s = lowIf (k = 4) b (nextStep b k r (keepStep b temp s)) := by
  have hb : ((keepStep b temp s).bank b).calSteps = k :: r := by rw [bank_congr (keepStep_banks s b temp), h]
  unfold calStepEnds lowIf nextStep
  extract_lets run s1 s2 s3
  have h3 : s3 = keepStep b temp s := rfl
  rw [h3, hb]

theorem calStepEnds_last {b : Nat} (temp : Int) (h : (s.bank b).calSteps = []) :
    calStepEnds b temp s = endCal b 0x1002 (F.feBankEventsCalDone b) 0
      (lowIf (s.getF (F.feCalStatusStepRunning b) < 16) b (lastStep b (keepStep b temp s))) := by
  have hb : ((keepStep b temp s).bank b).calSteps = [] := by rw [bank_congr (keepStep_banks s b temp), h]
  unfold calStepEnds lowIf lastStep endCal
  extract_lets run s1 s2 s3
  have h3 : s3 = keepStep b temp s := rfl
  rw [h3, hb]
  rfl

theorem lastStep_calRunning (b : Nat) : (lastStep b s).flag (F.feBankStatusCalRunning b) = false :=
  flag_setF_zero _ _ (by decide)

theorem getF_lastStep_stepsValid (b : Nat) :
    (lastStep b s).getF (F.feBankStatusStepsValid b) = s.getF (F.feBankStatusStepsValid b) := by
  rw [lastStep, getF_setF_apart _ _ (by decide) (by decide),
    getF_setF_key _ (feCalStatus_key_ne_feBankStatus b).symm]

section
variable {s} {b : BankId} (temp : Int) {k : Nat} {r : List Nat}

/-- The next step of the mask runs after the one that completed (R125). -/
theorem calStepEnds_next_shows (h : (s.bank b).calSteps = k :: r) (hk : k < 5) :
    (calStepEnds b temp s).getF (F.feCalStatusStepRunning b) = 2 ^ k ∧
    ((calStepEnds b temp s).bank b).calSteps = r ∧
    (calStepEnds b temp s).flag (F.feBankStatusCalRunning b) = s.flag (F.feBankStatusCalRunning b) := by
  rw [calStepEnds_next s temp h, getF_lowIf, lowIf_calSteps]
  refine ⟨getF_setF_bits _ _ (by decide) (Nat.pow_lt_pow_right (by decide) hk),
    calSteps_modBank _ b r, ?_⟩
  rw [flag_of_getF (getF_lowIf _ _ b _), nextStep,
    flag_of_getF (getF_setF_key _ (feCalStatus_key_ne_feBankStatus b).symm),
    flag_of_getF (getF_modBank _ b _ _), keepStep_calRunning]

/-- After the last step of the mask the calibration is done (R125, R128). -/
theorem calStepEnds_last_shows (h : (s.bank b).calSteps = []) :
    (calStepEnds b temp s).getF (F.feCalStatusStepRunning b) = 0 ∧
    (calStepEnds b temp s).flag (F.feBankStatusCalRunning b) = false ∧
    (calStepEnds b temp s).flag (F.feBankEventsCalDone b) = true := by
  rw [calStepEnds_last s temp h]
  refine ⟨?_, ?_, ?_⟩
  · rw [getF_endCal _ _ _ _ (F.feCalStatusStepRunning b) _ (reportOff_feCalStatus b),
      getF_setF_key _ (feCalStatus_key_ne_feBankEvents b), getF_lowIf, lastStep,
      getF_setF_key _ (feCalStatus_key_ne_feBankStatus b), getF_setF_bits _ _ (by decide) (by decide)]
  · rw [flag_of_getF (getF_endCal _ _ _ _ (F.feBankStatusCalRunning b) _ (reportOff_feBankStatus b)),
      flag_of_getF (getF_setF_key _ (feBankStatus_key_ne_feBankEvents b)),
      flag_of_getF (getF_lowIf _ _ b _), lastStep_calRunning]
  · rw [flag_of_getF (getF_endCal _ _ _ _ (F.feBankEventsCalDone b) _ (reportOff_feBankEvents b))]
    exact flag_setF_one _ _ (by decide)

/-- The completed step is valid, whether another one runs after it or not (R128). -/
theorem calStepEnds_stepsValid (hk : k < 5) (h : s.getF (F.feCalStatusStepRunning b) = 2 ^ k) :
    ((calStepEnds b temp s).getF (F.feBankStatusStepsValid b)).testBit k = true := by
  cases hsteps : (s.bank b).calSteps with
  | cons j r =>
    rw [calStepEnds_next s temp hsteps, getF_lowIf, nextStep,
      getF_setF_key _ (feCalStatus_key_ne_feBankStatus b).symm, getF_modBank, keepStep_stepsValid s b temp hk h]
  | nil =>
    rw [calStepEnds_last s temp hsteps,
      getF_endCal _ _ _ _ (F.feBankStatusStepsValid b) _ (reportOff_feBankStatus b),
      getF_setF_key _ (feBankStatus_key_ne_feBankEvents b), getF_lowIf, getF_lastStep_stepsValid,
      keepStep_stepsValid s b temp hk h]

/-- The end of a step leaves the configuration of the channels. -/
theorem getF_chCfgDeskew_calStepEnds (c : ChanId) :
    (calStepEnds b temp s).getF (F.chCfgDeskew b c) = s.getF (F.chCfgDeskew b c) := by
  have hkeep : (keepStep b temp s).getF (F.chCfgDeskew b c) = s.getF (F.chCfgDeskew b c) :=
    congrArg _ (rd_chCfg_keepStep s b temp c)
  cases hsteps : (s.bank b).calSteps with
  | cons j r =>
    rw [calStepEnds_next s temp hsteps, getF_lowIf, nextStep, getF_setF_key _ (chCfg_key_ne_feCalStatus b c),
      getF_modBank, hkeep]
  | nil =>
    rw [calStepEnds_last s temp hsteps, getF_endCal _ _ _ _ (F.chCfgDeskew b c) _ (reportOff_chCfg b c),
      getF_setF_key _ (chCfg_key_ne_feBankEvents b c), getF_lowIf, lastStep,
      getF_setF_key _ (chCfg_key_ne_feBankStatus b c), getF_setF_key _ (chCfg_key_ne_feCalStatus b c), hkeep]

end

/-! ### The DESKEW of the channels (R127) -/

/-- A channel of a bank takes its DESKEW. -/
def setDeskew (b : Nat) (e : Nat × Nat) : State → State := setF (F.chCfgDeskew b e.2) e.1

/-- Channels of a bank take the values of `ds` as their DESKEW, from channel `n` on. -/
def setDeskews (b : Nat) (ds : List Nat) (n : Nat) (s : State) : State := each (setDeskew b) (ds.zipIdx n) s

theorem setDeskews_cons (b d : Nat) (ds : List Nat) (n : Nat) :
    setDeskews b (d :: ds) n s = setDeskews b ds (n + 1) (setDeskew b (d, n) s) := rfl

@[simp] theorem setDeskews_banks (b : Nat) (ds : List Nat) (n : Nat) : (setDeskews b ds n s).banks = s.banks := by
  rw [setDeskews]
  exact each_proj s State.banks (setDeskew b) (fun e u => setF_banks u _ _) _

/-- The registers of the other kinds stay. -/
theorem getF_setDeskews {q : Reg} (b : Nat) (hq : ∀ c, q.key ≠ (Reg.chCfg b c).key) (lo w : Nat) (ds : List Nat)
    (n : Nat) : (setDeskews b ds n s).getF ⟨q, lo, w⟩ = s.getF ⟨q, lo, w⟩ := by
  rw [setDeskews]
  exact each_proj s (State.getF · ⟨q, lo, w⟩) (setDeskew b) (fun e u => getF_setF_key u (hq e.2)) _

/-- The channels before the first one that is set keep theirs. -/
theorem getF_setDeskews_before (b : Nat) {c n : Nat} (h : c < n) (ds : List Nat) :
    (setDeskews b ds n s).getF (F.chCfgDeskew b c) = s.getF (F.chCfgDeskew b c) := by
  induction ds generalizing n s with
  | nil => rfl
  | cons d ds ih =>
    have hk : (Reg.chCfg b c).key ≠ (Reg.chCfg b n).key := by
      simp only [Reg.key, Reg.space, Reg.off]
      omega
    rw [setDeskews_cons, ih _ (Nat.lt_succ_of_lt h), setDeskew, getF_setF_key s hk]

/-- Each channel has its value. -/
theorem getF_setDeskews_at (b : Nat) {ds : List Nat} (hds : ∀ d ∈ ds, d < 2 ^ 11) {c : Nat} (h : c < ds.length)
    (n : Nat) : (setDeskews b ds n s).getF (F.chCfgDeskew b (n + c)) = ds.getD c 0 := by
  induction ds generalizing n s c with
  | nil => cases h
  | cons d ds ih =>
    obtain ⟨hd, hrest⟩ := List.forall_mem_cons.mp hds
    cases c with
    | zero =>
      rw [setDeskews_cons, Nat.add_zero n, getF_setDeskews_before _ b (Nat.lt_add_one n), setDeskew,
        getF_setF_bits _ _ (by decide) hd, List.getD_cons_zero]
    | succ c =>
      rw [setDeskews_cons, show n + (c + 1) = n + 1 + c by omega, ih _ hrest (Nat.lt_of_succ_lt_succ h), List.getD_cons_succ]

/-! ### CAL_STEP_DONE and CAL_EXT_TIMEOUT -/

/-- The DESKEW of the channels, from their mean labels (R127). -/
def deskews (means : List Nat) : List Nat := means.map (deskewOf (means.max?.getD 0))

/-- Step 4 fails: a channel lacks its edges, or a DESKEW exceeds 2,047 (R127). -/
def deskewFails (ds : List Nat) : Prop := ds.length < 64 ∨ ds.any (fun d => decide (2047 < d)) = true

section
variable {s} {b : BankId} {temp : Int} {means : List Nat}

theorem execCalStepDone_idle (h : s.flag (F.feBankStatusCalRunning b) = false) :
    execCalStepDone b temp means s = .next s := if_pos h

theorem execCalStepDone_fails (h : s.flag (F.feBankStatusCalRunning b) = true)
    (hr : s.getF (F.feCalStatusStepRunning b) = 16) (hf : deskewFails (deskews means)) :
    execCalStepDone b temp means s = done s (abortCal b (if (deskews means).length < 64 then 3 else 4) s) := by
  refine (if_neg (by simp [h])).trans <| (if_pos hr).trans ?_
  by_cases hl : (deskews means).length < 64
  · rw [if_pos hl]
    exact if_pos hl
  · rw [if_neg hl]
    exact (if_neg hl).trans (if_pos (hf.resolve_left hl))

theorem execCalStepDone_deskews (h : s.flag (F.feBankStatusCalRunning b) = true)
    (hr : s.getF (F.feCalStatusStepRunning b) = 16) (hf : ¬ deskewFails (deskews means)) :
    execCalStepDone b temp means s = done s (calStepEnds b temp (setDeskews b (deskews means) 0 s)) :=
  (if_neg (by simp [h])).trans <| (if_pos hr).trans <| (if_neg fun hl => hf (.inl hl)).trans <|
    if_neg fun ha => hf (.inr ha)

theorem execCalStepDone_else (h : s.flag (F.feBankStatusCalRunning b) = true)
    (hr : s.getF (F.feCalStatusStepRunning b) ≠ 16) :
    execCalStepDone b temp means s = done s (calStepEnds b temp s) :=
  (if_neg (by simp [h])).trans (if_neg hr)

end

/-- A write of FE_CAL_CTRL (R126). -/
theorem calCtrlWrite_shows (f : FnId) (b : BankId) (v : Word) :
    (bitsOf v.toNat 8 8 ≠ 0 → calStarts v → s.calAllowed b = true →
      (calCtrlWrite f b v s).flag (F.feBankStatusCalRunning b) = true ∧
      (calCtrlWrite f b v s).getF (F.feCalStatusStepsDone b) = 0 ∧
      ∀ k, k < 5 → (bitsOf v.toNat 0 5).testBit k = true →
        (∀ j, j < k → (bitsOf v.toNat 0 5).testBit j = false) →
        (calCtrlWrite f b v s).getF (F.feCalStatusStepRunning b) = 2 ^ k) ∧
    (bitsOf v.toNat 8 8 = 0 ∨ (calStarts v ∧ s.calAllowed b = false) →
      (calCtrlWrite f b v s).flag (F.feBankEventsCfgRefused b) = true ∧
      (calCtrlWrite f b v s).rd (.feCalCtrl b) = s.rd (.feCalCtrl b) ∧
      (calCtrlWrite f b v s).flag (F.feBankStatusCalRunning b) = s.flag (F.feBankStatusCalRunning b)) := by
  refine ⟨fun he hs ha => ?_, fun h => ?_⟩
  · rw [calCtrlWrite_starts he hs ha]
    exact startCal_shows _ b hs.2 (bitsOf_lt _ 0 5)
  · rw [calCtrlWrite_refused h]
    exact refused_feCalCtrl_shows s f b

/-- A step that completes, and does not fail: whether it set the DESKEW of the channels before or not (`u`), it is valid,
and the next one of the mask runs, or the calibration ends (R125, R128). -/
theorem calStepEnds_shows {u : State} {b : BankId} (temp : Int) (hbanks : u.banks = s.banks)
    (hrun : u.flag (F.feBankStatusCalRunning b) = true)
    (hstep : u.getF (F.feCalStatusStepRunning b) = s.getF (F.feCalStatusStepRunning b)) :
    (∀ k, k < 5 → s.getF (F.feCalStatusStepRunning b) = 2 ^ k →
      ((calStepEnds b temp u).getF (F.feBankStatusStepsValid b)).testBit k = true) ∧
    (∀ j r, (s.bank b).calSteps = j :: r → j < 5 →
      (calStepEnds b temp u).getF (F.feCalStatusStepRunning b) = 2 ^ j ∧
      ((calStepEnds b temp u).bank b).calSteps = r ∧
      (calStepEnds b temp u).flag (F.feBankStatusCalRunning b) = true) ∧
    ((s.bank b).calSteps = [] → (calStepEnds b temp u).getF (F.feCalStatusStepRunning b) = 0 ∧
      (calStepEnds b temp u).flag (F.feBankStatusCalRunning b) = false ∧
      (calStepEnds b temp u).flag (F.feBankEventsCalDone b) = true) := by
  rw [← bank_congr hbanks, ← hstep]
  refine ⟨fun k hk h => calStepEnds_stepsValid temp hk h, fun j r h hj => ?_, fun h => calStepEnds_last_shows temp h⟩
  obtain ⟨hnext, hsteps, hruns⟩ := calStepEnds_next_shows temp h hj
  exact ⟨hnext, hsteps, hruns.trans hrun⟩

theorem lt_of_not_deskewFails {ds : List Nat} (h : ¬ deskewFails ds) : ∀ d ∈ ds, d < 2 ^ 11 := fun d hd =>
  Nat.lt_succ_of_le (Nat.le_of_not_lt fun hlt => h (.inr (List.any_eq_true.mpr ⟨d, hd, decide_eq_true hlt⟩)))

/-- A step that completes (R125 to R128). -/
theorem execCalStepDone_shows {b : BankId} (temp : Int) {means : List Nat}
    (h : s.flag (F.feBankStatusCalRunning b) = true)
    (hf : ¬ (s.getF (F.feCalStatusStepRunning b) = 16 ∧ deskewFails (deskews means))) :
    ∃ u, execCalStepDone b temp means s = done s (calStepEnds b temp u) ∧ u.banks = s.banks ∧
      u.flag (F.feBankStatusCalRunning b) = true ∧
      u.getF (F.feCalStatusStepRunning b) = s.getF (F.feCalStatusStepRunning b) ∧
      (s.getF (F.feCalStatusStepRunning b) = 16 → (deskews means).length = 64 →
        ∀ c : ChanId, u.getF (F.chCfgDeskew b c) = (deskews means).getD c 0) := by
  by_cases hr : s.getF (F.feCalStatusStepRunning b) = 16
  · have hok : ¬ deskewFails (deskews means) := fun hd => hf ⟨hr, hd⟩
    refine ⟨_, execCalStepDone_deskews h hr hok, setDeskews_banks s b _ 0, ?_, ?_, fun _ hlen c => ?_⟩
    · rw [flag_of_getF (getF_setDeskews s b (fun c => (chCfg_key_ne_feBankStatus b c).symm) _ _ _ 0), h]
    · exact getF_setDeskews s b (fun c => (chCfg_key_ne_feCalStatus b c).symm) _ _ _ 0
    · have hlt : c.val < (deskews means).length := c.isLt.trans_eq hlen.symm
      have hc := getF_setDeskews_at s b (lt_of_not_deskewFails hok) hlt 0
      rwa [Nat.zero_add] at hc
  · exact ⟨s, execCalStepDone_else h hr, rfl, h, rfl, fun hr' => absurd hr' hr⟩

/-- Step 4 without its edges in time is aborted; at another instant the timeout changes nothing (R127). -/
theorem execCalExtTimeout_shows (b : BankId) : ∃ t, execCalExtTimeout b s = .next t ∧
    (s.flag (F.feBankStatusCalRunning b) = true → s.getF (F.feCalStatusStepRunning b) = 16 →
      t.flag (F.feBankStatusCalRunning b) = false ∧ t.getF (F.feCalStatusAbortReason b) = 3 ∧
      (t.bank b).calSteps = []) ∧
    (s.flag (F.feBankStatusCalRunning b) = false ∨ s.getF (F.feCalStatusStepRunning b) ≠ 16 → t = s) := by
  by_cases hr : s.getF (F.feCalStatusStepRunning b) = 16
  · cases hc : s.flag (F.feBankStatusCalRunning b) with
    | true =>
      refine ⟨_, if_pos hr, fun _ _ => abortCal_shows s b (by decide) hc, fun hn => ?_⟩
      exact absurd hr (hn.resolve_left (by decide))
    | false =>
      refine ⟨s, (if_pos hr).trans ?_, nofun, fun _ => rfl⟩
      rw [abortCal_idle s 3 hc, done_self]
  · exact ⟨s, if_neg hr, fun _ hr' => absurd hr' hr, fun _ => rfl⟩

/-- Settles O26, case by case of the write, of the step that completes, and of the timeout. -/
theorem calibrationRuns : Obligations.CalibrationRuns := by
  unfold Obligations.CalibrationRuns
  refine ⟨fun f b v s hf => ?_, fun b temp means s => ?_, fun b s => execCalExtTimeout_shows s b⟩
  · obtain ⟨hstarts, hrefused⟩ := calCtrlWrite_shows s f b v
    exact ⟨_, execCalStart_carriesOut s v hf, hstarts, fun he hs => calCtrlWrite_sets_shows s he hs, hrefused⟩
  · cases h : s.flag (F.feBankStatusCalRunning b) with
    | false => exact ⟨s, execCalStepDone_idle h, fun _ => rfl, nofun, nofun⟩
    | true =>
      by_cases hf : s.getF (F.feCalStatusStepRunning b) = 16 ∧ deskewFails (deskews means)
      · have hr : (if (deskews means).length < 64 then 3 else 4) < 256 := by split <;> decide
        obtain ⟨hidle, hreason, -⟩ := abortCal_shows s b hr h
        exact ⟨_, execCalStepDone_fails h hf.1 hf.2, nofun, fun _ hn => absurd hf hn,
          fun _ _ => ⟨hidle, hreason⟩⟩
      · obtain ⟨u, hdone, hbanks, hrun, hstep, hds⟩ := execCalStepDone_shows s temp h hf
        obtain ⟨hvalid, hnext, hlast⟩ := calStepEnds_shows s temp hbanks hrun hstep
        exact ⟨_, hdone, nofun,
          fun _ _ _ => ⟨hvalid, hnext, hlast, fun hr hlen c => (getF_chCfgDeskew_calStepEnds temp c).trans (hds hr hlen c)⟩,
          fun _ hn => absurd hn hf⟩

end Sys2Proof.Machine
end

section
/-! Proofs: halting the partitions leaves the state of management (R241, R472): packing, the records of the stream,
deliveries and pages touch the partitions, the banks and the completion queues alone. -/

namespace Sys2Proof.Machine

variable (s : State)

/-! ### Lists and alternatives of steps that leave management -/

@[simp] theorem each_mgmt {α : Type} (g : α → State → State) (h : ∀ a u, (g a u).mgmt = u.mgmt) (l : List α) :
    (each g l s).mgmt = s.mgmt := each_proj s State.mgmt g h l

@[simp] theorem ite_mgmt (c : Prop) [Decidable c] (t u : State) :
    (if c then t else u).mgmt = if c then t.mgmt else u.mgmt := apply_ite State.mgmt c t u

/-! ### Completion queues and buffers -/

@[simp] theorem raiseCtr_mgmt (code v : Nat) : (raiseCtr code v s).mgmt = s.mgmt := by simp [raiseCtr]
@[simp] theorem signalPair_mgmt (f n : Nat) : (signalPair f n s).mgmt = s.mgmt := by simp [signalPair]
@[simp] theorem consume_mgmt (p key did words : Nat) : (consume p key did words s).mgmt = s.mgmt := by simp [consume]
@[simp] theorem unpin_mgmt (p : Nat) (pages : List Nat) : (unpin p pages s).mgmt = s.mgmt := by simp [unpin]

theorem each_hostWrite_mgmt (f : Nat) (l : List (Nat × List Byte)) :
    (each (fun w => emit (.hostWrite f w.1 w.2 false)) l s).mgmt = s.mgmt :=
  each_mgmt s (fun w => emit (.hostWrite f w.1 w.2 false)) (fun _ _ => rfl) l

/-- A change of several banks leaves management. -/
theorem each_modBank_mgmt (g : Bank → Bank) (l : List Nat) : (each (fun b => modBank b g) l s).mgmt = s.mgmt :=
  each_mgmt s (fun b => modBank b g) (fun b u => modBank_mgmt u b g) l

@[simp] theorem writeCpl_mgmt (f n : Nat) (c : Cpl) : (writeCpl f n c s).mgmt = s.mgmt := by
  unfold writeCpl
  extract_lets tail used bytes s1 s2 s3 s4 s5 s6 s7 s8 s9
  have h4 : s4.mgmt = s.mgmt := (each_hostWrite_mgmt s f c.pre :)
  have h5 : s5.mgmt = s.mgmt := by
    simp only [s5]
    split <;> simp [h4]
  have h6 : s6.mgmt = s.mgmt := by
    simp only [s6]
    split <;> simp [h5]
  have h7 : s7.mgmt = s.mgmt := (each_hostWrite_mgmt s6 f c.post).trans h6
  have h8 : s8.mgmt = s.mgmt := by simp [s8, h7]
  simp [s9, h8]

@[simp] theorem writeHeld_mgmt (f n : Nat) (l : List Cpl) : (writeHeld f n l s).mgmt = s.mgmt := by
  induction l generalizing s with
  | nil => simp [writeHeld]
  | cons c r ih => simp [writeHeld, ih]

@[simp] theorem finishBufThen_mgmt (post : List (Nat × List Byte)) (f n bytes segId index status epoch flags : Nat)
    (consumes : Option (Nat × Nat × Nat × Nat)) :
    (finishBufThen post f n bytes segId index status epoch flags consumes s).mgmt = s.mgmt := by
  simp [finishBufThen, complete]

/-! ### Records of the stream -/

@[simp] theorem append_mgmt (p : Nat) (r : Rec) : (append p r s).mgmt = s.mgmt := by simp [append]
@[simp] theorem appendAll_mgmt (p : Nat) (rs : List Rec) : (appendAll p rs s).mgmt = s.mgmt := by simp [appendAll]
@[simp] theorem appendBank_mgmt (p b : Nat) (r : Rec) : (appendBank p b r s).mgmt = s.mgmt := by simp [appendBank]
@[simp] theorem writeDue_mgmt (p b : Nat) (forced : Bool) : (writeDue p b forced s).mgmt = s.mgmt := by
  simp [writeDue, ite_apply]
@[simp] theorem writeAfterDue_mgmt (p b : Nat) (r : Rec) : (writeAfterDue p b r s).mgmt = s.mgmt := by
  simp [writeAfterDue]

@[simp] theorem flushRun_mgmt (p b : Nat) (k : Bool) : (flushRun p b k s).mgmt = s.mgmt := by
  unfold flushRun
  extract_lets s1 x s2
  split <;> simp [s1, s2]

@[simp] theorem setEnc_mgmt (b pref cur : Nat) : (setEnc b pref cur s).mgmt = s.mgmt := by simp [setEnc]

@[simp] theorem oncePerFrame_mgmt (key : Nat) (g : State → State) (h : ∀ u, (g u).mgmt = u.mgmt) :
    (oncePerFrame key g s).mgmt = s.mgmt := by simp [oncePerFrame, h]

@[simp] theorem switchEnc_mgmt (p b enc cause blocks words : Nat) (at_ : Label) :
    (switchEnc p b enc cause blocks words at_ s).mgmt = s.mgmt := by simp [switchEnc]
@[simp] theorem limitBlock_mgmt (p b : Nat) (start upto : Label) : (limitBlock p b start upto s).mgmt = s.mgmt := by
  simp [limitBlock]
@[simp] theorem packTiming_mgmt (p b : Nat) (start upto : Label) (write : Bool) :
    (packTiming p b start upto write s).mgmt = s.mgmt := by simp [packTiming]
@[simp] theorem writeFrame_mgmt (p b : Nat) (start : Label) (resumed : Bool) :
    (writeFrame p b start resumed s).mgmt = s.mgmt := by simp [writeFrame]
@[simp] theorem writeBankGaps_mgmt (p b : Nat) (resume : Option Label) :
    (writeBankGaps p b resume s).mgmt = s.mgmt := by simp [writeBankGaps]
@[simp] theorem openRecords_mgmt (p b : Nat) (t : Label) : (openRecords p b t s).mgmt = s.mgmt := by simp [openRecords]
@[simp] theorem crossTo_mgmt (b : Nat) (t : Label) : (crossTo b t s).mgmt = s.mgmt := by simp [crossTo]
@[simp] theorem flushState_mgmt (p b : Nat) (k : Bool) : (flushState p b k s).mgmt = s.mgmt := by simp [flushState]
@[simp] theorem joinRun_mgmt (p b : Nat) (e : StateSample) : (joinRun p b e s).mgmt = s.mgmt := by
  unfold joinRun
  simp

@[simp] theorem packSample_mgmt (p b : Nat) (e : StateSample) : (packSample p b e s).mgmt = s.mgmt := by
  unfold packSample
  extract_lets s1 s2 s3 now
  have h1 : s1.mgmt = s.mgmt := by simp [s1]
  have h2 : s2.mgmt = s.mgmt := by
    simp only [s2]
    split <;> simp [h1]
  simp [s3, h1, h2]

@[simp] theorem packState_mgmt (p b : Nat) (upto : Label) (force k : Bool) :
    (packState p b upto force k s).mgmt = s.mgmt := by simp [packState]
@[simp] theorem writeStoreModes_mgmt (p : Nat) : (writeStoreModes p s).mgmt = s.mgmt := by simp [writeStoreModes]
@[simp] theorem packBlock_mgmt (p : Nat) (start upto : Label) (force : Bool) :
    (packBlock p start upto force s).mgmt = s.mgmt := by simp [packBlock]

@[simp] theorem packParts_mgmt (k p : Nat) (upto : Label) : (packParts k p upto s).mgmt = s.mgmt := by
  induction k generalizing s with
  | zero => rfl
  | succ k ih => simp [packParts, ih]

/-! ### Gaps -/

@[simp] theorem spreadGaps_mgmt (p : Nat) : (spreadGaps p s).mgmt = s.mgmt := by simp [spreadGaps]
@[simp] theorem writeGaps_mgmt (p : Nat) (resume : Option Label) : (writeGaps p resume s).mgmt = s.mgmt := by
  simp [writeGaps]
@[simp] theorem stopStoring_mgmt (p reason detail : Nat) (t : Label) :
    (stopStoring p reason detail t s).mgmt = s.mgmt := by simp [stopStoring, each_modBank_mgmt]

/-! ### Segments -/

@[simp] theorem countDead_mgmt (p dead : Nat) : (countDead p dead s).mgmt = s.mgmt := by simp [countDead]
@[simp] theorem setEnd_mgmt (p key : Nat) (t : Label) : (setEnd p key t s).mgmt = s.mgmt := by simp [setEnd]
@[simp] theorem emptySeg_mgmt (p key : Nat) : (emptySeg p key s).mgmt = s.mgmt := by
  unfold emptySeg
  split <;> simp

@[simp] theorem fixStart_mgmt (p : Nat) (g : Seg) : (fixStart p g s).mgmt = s.mgmt := by
  unfold fixStart
  extract_lets bound late
  split
  · simp
  · split
    · rfl
    · simp [modSegment]

@[simp] theorem fixReady_mgmt (p : Nat) : (fixReady p s).mgmt = s.mgmt := by
  refine each_mgmt s _ (fun k u => ?_) _
  split <;> simp

@[simp] theorem makeImago_mgmt (p key cause : Nat) (truncated : Bool) :
    (makeImago p key cause truncated s).mgmt = s.mgmt := by
  unfold makeImago
  split
  · rfl
  · simp

@[simp] theorem closeLost_mgmt (p b : Nat) : (closeLost p b s).mgmt = s.mgmt := by
  unfold closeLost
  split <;> simp

/-! ### Deliveries -/

@[simp] theorem modDelivery_mgmt (id : Nat) (g : Delivery → Delivery) : (modDelivery id g s).mgmt = s.mgmt := rfl
@[simp] theorem progNext_mgmt (f n : Nat) : (progNext f n s).mgmt = s.mgmt := rfl

@[simp] theorem abandonThen_mgmt (post : List (Nat × List Byte)) (id p segId epoch : Nat) :
    (abandonThen post id p segId epoch s).mgmt = s.mgmt := by
  unfold abandonThen
  extract_lets f n bufs last s1 s2
  have h2 : s2.mgmt = s1.mgmt := each_mgmt s1 _ (fun _ u => finishBufThen_mgmt u _ _ _ _ _ _ _ _ _ _) bufs
  simp [h2, s1]

@[simp] theorem writeSkip_mgmt (id : Nat) : (writeSkip id s).mgmt = s.mgmt := by
  unfold writeSkip
  split
  · simp [finishBuf]
  · rfl

@[simp] theorem skipSeg_mgmt (id segId epoch : Nat) : (skipSeg id segId epoch s).mgmt = s.mgmt := by
  unfold skipSeg
  split
  · rfl
  · extract_lets s1 s2
    have h1 : s1.mgmt = s.mgmt := by
      simp only [s1]
      split <;> simp
    split <;> simp [s2, h1]

@[simp] theorem dropFrom_mgmt (id p key segId epoch : Nat) : (dropFrom id p key segId epoch s).mgmt = s.mgmt := by
  unfold dropFrom
  extract_lets s1
  have h1 : s1.mgmt = s.mgmt := by
    simp only [s1]
    split <;> simp [abandonTaken]
  simp [h1]

@[simp] theorem dropEarly_mgmt (p key cand : Nat) (retracted : Bool) (id : Nat) :
    (dropEarly p key cand retracted id s).mgmt = s.mgmt := by
  unfold dropEarly
  split <;> simp

@[simp] theorem abandonSeg_mgmt (p key : Nat) : (abandonSeg p key s).mgmt = s.mgmt := by simp [abandonSeg]
@[simp] theorem abandonAll_mgmt (p : Nat) : (abandonAll p s).mgmt = s.mgmt := by simp [abandonAll]

/-! ### The end of what is armed -/

@[simp] theorem clearSeq_mgmt (p : Nat) (store : Bool) : (clearSeq p store s).mgmt = s.mgmt := by simp [clearSeq]
@[simp] theorem endArmed_mgmt (p cause : Nat) (upto : Label) : (endArmed p cause upto s).mgmt = s.mgmt := by
  unfold endArmed
  extract_lets x s1 s2 s3 s4 s5 s6 s7 s8 s9 s10
  have h1 : s1.mgmt = s.mgmt := by simp [s1]
  have h2 : s2.mgmt = s.mgmt := by simp [s2, h1]
  have h3 : s3.mgmt = s.mgmt := by simp [s3, h2]
  have h4 : s4.mgmt = s.mgmt := by simp [s4, h3]
  have h5 : s5.mgmt = s.mgmt := by simp [s5, h4]
  have h6 : s6.mgmt = s.mgmt := by rw [abandonAll_mgmt, h5]
  have h7 : s7.mgmt = s.mgmt := by simp [s7, h6]
  have h8 : s8.mgmt = s.mgmt := by rw [modPart_mgmt, h7]
  have h9 : s9.mgmt = s.mgmt := by simp [s9, h8]
  have h10 : s10.mgmt = s.mgmt := by rw [setF_mgmt, clearSeq_mgmt, modSeq_mgmt, h9]
  rw [each_mgmt s10 writeSkip (fun id u => writeSkip_mgmt u id), h10]
@[simp] theorem overflowStop_mgmt (p : Nat) : (overflowStop p s).mgmt = s.mgmt := by simp [overflowStop]

/-! ### Pages -/

@[simp] theorem releasePage_mgmt (p n : Nat) : (releasePage p n s).mgmt = s.mgmt := by simp [releasePage]
@[simp] theorem releasePages_mgmt (p : Nat) : (releasePages p s).mgmt = s.mgmt := by simp [releasePages]
@[simp] theorem holdPage_mgmt (p n : Nat) : (holdPage p n s).mgmt = s.mgmt := rfl

@[simp] theorem releaseSeg_mgmt (p : Nat) (g : Seg) : (releaseSeg p g s).mgmt = s.mgmt := by
  unfold releaseSeg
  extract_lets s1 s2
  have h2 : s2.mgmt = s1.mgmt := by
    refine each_mgmt s1 _ (fun id u => ?_) _
    split <;> simp
  simp [h2, s1]

@[simp] theorem atLimit_mgmt (p : Nat) : (atLimit p s).mgmt = s.mgmt := by simp [atLimit]
@[simp] theorem stopForPages_mgmt (p : Nat) : (stopForPages p s).mgmt = s.mgmt := rfl

theorem limitStep_mgmt (p : Nat) {t : State} (h : limitStep p s = some t) : t.mgmt = s.mgmt := by
  unfold limitStep at h
  extract_lets x at h
  split at h
  case h_1 =>
    obtain ⟨-, ht⟩ := Option.ite_none_right_eq_some.mp h
    cases ht
    simp
  case h_2 =>
    split at h
    · cases h
      simp
    · split at h
      · split at h <;> cases h <;> simp
      · cases h
  case h_3 =>
    split at h
    · cases h
      simp
    · cases h

@[simp] theorem holdPages_mgmt (k p : Nat) : (holdPages k p s).mgmt = s.mgmt := by
  induction k generalizing s with
  | zero => rfl
  | succ k ih =>
    unfold holdPages
    split
    · rfl
    · split
      · simp [ih]
      · extract_lets u
        have hu : u.mgmt = s.mgmt := atLimit_mgmt s p
        split
        next t ht => rw [ih, limitStep_mgmt u p ht, hu]
        next => simp [ih, hu]

@[simp] theorem releaseLate_mgmt (p : Nat) : (releaseLate p s).mgmt = s.mgmt := by
  refine each_mgmt s _ (fun k u => ?_) _
  split <;> simp

@[simp] theorem countUndeliv_mgmt (p : Nat) : (countUndeliv p s).mgmt = s.mgmt := by simp [countUndeliv]
@[simp] theorem clearLimit_mgmt (p : Nat) : (clearLimit p s).mgmt = s.mgmt := by simp [clearLimit]

@[simp] theorem forgetSegs_mgmt (p : Nat) : (forgetSegs p s).mgmt = s.mgmt := by
  refine each_mgmt s _ (fun g u => ?_) _
  split
  · extract_lets on ds v
    have hv : v.mgmt = u.mgmt := by
      refine each_mgmt u _ (fun id w => ?_) _
      split <;> simp
    simp [hv]
  · rfl

@[simp] theorem unbind_mgmt (id : Nat) : (unbind id s).mgmt = s.mgmt := by
  unfold unbind
  split <;> simp

@[simp] theorem endDone_mgmt (id : Nat) : (endDone id s).mgmt = s.mgmt := by
  unfold endDone
  split <;> simp

@[simp] theorem settle_mgmt (p : Nat) : (settle p s).mgmt = s.mgmt := by simp [settle]

/-! ### Sequencer, detectors and banks -/

@[simp] theorem startSeq_mgmt (p : Nat) (t : Label) : (startSeq p t s).mgmt = s.mgmt := by
  unfold startSeq
  extract_lets u
  have hu : u.mgmt = s.mgmt := clearSeq_mgmt _ _ _
  rw [setF_mgmt, modSeq_mgmt, hu]
@[simp] theorem resumeSeq_mgmt (p : Nat) (t : Label) : (resumeSeq p t s).mgmt = s.mgmt := by
  unfold resumeSeq
  split
  · rw [postPart_mgmt, setF_mgmt, startSeq_mgmt, abandonAll_mgmt]
  · rfl
@[simp] theorem restartDet_mgmt (t : Label) (n : Nat) : (restartDet t n s).mgmt = s.mgmt := setDet_mgmt s _ _
@[simp] theorem restartDets_mgmt (b : Nat) (t : Label) : (restartDets b t s).mgmt = s.mgmt := by simp [restartDets]
@[simp] theorem stopDets_mgmt (b : Nat) : (stopDets b s).mgmt = s.mgmt :=
  (each_mgmt _ _ (fun n u => modDet_mgmt u n fun d => { lastTime := d.lastTime, lastAux := d.lastAux, ue := d.ue }) _).trans
    (modBank_mgmt s b _)
@[simp] theorem restartGpsOf_mgmt (p b : Nat) : (restartGpsOf p b s).mgmt = s.mgmt := by simp [restartGpsOf]
@[simp] theorem restartGps_mgmt (p : Nat) : (restartGps p s).mgmt = s.mgmt :=
  each_mgmt s _ (fun g u => modDet_mgmt u (128 + g) fun d => { d with matched := false, events := [] }) _
@[simp] theorem restartBank_mgmt (p b : Nat) (t : Label) : (restartBank p b t s).mgmt = s.mgmt := by simp [restartBank]
@[simp] theorem startBank_mgmt (p b : Nat) (t : Label) : (startBank p b t s).mgmt = s.mgmt := by simp [startBank]
@[simp] theorem openBank_mgmt (p b : Nat) (t : Label) : (openBank p b t s).mgmt = s.mgmt := by simp [openBank]
@[simp] theorem backAt_mgmt (p b : Nat) (e : Label) : (backAt p b e s).mgmt = s.mgmt := by simp [backAt]
@[simp] theorem resumeBank_mgmt (p b : Nat) (t : Label) : (resumeBank p b t s).mgmt = s.mgmt := by simp [resumeBank]
@[simp] theorem stoppedPiece_mgmt (b : Nat) (t : Label) : (stoppedPiece b t s).mgmt = s.mgmt := by simp [stoppedPiece]

/-! ### Block boundaries -/

@[simp] theorem resumePart_mgmt (p : Nat) (t : Label) : (resumePart p t s).mgmt = s.mgmt := by simp [resumePart]
@[simp] theorem queueRoom_mgmt (p : Nat) (t : Label) : (queueRoom p t s).mgmt = s.mgmt := by simp [queueRoom]
@[simp] theorem takeStops_mgmt (p : Nat) (t : Label) : (takeStops p t s).mgmt = s.mgmt := by simp [takeStops]
@[simp] theorem oneBlock_mgmt (p : Nat) (start upto : Label) : (oneBlock p start upto s).mgmt = s.mgmt := by
  simp [oneBlock]

@[simp] theorem blocksUpTo_mgmt (k p : Nat) (t : Label) : (blocksUpTo k p t s).mgmt = s.mgmt := by
  induction k generalizing s with
  | zero => rfl
  | succ k ih => simp [blocksUpTo, ih]

@[simp] theorem blocksTo_mgmt (p : Nat) (t : Label) : (blocksTo p t s).mgmt = s.mgmt := by simp [blocksTo]
@[simp] theorem finishFills_mgmt (p : Nat) : (finishFills p s).mgmt = s.mgmt := by simp [finishFills]
@[simp] theorem haltPart_mgmt (p : Nat) : (haltPart p s).mgmt = s.mgmt := by simp [haltPart]

end Sys2Proof.Machine
end

section
/-! Proofs: resets of the device and losses of its supplies (R379, R469 to R472, R512): what LAST_RESET names, what
management keeps, and the power domains. -/

namespace Sys2Proof.Machine

variable (s : State)

/-! ### The power domains (R463) -/

theorem reportOff_pwrStat {d : Nat} (hd : d < 32) : reportOff ((Reg.pwrStat d).key % 0x100000) = false := by
  have hoff : (Reg.pwrStat d).key % 0x100000 = 0x70000 + d * 4 := by
    simp only [Reg.key, Reg.space, Reg.off]
    omega
  simp only [hoff, reportOff, Bool.or_eq_false_iff, Bool.and_eq_false_iff, beq_eq_false_iff_ne, decide_eq_false_iff_not]
  omega

theorem pwrStat_key_ne {d e : Nat} (h : d ≠ e) : (Reg.pwrStat d).key ≠ (Reg.pwrStat e).key := by
  simp only [Reg.key, Reg.space, Reg.off]
  omega

/-- A domain is in its new state already, or enters it between reports. -/
theorem setDomain_eq (d st : Nat) : (setDomain d st s = s ∧ s.domain d = st) ∨
    ∃ u, Quiet s u ∧ Quiet (setF (F.pwrStatState d) st u) (setDomain d st s) := by
  unfold setDomain
  extract_lets was s1 s2
  by_cases hw : was = st
  · exact .inl ⟨if_pos hw, hw⟩
  · rw [if_neg hw]
    have h1 : Quiet s s1 := ((Quiet.refl s).stopInterval _).trans { Quiet.refl _ with }
    refine .inr ⟨s1, h1, ?_⟩
    split
    · exact (Quiet.refl _).bump _ _
    · exact Quiet.refl _

@[simp] theorem setDomain_mgmt (d st : Nat) : (setDomain d st s).mgmt = s.mgmt := by
  obtain ⟨he, -⟩ | ⟨u, hu, hq⟩ := setDomain_eq s d st
  · rw [he]
  · rw [hq.mgmt, setF_mgmt, hu.mgmt]

theorem domain_setDomain_same {d st : Nat} (hd : d < 32) (hst : st < 4) : (setDomain d st s).domain d = st := by
  obtain ⟨he, hs⟩ | ⟨u, -, hq⟩ := setDomain_eq s d st
  · rw [he, hs]
  · rw [State.domain, hq.getF (F.pwrStatState d) (reportOff_pwrStat hd), getF_setF_bits _ _ (by decide) hst]

/-- Fields of other registers that reports do not write stay. -/
theorem getF_setDomain {d st : Nat} {x : Fld} (h : reportOff (x.reg.key % 0x100000) = false)
    (hk : x.reg.key ≠ (Reg.pwrStat d).key) : (setDomain d st s).getF x = s.getF x := by
  obtain ⟨he, -⟩ | ⟨u, hu, hq⟩ := setDomain_eq s d st
  · rw [he]
  · rw [hq.getF x h, getF_setF_ne u (F.pwrStatState d) x st hk, hu.getF x h]

theorem domain_setDomain_ne {d e st : Nat} (he : e < 32) (h : e ≠ d) : (setDomain d st s).domain e = s.domain e :=
  getF_setDomain s (reportOff_pwrStat he) (pwrStat_key_ne h)

/-- Every domain of a list enters one state. -/
theorem domain_each_setDomain {l : List Nat} (hl : l.Nodup) {d st : Nat} (hm : d ∈ l) (hd : d < 32) (hst : st < 4) :
    (each (fun e => setDomain e st) l s).domain d = st :=
  each_at s (State.domain · d) (fun e => setDomain e st) (fun _ => True) d (fun _ => st) (fun _ _ h => h)
    (fun u _ => domain_setDomain_same u hd hst) (fun _ u hb => domain_setDomain_ne u hd hb.symm) l hl hm trivial

@[simp] theorem comparatorsLow_mgmt (b : Nat) : (comparatorsLow b s).mgmt = s.mgmt := rfl
@[simp] theorem showStraps_mgmt : (showStraps s).mgmt = s.mgmt := rfl

@[simp] theorem domainsUp_mgmt : (domainsUp s).mgmt = s.mgmt := by
  refine each_mgmt s _ (fun d u => ?_) _
  extract_lets off u1 u2
  have h1 : u1.mgmt = u.mgmt := setDomain_mgmt u d _
  have h2 : u2.mgmt = u.mgmt := by
    simp only [u2]
    split <;> simp [h1]
  rw [setF_mgmt, setF_mgmt, setF_mgmt, h2]

/-! ### PERST# and a hot reset (R470 to R472) -/

/-- RST_STATUS names the reset, and whether capture memory kept its power (R471, R472). -/
theorem deviceReset_names {kind : Nat} (hk : kind < 16) (kept : Bool) :
    (deviceReset kind kept s).getF F.rstStatusLastReset = kind ∧
    (deviceReset kind kept s).flag F.rstStatusHbmKept = kept := by
  unfold deviceReset
  extract_lets hot s1 s2 s3 running ps words valid m cicWas cic clk t1 t2 t3 t4 t5
  have hmiss : ∀ x : Fld, x.misses F.rstStatusCoeffRestored → x.misses F.rstStatusCalAborted →
      x.lo + x.width ≤ 32 → (setF F.rstStatusCalAborted (bit !running.isEmpty)
        (setF F.rstStatusCoeffRestored (bit valid) t5)).getF x = t5.getF x := fun x h1 h2 hx => by
    rw [getF_setF_misses _ _ _ _ (by decide) h2, getF_setF_misses _ _ _ _ (by decide) h1]
  refine ⟨?_, ?_⟩
  · rw [hmiss _ (by decide) (by decide) (by decide)]
    exact getF_setF_bits _ _ (by decide) hk
  · rw [flag_of_getF (hmiss _ (by decide) (by decide) (by decide)),
      flag_of_getF (getF_setF_misses _ F.rstStatusHbmKept F.rstStatusLastReset kind (by decide) (by decide))]
    exact flag_setF_bit _ _ _ (by decide) rfl

/-- Of management, PERST# keeps the state of the supplies; PERST# is asserted from then on. -/
theorem deviceReset_mgmt (kept : Bool) : (deviceReset 2 kept s).mgmt.perst = true ∧
    (deviceReset 2 kept s).mgmt.d3cold = s.mgmt.d3cold := by
  unfold deviceReset
  extract_lets hot s1 s2 s3 running ps words valid m cicWas cic clk t1 t2 t3 t4 t5
  have hs1 : s1.mgmt = s.mgmt := rfl
  have hs2 : s2.mgmt = s1.mgmt := by
    simp only [s2]
    rw [each_mgmt s1 haltPart (fun p u => haltPart_mgmt u p)]
  have hs3 : s3 = s2 := by
    simp only [s3]
    exact if_neg (by decide)
  have hm : m = s.mgmt := by
    simp only [m]
    rw [hs3, hs2, hs1]
  have h2 : t2.mgmt = t1.mgmt := by
    simp only [t2]
    rw [each_mgmt t1 releasePages (fun p u => releasePages_mgmt u p)]
  have h3 : t3.mgmt = t1.mgmt := by rw [setF_mgmt, domainsUp_mgmt, showStraps_mgmt, h2]
  have h4 : t4.mgmt = t1.mgmt := by
    rw [each_mgmt t3 (fun b => setF (F.feCalStatusAbortReason b) 2) (fun b u => setF_mgmt u _ _), h3]
  have h5 : t5.mgmt = t1.mgmt := by rw [setF_mgmt, setF_mgmt, setF_mgmt, h4]
  rw [setF_mgmt, setF_mgmt, h5]
  have hperst : t1.mgmt.perst = (m.perst || !hot) := by simp only [t1]
  have hcold : t1.mgmt.d3cold = m.d3cold := by simp only [t1]
  rw [hperst, hcold, hm]
  exact ⟨Bool.or_true _, rfl⟩

theorem execPerstAssert_shows :
    (s.mgmt.perst = false → ∃ t, execPerstAssert s = .next t ∧ t.mgmt.perst = true ∧
      t.getF F.rstStatusLastReset = 2 ∧ t.flag F.rstStatusHbmKept = true) ∧
    (s.mgmt.perst = true → execPerstAssert s = .next s) := by
  refine ⟨fun h => ?_, fun h => (if_pos h).trans (done_self s)⟩
  have hdone : execPerstAssert s = done s (deviceReset 2 true s) := if_neg (by simp [h])
  obtain ⟨hlast, hkept⟩ := deviceReset_names s (kind := 2) (by decide) true
  obtain ⟨hperst, -⟩ := deviceReset_mgmt s true
  generalize deviceReset 2 true s = u at hdone hlast hkept hperst
  exact ⟨_, hdone, hperst, hlast, hkept⟩

/-! ### The supplies (R379, R453, R469, R512) -/

/-- The domains beside PD1. -/
theorem mem_mainDomains {d : Nat} (h : 2 ≤ d) (h' : d ≤ 30) : d ∈ (List.range 29).map (· + 2) :=
  List.mem_map.mpr ⟨d - 2, List.mem_range.mpr (by omega), by omega⟩

theorem nodup_mainDomains : ((List.range 29).map (· + 2)).Nodup := by decide

theorem pwrStat_key_ne_epWakeCfg {d : Nat} (hd : d < 32) (f : Nat) : (Reg.pwrStat d).key ≠ (Reg.epWakeCfg f).key := by
  simp only [Reg.key, Reg.space, Reg.off]
  omega

/-- A register word of each function is stored. -/
def setWake (e : Nat × Word) (s : State) : State := wr (.epWakeCfg e.1) e.2 s

theorem domain_each_setWake {d : Nat} (hd : d < 32) (l : List (Nat × Word)) :
    (each setWake l s).domain d = s.domain d :=
  each_proj s (State.domain · d) setWake
    (fun e u => congrArg _ (rd_wr_ne u (pwrStat_key_ne_epWakeCfg hd e.1) e.2)) l

/-- Main power is gone, and the domains have not left their states yet. -/
def railsOff (s : State) : State :=
  setF F.csStatusSyspllLocked 0 { s with mgmt := { s.mgmt with rails := false }, clk := {} }

/-- Every domain beside PD1 is off; words of PD1 are restored. -/
def domainsOff (wake : List (Nat × Word)) (s : State) : State :=
  each setWake wake (each (fun d => setDomain d 3) ((List.range 29).map (· + 2)) s)

theorem domainsOff_mgmt (wake : List (Nat × Word)) : (domainsOff wake s).mgmt = s.mgmt := by
  rw [domainsOff, each_mgmt _ setWake (fun e u => wr_mgmt u _ _),
    each_mgmt s (fun d => setDomain d 3) (fun d u => setDomain_mgmt u d 3)]

theorem domain_domainsOff (wake : List (Nat × Word)) {d : Nat} (h : 2 ≤ d) (h' : d ≤ 30) :
    (domainsOff wake s).domain d = 3 := by
  rw [domainsOff, domain_each_setWake _ (by omega),
    domain_each_setDomain s nodup_mainDomains (mem_mainDomains h h') (by omega) (by decide)]

theorem powerLost_eq : ∃ wake last, powerLost s =
    domainsOff wake (railsOff (setF F.rstStatusLastReset last (deviceReset 2 false s))) := by
  unfold powerLost
  generalize deviceReset 2 false s = u
  exact ⟨_, _, rfl⟩

/-- Without main power every domain beside PD1 is off (R379). -/
theorem powerLost_shows : (powerLost s).mgmt.rails = false ∧ (powerLost s).mgmt.d3cold = s.mgmt.d3cold ∧
    ∀ d, 2 ≤ d → d ≤ 30 → (powerLost s).domain d = 3 := by
  obtain ⟨-, hcold⟩ := deviceReset_mgmt s false
  obtain ⟨wake, last, he⟩ := powerLost_eq s
  rw [he, domainsOff_mgmt, ← hcold]
  exact ⟨rfl, rfl, fun d h h' => domain_domainsOff _ wake h h'⟩

theorem execD3coldEntry_shows : ∃ t, execD3coldEntry s = .next t ∧ t.mgmt.rails = false ∧ t.mgmt.d3cold = true ∧
    ∀ d, 2 ≤ d → d ≤ 30 → t.domain d = 3 := by
  obtain ⟨hrails, hcold, hoff⟩ := powerLost_shows { s with mgmt := { s.mgmt with d3cold := true, perst := true } }
  have hdone : execD3coldEntry s = done s (powerLost { s with mgmt := { s.mgmt with d3cold := true, perst := true } }) :=
    rfl
  generalize powerLost { s with mgmt := { s.mgmt with d3cold := true, perst := true } } = u at hdone hrails hcold hoff
  exact ⟨_, hdone, hrails, hcold, hoff⟩

/-- The residency that begins to count leaves the registers and management. -/
theorem startResidency_regs : (startResidency s).regs = s.regs :=
  each_proj s State.regs (fun d s => startInterval (residencyItem d (s.domain d)) s) (fun _ _ => rfl) _
theorem startResidency_mgmt : (startResidency s).mgmt = s.mgmt :=
  each_mgmt s (fun d s => startInterval (residencyItem d (s.domain d)) s) (fun _ _ => rfl) _

theorem fusedEpoch_showStraps : (showStraps s).getF F.secStatusFusedEpoch = s.mgmt.fusedEpoch % 512 := by
  rw [showStraps, getF_setF_same _ F.secStatusFusedEpoch _ (by decide)]
  rfl

/-- PD1 has power; PERST# is asserted. -/
def vauxUp (s : State) : State := { s with mgmt := { s.mgmt with vaux := true, perst := true } }

theorem execVauxPowerOn_eq (h : s.mgmt.vaux = false) : ∃ u, execVauxPowerOn s = done s u ∧
    u.mgmt = (vauxUp s).mgmt ∧ u.getF F.secStatusFusedEpoch = s.mgmt.fusedEpoch % 512 := by
  refine ⟨startResidency (showStraps (vauxUp s)), ?_, ?_, ?_⟩
  · rw [execVauxPowerOn, if_neg (by simp [h]), vauxUp]
  · rw [startResidency_mgmt, showStraps_mgmt]
  · rw [getF_congr (startResidency_regs _), fusedEpoch_showStraps, vauxUp]

theorem execVauxPowerOn_shows :
    (s.mgmt.vaux = false → ∃ t, execVauxPowerOn s = .next t ∧ t.mgmt.vaux = true ∧ t.mgmt.perst = true ∧
      t.getF F.secStatusFusedEpoch = s.mgmt.fusedEpoch % 512) ∧
    (s.mgmt.vaux = true → execVauxPowerOn s = .next s) := by
  refine ⟨fun h => ?_, fun h => (if_pos h).trans (done_self s)⟩
  obtain ⟨u, hdone, hmgmt, hepoch⟩ := execVauxPowerOn_eq s h
  exact ⟨_, hdone, congrArg Mgmt.vaux hmgmt, congrArg Mgmt.perst hmgmt, hepoch⟩

theorem execVauxLoss_shows : ∃ t, execVauxLoss s = .next t ∧ t.regs = State.reset.regs ∧ t.fns = State.reset.fns ∧
    t.mgmt.vaux = State.reset.mgmt.vaux ∧ t.mgmt.fusedEpoch = s.mgmt.fusedEpoch ∧ t.mgmt.revoked = s.mgmt.revoked ∧
    t.mgmt.flashA = s.mgmt.flashA ∧ t.mgmt.flashB = s.mgmt.flashB :=
  ⟨_, rfl, rfl, rfl, rfl, rfl, rfl, rfl, rfl⟩

/-- Main power becomes valid: the straps are sampled, the system PLL locks (R469). -/
theorem execMainRailsValid_shows (dual src : Bool) :
    (s.mgmt.rails = false ∨ s.mgmt.tripped = true → ∃ t, execMainRailsValid dual src s = .next t ∧
      t.mgmt.rails = true ∧ t.mgmt.dualPort = dual ∧ t.mgmt.devidSrc = src ∧ t.mgmt.tripped = false ∧
      t.flag F.csStatusSyspllLocked = true) ∧
    (s.mgmt.rails = true → s.mgmt.tripped = false → execMainRailsValid dual src s = .next s) := by
  refine ⟨fun h => ?_, fun hr ht => (if_pos ⟨hr, ht⟩).trans (done_self s)⟩
  let m := { s.mgmt with dualPort := dual, devidSrc := src, rails := true, perst := true, d3cold := false, tripped := false }
  let v := setF F.thermStatusSteps (s.getF F.thermStatusSteps % 8) { s with mgmt := m }
  let u := each comparatorsLow (List.range 8) (domainsUp (showStraps v))
  have hdone : execMainRailsValid dual src s = done s (setF F.csStatusSyspllLocked 1 u) := by
    refine if_neg fun ⟨hr, ht⟩ => ?_
    simp [hr, ht] at h
  have hu : u.mgmt = m :=
    (each_mgmt _ comparatorsLow (fun b u => comparatorsLow_mgmt u b) _).trans (domainsUp_mgmt (showStraps v))
  have hlock : (setF F.csStatusSyspllLocked 1 u).flag F.csStatusSyspllLocked = true := flag_setF_one _ _ (by decide)
  generalize u = w at hdone hu hlock
  exact ⟨_, hdone, congrArg Mgmt.rails hu, congrArg Mgmt.dualPort hu, congrArg Mgmt.devidSrc hu,
    congrArg Mgmt.tripped hu, hlock⟩

/-- What a main rail out of its limits does: a reset as at PERST#, unless PERST# holds and capture memory keeps its
power. -/
def railReset (perst : Bool) (kept : Prop) [Decidable kept] (s : State) : State :=
  if perst ∧ kept then s else deviceReset 2 (decide kept) s

/-- A rail has failed; PERST# is as it was. -/
def railFailed (perst : Bool) (s : State) : State :=
  { s with mgmt := { s.mgmt with railFault := true, perst := perst } }

/-- A main rail out of its limits acts as PERST#, and leaves the pin (R512). -/
theorem execRailFault_shows (rail : Fin 8) :
    (rail.val ≠ 7 → s.mgmt.rails = true → ∃ t, execRailFault rail s = .next t ∧ t.mgmt.railFault = true ∧
      t.mgmt.perst = s.mgmt.perst ∧ (s.mgmt.perst = false ∨ rail.val = 3 ∨ rail.val = 4 →
        t.getF F.rstStatusLastReset = 2 ∧
          t.flag F.rstStatusHbmKept = (decide (rail.val ≠ 3) && decide (rail.val ≠ 4)))) ∧
    (rail.val = 7 ∨ s.mgmt.rails = false → execRailFault rail s = .next s) := by
  refine ⟨fun h7 hr => ?_, fun h => (if_pos h).trans (done_self s)⟩
  have hdone : execRailFault rail s =
      done s (railFailed s.mgmt.perst (railReset s.mgmt.perst (rail.val ≠ 3 ∧ rail.val ≠ 4) s)) :=
    if_neg (by simp [h7, hr])
  have hnames : s.mgmt.perst = false ∨ rail.val = 3 ∨ rail.val = 4 →
      (railReset s.mgmt.perst (rail.val ≠ 3 ∧ rail.val ≠ 4) s).getF F.rstStatusLastReset = 2 ∧
      (railReset s.mgmt.perst (rail.val ≠ 3 ∧ rail.val ≠ 4) s).flag F.rstStatusHbmKept =
        (decide (rail.val ≠ 3) && decide (rail.val ≠ 4)) := fun hc => by
    have hn : ¬ (s.mgmt.perst = true ∧ (rail.val ≠ 3 ∧ rail.val ≠ 4)) := fun ⟨hp, h3, h4⟩ => by simp [hp, h3, h4] at hc
    rw [railReset, if_neg hn, ← Bool.decide_and]
    exact deviceReset_names s (by decide) _
  generalize railReset s.mgmt.perst (rail.val ≠ 3 ∧ rail.val ≠ 4) s = u at hdone hnames
  exact ⟨_, hdone, rfl, rfl, hnames⟩

end Sys2Proof.Machine
end

section
/-! Proofs: the boot ROM and the image it boots (PERST_RELEASE, HOT_RESET, BOOT_IMAGE_VERIFIED, CERT_AREA_READ_DONE; R434,
R438, R439, R442). -/

namespace Sys2Proof.Machine

variable (s : State)

/-! ### The choice of a copy (R434) -/

/-- The boot ROM has checked both headers; `ca` and `cb` are the codes of their first failed checks. -/
def romChecked (ca cb : Nat) (s : State) : State :=
  setF F.bootStatusFailA ca (setF F.bootStatusFailB cb
    { s with mgmt := { s.mgmt with releasedAt := s.elapsed, fireflyDown := false } })

theorem headerCheck_congr {s t : State} (h : t.mgmt.revoked = s.mgmt.revoked)
    (h' : t.mgmt.fusedEpoch = s.mgmt.fusedEpoch) (i : ImageCopy) : t.headerCheck i = s.headerCheck i := by
  simp only [State.headerCheck, State.signedCheck, h, h']

theorem headerCheck_lt (i : ImageCopy) : s.headerCheck i < 2 ^ 4 := by
  unfold State.headerCheck State.signedCheck
  grind

section
variable {s} {a b : ImageCopy} (ha : s.mgmt.flashA = some a) (hb : s.mgmt.flashB = some b)
include ha hb

theorem bootRom_eq : bootRom s =
    (let v := romChecked (s.headerCheck a) (s.headerCheck b) s
    if s.headerCheck a = 0 then
      if s.headerCheck b = 0 then if bFirst a b then readCopy b true (some a) v else readCopy a false (some b) v
      else readCopy a false none v
    else if s.headerCheck b = 0 then readCopy b true none v else enterRecovery v) := by
  unfold bootRom
  extract_lets m ca cb s1 s2 v
  have hca : ca = s.headerCheck a := by simp only [ca, m, ha]
  have hcb : cb = s.headerCheck b := by simp only [cb, m, hb]
  have hv : s2 = v := by simp only [s2, s1, v, hca, hcb, romChecked, m]
  have hfa : m.flashA.filter (fun _ => ca == 0) = if s.headerCheck a = 0 then some a else none := by
    simp only [m, ha, hca, Option.filter_some, beq_iff_eq]
  have hfb : m.flashB.filter (fun _ => cb == 0) = if s.headerCheck b = 0 then some b else none := by
    simp only [m, hb, hcb, Option.filter_some, beq_iff_eq]
  rw [hfa, hfb, hv]
  clear_value v
  by_cases hA : s.headerCheck a = 0 <;> by_cases hB : s.headerCheck b = 0 <;> simp only [hA, hB, if_true, if_false]

/-- Copy A is read where its header passes, and copy B's fails or does not come first. -/
theorem bootRom_readsA (h : s.headerCheck a = 0) (h' : s.headerCheck b ≠ 0 ∨ bFirst a b = false) :
    ∃ o, bootRom s = readCopy a false o (romChecked (s.headerCheck a) (s.headerCheck b) s) := by
  rw [bootRom_eq ha hb]
  dsimp only
  rw [if_pos h]
  by_cases hB : s.headerCheck b = 0
  · have hf : bFirst a b = false := h'.resolve_left (not_not_intro hB)
    exact ⟨some b, by rw [if_pos hB, if_neg (by simp [hf])]⟩
  · exact ⟨none, by rw [if_neg hB]⟩

/-- Copy B is read where its header passes, and copy A's fails or copy B comes first. -/
theorem bootRom_readsB (h : s.headerCheck b = 0) (h' : s.headerCheck a ≠ 0 ∨ bFirst a b = true) :
    ∃ o, bootRom s = readCopy b true o (romChecked (s.headerCheck a) (s.headerCheck b) s) := by
  rw [bootRom_eq ha hb]
  dsimp only
  by_cases hA : s.headerCheck a = 0
  · have hf : bFirst a b = true := h'.resolve_left (not_not_intro hA)
    exact ⟨some a, by rw [if_pos hA, if_pos h, if_pos hf]⟩
  · exact ⟨none, by rw [if_neg hA, if_pos h]⟩

/-- Without a copy whose header passes, recovery is entered. -/
theorem bootRom_recovers (h : s.headerCheck a ≠ 0) (h' : s.headerCheck b ≠ 0) :
    bootRom s = enterRecovery (romChecked (s.headerCheck a) (s.headerCheck b) s) := by
  rw [bootRom_eq ha hb]
  dsimp only
  rw [if_neg h, if_neg h']

end

/-- Whatever the flash holds, the boot ROM reads a copy, or enters recovery, once it has checked both. -/
theorem bootRom_cases : ∃ ca cb, (∀ a, s.mgmt.flashA = some a → ca = s.headerCheck a) ∧
    (∀ b, s.mgmt.flashB = some b → cb = s.headerCheck b) ∧
    ((∃ i copyB o, bootRom s = readCopy i copyB o (romChecked ca cb s)) ∨
      bootRom s = enterRecovery (romChecked ca cb s)) := by
  unfold bootRom
  extract_lets m ca cb s1 s2
  refine ⟨ca, cb, fun a ha => ?_, fun b hb => ?_, ?_⟩
  · simp only [ca, m, ha]
  · simp only [cb, m, hb]
  · have hv : s2 = romChecked ca cb s := by simp only [s2, s1, romChecked, m]
    rw [hv]
    split
    · split
      · exact .inl ⟨_, _, _, rfl⟩
      · exact .inl ⟨_, _, _, rfl⟩
    · exact .inl ⟨_, _, _, rfl⟩
    · exact .inl ⟨_, _, _, rfl⟩
    · exact .inr rfl

/-! ### What the boot ROM leaves and shows -/

section
variable {x : Fld} (hp : x.misses F.bootStatusPhase)
include hp

theorem getF_readCopy (i : ImageCopy) (copyB : Bool) (o : Option ImageCopy) :
    (readCopy i copyB o s).getF x = s.getF x := getF_setF_misses _ x F.bootStatusPhase _ (by decide) hp

theorem getF_enterRecovery (hs : x.misses F.secStatusSecState) (hi : x.misses (F.identCapRecovery 0)) :
    (enterRecovery s).getF x = s.getF x := by
  rw [enterRecovery, getF_setF_misses _ x F.bootStatusPhase _ (by decide) hp,
    getF_setF_misses _ x F.secStatusSecState _ (by decide) hs,
    getF_setF_misses _ x (F.identCapRecovery 0) _ (by decide) hi]
  rfl

end

theorem recovery_enterRecovery : (enterRecovery s).recovery = true := by
  rw [State.recovery, enterRecovery, getF_setF_bits _ _ (by decide) (by decide)]
  rfl

theorem phase_readCopy (i : ImageCopy) (copyB : Bool) (o : Option ImageCopy) :
    (readCopy i copyB o s).getF F.bootStatusPhase = if copyB then 2 else 1 := by
  rw [readCopy, getF_setF_bits _ _ (by decide) (by split <;> decide)]

/-- What the boot ROM shows of its checks, whichever way it goes. -/
theorem getF_bootRom {x : Fld} (hp : x.misses F.bootStatusPhase) (hs : x.misses F.secStatusSecState)
    (hi : x.misses (F.identCapRecovery 0)) : ∃ ca cb, (∀ a, s.mgmt.flashA = some a → ca = s.headerCheck a) ∧
      (∀ b, s.mgmt.flashB = some b → cb = s.headerCheck b) ∧ (bootRom s).getF x = (romChecked ca cb s).getF x := by
  obtain ⟨ca, cb, ha, hb, ⟨i, copyB, o, he⟩ | he⟩ := bootRom_cases s
  · exact ⟨ca, cb, ha, hb, by rw [he, getF_readCopy _ hp]⟩
  · exact ⟨ca, cb, ha, hb, by rw [he, getF_enterRecovery _ hp hs hi]⟩

theorem lastReset_bootRom : (bootRom s).getF F.rstStatusLastReset = s.getF F.rstStatusLastReset := by
  obtain ⟨ca, cb, -, -, he⟩ := getF_bootRom s (x := F.rstStatusLastReset) (by decide) (by decide) (by decide)
  rw [he, romChecked, getF_setF_misses _ _ _ _ (by decide) (by decide), getF_setF_misses _ _ _ _ (by decide) (by decide)]
  rfl

/-- The codes of the checks that the headers fail (R439). -/
theorem fails_bootRom {a b : ImageCopy} (ha : s.mgmt.flashA = some a) (hb : s.mgmt.flashB = some b) :
    (bootRom s).getF F.bootStatusFailA = s.headerCheck a ∧ (bootRom s).getF F.bootStatusFailB = s.headerCheck b := by
  refine ⟨?_, ?_⟩
  · obtain ⟨ca, cb, hca, -, he⟩ := getF_bootRom s (x := F.bootStatusFailA) (by decide) (by decide) (by decide)
    rw [he, romChecked, hca a ha, getF_setF_bits _ _ (by decide) (headerCheck_lt s a)]
  · obtain ⟨ca, cb, -, hcb, he⟩ := getF_bootRom s (x := F.bootStatusFailB) (by decide) (by decide) (by decide)
    rw [he, romChecked, hcb b hb, getF_setF_misses _ _ _ _ (by decide) (by decide),
      getF_setF_bits _ _ (by decide) (headerCheck_lt s b)]

/-- What the boot ROM leaves of management. -/
theorem bootRom_mgmt : (bootRom s).mgmt.perst = s.mgmt.perst ∧ (bootRom s).mgmt.wakePin = s.mgmt.wakePin ∧
    (bootRom s).mgmt.flashA = s.mgmt.flashA ∧ (bootRom s).mgmt.flashB = s.mgmt.flashB := by
  obtain ⟨ca, cb, -, -, ⟨i, copyB, o, he⟩ | he⟩ := bootRom_cases s
  · rw [he]
    exact ⟨rfl, rfl, rfl, rfl⟩
  · rw [he]
    exact ⟨rfl, rfl, rfl, rfl⟩

/-! ### HOT_RESET (R470 to R472) -/

theorem execHotReset_shows :
    (s.mgmt.perst = false ∧ s.mgmt.railFault = false ∧ s.mgmt.rails = true ∧ s.mgmt.dualPort = false →
      execHotReset s = .next { hotReset s with pending := s.pending } ∧
      (hotReset s).getF F.rstStatusLastReset = 3) ∧
    (¬ (s.mgmt.perst = false ∧ s.mgmt.railFault = false ∧ s.mgmt.rails = true ∧ s.mgmt.dualPort = false) →
      execHotReset s = .next s) := by
  have hcond : (s.mgmt.perst ∨ s.mgmt.railFault ∨ s.mgmt.rails = false ∨ s.mgmt.dualPort) ↔
      ¬ (s.mgmt.perst = false ∧ s.mgmt.railFault = false ∧ s.mgmt.rails = true ∧ s.mgmt.dualPort = false) := by
    simp only [← Bool.not_eq_true, not_and_or, not_not]
  refine ⟨fun h => ⟨if_neg (fun hc => hcond.mp hc h), ?_⟩, fun h => (if_pos (hcond.mpr h)).trans (done_self s)⟩
  rw [hotReset, lastReset_bootRom]
  exact (deviceReset_names s (by decide) true).1

/-! ### PERST_RELEASE (R434) -/

/-- PERST# is released, and WAKE#; the flash holds two copies. -/
def perstReleased (a b : ImageCopy) (s : State) : State :=
  { s with mgmt := { s.mgmt with flashA := some a, flashB := some b, perst := false, wakePin := false } }

/-- The boot ROM runs where main power is good. -/
theorem execPerstRelease_eq (a b : ImageCopy) (h : s.mgmt.perst = true) : ∃ u, u.mgmt = (perstReleased a b s).mgmt ∧
    u.regs = s.regs ∧ execPerstRelease a b s =
      if s.mgmt.rails ∧ s.mgmt.railFault = false then done s (bootRom u) else done s u := by
  refine ⟨if s.mgmt.wakePin then emit (.wake false) (perstReleased a b s) else perstReleased a b s, ?_, ?_,
    if_neg (by simp [h])⟩
  · split <;> rfl
  · split <;> rfl

/-- What the boot ROM makes of two copies, after PERST#. -/
theorem bootRom_chooses {a b : ImageCopy} (ha : s.mgmt.flashA = some a) (hb : s.mgmt.flashB = some b) :
    (s.headerCheck a = 0 → (s.headerCheck b ≠ 0 ∨ bFirst a b = false) →
      (bootRom s).mgmt.booting = some a ∧ (bootRom s).mgmt.bootCopyB = false ∧
      (bootRom s).getF F.bootStatusPhase = 1) ∧
    (s.headerCheck b = 0 → (s.headerCheck a ≠ 0 ∨ bFirst a b = true) →
      (bootRom s).mgmt.booting = some b ∧ (bootRom s).mgmt.bootCopyB = true ∧
      (bootRom s).getF F.bootStatusPhase = 2) ∧
    (s.headerCheck a ≠ 0 → s.headerCheck b ≠ 0 → (bootRom s).recovery = true) := by
  refine ⟨fun h h' => ?_, fun h h' => ?_, fun h h' => ?_⟩
  · obtain ⟨o, he⟩ := bootRom_readsA ha hb h h'
    rw [he, phase_readCopy]
    exact ⟨rfl, rfl, rfl⟩
  · obtain ⟨o, he⟩ := bootRom_readsB ha hb h h'
    rw [he, phase_readCopy]
    exact ⟨rfl, rfl, rfl⟩
  · rw [bootRom_recovers ha hb h h', recovery_enterRecovery]

theorem execPerstRelease_shows (a b : ImageCopy) (h : s.mgmt.perst = true) :
    ∃ t, execPerstRelease a b s = .next t ∧ t.mgmt.perst = false ∧ t.mgmt.wakePin = false ∧
      t.mgmt.flashA = some a ∧ t.mgmt.flashB = some b ∧
      (s.mgmt.rails = false ∨ s.mgmt.railFault = true → t.regs = s.regs) ∧
      (s.mgmt.rails = true → s.mgmt.railFault = false →
        t.getF F.bootStatusFailA = s.headerCheck a ∧ t.getF F.bootStatusFailB = s.headerCheck b ∧
        (s.headerCheck a = 0 → (s.headerCheck b ≠ 0 ∨ bFirst a b = false) →
          t.mgmt.booting = some a ∧ t.mgmt.bootCopyB = false ∧ t.getF F.bootStatusPhase = 1) ∧
        (s.headerCheck b = 0 → (s.headerCheck a ≠ 0 ∨ bFirst a b = true) →
          t.mgmt.booting = some b ∧ t.mgmt.bootCopyB = true ∧ t.getF F.bootStatusPhase = 2) ∧
        (s.headerCheck a ≠ 0 → s.headerCheck b ≠ 0 → t.recovery = true)) := by
  obtain ⟨u, hm, hregs, hdone⟩ := execPerstRelease_eq s a b h
  have hA : u.mgmt.flashA = some a := congrArg Mgmt.flashA hm
  have hB : u.mgmt.flashB = some b := congrArg Mgmt.flashB hm
  have hcheck : ∀ i, u.headerCheck i = s.headerCheck i :=
    headerCheck_congr ((congrArg Mgmt.revoked hm).trans rfl) ((congrArg Mgmt.fusedEpoch hm).trans rfl)
  by_cases hgood : s.mgmt.rails ∧ s.mgmt.railFault = false
  · rw [if_pos hgood] at hdone
    obtain ⟨hperst, hwake, hfa, hfb⟩ := bootRom_mgmt u
    obtain ⟨hfailA, hfailB⟩ := fails_bootRom u hA hB
    have hchooses := bootRom_chooses u hA hB
    rw [hcheck] at hfailA hfailB
    rw [hcheck, hcheck] at hchooses
    have hbad : ¬ (s.mgmt.rails = false ∨ s.mgmt.railFault = true) := by simp [hgood]
    generalize bootRom u = v at *
    exact ⟨_, hdone, hperst.trans (congrArg Mgmt.perst hm), hwake.trans (congrArg Mgmt.wakePin hm), hfa.trans hA,
      hfb.trans hB, fun hc => absurd hc hbad, fun _ _ => ⟨hfailA, hfailB, hchooses⟩⟩
  · rw [if_neg hgood] at hdone
    exact ⟨_, hdone, congrArg Mgmt.perst hm, congrArg Mgmt.wakePin hm, hA, hB, fun _ => hregs,
      fun hr hf => absurd ⟨hr, hf⟩ hgood⟩

/-! ### BOOT_IMAGE_VERIFIED and CERT_AREA_READ_DONE (R434, R438, R439) -/

theorem payloadCheck_lt (i : ImageCopy) : payloadCheck i < 2 ^ 4 := by
  unfold payloadCheck digestCheck
  split
  · split <;> decide
  · decide

theorem bit_lt_four (v : Bool) : bit v < 2 ^ 2 := by cases v <;> decide

/-- An image boots: Scarab is released, and SOURCE names where it came from. -/
theorem bootImage_shows (i : ImageCopy) {source : Nat} (h : source < 2 ^ 2) :
    (bootImage i source s).mgmt.running = some i ∧ (bootImage i source s).getF F.bootStatusPhase = 4 ∧
    (bootImage i source s).getF F.secStatusSource = source := by
  unfold bootImage
  extract_lets m s1 s2 s3 s4
  have h4 : s4.mgmt = s3.mgmt := by
    simp only [s4]
    split
    · exact setF_mgmt s3 _ _
    · rfl
  have h3 : s3.mgmt = s1.mgmt := by
    simp only [s3, s2]
    rw [setF_mgmt, setF_mgmt, setF_mgmt, setF_mgmt, setF_mgmt]
  have hsource : s4.getF F.secStatusSource = s3.getF F.secStatusSource := by
    simp only [s4]
    split
    · exact getF_setF_misses _ _ _ _ (by decide) (by decide)
    · rfl
  refine ⟨?_, ?_, ?_⟩
  · rw [setF_mgmt, setF_mgmt, h4, h3]
  · exact getF_setF_bits _ _ (by decide) (by decide)
  · rw [getF_setF_misses _ _ _ _ (by decide) (by decide), getF_setF_misses _ _ _ _ (by decide) (by decide), hsource,
      getF_setF_misses _ _ _ _ (by decide) (by decide), getF_setF_misses _ _ _ _ (by decide) (by decide),
      getF_setF_misses _ _ _ _ (by decide) (by decide), getF_setF_bits _ _ (by decide) h]

/-- FAIL_A or FAIL_B, the field of a copy's failed check (R439). -/
def failField (copyB : Bool) : Fld := if copyB then F.bootStatusFailB else F.bootStatusFailA

theorem failField_width (copyB : Bool) : (failField copyB).lo + (failField copyB).width ≤ 32 ∧
    (failField copyB).width = 4 := by cases copyB <;> decide

/-- It is not among the fields that the boot ROM writes next. -/
theorem failField_misses (copyB : Bool) : (failField copyB).misses F.bootStatusPhase ∧
    (failField copyB).misses F.secStatusSecState ∧ (failField copyB).misses (F.identCapRecovery 0) := by
  cases copyB <;> decide

/-- The failed check of a copy is stored in its field. -/
theorem failField_set (copyB : Bool) (c : Nat) :
    (if copyB then setF F.bootStatusFailB c s else setF F.bootStatusFailA c s) = setF (failField copyB) c s := by
  cases copyB <;> rfl

section
variable {s} {i : ImageCopy} (hi : s.mgmt.booting = some i)
include hi

theorem execBootImageVerified_boots (h : payloadCheck i = 0) :
    execBootImageVerified s.mgmt.bootCopyB s = done s (bootImage i (bit s.mgmt.bootCopyB) s) := by
  simp [execBootImageVerified, hi, h]

/-- The copy whose payload fails a check shows it, and gives way to the other one. -/
theorem execBootImageVerified_readsOther (h : payloadCheck i ≠ 0) {j : ImageCopy} (ho : s.mgmt.other = some j) :
    execBootImageVerified s.mgmt.bootCopyB s =
      done s (readCopy j (!s.mgmt.bootCopyB) none (setF (failField s.mgmt.bootCopyB) (payloadCheck i) s)) := by
  simp only [execBootImageVerified, hi, ho, h, failField_set, ne_eq, not_true, if_false]

/-- Without another copy recovery is entered. -/
theorem execBootImageVerified_recovers (h : payloadCheck i ≠ 0) (ho : s.mgmt.other = none) :
    execBootImageVerified s.mgmt.bootCopyB s =
      done s (enterRecovery (setF (failField s.mgmt.bootCopyB) (payloadCheck i) s)) := by
  simp only [execBootImageVerified, hi, ho, h, failField_set, ne_eq, not_true, if_false]

end

theorem execBootImageVerified_idle {copyB : Bool} (h : s.mgmt.booting = none ∨ s.mgmt.bootCopyB ≠ copyB) :
    execBootImageVerified copyB s = .next s := by
  unfold execBootImageVerified
  split
  · exact done_self s
  next i hi => exact (if_pos (h.resolve_left (by simp [hi]))).trans (done_self s)

theorem execBootImageVerified_shows {i : ImageCopy} (hi : s.mgmt.booting = some i) :
    ∃ t, execBootImageVerified s.mgmt.bootCopyB s = .next t ∧
      (payloadCheck i = 0 → t.mgmt.running = some i ∧ t.getF F.bootStatusPhase = 4 ∧
        t.getF F.secStatusSource = bit s.mgmt.bootCopyB) ∧
      (payloadCheck i ≠ 0 → t.getF (failField s.mgmt.bootCopyB) = payloadCheck i ∧
        (s.mgmt.other = none → t.recovery = true) ∧
        ∀ j, s.mgmt.other = some j → t.mgmt.booting = some j ∧ t.mgmt.bootCopyB = !s.mgmt.bootCopyB) := by
  by_cases h : payloadCheck i = 0
  · have hshows := bootImage_shows s i (bit_lt_four s.mgmt.bootCopyB)
    exact ⟨_, execBootImageVerified_boots hi h, fun _ => hshows, fun hn => absurd h hn⟩
  · obtain ⟨hfits, hwidth⟩ := failField_width s.mgmt.bootCopyB
    obtain ⟨hphase, hsec, hident⟩ := failField_misses s.mgmt.bootCopyB
    have hu : (setF (failField s.mgmt.bootCopyB) (payloadCheck i) s).getF (failField s.mgmt.bootCopyB) =
        payloadCheck i := by
      rw [getF_setF_same s _ _ hfits, hwidth, Nat.mod_eq_of_lt (payloadCheck_lt i)]
    cases ho : s.mgmt.other with
    | none =>
      have hdone := execBootImageVerified_recovers hi h ho
      generalize setF (failField s.mgmt.bootCopyB) (payloadCheck i) s = u at hdone hu
      have hfail := (getF_enterRecovery u hphase hsec hident).trans hu
      have hrec := recovery_enterRecovery u
      exact ⟨_, hdone, fun hn => absurd hn h, fun _ => ⟨hfail, fun _ => hrec, nofun⟩⟩
    | some j =>
      have hdone := execBootImageVerified_readsOther hi h ho
      generalize setF (failField s.mgmt.bootCopyB) (payloadCheck i) s = u at hdone hu
      have hfail := (getF_readCopy u hphase j (!s.mgmt.bootCopyB) none).trans hu
      refine ⟨_, hdone, fun hn => absurd hn h, fun _ => ⟨hfail, nofun, ?_⟩⟩
      rintro _ ⟨⟩
      exact ⟨rfl, rfl⟩

theorem execCertAreaReadDone_shows (area : CertArea) :
    (s.mgmt.running.isSome = true → ∃ t, execCertAreaReadDone area s = .next t ∧ t.mgmt.certsRead = true ∧
      t.flag F.bootStatusCertsInvalid = !certAreaOk area) ∧
    (s.mgmt.running = none → execCertAreaReadDone area s = .next s) := by
  refine ⟨fun h => ⟨_, if_neg ?_, rfl, flag_setF_bit _ _ _ (by decide) rfl⟩, fun h => (if_pos ?_).trans (done_self s)⟩
  · rw [Option.isNone_iff_eq_none]
    exact Option.isSome_iff_ne_none.mp h
  · rw [h, Option.isNone_none]

end Sys2Proof.Machine
end

section
/-! Proofs: bring-up after the boot (REDUCED_SERVICE_DECLARED, HBM_TRAINING_DONE, ECLOSION; R129, R132, R447 to R450),
and the statement that resets lead to it. -/

namespace Sys2Proof.Machine

variable (s : State)

/-! ### Reduced service (R129, R132, R447) -/

/-- What no entry of a list changes is as before. -/
theorem each_keeps {α β : Type} (π : State → β) (g : α → State → State) (l : List α)
    (h : ∀ a ∈ l, ∀ u, π (g a u) = π u) : π (each g l s) = π s := by
  induction l generalizing s with
  | nil => rfl
  | cons a l ih =>
    obtain ⟨ha, hl⟩ := List.forall_mem_cons.mp h
    rw [each, ih _ hl, ha]

/-- What the loss of a bank's coefficients leaves: all but DESKEW of its channels and its FE_BANK_STATUS. -/
theorem getF_dropCoefficients {q : Reg} {b : Nat} (hc : ∀ c, c < 64 → q.key ≠ (Reg.chCfg b c).key)
    (hs : q.key ≠ (Reg.feBankStatus b).key) (lo w : Nat) :
    (dropCoefficients b s).getF ⟨q, lo, w⟩ = s.getF ⟨q, lo, w⟩ := by
  unfold dropCoefficients setValid
  extract_lets u
  have hu : u.getF ⟨q, lo, w⟩ = s.getF ⟨q, lo, w⟩ := by
    simp only [u]
    split
    · exact each_keeps s (State.getF · ⟨q, lo, w⟩)
        (fun c s => setL (F.chCfgDeskew b c) 0 (setF (F.chCfgDeskew b c) 0 s)) _
        (fun c hm v => getF_setF_key v (hc c (List.mem_range.mp hm)))
    · rfl
  rw [getF_setF_key _ hs, getF_setF_key _ hs, getF_setF_key _ hs, hu]

theorem dropCoefficients_mgmt (b : Nat) : (dropCoefficients b s).mgmt = s.mgmt := by
  unfold dropCoefficients setValid
  extract_lets u
  rw [setF_mgmt, setF_mgmt, setF_mgmt]
  simp only [u]
  split
  · exact each_mgmt s (fun c s => setL (F.chCfgDeskew b c) 0 (setF (F.chCfgDeskew b c) 0 s)) (fun _ _ => rfl) _
  · rfl

theorem stepsValid_dropCoefficients (b : Nat) : (dropCoefficients b s).getF (F.feBankStatusStepsValid b) = 0 := by
  unfold dropCoefficients setValid
  rw [getF_setF_apart _ _ (by decide) (by decide), getF_setF_apart _ _ (by decide) (by decide),
    getF_setF_bits _ _ (by decide) (by decide)]

theorem feBankStatus_key_ne_chCfg (b b' : Nat) {c : Nat} (hc : c < 64) :
    (Reg.feBankStatus b').key ≠ (Reg.chCfg b c).key := by
  simp only [Reg.key, Reg.space, Reg.off]
  omega

theorem feBankStatus_key_ne {b c : Nat} (h : b ≠ c) : (Reg.feBankStatus b).key ≠ (Reg.feBankStatus c).key := by
  simp only [Reg.key, Reg.space, Reg.off]
  omega

theorem stepsValid_dropCoefficients_ne {b c : Nat} (h : c ≠ b) :
    (dropCoefficients c s).getF (F.feBankStatusStepsValid b) = s.getF (F.feBankStatusStepsValid b) :=
  getF_dropCoefficients s (q := .feBankStatus b) (b := c) (fun _ hk => feBankStatus_key_ne_chCfg c b hk)
    (feBankStatus_key_ne h.symm) 0 5

/-- The coefficients of the banks of a list are absent, and those of the others stay. -/
theorem stepsValid_each_dropCoefficients {l : List Nat} (hl : l.Nodup) (b : Nat) :
    (each dropCoefficients l s).getF (F.feBankStatusStepsValid b) =
      if b ∈ l then 0 else s.getF (F.feBankStatusStepsValid b) := by
  by_cases hm : b ∈ l
  · rw [if_pos hm]
    exact each_at s (State.getF · (F.feBankStatusStepsValid b)) dropCoefficients (fun _ => True) b (fun _ => 0)
      (fun _ _ h => h) (fun u _ => stepsValid_dropCoefficients u b)
      (fun c u hc => stepsValid_dropCoefficients_ne u hc) l hl hm trivial
  · rw [if_neg hm]
    exact each_keeps s (State.getF · (F.feBankStatusStepsValid b)) dropCoefficients l fun c hc u =>
      stepsValid_dropCoefficients_ne u (ne_of_mem_of_not_mem hc hm)

theorem bank_modBank_ne {b c : Nat} (h : b ≠ c) (g : Bank → Bank) : (modBank c g s).bank b = s.bank b :=
  bank_setBank_ne s h _

/-- The bank samples as reduced service gives it. -/
theorem slowBank_slow (b : Nat) : ((slowBank b s).bank b).slow = true := by
  unfold slowBank lowL
  exact (congrArg Bank.slow (bank_modBank_same _ b _)).trans
    (congrArg Bank.slow (bank_modBank_same s b fun x => { x with slow := true }) :)

theorem slowBank_keeps_slow {b c : Nat} (h : (s.bank b).slow = true) : ((slowBank c s).bank b).slow = true := by
  by_cases hc : b = c
  · rw [hc, slowBank_slow]
  · unfold slowBank lowL
    rw [bank_modBank_ne _ hc, bank_modBank_ne _ hc, h]

@[simp] theorem slowBank_mgmt (b : Nat) : (slowBank b s).mgmt = s.mgmt := rfl
@[simp] theorem slowBank_regs (b : Nat) : (slowBank b s).regs = s.regs := rfl

theorem slowBanks_shows : (each slowBank [0, 1] s).mgmt = s.mgmt ∧ (each slowBank [0, 1] s).regs = s.regs ∧
    ∀ b, b < 2 → ((each slowBank [0, 1] s).bank b).slow = true := by
  have he : each slowBank [0, 1] s = slowBank 1 (slowBank 0 s) := rfl
  rw [he]
  refine ⟨by rw [slowBank_mgmt, slowBank_mgmt], by rw [slowBank_regs, slowBank_regs], fun b hb => ?_⟩
  have h0 := slowBank_keeps_slow (slowBank 0 s) (c := 1) (slowBank_slow s 0)
  have h1 := slowBank_slow (slowBank 0 s) 1
  interval_cases b
  · exact h0
  · exact h1

/-- The state as it is declared in reduced service, before bring-up goes on. -/
def declared (s : State) : State :=
  let left := (List.range 8).any fun b => s.getF (F.feBankStatusStepsValid b) != 0
  setF F.bootStatusPhase 5 (setF F.mgmtStatusRunning 1
    (setF F.rstStatusCoeffRestored (bit (s.flag F.rstStatusCoeffRestored && left)) s))

theorem declared_shows : (declared s).getF F.bootStatusPhase = 5 ∧ (declared s).flag F.mgmtStatusRunning = true ∧
    (declared s).mgmt = s.mgmt ∧ (declared s).banks = s.banks ∧
    ∀ b, b < 8 → (declared s).getF (F.feBankStatusStepsValid b) = s.getF (F.feBankStatusStepsValid b) := by
  unfold declared
  extract_lets left
  refine ⟨getF_setF_bits _ _ (by decide) (by decide), ?_, rfl, rfl, fun b hb => ?_⟩
  · rw [flag_of_getF (getF_setF_misses _ F.mgmtStatusRunning F.bootStatusPhase _ (by decide) (by decide))]
    exact flag_setF_one _ _ (by decide)
  · have hk : ∀ q ∈ [Reg.bootStatus, Reg.mgmtStatus, Reg.rstStatus], (Reg.feBankStatus b).key ≠ q.key := by
      intro q hq
      simp only [List.mem_cons, List.mem_nil_iff, or_false] at hq
      obtain rfl | rfl | rfl := hq <;> simp only [Reg.key, Reg.space, Reg.off] <;> omega
    rw [getF_setF_key _ (hk _ (by simp)), getF_setF_key _ (hk _ (by simp)), getF_setF_key _ (hk _ (by simp))]

/-- Scarab runs, and bring-up owes a calibration. -/
def scarabUp (s : State) : State := { s with mgmt := { s.mgmt with scarabDown := false, calDue := true } }

theorem execReducedServiceDeclared_eq (bad : BitVec 8) (h : s.getF F.bootStatusPhase = 4) :
    execReducedServiceDeclared s bad = done s (bringUp (declared (each slowBank [0, 1]
      (each dropCoefficients ((List.range 8).filter bad.getLsbD) (scarabUp s))))) := by
  refine (if_neg (not_not_intro h)).trans ?_
  rw [declared, scarabUp]

/-- Reduced service is declared (R129, R132, R447, R449). -/
theorem execReducedServiceDeclared_shows (bad : BitVec 8) :
    (s.getF F.bootStatusPhase = 4 → ∃ u, execReducedServiceDeclared s bad =
      .next { bringUp u with pending := s.pending } ∧ u.getF F.bootStatusPhase = 5 ∧ u.mgmt.scarabDown = false ∧
      u.flag F.mgmtStatusRunning = true ∧ u.mgmt.calDue = true ∧ (∀ b, b < 2 → (u.bank b).slow = true) ∧
      ∀ b, b < 8 → u.getF (F.feBankStatusStepsValid b) =
        if bad.getLsbD b then 0 else s.getF (F.feBankStatusStepsValid b)) ∧
    (s.getF F.bootStatusPhase ≠ 4 → execReducedServiceDeclared s bad = .next s) := by
  refine ⟨fun h => ?_, fun h => (if_pos h).trans (done_self s)⟩
  have hdone := execReducedServiceDeclared_eq s bad h
  have hl : ((List.range 8).filter bad.getLsbD).Nodup := List.nodup_range.filter _
  have hvalid := stepsValid_each_dropCoefficients (scarabUp s) hl
  have hmgmt := each_mgmt (scarabUp s) dropCoefficients (fun b u => dropCoefficients_mgmt u b)
    ((List.range 8).filter bad.getLsbD)
  generalize each dropCoefficients ((List.range 8).filter bad.getLsbD) (scarabUp s) = v at hdone hvalid hmgmt
  obtain ⟨hmgmt', hregs, hslow⟩ := slowBanks_shows v
  generalize each slowBank [0, 1] v = w at hdone hmgmt' hregs hslow
  obtain ⟨hphase, hrun, hmgmt'', hbanks, hsteps⟩ := declared_shows w
  have hm : (declared w).mgmt = (scarabUp s).mgmt := by rw [hmgmt'', hmgmt', hmgmt]
  refine ⟨declared w, hdone, hphase, congrArg Mgmt.scarabDown hm, hrun, congrArg Mgmt.calDue hm, fun b hb => ?_,
    fun b hb => ?_⟩
  · rw [bank_congr hbanks, hslow b hb]
  · rw [hsteps b hb, getF_congr hregs, hvalid b]
    simp only [List.mem_filter, List.mem_range, hb, true_and]
    rfl

/-! ### Training of a stack (R448) -/

theorem hbmStackStatus_key_ne_hbmPcStatus (n q : Nat) : (Reg.hbmStackStatus n).key ≠ (Reg.hbmPcStatus n q).key := by
  simp only [Reg.key, Reg.space, Reg.off]
  omega
theorem hbmStackStatus_key_ne_hbmPcTrain (n q : Nat) : (Reg.hbmStackStatus n).key ≠ (Reg.hbmPcTrain n q).key := by
  simp only [Reg.key, Reg.space, Reg.off]
  omega

/-- A trained pseudo-channel leaves the register of its stack. -/
theorem getF_pcTrained (n q us lo w : Nat) :
    (pcTrained n q us s).getF ⟨.hbmStackStatus n, lo, w⟩ = s.getF ⟨.hbmStackStatus n, lo, w⟩ := by
  rw [pcTrained, getF_congr (spend_regs _), getF_setF_key _ (hbmStackStatus_key_ne_hbmPcTrain n q),
    getF_setF_key _ (hbmStackStatus_key_ne_hbmPcStatus n q), getF_setF_key _ (hbmStackStatus_key_ne_hbmPcStatus n q)]

/-- TRAIN_ATTEMPTS counts the attempts. -/
def countAttempts (n k : Nat) (s : State) : State :=
  setF (F.hbmStackStatusTrainAttempts n) (min 255 (s.getF (F.hbmStackStatusTrainAttempts n) + k)) s

theorem getF_countAttempts (n k : Nat) : (countAttempts n k s).getF (F.hbmStackStatusTrainAttempts n) =
    min 255 (s.getF (F.hbmStackStatusTrainAttempts n) + k) :=
  getF_setF_bits _ _ (by decide) (Nat.lt_succ_of_le (Nat.min_le_left 255 _))

/-- The pseudo-channels of a stack are trained. -/
def stackTrained (n : Nat) (s : State) : State :=
  each (fun q s => pcTrained n q (s.freeN % 65536) s) (List.range 32) s

theorem getF_stackTrained (n lo w : Nat) :
    (stackTrained n s).getF ⟨.hbmStackStatus n, lo, w⟩ = s.getF ⟨.hbmStackStatus n, lo, w⟩ :=
  each_proj s (State.getF · ⟨.hbmStackStatus n, lo, w⟩) (fun q s => pcTrained n q (s.freeN % 65536) s)
    (fun q u => getF_pcTrained u n q _ lo w) _

/-- A stack is trained (R448). -/
theorem execHbmTrainingDone_trained (n : Fin 2) (k : Nat) (h : s.getF F.bootStatusPhase = 5) :
    ∃ t, execHbmTrainingDone n true k s = .next t ∧ n.val ∈ t.mgmt.trained ∧
      t.getF (F.hbmStackStatusTrainAttempts n) = min 255 (s.getF (F.hbmStackStatusTrainAttempts n) + k) := by
  have hattempts := (getF_stackTrained (countAttempts n k s) n 8 8).trans (getF_countAttempts s n k)
  have hdone : ∃ l u, u = stackTrained n (countAttempts n k s) ∧ l = s.mgmt.trained ∧
      execHbmTrainingDone n true k s =
        done s { u with mgmt := { u.mgmt with trained := if l.contains n.val then l else n.val :: l } } :=
    ⟨_, _, rfl, rfl, if_neg (not_not_intro h)⟩
  obtain ⟨l, u, hu, -, hdone⟩ := hdone
  rw [← hu] at hattempts
  refine ⟨_, hdone, ?_, hattempts⟩
  change n.val ∈ if l.contains n.val then l else n.val :: l
  split
  next hc => exact List.contains_iff_mem.mp hc
  next => exact List.mem_cons_self

theorem reportOff_hbmStackStatus (n : Fin 2) : reportOff ((Reg.hbmStackStatus n).key % 0x100000) = false :=
  reportOff_of_off rfl (by simp only [Reg.off]; omega) (by simp only [Reg.off]; omega)

/-- A stack that has failed halts the device (R448). -/
def stackFailed (n k : Nat) (s : State) : State := setCause 4 (setF F.secStatusSecState 3 (logFault 0x12 n k s))

theorem stackFailed_shows (n : Fin 2) (k : Nat) : (stackFailed n k s).getF F.secStatusSecState = 3 ∧
    ((stackFailed n k s).getF F.fltPinCauseCause).testBit 4 = true ∧
    (stackFailed n k s).getF (F.hbmStackStatusTrainAttempts n) = s.getF (F.hbmStackStatusTrainAttempts n) := by
  have hpin : (Reg.hbmStackStatus n).key ≠ Reg.fltPinCause.key := by
    simp only [Reg.key, Reg.space, Reg.off]
    omega
  have hsec : (Reg.hbmStackStatus n).key ≠ Reg.secStatus.key := by
    simp only [Reg.key, Reg.space, Reg.off]
    omega
  unfold stackFailed
  refine ⟨?_, ?_, ?_⟩
  · rw [getF_setCause _ _ _ (by decide), getF_setF_misses _ _ _ _ (by decide) (by decide),
      getF_setF_bits _ _ (by decide) (by decide)]
  · rw [fltPinCause_setCause _ (by decide), Nat.testBit_or, Nat.testBit_two_pow_self, Bool.or_true]
  · rw [getF_setCause _ 4 (F.hbmStackStatusTrainAttempts n) (reportOff_hbmStackStatus n), getF_setF_key _ hpin,
      getF_setF_key _ hsec,
      getF_logFault _ (F.hbmStackStatusTrainAttempts n) _ _ _ (by decide) (reportOff_hbmStackStatus n)]

theorem execHbmTrainingDone_failed (n : Fin 2) (k : Nat) (h : s.getF F.bootStatusPhase = 5) :
    ∃ t, execHbmTrainingDone n false k s = .next t ∧ t.getF F.secStatusSecState = 3 ∧
      (t.getF F.fltPinCauseCause).testBit 4 = true ∧
      t.getF (F.hbmStackStatusTrainAttempts n) = min 255 (s.getF (F.hbmStackStatusTrainAttempts n) + k) := by
  have hdone : execHbmTrainingDone n false k s = done s (stackFailed n k (countAttempts n k s)) :=
    if_neg (not_not_intro h)
  obtain ⟨hsec, hcause, hattempts⟩ := stackFailed_shows (countAttempts n k s) n k
  rw [getF_countAttempts] at hattempts
  generalize stackFailed n k (countAttempts n k s) = u at hdone hsec hcause hattempts
  exact ⟨_, hdone, hsec, hcause, hattempts⟩

/-! ### ECLOSION (R448, R450) -/

theorem execEclosion_shows (x : Label) :
    ((advanceTo x s).mayEclose = false → execEclosion x s = .next { advanceTo x s with pending := s.pending }) ∧
    ((advanceTo x s).mayEclose = true → (advanceTo x s).begunParts.filter (advanceTo x s).inStaging = [] →
      execEclosion x s = .next { eclose (advanceTo x s) with pending := s.pending }) ∧
    ((advanceTo x s).mayEclose = true → (advanceTo x s).begunParts.filter (advanceTo x s).inStaging ≠ [] →
      execEclosion x s = .next { each stopForEclosion ((advanceTo x s).begunParts.filter (advanceTo x s).inStaging)
        (each (fun p => blocksTo p x) ((advanceTo x s).begunParts.filter (advanceTo x s).inStaging)
          { advanceTo x s with mgmt := { (advanceTo x s).mgmt with eclosing := true } }) with pending := s.pending }) := by
  refine ⟨fun h => if_pos h, fun h hp => (if_neg (by simp [h])).trans (if_pos hp),
    fun h hp => (if_neg (by simp [h])).trans (if_neg hp)⟩

/-- RAIL_FAULT_RESTART (R512): the device restarts as at PERST# release. -/
theorem execRailFaultRestart_shows :
    (s.mgmt.railFault = false → execRailFaultRestart s = .next s) ∧
    (s.mgmt.railFault = true → s.mgmt.perst = true →
      execRailFaultRestart s = .next { s with mgmt := { s.mgmt with railFault := false } }) ∧
    (s.mgmt.railFault = true → s.mgmt.perst = false → execRailFaultRestart s =
      .next { bootRom { s with mgmt := { s.mgmt with railFault := false } } with pending := s.pending }) :=
  ⟨fun h => (if_pos h).trans (done_self s), fun h hp => (if_neg (by simp [h])).trans (if_pos hp),
    fun h hp => (if_neg (by simp [h])).trans (if_neg (by simp [hp]))⟩

/-- Settles O57: a clause for each command of the family, from what it makes of the state. -/
theorem resetsLeadToBoot : Obligations.ResetsLeadToBoot := by
  unfold Obligations.ResetsLeadToBoot
  refine ⟨fun s => execPerstAssert_shows s, fun s => execHotReset_shows s, fun a b s => ⟨fun h => ?_,
    fun h => execPerstRelease_shows s a b h⟩, fun copyB s h => execBootImageVerified_idle s h,
    fun i s h => execBootImageVerified_shows s h, fun area s => execCertAreaReadDone_shows s area,
    fun bad s => execReducedServiceDeclared_shows s bad, fun n k s => ⟨fun h => ⟨execHbmTrainingDone_trained s n k h,
    execHbmTrainingDone_failed s n k h⟩, fun h ok => ?_⟩, fun x s => execEclosion_shows s x,
    fun s => execVauxPowerOn_shows s, fun s => execVauxLoss_shows s, fun dual src s => execMainRailsValid_shows s dual src,
    fun rail s => execRailFault_shows s rail, fun s => execRailFaultRestart_shows s, fun s => execD3coldEntry_shows s⟩
  · exact (if_pos h).trans (done_self s)
  · exact (if_pos h).trans (done_self s)

end Sys2Proof.Machine
end

section
/-! Proofs: detectors present their events (DETECTOR_EVENT) and come to their expiries (TIMEOUT_EXPIRY, SKEW_EXPIRY,
PATTERN_LONGER_EXPIRY); R149, R150, R156, R158, R160. -/

namespace Sys2Proof.Machine

variable (s : State)

/-! ### DETECTOR_EVENT (R149, R150) -/

/-- A detector with an event to present waits for no crossing. -/
theorem feedUntil_of_events (k b : Nat) {n : Nat} (h : (s.det n).events ≠ []) : feedUntil k b n s = s := by
  cases k with
  | zero => rfl
  | succ k => exact if_neg fun hwaits => h (List.isEmpty_iff.mp hwaits.1)

section

variable {n : Nat} {e : Ev} {r : List Ev} (h : (s.det n).events = e :: r)
include h

/-- Presentation as an equation: the detector shows the event's sample, and a sequencer that runs receives the event. -/
theorem presentOne_eq (p : Nat) : presentOne p n s =
    when_ (s.flag (F.seqStatusRunning p)) (modSeq p fun q => { q with inbox := q.inbox ++ [e] })
      (modDet n (fun d => { d with events := r, shown := some e.sample }) s) := by
  unfold presentOne
  rw [h]
  rfl

theorem presentOne_det (p : Nat) :
    (presentOne p n s).det n = { s.det n with events := r, shown := some e.sample } := by
  rw [presentOne_eq s h]
  cases s.flag (F.seqStatusRunning p) with
  | false => exact det_setDet_same s n _
  | true => exact det_setDet_same s n _

theorem presentOne_inbox_of_running (p : Nat) (hruns : s.flag (F.seqStatusRunning p) = true) :
    ((presentOne p n s).seq p).inbox = (s.seq p).inbox ++ [e] := by
  rw [presentOne_eq s h, hruns]
  exact congrArg Seq.inbox (seq_setSeq_same _ p _)

theorem presentOne_inbox_of_not_running (p : Nat) (hruns : s.flag (F.seqStatusRunning p) = false) :
    ((presentOne p n s).seq p).inbox = (s.seq p).inbox := by
  rw [presentOne_eq s h, hruns]
  rfl

end

theorem execDetectorEvent_next (d : DetId) : ∃ t, execDetectorEvent d s = .next t := by
  unfold execDetectorEvent
  dsimp only
  split
  · exact ⟨_, rfl⟩
  · split <;> exact ⟨_, rfl⟩

theorem execDetectorEvent_of_detPart_none (d : DetId) (h : s.detPart d.val = none) :
    execDetectorEvent d s = .next s := by
  unfold execDetectorEvent
  rw [h]
  exact done_self s

theorem execDetectorEvent_of_events (d : DetId) {p : Nat} (hp : s.detPart d.val = some p)
    (h : (s.det d.val).events ≠ []) : execDetectorEvent d s = done s (presentOne p d.val s) := by
  unfold execDetectorEvent
  rw [hp]
  dsimp only
  rw [feedUntil_of_events s _ _ h]
  exact ite_self _

/-! ### The expiries (R156, R158, R160) -/

theorem expireAt_idle (n : Nat) (at_ : Option Label) (h : at_ = none ∨ s.detOn n = false) : expireAt n at_ s = s := by
  cases at_ with
  | none => rfl
  | some x => exact if_neg (by simp [h.resolve_left (Option.some_ne_none x)])

theorem expireAt_due (n : Nat) (x : Label) (h : s.detOn n = true) :
    expireAt n (some x) s = detsTo (n / 16) x (advanceTo x s) := if_pos h

/-- The three commands of an expiry differ in the instant alone. -/
theorem exec_expiry {d : DetId} {i : Instr} {at_ : Option Label}
    (h : (i, at_) ∈ [(Instr.timeoutExpiry d, s.timeoutAt d.val), (.skewExpiry d, s.skewAt d.val),
      (.patternLongerExpiry d, s.longerAt d.val)]) : exec i s = done s (expireAt d.val at_ s) := by
  simp only [List.mem_cons, List.not_mem_nil, or_false, Prod.mk.injEq] at h
  obtain ⟨rfl, rfl⟩ | ⟨rfl, rfl⟩ | ⟨rfl, rfl⟩ := h
  · rfl
  · rfl
  · rfl

/-- Settles O28: a presentation by whether the detector has a partition and that one's sequencer runs, an expiry by
whether it is due. -/
theorem detectorsPresentAndExpire : Obligations.DetectorsPresentAndExpire := by
  refine ⟨fun d s => ?_, fun d i at_ s hi => ⟨fun hidle => ?_, fun x hx hon => ?_⟩⟩
  · obtain ⟨t, ht⟩ := execDetectorEvent_next s d
    refine ⟨t, ht, fun hnone => ?_, fun p e r hp he => ?_⟩
    · exact Host.Outcome.next.inj (ht.symm.trans (execDetectorEvent_of_detPart_none s d hnone))
    · have hevents : (s.det d.val).events ≠ [] := he ▸ List.cons_ne_nil e r
      obtain rfl : t = { presentOne p d.val s with pending := s.pending } :=
        Host.Outcome.next.inj (ht.symm.trans (execDetectorEvent_of_events s d hp hevents))
      have hdet := presentOne_det s he p
      exact ⟨congrArg Det.events hdet, congrArg Det.shown hdet, presentOne_inbox_of_running s he p,
        presentOne_inbox_of_not_running s he p⟩
  · rw [exec_expiry s hi, expireAt_idle s d.val at_ hidle, done_self]
  · subst hx
    rw [exec_expiry s hi, expireAt_due s d.val x hon, done]

end Sys2Proof.Machine
end

section
/-! Proofs: writes of the trigger registers, which wait for idle or do not (TRIGIN_CFG, TRIGIN_DESKEWn, TRIGOUT_CFGn;
R198). -/

namespace Sys2Proof.Machine

variable (s : State)

/-! ### The block of the trigger registers -/

/-- A register of the block of the trigger registers, at which the address map places it. -/
structure Reg.InTrig (r : Reg) : Prop where
  space : r.space = 256
  lower : 0x2C000 ≤ r.off
  upper : r.off < 0x30000
  aligned : r.off % 4 = 0
  mapped : ∀ f, Reg.ofOff f r.off = some r

theorem inTrig_triginCfg : Reg.triginCfg.InTrig := ⟨rfl, by decide, by decide, rfl, fun _ => rfl⟩

theorem inTrig_triginDeskew {n : Nat} (h : n < 4) : (Reg.triginDeskew n).InTrig := by
  interval_cases n <;> exact ⟨rfl, by decide, by decide, rfl, fun _ => rfl⟩

theorem inTrig_trigoutCfg {n : Nat} (h : n < 4) : (Reg.trigoutCfg n).InTrig := by
  interval_cases n <;> exact ⟨rfl, by decide, by decide, rfl, fun _ => rfl⟩

section
variable {s} {r : Reg} (hr : r.InTrig)
include hr

theorem Reg.InTrig.key_ne_seqEvents : r.key ≠ (Reg.seqEvents 0).key := by
  obtain ⟨hspace, -, hhi, -, -⟩ := hr
  have hkey : (Reg.seqEvents 0).key = 256 * 0x100000 + 0x30008 := rfl
  rw [Reg.key, hspace, hkey]
  omega

theorem Reg.InTrig.slowWindow_off : slowWindow r.off = false := by
  have hlo := hr.lower
  have hhi := hr.upper
  simp only [slowWindow, Bool.or_eq_false_iff, Bool.and_eq_false_iff, decide_eq_false_iff_not]
  omega

/-- A refused write of the block is sequencer 0's (R198). -/
theorem Reg.InTrig.refused_eq (f : Nat) :
    refused f r s = postPart 0 0x1201 0 (setF (F.seqEventsCfgRefused 0) 1 s) := by
  have hlo := hr.lower
  have hhi := hr.upper
  unfold refused
  extract_lets o
  have ho : o = r.off := rfl
  iterate 8 refine (if_neg (by omega)).trans ?_
  exact if_pos (by omega)

/-- A refused write of the block leaves the register and sets CFG_REFUSED of sequencer 0. -/
theorem Reg.InTrig.refused_shows (f : Nat) :
    (refused f r s).rd r = s.rd r ∧ (refused f r s).flag (F.seqEventsCfgRefused 0) = true := by
  have hq : Quiet (setF (F.seqEventsCfgRefused 0) 1 s) (refused f r s) :=
    hr.refused_eq f ▸ (Quiet.refl _).postPart _ _ _
  constructor
  · rw [hq.regs r (reportOff_of_off hr.space (by have hlo := hr.lower; omega) (by have hhi := hr.upper; omega))]
    exact rd_setF_ne s (F.seqEventsCfgRefused 0) r _ hr.key_ne_seqEvents
  · rw [hq.flag (F.seqEventsCfgRefused 0) (by decide)]
    exact flag_setF_one s _ (by decide)

/-- A word that a PF writes to the block reaches its register. -/
theorem Reg.InTrig.exec_registerWrite {f : FnId} (hf : isPf f = true) (hc : s.carriesOut f r.off = true) (v : DWord) :
    exec (.registerWrite f false r.off .w32 v) s = done s (regWrite f r (v.setWidth 32) s) := by
  have hmap : barReg f r.off = some r := (barReg_pf hf _).trans (hr.mapped f)
  have hlo := hr.lower
  have hdata : r.off ≠ 0x104C := by omega
  rw [exec_registerWrite_carriesOut s v hr.aligned hc]
  simp [wordWrite, hmap, hf, hr.slowWindow_off, hdata]

end

/-! ### What is refused (R198) -/

theorem captureHeld_of_partState {p : Nat} (hp : p < 8) (h : 1 < s.partState p) : s.captureHeld = true :=
  List.any_eq_true.mpr ⟨p, List.mem_range.mpr hp, decide_eq_true h⟩

/-- A write of an input's register is refused while a partition is in a state other than IDLE. -/
theorem regWrite_trigin (f : Nat) {r : Reg} (h : r = .triginCfg ∨ ∃ n, n < 4 ∧ r = .triginDeskew n) (v : Word)
    (hheld : s.captureHeld = true) : regWrite f r v s = refused f r s := by
  refine if_pos ?_
  obtain rfl | ⟨n, -, rfl⟩ := h <;> simp [State.writeRefused, hheld]

/-- The lower word of a written value holds its bits. -/
theorem bitsOf_setWidth (v : DWord) {lo n : Nat} (h : lo + n ≤ 32) :
    bitsOf (v.setWidth 32 : Word).toNat lo n = bitsOf v.toNat lo n := by
  rw [BitVec.toNat_setWidth, bitsOf, bitsOf]
  apply Nat.eq_of_testBit_eq
  intro i
  simp only [Nat.testBit_mod_two_pow, Nat.testBit_div_two_pow]
  by_cases hi : i < n
  · simp [hi, show i + lo < 32 by omega]
  · simp [hi]

/-- A write of an output's register acts in any state, unless it makes WIDTH 0. -/
theorem regWrite_trigoutCfg (f n : Nat) (v : DWord) : regWrite f (.trigoutCfg n) (v.setWidth 32) s =
    if bitsOf v.toNat 24 8 = 0 then refused f (.trigoutCfg n) s else trigoutCfgWrite n (v.setWidth 32) s := by
  have hrefused : s.writeRefused (.trigoutCfg n) (v.setWidth 32) = (bitsOf v.toNat 24 8 == 0) := by
    rw [← bitsOf_setWidth v (by decide)]
    simp only [State.writeRefused, Reg.rangeOk, bne, Bool.not_not, Bool.or_false]
  rw [regWrite, hrefused]
  simp only [beq_iff_eq]
  rfl

/-! ### What is accepted (R197, R214) -/

theorem trigoutCfgWrite_regs (n : Nat) (v : Word) :
    (trigoutCfgWrite n v s).regs = (plainWrite (.trigoutCfg n) v s).regs := by
  unfold trigoutCfgWrite
  dsimp only
  split <;> split <;> rfl

/-- No RW bit of TRIGOUT_CFGn is a keep bit. -/
theorem trigoutCfg_kp_of_rw {n i : Nat} (h : ((Reg.trigoutCfg n).bitsWith .rw).getLsbD i = true) :
    ((Reg.trigoutCfg n).bitsWith .kp).getLsbD i = false := by
  have hdisjoint : (Reg.trigoutCfg n).bitsWith .kp &&& (Reg.trigoutCfg n).bitsWith .rw = 0 := by
    simp [Reg.bitsWith, Reg.fields, fieldMask]
  have hbit := congrArg (BitVec.getLsbD · i) hdisjoint
  simpa [h] using hbit

theorem trigoutCfgWrite_getLsbD {n i : Nat} (v : Word) (hi : i < 32)
    (h : ((Reg.trigoutCfg n).bitsWith .rw).getLsbD i = true) :
    ((trigoutCfgWrite n v s).rd (.trigoutCfg n)).getLsbD i = v.getLsbD i := by
  rw [rd_congr (trigoutCfgWrite_regs s n v), plainWrite_getLsbD s _ v hi (trigoutCfg_kp_of_rw h), if_pos h]

/-- Settles O15: a write of an input's register by the partition that is not idle, one of an output's by its
WIDTH. -/
theorem triginWritesWaitForIdle : Obligations.TriginWritesWaitForIdle := by
  refine ⟨fun f v r p s hf hc hin hp hstate => ?_, fun f v n s hf hn hc hwidth => ?_,
    fun f v n s hf hn hc hwidth => ?_⟩
  · have hr : r.InTrig := by
      obtain rfl | ⟨n, hn, rfl⟩ := hin
      · exact inTrig_triginCfg
      · exact inTrig_triginDeskew hn
    have hx := hr.exec_registerWrite hf hc v
    rw [regWrite_trigin s f hin _ (captureHeld_of_partState s hp hstate)] at hx
    exact ⟨hx.trans (congrArg (done s) (hr.refused_eq f)), _, hx, hr.refused_shows f⟩
  · have hx := (inTrig_trigoutCfg hn).exec_registerWrite hf hc v
    rw [regWrite_trigoutCfg, if_neg hwidth] at hx
    refine ⟨_, hx, fun i hi hrw => (trigoutCfgWrite_getLsbD s _ hi hrw).trans ?_⟩
    simp [hi]
  · have hx := (inTrig_trigoutCfg hn).exec_registerWrite hf hc v
    rw [regWrite_trigoutCfg, if_pos hwidth] at hx
    exact ⟨_, hx, (inTrig_trigoutCfg hn).refused_shows f⟩

end Sys2Proof.Machine
end

section
/-! Proofs: the samples of a sequencer, its timers and the flags that the host writes (SEQUENCER_SAMPLE, TMR_EXPIRY,
XF_STATE_WRITE; R190, R191, R196, R202). -/

namespace Sys2Proof.Machine

variable (s : State)

/-! ### SEQUENCER_SAMPLE (R191, R202) -/

@[simp] theorem advanceTo_seq (x : Label) (p : Nat) : (advanceTo x s).seq p = s.seq p := by simp [State.seq]

theorem execSequencerSample_idle (p : PartId) (x : Label)
    (h : (s.seq p).running = false ∨ (s.seq p).stopped = true ∨ s.noCore = true) :
    execSequencerSample p x s = done s (advanceTo x s) := by
  unfold execSequencerSample
  exact if_pos (by simpa using h)

/-- A sequencer has taken the sample at `x`: it is the former one of the next. -/
def Seq.tookSample (x : Label) (q : Seq) : Seq := { q with prev := some x, stateCount := q.stateCount + 1 }

theorem execSequencerSample_takes (p : PartId) (x : Label) (hruns : (s.seq p).running = true)
    (hgoes : (s.seq p).stopped = false) (hcore : s.noCore = false) :
    ∃ u, execSequencerSample p x s = done s (settle p (modSeq p (Seq.tookSample x) u)) := by
  unfold execSequencerSample
  exact ⟨_, if_neg (by simp [hruns, hgoes, hcore])⟩

theorem prev_tookSample (p : Nat) (x : Label) : ((modSeq p (Seq.tookSample x) s).seq p).prev = some x :=
  congrArg Seq.prev (seq_setSeq_same s p _)

/-! ### TMR_EXPIRY (R190) -/

theorem execTmrExpiry_eq (p : PartId) (k : Fin 4) : execTmrExpiry p k s =
    done s (match s.tmrExpiry p k with | some x => advanceTo x s | none => s) := by
  unfold execTmrExpiry
  cases s.tmrExpiry p k with
  | none => rfl
  | some x => rfl

/-! ### XF_STATE_WRITE (R196) -/

/-- The core cycle that accepts a write of the host. -/
def State.writeCycle (s : State) : Nat := max s.flags.cycle (s.now / ticksPerCore)

/-- The host's value of a flag is queued for the present core cycle where the mask selects the flag, or was before. -/
theorem mem_xfStateWrite_host (v : Word) {k : Nat} (hk : k < 8) :
    (s.writeCycle, k, v.getLsbD k) ∈ (xfStateWrite v s).flags.host ↔
      v.getLsbD (16 + k) = true ∨ (s.writeCycle, k, v.getLsbD k) ∈ s.flags.host := by
  simp only [xfStateWrite, State.writeCycle, List.mem_append, List.mem_map, List.mem_filter, List.mem_range,
    Prod.mk.injEq, true_and]
  refine Or.comm.trans (or_congr_left ⟨?_, fun hmask => ⟨k, ⟨hk, hmask⟩, rfl, rfl⟩⟩)
  rintro ⟨j, ⟨-, hmask⟩, rfl, -⟩
  exact hmask

/-- Settles O29: a sample by whether the sequencer takes it, an expiry by its instant, a write of XF_STATE by what it
queues. -/
theorem sequencersTakeSamplesTimersAndFlags : Obligations.SequencersTakeSamplesTimersAndFlags := by
  refine ⟨fun p x s h => execSequencerSample_idle s p x h, fun p x s hruns hgoes hcore => ?_,
    fun p k s => execTmrExpiry_eq s p k, fun f v s hc => ?_⟩
  · obtain ⟨u, hx⟩ := execSequencerSample_takes s p x hruns hgoes hcore
    exact ⟨_, hx, prev_tookSample u p x⟩
  · exact ⟨_, bar0_acts hc _ _, rfl, fun k hk => mem_xfStateWrite_host s v hk⟩

end Sys2Proof.Machine
end

section
/-! Proofs: the gate of the commands that name a partition (PARTITION_DESTROY, DISARM, FORCE_TRIGGER, GRANT; R218,
R324). -/

namespace Sys2Proof.Machine

/-! ### A command that completes and does nothing else -/

/-- A command whose only effect is its completion completes, and reports alone change. -/
theorem finishes_shows {i : Instr} {s : State} {c : Cmd} {op st : Nat} (hc : c.index < 65536)
    (hx : exec i s = done s (finish c op st 0 0 s)) :
    ∃ t, exec i s = .next t ∧ Completed s t c op st 0 0 ∧ Quiet s t := by
  have hpending : done s (finish c op st 0 0 s) = .next (finish c op st 0 0 s) := by
    rw [done, ← finish_pending s c op st 0 0]
  exact ⟨_, hx.trans hpending, completed_finish c op st 0 0 s hc, (Quiet.refl s).finish c op st 0 0⟩

/-! ### What the gate refuses, command by command -/

section
variable {s : State} {c : Cmd} {p st : Nat}

section
variable (hgate : s.partGate c.fn p true = some st)
include hgate

theorem execPartitionDestroy_refused : execPartitionDestroy c p s = done s (finish c 0x02 st 0 0 s) := by
  simp only [execPartitionDestroy, hgate]
theorem execDisarm_refused : execDisarm c p s = done s (finish c 0x07 st 0 0 s) := by
  simp only [execDisarm, hgate]
theorem execGrantIssue_refused (modes : BitVec 8) (target : BitVec 16) :
    execGrantIssue c p modes target s = done s (finish c 0x0B st 0 0 s) := by
  simp only [execGrantIssue, hgate]
theorem execGrantRevoke_refused (token : Nat) : execGrantRevoke c p token s = done s (finish c 0x0B st 0 0 s) := by
  simp only [execGrantRevoke, hgate]
theorem execGrantRevokeAll_refused : execGrantRevokeAll c p s = done s (finish c 0x0B st 0 0 s) := by
  simp only [execGrantRevokeAll, hgate]

end

/-- FORCE_TRIGGER is the owner's alone: its gate lets no PF in (R200). -/
theorem execForceTrigger_refused (hgate : s.partGate c.fn p false = some st) :
    execForceTrigger c p s = done s (finish c 0x08 st 0 0 s) := by
  simp only [execForceTrigger, hgate]

end

/-- Settles O36: each command that its gate refuses is its completion alone, and that is all it shows. -/
theorem partitionCommandsAreGated : Obligations.PartitionCommandsAreGated := by
  refine fun c p st s hc => ⟨fun hgate => ⟨?_, ?_, fun modes target => ?_, fun token => ?_, ?_⟩, fun hgate => ?_⟩
  · exact finishes_shows hc (execPartitionDestroy_refused hgate)
  · exact finishes_shows hc (execDisarm_refused hgate)
  · exact finishes_shows hc (execGrantIssue_refused hgate modes target)
  · exact finishes_shows hc (execGrantRevoke_refused hgate token)
  · exact finishes_shows hc (execGrantRevokeAll_refused hgate)
  · exact finishes_shows hc (execForceTrigger_refused hgate)

end Sys2Proof.Machine
end

section
/-! Proofs: the marks of segments and deliveries (REARM_INTERVAL_END, EARLY_THROTTLE_CHANGE, MOD_TIME_EXPIRY,
ORPHAN_TIMEOUT; R217, R234, R240, R344). -/

namespace Sys2Proof.Machine

variable (s : State)

/-! ### REARM_INTERVAL_END (R217) -/

@[simp] theorem part_modPart_same (p : Nat) (g : Part → Part) : (modPart p g s).part p = g (s.part p) :=
  part_setPart_same s p _
theorem part_modPart_ne {p q : Nat} (h : q ≠ p) (g : Part → Part) : (modPart p g s).part q = s.part q :=
  part_setPart_ne s h _

/-- The state COMMITTED of a partition ends. -/
def Part.endRearm (x : Part) : Part := { x with rearm := false }

theorem execRearmIntervalEnd_eq (p : PartId) : execRearmIntervalEnd p s = done s (modPart p Part.endRearm s) := rfl

/-! ### EARLY_THROTTLE_CHANGE (R234) -/

/-- The backlogs that EARLY_BACKLOG is held against: one for each port of the partition's deliveries that ship early. -/
def State.earlyBacklogs (s : State) (p : Nat) : List Nat := (s.earlyPorts p).map s.portBacklog

/-- Whether Scarab leaves the throttle as it is: nothing ships early, it is down, or the host overrides it. -/
def State.keepsThrottle (s : State) (p : Nat) : Prop :=
  s.earlyBacklogs p = [] ∨ s.mgmt.scarabDown = true ∨ s.flag (F.partEarlyCfgThrottleOverride p) = true

/-- The throttle that the backlogs ask for. -/
def State.nextThrottle (s : State) (p : Nat) : Bool :=
  let lim := s.getF (F.partEarlyCfgEarlyBacklog p)
  if lim = 0 ∨ (s.earlyBacklogs p).any (fun n => decide (lim < n)) = true then true
  else if (s.earlyBacklogs p).all (fun n => decide (n ≤ lim / 2)) = true then false
  else s.flag (F.partStatusEarlyThrottled p)

/-- The throttle of a partition becomes `v`, and is reported. -/
def showThrottle (p : Nat) (v : Bool) (s : State) : State :=
  postPart p 0x1302 (p + bit v * 2 ^ 16)
    (setF (F.partEventsThrottle p) 1 (setF (F.partStatusEarlyThrottled p) (bit v) s))

theorem nextThrottle_of_above {p : Nat} (h : s.getF (F.partEarlyCfgEarlyBacklog p) = 0 ∨
    ∃ n ∈ s.earlyBacklogs p, s.getF (F.partEarlyCfgEarlyBacklog p) < n) : s.nextThrottle p = true :=
  if_pos (by simpa using h)

theorem nextThrottle_of_half {p : Nat} (hlim : s.getF (F.partEarlyCfgEarlyBacklog p) ≠ 0)
    (h : ∀ n ∈ s.earlyBacklogs p, n ≤ s.getF (F.partEarlyCfgEarlyBacklog p) / 2) : s.nextThrottle p = false := by
  have hbelow : ∀ n ∈ s.earlyBacklogs p, n ≤ s.getF (F.partEarlyCfgEarlyBacklog p) :=
    fun n hn => (h n hn).trans (Nat.div_le_self _ _)
  refine (if_neg ?_).trans (if_pos ?_)
  · simpa [hlim] using hbelow
  · simpa using h

theorem nextThrottle_between {p : Nat} (hlim : s.getF (F.partEarlyCfgEarlyBacklog p) ≠ 0)
    (hbelow : ∀ n ∈ s.earlyBacklogs p, n ≤ s.getF (F.partEarlyCfgEarlyBacklog p))
    (habove : ∃ n ∈ s.earlyBacklogs p, s.getF (F.partEarlyCfgEarlyBacklog p) / 2 < n) :
    s.nextThrottle p = s.flag (F.partStatusEarlyThrottled p) := by
  refine (if_neg ?_).trans (if_neg ?_)
  · simpa [hlim] using hbelow
  · simpa using habove

theorem partStatus_key_ne_partEvents (p : Nat) : (Reg.partStatus p).key ≠ (Reg.partEvents p).key := by
  simp only [Reg.key, Reg.space, Reg.off]
  omega

theorem reportOff_partStatus (p : PartId) : reportOff ((Reg.partStatus p).key % 0x100000) = false :=
  reportOff_of_off rfl (by simp only [Reg.off]; omega) (by simp only [Reg.off]; omega)

theorem flag_showThrottle (p : PartId) (v : Bool) :
    (showThrottle p v s).flag (F.partStatusEarlyThrottled p) = v :=
  calc (showThrottle p v s).flag (F.partStatusEarlyThrottled p)
    _ = (setF (F.partEventsThrottle p) 1 (setF (F.partStatusEarlyThrottled p) (bit v) s)).flag
          (F.partStatusEarlyThrottled p) := ((Quiet.refl _).postPart _ _ _).flag _ (reportOff_partStatus p)
    _ = (setF (F.partStatusEarlyThrottled p) (bit v) s).flag (F.partStatusEarlyThrottled p) :=
          flag_of_getF (getF_setF_ne _ _ _ _ (partStatus_key_ne_partEvents p))
    _ = v := flag_setF_bit s _ v (show 13 + 1 ≤ 32 by decide) rfl

theorem execEarlyThrottleChange_eq (p : PartId) : execEarlyThrottleChange p s =
    if s.earlyBacklogs p = [] ∨ s.mgmt.scarabDown = true ∨ s.flag (F.partEarlyCfgThrottleOverride p) = true ∨
        s.nextThrottle p = s.flag (F.partStatusEarlyThrottled p) then .next s
    else done s (showThrottle p (s.nextThrottle p) s) := rfl

theorem execEarlyThrottleChange_idle {p : PartId}
    (h : s.keepsThrottle p ∨ s.nextThrottle p = s.flag (F.partStatusEarlyThrottled p)) :
    execEarlyThrottleChange p s = .next s := by
  rw [execEarlyThrottleChange_eq, if_pos (by simpa only [State.keepsThrottle, or_assoc] using h)]

theorem execEarlyThrottleChange_changes {p : PartId}
    (h : ¬ (s.keepsThrottle p ∨ s.nextThrottle p = s.flag (F.partStatusEarlyThrottled p))) :
    execEarlyThrottleChange p s = done s (showThrottle p (s.nextThrottle p) s) := by
  rw [execEarlyThrottleChange_eq, if_neg (by simpa only [State.keepsThrottle, or_assoc] using h)]

/-- The throttle stays, or is what the backlogs ask for. -/
theorem execEarlyThrottleChange_shows (p : PartId) : ∃ t, execEarlyThrottleChange p s = .next t ∧
    (s.keepsThrottle p ∨ s.nextThrottle p = s.flag (F.partStatusEarlyThrottled p) → t = s) ∧
    (¬ s.keepsThrottle p → t.flag (F.partStatusEarlyThrottled p) = s.nextThrottle p) := by
  by_cases h : s.keepsThrottle p ∨ s.nextThrottle p = s.flag (F.partStatusEarlyThrottled p)
  · exact ⟨s, execEarlyThrottleChange_idle s h, fun _ => rfl, fun hkeeps => (h.resolve_left hkeeps).symm⟩
  · exact ⟨_, execEarlyThrottleChange_changes s h, fun hidle => absurd hidle h,
      fun _ => flag_showThrottle s p (s.nextThrottle p)⟩

/-! ### MOD_TIME_EXPIRY (R344) -/

@[simp] theorem msixNow_pair (f vec g n : Nat) : (msixNow f vec s).pair g n = s.pair g n := by
  unfold msixNow
  dsimp only
  split
  · exact pair_setFn_tags s f g n _ rfl
  · rfl

@[simp] theorem msix_pair (f vec g n : Nat) : (msix f vec s).pair g n = s.pair g n := by
  unfold msix
  split
  · exact pair_setFn_tags s f g n _ rfl
  · exact msixNow_pair s f vec g n

theorem signalPair_unsignalled (f n : Nat) : ((signalPair f n s).pair f n).unsignalled = 0 := by
  rw [signalPair, msix_pair, modPair, pair_setPair_same]

theorem execModTimeExpiry_idle {f : FnId} {pair : PairId}
    (h : s.getF (F.rcModModTime f pair) = 0 ∨ (s.pair f pair).unsignalled = 0) : execModTimeExpiry f pair s = .next s :=
  if_neg (by omega)

theorem execModTimeExpiry_signals {f : FnId} {pair : PairId} (htime : s.getF (F.rcModModTime f pair) ≠ 0)
    (hwaits : (s.pair f pair).unsignalled ≠ 0) : execModTimeExpiry f pair s = done s (signalPair f pair s) :=
  if_pos ⟨htime, Nat.pos_of_ne_zero hwaits⟩

theorem execModTimeExpiry_shows (f : FnId) (pair : PairId) : ∃ t, execModTimeExpiry f pair s = .next t ∧
    (s.getF (F.rcModModTime f pair) ≠ 0 → (t.pair f pair).unsignalled = 0) ∧
    (s.getF (F.rcModModTime f pair) = 0 ∨ (s.pair f pair).unsignalled = 0 → t = s) := by
  by_cases h : s.getF (F.rcModModTime f pair) = 0 ∨ (s.pair f pair).unsignalled = 0
  · exact ⟨s, execModTimeExpiry_idle s h, h.resolve_left, fun _ => rfl⟩
  · obtain ⟨htime, hwaits⟩ := not_or.mp h
    exact ⟨_, execModTimeExpiry_signals s htime hwaits, fun _ => signalPair_unsignalled s f pair,
      fun hidle => absurd hidle h⟩

/-! ### ORPHAN_TIMEOUT (R240) -/

theorem execOrphanTimeout_destroys {p : PartId} (hexists : s.exists_ p = true) (horphan : s.orphan p = true) :
    execOrphanTimeout p s = done s (lowPower (destroyPart p 0x1305 s)) := if_pos ⟨hexists, horphan⟩

theorem execOrphanTimeout_idle {p : PartId} (h : s.exists_ p = false ∨ s.orphan p = false) :
    execOrphanTimeout p s = .next s :=
  if_neg (by simpa [imp_iff_not_or] using h)

/-- Settles O32: the re-arm interval by what it clears, the throttle by where the backlogs stand to EARLY_BACKLOG, the
moderation time by what is unsignalled, the orphan by whether it is one. -/
theorem segmentAndDeliveryMarks : Obligations.SegmentAndDeliveryMarks := by
  refine ⟨fun p s => ?_, fun p s => ?_, fun f pair s => execModTimeExpiry_shows s f pair,
    fun p s => ⟨execOrphanTimeout_destroys s, execOrphanTimeout_idle s⟩⟩
  · exact ⟨_, execRearmIntervalEnd_eq s p, congrArg Part.rearm (part_modPart_same s p Part.endRearm),
      fun q hq => part_modPart_ne s hq Part.endRearm⟩
  · obtain ⟨t, hx, hsame, hflag⟩ := execEarlyThrottleChange_shows s p
    exact ⟨t, hx, fun hkeeps => hsame (.inl hkeeps),
      fun hkeeps habove => (hflag hkeeps).trans (nextThrottle_of_above s habove),
      fun hkeeps hlim hhalf => (hflag hkeeps).trans (nextThrottle_of_half s hlim hhalf),
      fun hlim hbelow habove => hsame (.inr (nextThrottle_between s hlim hbelow habove))⟩

end Sys2Proof.Machine
end

section
/-! Proofs: the time pairs of records (R256). -/

namespace Sys2Proof.Machine

/-! ### Words of two fields -/

/-- A 64-bit word made of a field of `k` bits and one of `n` bits above it holds both. -/
theorem bitsOf_dw_fields {lo hi k n : Nat} (hlo : lo < 2 ^ k) (hhi : hi < 2 ^ n) (hk : k + n = 64) :
    bitsOf (dw (lo + hi * 2 ^ k)).toNat 0 k = lo ∧ bitsOf (dw (lo + hi * 2 ^ k)).toNat k n = hi := by
  have hfits : lo + hi * 2 ^ k < 2 ^ 64 :=
    calc lo + hi * 2 ^ k < 2 ^ k + hi * 2 ^ k := Nat.add_lt_add_right hlo _
      _ = (hi + 1) * 2 ^ k := by rw [Nat.succ_mul, Nat.add_comm]
      _ ≤ 2 ^ n * 2 ^ k := Nat.mul_le_mul_right _ hhi
      _ = 2 ^ 64 := by rw [← Nat.pow_add, Nat.add_comm, hk]
  rw [dw, BitVec.toNat_ofNat, Nat.mod_eq_of_lt hfits]
  constructor
  · rw [bitsOf, Nat.pow_zero, Nat.div_one, Nat.add_mul_mod_self_right, Nat.mod_eq_of_lt hlo]
  · rw [bitsOf, Nat.add_mul_div_right _ _ (Nat.two_pow_pos k), Nat.div_eq_of_lt hlo, Nat.zero_add,
      Nat.mod_eq_of_lt hhi]

/-! ### The first word -/

theorem subsecOf_lt (t : Label) : subsecOf t < ticksPerSecond := Nat.mod_lt _ (by decide)

theorem secondsOf_lt {t : Label} {n : Nat} (h : t < n * ticksPerSecond) : secondsOf t < n :=
  (Nat.div_lt_iff_lt_mul (by decide)).mpr h

theorem bitsOf_timeWord (t : Label) : bitsOf (timeWord t).toNat 0 40 = subsecOf t ∧
    bitsOf (timeWord t).toNat 40 24 = secondsOf t % 2 ^ 24 :=
  bitsOf_dw_fields ((subsecOf_lt t).trans (by decide)) (Nat.mod_lt _ (by decide)) rfl

/-- No SUBSEC is all ones, for a second ends before its field does (R2). -/
theorem timeWord_ne_allOnes (t : Label) : timeWord t ≠ BitVec.allOnes 64 := by
  intro h
  have hones : subsecOf t = 2 ^ 40 - 1 := by rw [← (bitsOf_timeWord t).1, h]; decide
  exact absurd (subsecOf_lt t) (by rw [hones]; decide)

/-! ### The second word -/

/-- The second word holds its part of the pair, `high`, below what the record type places beside it. -/
theorem bitsOf_pairSecond {high rest : Nat} (hhigh : high < 2 ^ 16) (hrest : rest < 2 ^ 48) :
    bitsOf (dw (high + rest % 2 ^ 48 * 2 ^ 16)).toNat 0 16 = high ∧
      bitsOf (dw (high + rest % 2 ^ 48 * 2 ^ 16)).toNat 16 48 = rest := by
  rw [Nat.mod_eq_of_lt hrest]
  exact bitsOf_dw_fields hhigh hrest rfl

theorem timeHigh_eq {t : Label} (h : t < 2 ^ 40 * ticksPerSecond) : timeHigh t = secondsOf t / 2 ^ 24 :=
  Nat.mod_eq_of_lt (Nat.div_lt_of_lt_mul (secondsOf_lt h))

theorem timeHigh_lt (t : Label) : timeHigh t < 2 ^ 16 := Nat.mod_lt _ (by decide)

/-- Settles O30: each word of a pair is two fields, and the SUBSEC of a time is never all ones. -/
theorem timePairsSpellTheTime : Obligations.TimePairsSpellTheTime := by
  refine ⟨fun t rest ht hrest => ?_, fun rest hrest => ?_⟩
  · obtain ⟨hsubsec, hseconds⟩ := bitsOf_timeWord t
    obtain ⟨hhigh, hbeside⟩ := bitsOf_pairSecond (timeHigh_lt t) hrest
    exact ⟨_, _, rfl, rfl, hsubsec, hseconds, hhigh.trans (timeHigh_eq ht), hbeside,
      fun habsent => timeWord_ne_allOnes t habsent.1⟩
  · obtain ⟨hones, hbeside⟩ := bitsOf_pairSecond (high := 0xFFFF) (by decide) hrest
    exact ⟨_, _, rfl, rfl, rfl, hones, hbeside⟩

end Sys2Proof.Machine
end

section
/-! Proofs: the interruption of storing writes no register but those that reports write (R301, R485): the records of the
stream and its counters alone. -/

namespace Sys2Proof.Machine

variable (s : State) {q : Reg}

/-! ### Lists, alternatives and updates that leave a register -/

@[simp] theorem rd_each {α : Type} (g : α → State → State) (h : ∀ a u, (g a u).rd q = u.rd q) (l : List α) :
    (each g l s).rd q = s.rd q := each_proj s (State.rd · q) g h l

@[simp] theorem rd_ite (c : Prop) [Decidable c] (t u : State) :
    (if c then t else u).rd q = if c then t.rd q else u.rd q := apply_ite (State.rd · q) c t u

@[simp] theorem rd_modBank (b : Nat) (g : Bank → Bank) : (modBank b g s).rd q = s.rd q := rd_congr rfl q
@[simp] theorem rd_setBank (b : Nat) (x : Bank) : (setBank b x s).rd q = s.rd q := rd_congr rfl q
@[simp] theorem rd_modPart (p : Nat) (g : Part → Part) : (modPart p g s).rd q = s.rd q := rd_congr rfl q

/-! ### Records of the stream -/

@[simp] theorem rd_append (p : Nat) (r : Rec) : (append p r s).rd q = s.rd q := rd_congr rfl q
@[simp] theorem rd_appendAll (p : Nat) (rs : List Rec) : (appendAll p rs s).rd q = s.rd q := by simp [appendAll]
@[simp] theorem rd_writeStoreModes (p : Nat) : (writeStoreModes p s).rd q = s.rd q := by simp [writeStoreModes]
@[simp] theorem rd_writeBankGaps (p b : Nat) (resume : Option Label) : (writeBankGaps p b resume s).rd q = s.rd q := by
  simp [writeBankGaps]
@[simp] theorem rd_crossTo (b : Nat) (t : Label) : (crossTo b t s).rd q = s.rd q := by simp [crossTo]

section
variable (hq : reportOff (q.key % 0x100000) = false)
include hq

theorem rd_appendBank (p b : Nat) (r : Rec) : (appendBank p b r s).rd q = s.rd q := by
  simp [appendBank, rd_bump _ q _ _ hq]

theorem rd_writeDue (p b : Nat) (forced : Bool) : (writeDue p b forced s).rd q = s.rd q := by
  simp [writeDue, ite_apply, rd_appendBank _ hq]

theorem rd_flushRun (p b : Nat) (k : Bool) : (flushRun p b k s).rd q = s.rd q := by
  unfold flushRun
  extract_lets s1 x s2
  split <;> simp [s1, s2, rd_writeDue _ hq, rd_appendBank _ hq]

theorem rd_openRecords (p b : Nat) (t : Label) : (openRecords p b t s).rd q = s.rd q := by
  simp [openRecords, writeFrame, rd_appendBank _ hq]

theorem rd_flushState (p b : Nat) (k : Bool) : (flushState p b k s).rd q = s.rd q := by
  simp [flushState, rd_appendBank _ hq]

theorem rd_joinRun (p b : Nat) (e : StateSample) : (joinRun p b e s).rd q = s.rd q := by
  simp [joinRun, rd_flushState _ hq]

theorem rd_packSample (p b : Nat) (e : StateSample) : (packSample p b e s).rd q = s.rd q := by
  unfold packSample
  extract_lets s1 s2 s3 now
  have h1 : s1.rd q = s.rd q := by simp [s1, rd_openRecords _ hq]
  have h2 : s2.rd q = s.rd q := by
    simp only [s2]
    split <;> simp [h1, rd_flushState _ hq]
  simp [s3, h1, h2, rd_joinRun _ hq, rd_flushState _ hq]

theorem rd_packState (p b : Nat) (upto : Label) (force k : Bool) : (packState p b upto force k s).rd q = s.rd q := by
  simp [packState, rd_packSample _ hq, rd_flushState _ hq]

/-! ### Storing stops -/

theorem rd_stopStoring (p reason detail : Nat) (t : Label) : (stopStoring p reason detail t s).rd q = s.rd q := by
  simp [stopStoring, rd_flushRun _ hq, rd_packState _ hq]

theorem rd_stopAtBlock (p reason detail : Nat) : (stopAtBlock p reason detail s).rd q = s.rd q := by
  simp [stopAtBlock, rd_stopStoring _ hq]

end

@[simp] theorem stopAtBlock_mgmt (p reason detail : Nat) : (stopAtBlock p reason detail s).mgmt = s.mgmt := by
  simp [stopAtBlock]

end Sys2Proof.Machine
end

section
/-! Proofs: the retirement of pseudo-channels and the passes of the scrubber (PC_RETIRE_DETECT, HBM_PHY_RETRAIN,
MEM_RETIRE_CMD, MIRROR_REBUILD_DONE, SCRUB_PASS, REMAP_DONE; R298 to R303, R311, R536). -/

namespace Sys2Proof.Machine

variable (s : State)

/-! ### The first steps of a retirement (R301) -/

/-- The stripes of a pseudo-channel are lost in the stored records alone. -/
@[simp] theorem loseStripes_mgmt (n : Nat) : (loseStripes n s).mgmt = s.mgmt :=
  each_mgmt s _ (fun p u => by split <;> rfl) _
@[simp] theorem rd_loseStripes {q : Reg} (n : Nat) : (loseStripes n s).rd q = s.rd q :=
  rd_each s _ (fun p u => by split <;> rfl) _

/-- FAULT# follows its causes, and what is in retirement stays. -/
@[simp] theorem pinUpdate_retiring : (pinUpdate s).mgmt.retiring = s.mgmt.retiring := by
  unfold pinUpdate
  extract_lets low m s1 s2
  have h2 : s2.mgmt = s1.mgmt :=
    each_mgmt s1 (fun f => setF (F.fltStatusFaultPin f) (if low then 1 else 0)) (fun _ _ => rfl) [0, 128]
  simp only [ite_mgmt, postPfs_mgmt, spend_mgmt, h2, ite_self]
  split <;> rfl

@[simp] theorem setCause_retiring (n : Nat) : (setCause n s).mgmt.retiring = s.mgmt.retiring :=
  pinUpdate_retiring (setF ⟨.fltPinCause, n, 1⟩ 1 s)

theorem rd_setCause {q : Reg} (hq : reportOff (q.key % 0x100000) = false) (hf : q.key ≠ Reg.fltPinCause.key)
    (n : Nat) : (setCause n s).rd q = s.rd q := by
  obtain ⟨m, hpin⟩ := pinUpdate_quiet (setF ⟨.fltPinCause, n, 1⟩ 1 s)
  exact (hpin.regs q hq).trans (rd_setF_ne s ⟨.fltPinCause, n, 1⟩ q 1 hf)

theorem logFault_mgmt (code index detail : Nat) (hc : code < 0x13) : (logFault code index detail s).mgmt = s.mgmt :=
  ((Quiet.refl s).logFault code index detail hc).mgmt

/-- Whether a cause sends pseudo-channel `n` into retirement: HBM is trained, and it is neither retired nor in
retirement. -/
def State.mayRetire (s : State) (n : Nat) : Prop :=
  s.flag F.memStatusTrained = true ∧ s.pcRetired n = false ∧ ∀ e ∈ s.mgmt.retiring, e.1 ≠ n

/-- It depends on three registers and on the pseudo-channels in retirement. -/
theorem mayRetire_congr {s t : State} (hstatus : t.rd .memStatus = s.rd .memStatus)
    (hlo : t.rd .memRetiredLo = s.rd .memRetiredLo) (hhi : t.rd .memRetiredHi = s.rd .memRetiredHi)
    (hretiring : t.mgmt.retiring = s.mgmt.retiring) (n : Nat) : t.mayRetire n ↔ s.mayRetire n := by
  simp only [State.mayRetire, State.pcRetired, State.flag, State.getF, hstatus, hlo, hhi, hretiring]

/-- The model's condition for a cause that changes nothing. -/
theorem not_mayRetire_iff (n : Nat) : ¬ s.mayRetire n ↔ s.flag F.memStatusTrained = false ∨ s.pcRetired n = true ∨
    (s.mgmt.retiring.any fun e => e.1 == n) = true := by
  simp only [State.mayRetire, not_and_or, Bool.not_eq_true, Bool.not_eq_false, not_forall, not_not, List.any_eq_true,
    beq_iff_eq, exists_prop]

section
variable {s} {n : Nat}

theorem retire_of_not (h : ¬ s.mayRetire n) (cause : Nat) : retire n cause s = s :=
  if_pos ((not_mayRetire_iff s n).mp h)

/-- The pseudo-channel goes into retirement. -/
theorem retire_retiring (h : s.mayRetire n) (cause : Nat) :
    (retire n cause s).mgmt.retiring = s.mgmt.retiring ++ [(n, cause)] := by
  rw [retire, if_neg (fun hn => (not_mayRetire_iff s n).mpr hn h)]
  extract_lets m s1 s2 s3 owners s4
  rw [setCause_retiring, logFault_mgmt _ _ _ _ (by decide)]
  simp [s4, s3, s2, s1, m]

end

/-- A retirement that begins shows in MEM_STATUS and on FAULT#; the other registers are left to the reports. -/
theorem rd_retire {q : Reg} (hq : reportOff (q.key % 0x100000) = false) (hm : q.key ≠ Reg.memStatus.key)
    (hf : q.key ≠ Reg.fltPinCause.key) (n cause : Nat) : (retire n cause s).rd q = s.rd q := by
  unfold retire
  split
  · rfl
  · extract_lets m s1 s2 s3 owners s4
    have h1 : s1.rd q = s.rd q := rd_setF_ne { s with mgmt := m } F.memStatusRetiring q 1 hm
    have h3 : s3.rd q = s.rd q := by simp [s3, s2, h1, rd_stopAtBlock _ hq]
    calc (setCause 0 (logFault 0x07 n cause s4)).rd q = (logFault 0x07 n cause s4).rd q := rd_setCause _ hq hf 0
      _ = s4.rd q := ((Quiet.refl s4).logFault 0x07 n cause (by decide)).regs q hq
      _ = s3.rd q := rd_postAll _ q _ _ _ hq
      _ = s.rd q := h3

/-! ### PC_RETIRE_DETECT (R300, R301) -/

theorem execPcRetireDetect_shows (n : PcId) (cause : Fin 3) :
    ∃ t, execPcRetireDetect n cause s = .next t ∧
      (s.mayRetire n ∧ (cause = 0 → s.getF F.memCtrlRetireUe ≤ s.ueCount n) →
        t.mgmt.retiring = s.mgmt.retiring ++ [(n.val, cause.val)]) ∧
      (¬ (s.mayRetire n ∧ (cause = 0 → s.getF F.memCtrlRetireUe ≤ s.ueCount n)) → t = s) := by
  unfold execPcRetireDetect
  split
  next h =>
    obtain ⟨hc, hue⟩ := h
    exact ⟨s, rfl, fun hgoes => absurd (hgoes.2 hc) (Nat.not_le.mpr hue), fun _ => rfl⟩
  next h =>
    have hcause : cause = 0 → s.getF F.memCtrlRetireUe ≤ s.ueCount n := fun hc =>
      Nat.le_of_not_lt fun hue => h ⟨hc, hue⟩
    refine ⟨_, rfl, fun hgoes => retire_retiring hgoes.1 _, fun hstays => ?_⟩
    rw [retire_of_not fun hm => hstays ⟨hm, hcause⟩]

/-! ### HBM_PHY_RETRAIN (R300, R536) -/

theorem reportOff_hbmPcTrain (n : PcId) :
    reportOff ((Reg.hbmPcTrain (n.val / 32) (n.val % 32)).key % 0x100000) = false :=
  reportOff_of_off rfl (by simp only [Reg.off]; omega) (by simp only [Reg.off]; omega)

/-- A register that lies below the HBM stacks is no register of a pseudo-channel. -/
theorem key_ne_hbmPc {q : Reg} (hs : q.space = 256) (ho : q.off < 0x58000) (st k : Nat) :
    q.key ≠ (Reg.hbmPcTrain st k).key ∧ q.key ≠ (Reg.hbmPcStatus st k).key := by
  have htrain : (Reg.hbmPcTrain st k).key = 256 * 0x100000 + (0x58104 + st * 0x4000 + k * 8) := rfl
  have hstatus : (Reg.hbmPcStatus st k).key = 256 * 0x100000 + (0x58100 + st * 0x4000 + k * 8) := rfl
  rw [Reg.key, hs, htrain, hstatus]
  omega

/-- The retrain of a pseudo-channel is counted, and what it measured is kept. -/
def retrained (n : PcId) (us : Nat) (s : State) : State :=
  pcTrained (n.val / 32) (n.val % 32) us (setF (F.hbmPcTrainRetrains (n.val / 32) (n.val % 32))
    (min 65535 (s.getF (F.hbmPcTrainRetrains (n.val / 32) (n.val % 32)) + 1)) s)

theorem execHbmPhyRetrain_eq (n : PcId) (us : Nat) : execHbmPhyRetrain n us s =
    done s (if 100 < us then retire n 2 (retrained n us s) else retrained n us s) := by
  unfold execHbmPhyRetrain
  split <;> rfl

theorem rd_pcTrained {q : Reg} {st k : Nat} (ht : q.key ≠ (Reg.hbmPcTrain st k).key)
    (hs : q.key ≠ (Reg.hbmPcStatus st k).key) (us : Nat) : (pcTrained st k us s).rd q = s.rd q := by
  rw [pcTrained, rd_congr (spend_regs _), rd_setF_ne _ (F.hbmPcTrainLastTrainUs st k) _ _ ht,
    rd_setF_ne _ (F.hbmPcStatusEyeWidth st k) _ _ hs, rd_setF_ne _ (F.hbmPcStatusEyeHeight st k) _ _ hs]

/-- A retrain leaves the registers below the HBM stacks. -/
theorem rd_retrained {q : Reg} (hs : q.space = 256) (ho : q.off < 0x58000) (n : PcId) (us : Nat) :
    (retrained n us s).rd q = s.rd q := by
  obtain ⟨htrain, hstatus⟩ := key_ne_hbmPc hs ho (n.val / 32) (n.val % 32)
  rw [retrained, rd_pcTrained _ htrain hstatus,
    rd_setF_ne _ (F.hbmPcTrainRetrains (n.val / 32) (n.val % 32)) _ _ htrain]

theorem getF_retrained (n : PcId) (us : Nat) :
    (retrained n us s).getF (F.hbmPcTrainRetrains (n.val / 32) (n.val % 32)) =
      min 65535 (s.getF (F.hbmPcTrainRetrains (n.val / 32) (n.val % 32)) + 1) := by
  have hkey : (Reg.hbmPcTrain (n.val / 32) (n.val % 32)).key ≠ (Reg.hbmPcStatus (n.val / 32) (n.val % 32)).key := by
    simp only [Reg.key, Reg.space, Reg.off]
    omega
  rw [retrained, pcTrained, getF_congr (spend_regs _), getF_setF_apart _ _ (by decide) (by decide),
    getF_setF_key _ hkey, getF_setF_key _ hkey, getF_setF_bits _ _ (by decide) (by omega)]

/-- A retirement leaves the count of the retrains. -/
theorem getF_retire_retrains (n cause : Nat) (m : PcId) :
    (retire n cause s).getF (F.hbmPcTrainRetrains (m.val / 32) (m.val % 32)) =
      s.getF (F.hbmPcTrainRetrains (m.val / 32) (m.val % 32)) :=
  congrArg (F.hbmPcTrainRetrains (m.val / 32) (m.val % 32)).get (rd_retire s (reportOff_hbmPcTrain m)
    (key_ne_hbmPc rfl (by decide) _ _).1.symm (key_ne_hbmPc rfl (by decide) _ _).1.symm n cause)

theorem mayRetire_retrained (n : PcId) (us m : Nat) : (retrained n us s).mayRetire m ↔ s.mayRetire m :=
  mayRetire_congr (rd_retrained s rfl (by decide) n us) (rd_retrained s rfl (by decide) n us)
    (rd_retrained s rfl (by decide) n us) rfl m

theorem execHbmPhyRetrain_shows (n : PcId) (us : Nat) :
    ∃ t, execHbmPhyRetrain n us s = .next t ∧
      t.getF (F.hbmPcTrainRetrains (n.val / 32) (n.val % 32)) =
        min 65535 (s.getF (F.hbmPcTrainRetrains (n.val / 32) (n.val % 32)) + 1) ∧
      (s.mayRetire n ∧ 100 < us → t.mgmt.retiring = s.mgmt.retiring ++ [(n.val, 2)]) ∧
      (¬ (s.mayRetire n ∧ 100 < us) → t.mgmt.retiring = s.mgmt.retiring) := by
  refine ⟨_, execHbmPhyRetrain_eq s n us, ?_, fun ⟨hm, hus⟩ => ?_, fun hstays => ?_⟩
  · refine .trans ?_ (getF_retrained s n us)
    change State.getF (if 100 < us then _ else _) _ = _
    split
    · exact getF_retire_retrains _ n.val 2 n
    · rfl
  · rw [if_pos hus]
    exact retire_retiring ((mayRetire_retrained s n us n).mpr hm) 2
  · split
    next hus =>
      rw [retire_of_not fun hm => hstays ⟨(mayRetire_retrained s n us n).mp hm, hus⟩]
      rfl
    next => rfl

/-! ### MEM_RETIRE_CMD (R300, R311) -/

/-- A write asks for a retirement: REQ, with HBM trained. -/
def State.asksRetire (s : State) (v : Word) : Prop := v.getLsbD 31 = true ∧ s.flag F.memStatusTrained = true

/-- The retirement that the host asks for is refused: the pseudo-channel is retired, or too few would remain. -/
abbrev State.refusesRetire (s : State) (n : Nat) : Prop :=
  s.pcRetired n = true ∨ s.getF F.memCapPcActive < 43 + s.mgmt.retiring.length

theorem bitsOf_one_eq_zero (v : Word) (k : Nat) : bitsOf v.toNat k 1 = 0 ↔ v.getLsbD k = false := by
  have hlt : bitsOf v.toNat k 1 < 2 := bitsOf_lt _ _ _
  rw [← Bool.not_eq_true, ← bitsOf_one_eq_one]
  omega

section
variable {s} {v : Word}

theorem retireWrite_idle (h : ¬ s.asksRetire v) : retireWrite v s = (s, false) := by
  refine if_pos ?_
  rw [bitsOf_one_eq_zero]
  simpa only [State.asksRetire, not_and_or, Bool.not_eq_true] using h

/-- What asks for a retirement passes the first check. -/
theorem retireWrite_asked (ha : s.asksRetire v) : retireWrite v s =
    if s.refusesRetire (bitsOf v.toNat 0 6) then (s, true) else (retire (bitsOf v.toNat 0 6) 3 s, false) := by
  obtain ⟨hreq, htrained⟩ := ha
  refine if_neg ?_
  rw [bitsOf_one_eq_zero, hreq, htrained]
  decide

end

@[simp] theorem keepWrite_mgmt (r : Reg) (v : Word) : (keepWrite r v s).mgmt = s.mgmt := by
  unfold keepWrite
  dsimp only
  split <;> rfl

/-- A write of MEM_RETIRE_CMD changes nothing of what it is judged by. -/
theorem judged_keepWrite (v : Word) (n : Nat) :
    ((keepWrite .memRetireCmd v s).asksRetire v ↔ s.asksRetire v) ∧
    ((keepWrite .memRetireCmd v s).refusesRetire n ↔ s.refusesRetire n) ∧
    ((keepWrite .memRetireCmd v s).mayRetire n ↔ s.mayRetire n) := by
  have hkept : ∀ q : Reg, q.key ≠ Reg.memRetireCmd.key → (keepWrite .memRetireCmd v s).rd q = s.rd q :=
    (storesOnly_keepWrite s .memRetireCmd v).2
  have hstatus := hkept .memStatus (by decide)
  have hlo := hkept .memRetiredLo (by decide)
  have hhi := hkept .memRetiredHi (by decide)
  have hcap := hkept .memCap (by decide)
  refine ⟨?_, ?_, mayRetire_congr hstatus hlo hhi (by rw [keepWrite_mgmt]) n⟩
  · simp only [State.asksRetire, State.flag, State.getF, hstatus]
  · simp only [State.refusesRetire, State.pcRetired, State.getF, hlo, hhi, hcap, keepWrite_mgmt]

section
variable {s} {v : Word}

theorem retireCmdWrite_idle (h : ¬ s.asksRetire v) : (retireCmdWrite v s).mgmt = s.mgmt := by
  obtain ⟨hasks, -, -⟩ := judged_keepWrite s v 0
  simp [retireCmdWrite, retireWrite_idle (hasks.not.mpr h)]

/-- A refused write leaves management, and its event names the pseudo-channel. -/
theorem retireCmdWrite_refused (ha : s.asksRetire v) (hr : s.refusesRetire (bitsOf v.toNat 0 6)) :
    retireCmdWrite v s = event F.memEventsCfgRefused 0x1508 (bitsOf v.toNat 0 6) s := by
  obtain ⟨hasks, hrefuses, -⟩ := judged_keepWrite s v (bitsOf v.toNat 0 6)
  rw [retireCmdWrite, retireWrite_asked (hasks.mpr ha), if_pos (hrefuses.mpr hr)]
  rfl

theorem retireCmdWrite_accepted (ha : s.asksRetire v) (hr : ¬ s.refusesRetire (bitsOf v.toNat 0 6))
    (hnew : ∀ e ∈ s.mgmt.retiring, e.1 ≠ bitsOf v.toNat 0 6) :
    (retireCmdWrite v s).mgmt.retiring = s.mgmt.retiring ++ [(bitsOf v.toNat 0 6, 3)] := by
  obtain ⟨hasks, hrefuses, hmay⟩ := judged_keepWrite s v (bitsOf v.toNat 0 6)
  have hkept : s.pcRetired (bitsOf v.toNat 0 6) = false := Bool.eq_false_iff.mpr fun h => hr (.inl h)
  have hgoes := retire_retiring (hmay.mpr ⟨ha.2, hkept, hnew⟩) 3
  rw [keepWrite_mgmt] at hgoes
  rw [retireCmdWrite, retireWrite_asked (hasks.mpr ha), if_neg (hrefuses.not.mpr hr)]
  exact hgoes

end

theorem execMemRetireCmd_carriesOut {f : FnId} (v : Word) (h : s.carriesOut f 0x50018 = true) :
    execMemRetireCmd f v s = done s (retireCmdWrite v s) := bar0_acts h _ _

theorem execMemRetireCmd_shows {f : FnId} (v : Word) (h : s.carriesOut f 0x50018 = true) :
    ∃ t, execMemRetireCmd f v s = .next t ∧
      (s.asksRetire v → ¬ s.refusesRetire (bitsOf v.toNat 0 6) → (∀ e ∈ s.mgmt.retiring, e.1 ≠ bitsOf v.toNat 0 6) →
        t.mgmt.retiring = s.mgmt.retiring ++ [(bitsOf v.toNat 0 6, 3)]) ∧
      (s.asksRetire v → s.refusesRetire (bitsOf v.toNat 0 6) →
        t.flag F.memEventsCfgRefused = true ∧ t.mgmt = s.mgmt) ∧
      (¬ s.asksRetire v → t.mgmt = s.mgmt) := by
  refine ⟨_, execMemRetireCmd_carriesOut s v h, retireCmdWrite_accepted, fun ha hr => ?_, retireCmdWrite_idle⟩
  rw [retireCmdWrite_refused ha hr]
  exact ⟨(flag_of_getF (getF_event s _ _ _ _ (by decide))).trans (flag_setF_one s .memEvents (by decide)),
    postPfs_mgmt _ _ _⟩

/-! ### SCRUB_PASS (R298, R299) -/

@[simp] theorem ite_ctrs (c : Prop) [Decidable c] (t u : State) :
    (if c then t else u).ctrs = if c then t.ctrs else u.ctrs := apply_ite State.ctrs c t u
@[simp] theorem msix_ctrs (f vec : Nat) : (msix f vec s).ctrs = s.ctrs := by simp [msix, msixNow]

/-- An entry counts in EVQ_LOST alone, whose codes begin at 0x6100 (R402). -/
theorem ctr_enqueue {code : Nat} (hc : code < 0x6100) (f ev payload : Nat) :
    (enqueue f ev payload s).ctr code = s.ctr code := by
  have hlost : code ≠ evqLostItem f := by
    rw [evqLostItem]
    omega
  unfold enqueue
  dsimp only
  split
  · simp only [State.ctr, bumpRaw, spGet_spSet_ne _ _ hlost, setF_ctrs, setFn_ctrs]
  · simp [State.ctr]

theorem ctr_saturated {code : Nat} (hc : code < 0x6100) (item : Nat) : (saturated item s).ctr code = s.ctr code :=
  each_proj _ (State.ctr · code) _ (fun f u => ctr_enqueue u hc f _ _) _

/-- An increment counts up to the greatest value of the counter (R98). -/
theorem ctr_bump_same {code : Nat} (hc : code < 0x6100) (n : Nat) :
    (bump code n s).ctr code = min ctrMax (s.ctr code + n) := by
  have hraw : (bumpRaw code n s).ctr code = min ctrMax (s.ctr code + n) := by
    simp only [State.ctr, bumpRaw, spGet_spSet_same]
    split <;> omega
  unfold bump
  dsimp only
  split
  · rw [ctr_saturated _ hc, hraw]
  · exact hraw

section
variable {s}

theorem execScrubPass_idle (h : ¬ (s.flag F.memStatusTrained = true ∧ s.getF F.memCtrlScrubHours ≠ 0))
    (ce : List PcId) (ue : List (PcId × MemPlace)) : execScrubPass ce ue s = .next s := by
  refine (if_pos ?_).trans (done_self s)
  rwa [not_and_or, Bool.not_eq_true, not_not] at h

/-- A pass of the scrubber meets its errors, and is counted. -/
theorem execScrubPass_counts (h : s.flag F.memStatusTrained = true ∧ s.getF F.memCtrlScrubHours ≠ 0)
    (ce : List PcId) (ue : List (PcId × MemPlace)) : execScrubPass ce ue s = done s (bump 0x5080 1
      (each (fun (e : PcId × MemPlace) s => uncorrectable e.1 (e.2 == .reserved) (scrubPoison e.2 s)) ue
        (each (fun (n : PcId) => corrected n) ce s))) := by
  refine if_neg ?_
  rwa [not_or, Bool.not_eq_false]

end

theorem execScrubPass_clean : ∃ t, execScrubPass [] [] s = .next t ∧ t.ctr 0x5080 =
    if s.flag F.memStatusTrained = true ∧ s.getF F.memCtrlScrubHours ≠ 0 then min ctrMax (s.ctr 0x5080 + 1)
    else s.ctr 0x5080 := by
  split
  next h => exact ⟨_, execScrubPass_counts h [] [], ctr_bump_same s (by decide) 1⟩
  next h => exact ⟨s, execScrubPass_idle h [] [], rfl⟩

/-! ### REMAP_DONE (R301 to R303) -/

/-- The ends of the retirements are posted with PC_RETIRED: management and MEM_STATUS stay as they were. -/
theorem postRetired_keeps (ns : List Nat) : (each (fun n => event F.memEventsPcRetired 0x1501 n) ns s).mgmt = s.mgmt ∧
    (each (fun n => event F.memEventsPcRetired 0x1501 n) ns s).flag F.memStatusRetiring = s.flag F.memStatusRetiring :=
  ⟨each_mgmt s (fun n => event F.memEventsPcRetired 0x1501 n) (fun _ _ => postPfs_mgmt _ _ _) ns,
    flag_of_getF (each_proj s (State.getF · F.memStatusRetiring) (fun n => event F.memEventsPcRetired 0x1501 n)
      (fun _ u => (getF_event u _ _ _ _ (by decide)).trans (getF_setF_ne u _ _ _ (by decide))) ns)⟩

section
variable {s}

theorem execRemapDone_idle (h : s.mgmt.retiring = []) : execRemapDone s = .next s :=
  (if_pos (List.map_eq_nil_iff.mpr h)).trans (done_self s)

theorem execRemapDone_shows (h : s.mgmt.retiring ≠ []) :
    ∃ u, execRemapDone s = .next { settleAll u with pending := s.pending } ∧
      u.mgmt.retiring = [] ∧ u.mgmt.mirrorDue = true ∧ u.flag F.memStatusRetiring = false := by
  unfold execRemapDone
  extract_lets ns s1 s2 m s3 s4 floors s5
  obtain ⟨hm4, hf4⟩ := postRetired_keeps s3 ns
  have hf3 : s3.flag F.memStatusRetiring = false := flag_setF_zero _ .memStatus (by decide)
  have h5 : s5.mgmt = s4.mgmt ∧ s5.flag F.memStatusRetiring = s4.flag F.memStatusRetiring := by
    unfold s5
    split
    · exact ⟨postOpen_mgmt s4 _, flag_of_getF (getF_postOpen s4 _ _ (by decide))⟩
    · exact ⟨rfl, rfl⟩
  obtain ⟨hm5, hf5⟩ := h5
  have hm : s5.mgmt = s3.mgmt := hm5.trans hm4
  exact ⟨s5, if_neg (List.map_eq_nil_iff.not.mpr h), congrArg Mgmt.retiring hm, congrArg Mgmt.mirrorDue hm,
    (hf5.trans hf4).trans hf3⟩

end

/-- Settles O34: a cause by whether the pseudo-channel may go into retirement, a write of MEM_RETIRE_CMD by whether it
asks and is refused, a pass of the scrubber by whether it runs, the end of a retirement by whether there is one. -/
theorem pseudoChannelsRetire : Obligations.PseudoChannelsRetire := by
  unfold Obligations.PseudoChannelsRetire
  refine ⟨fun n cause s => ?_, fun n us s => ?_, fun f v s h => execMemRetireCmd_shows s v h,
    fun s => ⟨_, rfl, rfl, rfl⟩, execScrubPass_clean,
    fun ce ue s ht hh => ⟨_, rfl, execScrubPass_counts ⟨ht, hh⟩ ce ue⟩,
    fun s => ⟨execRemapDone_idle, execRemapDone_shows⟩⟩
  · have hshows := execPcRetireDetect_shows s n cause
    simp only [State.mayRetire, and_assoc] at hshows
    exact hshows
  · have hshows := execHbmPhyRetrain_shows s n us
    simp only [State.mayRetire, and_assoc] at hshows
    exact hshows

end Sys2Proof.Machine
end

section
/-! Proofs: the commands that report, and those of one narrow effect (QUERY, MOD_TIME_EXPIRY, ATS_INVALIDATION,
UNEXPECTED_COMPLETION, TAG_QUARANTINE_END, LINK_RECOVERY, ASPM_L1_ENTRY, SMBUS_READ_BYTE; GRANT, DOMAIN_IDLE_TIMEOUT,
DOMAIN_WAKE, DEVCTL2_CTO_WRITE). -/

namespace Sys2Proof.Machine

/-! ### The end of a read (R362, R366) -/

namespace Quiet

variable {s t : State}

theorem dropTag (h : Quiet s t) (f k : Nat) : Quiet s (dropTag f k t) := h.modFn f _

theorem readBlock (h : Quiet s t) (c : Nat) : Quiet s (readBlock c t) := by
  unfold Machine.readBlock
  repeat' split
  · exact h.issueRead ..
  · exact h.awaitRead _
  · exact h
  · exact h

/-- Serving the reads that wait issues reads, or lets them wait on. -/
theorem serveReads (h : Quiet s t) : Quiet s (serveReads t) := by
  unfold Machine.serveReads
  split
  · exact h
  · have h0 : Quiet s { t with readWait := [] } := h.trans { refl t with }
    refine h0.each _ (fun f u hu => ?_) _
    exact (hu.each _ (fun n _ hv => hv.tryFetch f n) _).each _ (fun c _ hv => hv.readBlock c) _

theorem endTag (h : Quiet s t) (f k : Nat) : Quiet s (endTag f k t) := (h.dropTag f k).serveReads

theorem unexpectedCpl (h : Quiet s t) (f tag source detail : Nat) : Quiet s (unexpectedCpl f tag source detail t) :=
  (((h.emit _).logErr ..).setF _ _ (epEvents_report ..)).post ..

end Quiet

/-- A command that goes on with what reports have made of its state is quiet. -/
theorem quiet_of_done {s t u : State} {r : Host.Outcome State Fault Refusal} (hr : r = done s u) (hq : Quiet s u)
    (ht : r = .next t) : Quiet s t := by
  subst hr
  cases ht
  exact hq.trans { Quiet.refl u with pending := hq.pending.symm }

/-! ### The commands that report -/

section
variable (s : State)

theorem execQueryPartition_quiet (c : Cmd) (addr p : Nat) :
    ∃ u, execQueryPartition c addr p s = done s u ∧ Quiet s u := by
  unfold execQueryPartition
  extract_lets f ws
  split
  · exact ⟨_, rfl, (Quiet.refl s).finish ..⟩
  · split
    · exact ⟨_, rfl, (Quiet.refl s).finish ..⟩
    · exact ⟨_, rfl, (Quiet.refl s).finishPre ..⟩

theorem execQueryCounter_quiet (c : Cmd) (addr item : Nat) :
    ∃ u, execQueryCounter c addr item s = done s u ∧ Quiet s u := by
  have hdrawn : Quiet s (when_ (itemOpen item) spend s) := by
    unfold when_
    split
    · exact (Quiet.refl s).spend
    · exact Quiet.refl s
  unfold execQueryCounter
  extract_lets f
  split
  · exact ⟨_, rfl, (Quiet.refl s).finish ..⟩
  · split
    · exact ⟨_, rfl, (Quiet.refl s).finish ..⟩
    · split
      · exact ⟨_, rfl, (Quiet.refl s).finish ..⟩
      · exact ⟨_, rfl, hdrawn.finishPre ..⟩

theorem execModTimeExpiry_quiet (f : FnId) (n : PairId) : ∃ u, execModTimeExpiry f n s = done s u ∧ Quiet s u := by
  unfold execModTimeExpiry
  split
  · exact ⟨_, rfl, (Quiet.refl s).signalPair f n⟩
  · exact ⟨_, rfl, Quiet.refl s⟩

theorem execUnexpectedCompletion_quiet (f : FnId) (k : Nat) :
    ∃ u, execUnexpectedCompletion f k s = done s u ∧ Quiet s u := by
  unfold execUnexpectedCompletion
  split
  · exact ⟨_, rfl, (Quiet.refl s).spend.spend.unexpectedCpl ..⟩
  · split
    · exact ⟨_, rfl, Quiet.refl s⟩
    · split
      · exact ⟨_, rfl, (Quiet.refl s).endTag f k⟩
      · exact ⟨_, rfl, ((Quiet.refl s).endTag f k).unexpectedCpl ..⟩

theorem execTagQuarantineEnd_quiet (f : FnId) (k : Nat) :
    ∃ u, execTagQuarantineEnd f k s = done s u ∧ Quiet s u := by
  unfold execTagQuarantineEnd
  split
  · exact ⟨_, rfl, (Quiet.refl s).endTag f k⟩
  · exact ⟨_, rfl, Quiet.refl s⟩

theorem execLinkRecovery_quiet (port : PortId) : ∃ u, execLinkRecovery port s = done s u ∧ Quiet s u := by
  unfold execLinkRecovery
  extract_lets f
  split
  · exact ⟨_, rfl, (Quiet.refl s).logFault _ _ _ (by decide)⟩
  · exact ⟨_, rfl, Quiet.refl s⟩

theorem execAspmL1Entry_quiet (port : PortId) : ∃ u, execAspmL1Entry port s = done s u ∧ Quiet s u := by
  unfold execAspmL1Entry
  split
  · exact ⟨_, rfl, Quiet.refl s⟩
  · exact ⟨_, rfl, (Quiet.refl s).emit _⟩

end

/-- Settles O6: each of the commands goes on with what completions, events, logs, messages and ends of reads have made
of the state. -/
theorem reportingCommandsAreQuiet : Obligations.ReportingCommandsAreQuiet := by
  intro i c f n port a p k code s t hi ht
  have hdone : ∃ u, exec i s = done s u ∧ Quiet s u := by
    simp only [List.mem_cons, List.not_mem_nil, or_false] at hi
    rcases hi with rfl | rfl | rfl | rfl | rfl | rfl | rfl | rfl | rfl | rfl
    · exact ⟨_, rfl, (Quiet.refl s).finishPre ..⟩
    · exact execQueryPartition_quiet s c a p
    · exact execQueryCounter_quiet s c a k
    · exact execModTimeExpiry_quiet s f n
    · exact ⟨_, rfl, (Quiet.refl s).emit _⟩
    · exact execUnexpectedCompletion_quiet s f k
    · exact execTagQuarantineEnd_quiet s f k
    · exact execLinkRecovery_quiet s port
    · exact execAspmL1Entry_quiet s port
    · exact ⟨_, rfl, (Quiet.refl s).emit _⟩
  obtain ⟨u, hu, hq⟩ := hdone
  exact quiet_of_done hu hq ht

/-! ### A listed reset word -/

/-- A state that lists PWR_STAT of domain 8 at its reset word. Its table is in canonical form, but no store makes it:
one of the reset word drops the entry. -/
def listsResetWord : State := { regs := [((Reg.pwrStat 8).key, (Reg.pwrStat 8).reset)] }

/-- ENC_CTRL of a bank far beyond the eight has the key of PWR_STAT of domain 8, and another reset word. -/
theorem encCtrl_key_eq_pwrStat : (Reg.encCtrl 5633).key = (Reg.pwrStat 8).key := by decide

/-- The domain is ON, so that work that reaches it changes nothing. -/
theorem exec_domainWake_listsResetWord : exec (.domainWake 8) listsResetWord = .next listsResetWord := by
  have hon : listsResetWord.domain 8 = 0 := by decide
  have hstays : wake 8 listsResetWord = listsResetWord := if_neg (by rw [hon]; decide)
  exact congrArg (done listsResetWord) hstays

/-- Refutes O7: DOMAIN_WAKE of a domain that is ON leaves a state that lists PWR_STAT at its reset word as it is, but
storing that word anew drops it from the list, and a register out of range that shares its key then reads its own reset
word. -/
theorem not_narrowCommandsChangeNoOther : ¬ Obligations.NarrowCommandsChangeNoOther := by
  intro h
  have hq : Quiet (wr (.pwrStat 8) (listsResetWord.rd (.pwrStat 8)) listsResetWord) listsResetWord :=
    h.2 (.domainWake 8) (.pwrStat 8) 8 0 0 _ _ (by simp) exec_domainWake_listsResetWord
  exact absurd (hq.regs (.encCtrl 5633) (by decide)) (by decide)

end Sys2Proof.Machine
end

section
/-! Proofs: the grants of a partition (GRANT ISSUE, REVOKE and REVOKE_ALL; R338). -/

namespace Sys2Proof.Machine

/-! ### A command that completes after its effect -/

section
variable {s u : State} {c : Cmd} {op st r rh : Nat}

/-- What a command has made of its state, then its completion: the completion follows all that has left the block. -/
theorem completed_done (hc : c.index < 65536) (ho : s.out <:+ u.out) :
    Completed s { finish c op st r rh u with pending := s.pending } c op st r rh :=
  show Completed s (finish c op st r rh u) c op st r rh from (completed_finish c op st r rh u hc).after ho

/-- What a command has made of its state, then its completion: the completion reports, and no more. -/
theorem quiet_done : Quiet { u with pending := s.pending } { finish c op st r rh u with pending := s.pending } :=
  { (Quiet.refl u).finish c op st r rh with pending := rfl }

/-- Reports leave the tokens of a partition. -/
theorem Quiet.tokens (h : Quiet s u) (p : Nat) : (u.part p).tokens = (s.part p).tokens :=
  show (u.part p).core.tokens = (s.part p).core.tokens from congrArg Part.tokens (h.parts p)

/-- A command that changes a partition and completes, completes after it, with the partition's tokens as it has left
them. -/
theorem finishes_part {i : Instr} {p : Nat} {g : Part → Part} (hc : c.index < 65536) (ho : u.out = s.out)
    (hx : exec i s = done s (finish c op st r rh (modPart p g u))) :
    ∃ t, exec i s = .next t ∧ (t.part p).tokens = (g (u.part p)).tokens ∧ Completed s t c op st r rh :=
  ⟨_, hx, (quiet_done.tokens p).trans (congrArg Part.tokens (part_modPart_same u p g)),
    completed_done hc (by rw [modPart_out, ho])⟩

end

/-! ### The token drawn -/

/-- The values that a token may not have: 0 and those of the live ones. -/
def takenValues (ts : List Token) : List Nat := 0 :: ts.map Token.value

theorem freshToken_lt (n k : Nat) (ts : List Token) : freshToken n k ts < 65536 := by
  induction n generalizing k with
  | zero => exact Nat.mod_lt _ (by decide)
  | succ n ih =>
    unfold freshToken
    split
    · exact ih (k + 1)
    · exact Nat.mod_lt _ (by decide)

/-- A draw that ends at a taken value has met no other one before. -/
theorem taken_of_freshToken {n k : Nat} {ts : List Token} (h : freshToken n k ts ∈ takenValues ts) :
    ∀ i ≤ n, (k + i) % 65536 ∈ takenValues ts := by
  induction n generalizing k with
  | zero =>
    intro i hi
    rw [Nat.le_zero.mp hi]
    exact h
  | succ n ih =>
    have htaken : (k % 65536 = 0 ∨ (ts.any fun t => t.value == k % 65536) = true) ↔ k % 65536 ∈ takenValues ts := by
      simp [takenValues]
    unfold freshToken at h
    simp only [htaken] at h
    intro i hi
    split at h
    next hk =>
      cases i with
      | zero => exact hk
      | succ i =>
        rw [Nat.add_comm i, ← Nat.add_assoc]
        exact ih h i (Nat.le_of_succ_le_succ hi)
    next hk => exact absurd h hk

/-- One more draw than there are tokens finds a free value: the values met are distinct, and more than are taken. -/
theorem freshToken_free {n k : Nat} {ts : List Token} (hn : ts.length < n) (hlt : n < 65536) :
    freshToken n k ts ∉ takenValues ts := by
  intro h
  have hinj : Set.InjOn (fun i => (k + i) % 65536) (Finset.range (n + 1)) := by
    intro i hi j hj hij
    simp only [Finset.coe_range, Set.mem_Iio] at hi hj hij
    omega
  have hsub : (Finset.range (n + 1)).image (fun i => (k + i) % 65536) ⊆ (takenValues ts).toFinset := by
    intro v hv
    obtain ⟨i, hi, rfl⟩ := Finset.mem_image.mp hv
    exact List.mem_toFinset.mpr (taken_of_freshToken h i (Finset.mem_range_succ_iff.mp hi))
  have hcard := (Finset.card_le_card hsub).trans (takenValues ts).toFinset_card_le
  rw [Finset.card_image_of_injOn hinj, Finset.card_range, takenValues, List.length_cons, List.length_map] at hcard
  omega

/-! ### The three commands -/

section
variable {s : State} {c : Cmd} {p : Nat} (hgate : s.partGate c.fn p true = none)
include hgate

section
variable {modes : BitVec 8} {target : BitVec 16}

theorem execGrantIssue_unfit (h : ¬ (modes.toNat ≠ 0 ∧ modes.toNat < 4 ∧ targetOk target.toNat = true)) :
    execGrantIssue c p modes target s = done s (finish c 0x0B stInvalidField 0 0 s) := by
  have hbad : modes.toNat = 0 ∨ 4 ≤ modes.toNat ∨ targetOk target.toNat = false := by
    simpa only [not_and_or, not_not, not_lt, Bool.not_eq_true] using h
  simp only [execGrantIssue, hgate, if_pos hbad]

section
variable (hfits : modes.toNat ≠ 0 ∧ modes.toNat < 4 ∧ targetOk target.toNat = true)
include hfits

theorem execGrantIssue_fits : execGrantIssue c p modes target s =
    if 8 ≤ (s.part p).tokens.length then done s (finish c 0x0B stNoResource 0 0 s)
    else
      let v := freshToken ((s.part p).tokens.length + 1) (Config.grantToken s.free).toNat (s.part p).tokens
      done s (finish c 0x0B stOk v 0 (modPart p (fun x => { x with
        tokens := { value := v, modes := modes.toNat, target := target.toNat } :: x.tokens }) (spend s))) := by
  obtain ⟨h0, h4, ht⟩ := hfits
  have hfine : ¬ (modes.toNat = 0 ∨ 4 ≤ modes.toNat ∨ targetOk target.toNat = false) := by
    simp [ht, h0, h4]
  simp only [execGrantIssue, hgate, if_neg hfine]

theorem execGrantIssue_issues (hc : c.index < 65536) (hroom : (s.part p).tokens.length < 8) :
    ∃ t, exec (.grantIssue c p modes target) s = .next t ∧ ∃ v, v ≠ 0 ∧ v < 65536 ∧
      (∀ k ∈ (s.part p).tokens, k.value ≠ v) ∧
      (t.part p).tokens = { value := v, modes := modes.toNat, target := target.toNat } :: (s.part p).tokens ∧
      Completed s t c 0x0B stOk v 0 := by
  have hx : exec (.grantIssue c p modes target) s = _ :=
    (execGrantIssue_fits hgate hfits).trans (if_neg (Nat.not_le.mpr hroom))
  obtain ⟨t, ht, htokens, hcpl⟩ := finishes_part (s := s) (u := spend s) hc rfl hx
  have hfree := freshToken_free (k := (Config.grantToken s.free).toNat)
    (Nat.lt_succ_self (s.part p).tokens.length) (by omega)
  simp only [takenValues, List.mem_cons, List.mem_map, not_or, not_exists, not_and] at hfree
  exact ⟨t, ht, _, hfree.1, freshToken_lt .., hfree.2, htokens, hcpl⟩

end

theorem execGrantIssue_shows (hc : c.index < 65536) : ∃ t, exec (.grantIssue c p modes target) s = .next t ∧
    let fits := modes.toNat ≠ 0 ∧ modes.toNat < 4 ∧ targetOk target.toNat = true
    (¬ fits → Quiet s t ∧ Completed s t c 0x0B stInvalidField 0 0) ∧
    (fits → 8 ≤ (s.part p).tokens.length → Quiet s t ∧ Completed s t c 0x0B stNoResource 0 0) ∧
    (fits → (s.part p).tokens.length < 8 → ∃ v, v ≠ 0 ∧ v < 65536 ∧ (∀ k ∈ (s.part p).tokens, k.value ≠ v) ∧
      (t.part p).tokens = { value := v, modes := modes.toNat, target := target.toNat } :: (s.part p).tokens ∧
      Completed s t c 0x0B stOk v 0) := by
  by_cases hfits : modes.toNat ≠ 0 ∧ modes.toNat < 4 ∧ targetOk target.toNat = true
  · by_cases hfull : 8 ≤ (s.part p).tokens.length
    · obtain ⟨t, ht, hcpl, hq⟩ := finishes_shows (i := .grantIssue c p modes target) hc
        ((execGrantIssue_fits hgate hfits).trans (if_pos hfull))
      exact ⟨t, ht, fun h => absurd hfits h, fun _ _ => ⟨hq, hcpl⟩, fun _ h => absurd hfull (Nat.not_le.mpr h)⟩
    · obtain ⟨t, ht, hissued⟩ := execGrantIssue_issues hgate hfits hc (Nat.not_le.mp hfull)
      exact ⟨t, ht, fun h => absurd hfits h, fun _ h => absurd h hfull, fun _ _ => hissued⟩
  · obtain ⟨t, ht, hcpl, hq⟩ := finishes_shows (i := .grantIssue c p modes target) hc
      (execGrantIssue_unfit hgate hfits)
    exact ⟨t, ht, fun _ => ⟨hq, hcpl⟩, fun h => absurd h hfits, fun h => absurd h hfits⟩

end

theorem execGrantRevoke_eq (token : Nat) : execGrantRevoke c p token s =
    if ((s.part p).tokens.any fun t => t.value == token) = true then
      done s (finish c 0x0B stOk 0 0
        (modPart p (fun x => { x with tokens := x.tokens.filter fun t => t.value != token }) s))
    else done s (finish c 0x0B stInvalidField 0 0 s) := by
  simp only [execGrantRevoke, hgate]

theorem execGrantRevoke_shows (hc : c.index < 65536) (token : Nat) :
    ∃ t, exec (.grantRevoke c p token) s = .next t ∧ (∀ k ∈ (t.part p).tokens, k.value ≠ token) ∧
      Completed s t c 0x0B (if (s.part p).tokens.any fun t => t.value == token then stOk else stInvalidField) 0 0 := by
  have hx := execGrantRevoke_eq hgate token
  split
  next hlive =>
    obtain ⟨t, ht, htokens, hcpl⟩ := finishes_part (i := .grantRevoke c p token) hc rfl (hx.trans (if_pos hlive))
    refine ⟨t, ht, fun k hk => ?_, hcpl⟩
    rw [htokens] at hk
    simpa using (List.mem_filter.mp hk).2
  next hlive =>
    obtain ⟨t, ht, hcpl, hq⟩ := finishes_shows (i := .grantRevoke c p token) hc (hx.trans (if_neg hlive))
    refine ⟨t, ht, fun k hk hv => ?_, hcpl⟩
    rw [hq.tokens] at hk
    exact hlive (List.any_eq_true.mpr ⟨k, hk, beq_iff_eq.mpr hv⟩)

theorem execGrantRevokeAll_eq : execGrantRevokeAll c p s =
    done s (finish c 0x0B stOk 0 0 (modPart p (fun x => { x with tokens := [] }) s)) := by
  simp only [execGrantRevokeAll, hgate]

end

/-- Settles O42: an ISSUE by whether it fits and whether there is room, a REVOKE by whether its token is live. -/
theorem grantTokensLive : Obligations.GrantTokensLive :=
  ⟨fun _ _ _ _ _ hc hgate => execGrantIssue_shows hgate hc,
    fun _ _ token _ hc hgate => execGrantRevoke_shows hgate hc token,
    fun c p _ hc hgate => finishes_part (i := .grantRevokeAll c p) hc rfl (execGrantRevokeAll_eq hgate)⟩

end Sys2Proof.Machine
end

section
/-! Proofs: the pins of the power domains (POWER_PIN; R332, R465). -/

namespace Sys2Proof.Machine

variable (s : State)

/-! ### The registers of a domain -/

theorem reportOff_pwrCtl {d : Nat} (hd : d < 32) : reportOff ((Reg.pwrCtl d).key % 0x100000) = false := by
  have hoff : (Reg.pwrCtl d).key % 0x100000 = 0x70080 + d * 4 := by
    simp only [Reg.key, Reg.space, Reg.off]
    omega
  simp only [hoff, reportOff, Bool.or_eq_false_iff, Bool.and_eq_false_iff, beq_eq_false_iff_ne, decide_eq_false_iff_not]
  omega

theorem pwrCtl_key_ne_pwrStat {d e : Nat} (he : e < 32) : (Reg.pwrCtl d).key ≠ (Reg.pwrStat e).key := by
  simp only [Reg.key, Reg.space, Reg.off]
  omega

theorem pwrCtl_key_ne_csStatus (d : Nat) : (Reg.pwrCtl d).key ≠ Reg.csStatus.key := by
  simp only [Reg.key, Reg.space, Reg.off]
  omega

/-! ### What a domain's return to ON leaves -/

theorem setDomain_out (d st : Nat) : s.out <:+ (setDomain d st s).out := by
  obtain ⟨he, -⟩ | ⟨u, hu, hq⟩ := setDomain_eq s d st
  · rw [he]
  · exact hu.out.trans hq.out

theorem startRelock_out (full : Bool) : (startRelock full s).out = s.out := by
  unfold startRelock
  extract_lets s1 f s2
  have h1 : s1.out = s.out := by
    unfold s1 changeInput
    split <;> rfl
  split <;> exact h1

/-- The comparators and the relock of a domain that is powered on leave its output. -/
theorem powerOn_out (d : Nat) : s.out <:+ (powerOn d s).out := by
  unfold powerOn
  split
  · extract_lets s1 s2
    have h2 : s2.out = (setDomain d 0 s).out := by
      unfold s2
      split <;> rfl
    split
    · rw [startRelock_out, h2]
      exact setDomain_out s d 0
    · rw [h2]
      exact setDomain_out s d 0
  · exact List.suffix_refl _

/-- A domain that is powered on changes PWR_STAT of its own and CS_STATUS, and no other field that reports leave. -/
theorem getF_powerOn {d : Nat} {x : Fld} (h : reportOff (x.reg.key % 0x100000) = false)
    (hstat : x.reg.key ≠ (Reg.pwrStat d).key) (hcs : x.reg.key ≠ Reg.csStatus.key) :
    (powerOn d s).getF x = s.getF x := by
  unfold powerOn
  split
  · extract_lets s1 s2
    have h1 : s1.getF x = s.getF x :=
      (getF_setF_ne _ (F.pwrStatThermalOff d) x 0 hstat).trans (getF_setDomain s h hstat)
    have h2 : s2.getF x = s1.getF x := by
      unfold s2
      split <;> rfl
    split
    · rw [getF_startRelock s2 false x (.inl hcs) (.inl hcs), h2, h1]
    · rw [h2, h1]
  · rfl

theorem wake_out (d : Nat) : s.out <:+ (wake d s).out := by
  unfold wake
  split
  · exact setDomain_out s d 0
  · exact List.suffix_refl _

theorem getF_wake {d : Nat} {x : Fld} (h : reportOff (x.reg.key % 0x100000) = false)
    (hstat : x.reg.key ≠ (Reg.pwrStat d).key) : (wake d s).getF x = s.getF x := by
  unfold wake
  split
  · exact getF_setDomain s h hstat
  · rfl

/-! ### The pins -/

/-- The pins stand in PWR_CTL as they are given, and what they do leaves them. -/
theorem powerPins_shows {d : Nat} (hd : d < 32) (pin forbid : Bool) :
    (powerPins d pin forbid s).pinned d = pin ∧ (powerPins d pin forbid s).forbidden d = forbid ∧
    s.out <:+ (powerPins d pin forbid s).out := by
  unfold powerPins
  extract_lets s1 s2 s3
  have hstat := pwrCtl_key_ne_pwrStat (d := d) hd
  have h3 : ∀ lo w, s3.getF ⟨.pwrCtl d, lo, w⟩ = s1.getF ⟨.pwrCtl d, lo, w⟩ := fun lo w => by
    have h2 : s2.getF ⟨.pwrCtl d, lo, w⟩ = s1.getF ⟨.pwrCtl d, lo, w⟩ :=
      (getF_setF_ne _ (F.pwrStatForbidden d) ⟨.pwrCtl d, lo, w⟩ _ hstat).trans
        (getF_setF_ne _ (F.pwrStatPinned d) ⟨.pwrCtl d, lo, w⟩ _ hstat)
    unfold s3
    split
    · exact (getF_powerOn s2 (x := ⟨.pwrCtl d, lo, w⟩) (reportOff_pwrCtl hd) hstat (pwrCtl_key_ne_csStatus d)).trans h2
    · exact h2
  have hout : s.out <:+ s3.out := by
    unfold s3
    split
    · exact powerOn_out s2 d
    · exact List.suffix_refl _
  have hpin : s1.flag (F.pwrCtlPinOn d) = pin :=
    (flag_of_getF (getF_setF_misses _ (F.pwrCtlPinOn d) (F.pwrCtlForbidOff d) _ (by simp)
      (.inr ⟨rfl, .inl (Nat.le_refl 1)⟩))).trans (flag_setF_bit s (F.pwrCtlPinOn d) pin (by simp) rfl)
  have hforbid : s1.flag (F.pwrCtlForbidOff d) = forbid := flag_setF_bit _ (F.pwrCtlForbidOff d) forbid (by simp) rfl
  split
  · have h4 : ∀ lo w, (wake d s3).getF ⟨.pwrCtl d, lo, w⟩ = s1.getF ⟨.pwrCtl d, lo, w⟩ := fun lo w =>
      (getF_wake s3 (x := ⟨.pwrCtl d, lo, w⟩) (reportOff_pwrCtl hd) hstat).trans (h3 lo w)
    exact ⟨(flag_of_getF (h4 0 1)).trans hpin, (flag_of_getF (h4 1 1)).trans hforbid, hout.trans (wake_out s3 d)⟩
  · exact ⟨(flag_of_getF (h3 0 1)).trans hpin, (flag_of_getF (h3 1 1)).trans hforbid, hout⟩

/-! ### POWER_PIN, by its cases -/

section
variable {s} {i : Instr} {c : Cmd} {d : Nat} {pin forbid : Option Bool}

/-- What is completed with a domain's state shows the state that stands. -/
theorem completed_domain {u : State} (hc : c.index < 65536) (hd : d < 32) (ho : s.out <:+ u.out) :
    let t := { finish c 0x11 stOk (u.domain d) 0 u with pending := s.pending }
    Completed s t c 0x11 stOk (t.domain d) 0 := by
  intro t
  have hdom : t.domain d = u.domain d := (quiet_done (s := s)).getF (F.pwrStatState d) (reportOff_pwrStat hd)
  rw [hdom]
  exact completed_done hc ho

/-- A POWER_PIN that only completes. -/
theorem powerPin_finishes {st : Nat} (hc : c.index < 65536)
    (h : powerPin i c d pin forbid s = finish c 0x11 st 0 0 s) :
    Completed s { powerPin i c d pin forbid s with pending := s.pending } c 0x11 st 0 0 ∧
    Quiet s { powerPin i c d pin forbid s with pending := s.pending } := by
  rw [h]
  exact ⟨completed_done hc (List.suffix_refl _), quiet_done⟩

section
variable (hpf : isPf c.fn = true)
include hpf

theorem powerPin_range (hd : d = 0 ∨ 30 < d) : powerPin i c d pin forbid s = finish c 0x11 stInvalidField 0 0 s := by
  rw [powerPin, if_neg (by rw [hpf]; decide), if_pos hd]

section
variable (h1 : 1 ≤ d) (h30 : d ≤ 30)
include h1 h30

theorem powerPin_waits (hdown : s.mgmt.scarabDown = true) :
    powerPin i c d pin forbid s = { s with waiting := s.waiting ++ [i] } := by
  rw [powerPin, if_neg (by rw [hpf]; decide), if_neg (by omega), if_pos hdown]

theorem powerPin_up (hup : s.mgmt.scarabDown = false) : powerPin i c d pin forbid s =
    if (pin = some true ∨ forbid = some true) ∧ s.pinRefused d = true then finish c 0x11 stInvalidField 0 0 s
    else
      let u := if d = 1 then s else powerPins d (pin.getD (s.pinned d)) (forbid.getD (s.forbidden d)) s
      finish c 0x11 stOk (u.domain d) 0 u := by
  rw [powerPin, if_neg (by rw [hpf]; decide), if_neg (by omega), if_neg (by rw [hup]; decide)]

end
end

/-- The pins that a POWER_PIN gives, and the domain's state, as they stand after it. -/
theorem powerPin_acts (hc : c.index < 65536) (hpf : isPf c.fn = true) (h2 : 2 ≤ d) (h30 : d ≤ 30)
    (hup : s.mgmt.scarabDown = false) (hfit : ¬ ((pin = some true ∨ forbid = some true) ∧ s.pinRefused d = true)) :
    let t := { powerPin i c d pin forbid s with pending := s.pending }
    Completed s t c 0x11 stOk (t.domain d) 0 ∧ t.pinned d = pin.getD (s.pinned d) ∧
      t.forbidden d = forbid.getD (s.forbidden d) := by
  obtain ⟨hpin, hforbid, hout⟩ :=
    powerPins_shows s (d := d) (by omega) (pin.getD (s.pinned d)) (forbid.getD (s.forbidden d))
  have hx := powerPin_up (i := i) (pin := pin) (forbid := forbid) hpf (by omega) h30 hup
  rw [if_neg hfit, if_neg (by omega)] at hx
  rw [hx]
  have hr := reportOff_pwrCtl (d := d) (by omega)
  exact ⟨completed_domain hc (by omega) hout, ((quiet_done (s := s)).flag (F.pwrCtlPinOn d) hr).trans hpin,
    ((quiet_done (s := s)).flag (F.pwrCtlForbidOff d) hr).trans hforbid⟩

end

/-- Settles O47: the checks of a POWER_PIN in their order, and then its pins. -/
theorem powerPinsAct : Obligations.PowerPinsAct := by
  intro c d i s hc hi
  obtain ⟨pin, forbid, hx, hset, hon, hrelease, hforbid⟩ : ∃ pin forbid,
      exec i s = done s (powerPin i c d pin forbid s) ∧
      (i ≠ .powerPinRelease c d → pin = some true ∨ forbid = some true) ∧
      (i = .powerPinOn c d → pin = some true ∧ forbid = none) ∧
      (i = .powerPinRelease c d → pin = some false ∧ forbid = some false) ∧
      (i = .powerForbidOff c d → pin = none ∧ forbid = some true) := by
    simp only [List.mem_cons, List.not_mem_nil, or_false] at hi
    rcases hi with rfl | rfl | rfl
    · exact ⟨some true, none, rfl, by simp⟩
    · exact ⟨some false, some false, rfl, by simp⟩
    · exact ⟨none, some true, rfl, by simp⟩
  refine ⟨_, hx, fun hvf => powerPin_finishes hc (if_pos hvf),
    fun hpf hd => powerPin_finishes hc (powerPin_range hpf hd), fun hpf h1 h30 hdown => ?_,
    fun hpf h1 h30 hup hi hrefused => powerPin_finishes hc ?_, fun hpf hd hup hi => ?_,
    fun hpf h2 h30 hup hfit => ?_⟩
  · rw [powerPin_waits hpf h1 h30 hdown]
    exact ⟨rfl, rfl⟩
  · rw [powerPin_up hpf h1 h30 hup, if_pos ⟨hset hi, hrefused⟩]
  · subst hd
    obtain ⟨rfl, rfl⟩ := hrelease hi
    rw [powerPin_up hpf (by decide) (by decide) hup, if_neg (by simp)]
    exact ⟨completed_domain hc (by decide) (List.suffix_refl _), quiet_done⟩
  · have hfine : ¬ ((pin = some true ∨ forbid = some true) ∧ s.pinRefused d = true) := by
      rintro ⟨hset, hrefused⟩
      obtain hi | hgranted := hfit
      · obtain ⟨rfl, rfl⟩ := hrelease hi
        simp at hset
      · simp [hgranted] at hrefused
    obtain ⟨hcpl, hp, hf⟩ := powerPin_acts (i := i) hc hpf h2 h30 hup hfine
    refine ⟨hcpl, fun hi => ?_, fun hi => ?_, fun hi => ?_⟩
    · obtain ⟨rfl, rfl⟩ := hon hi
      exact ⟨hp, hf⟩
    · obtain ⟨rfl, rfl⟩ := hrelease hi
      exact ⟨hp, hf⟩
    · obtain ⟨rfl, rfl⟩ := hforbid hi
      exact ⟨hf, hp⟩

end Sys2Proof.Machine
end

section
/-! Proofs: the configuration of a bank through slow access (BANK_CONFIG; R327). -/

namespace Sys2Proof.Machine

/-! ### What reports leave of the checks -/

namespace Quiet

variable {s t : State}

/-- The end of a command's read of its parameter block reports, and no more. -/
theorem takeParams (h : Quiet s t) (c : Cmd) : Quiet s (takeParams c t) := by
  unfold Machine.takeParams
  split
  · exact (h.endTag ..).modPair ..
  · exact h

theorem exists_ (h : Quiet s t) {p : Nat} (hp : p < 8) : t.exists_ p = s.exists_ p :=
  h.flag _ (reportOff_of_off rfl (by simp only [Reg.off]; omega) (by simp only [Reg.off]; omega))

theorem getF_partOwner (h : Quiet s t) {p : Nat} (hp : p < 8) (lo w : Nat) :
    t.getF ⟨.partOwner p, lo, w⟩ = s.getF ⟨.partOwner p, lo, w⟩ :=
  h.getF _ (reportOff_of_off rfl (by simp only [Reg.off]; omega) (by simp only [Reg.off]; omega))

theorem owns (h : Quiet s t) {p : Nat} (hp : p < 8) (f : Nat) : t.owns f p = s.owns f p := by
  have horphan : t.orphan p = s.orphan p := h.flag _ (reportOff_partStatus ⟨p, hp⟩)
  simp only [State.owns, State.owner, State.ownerFn, horphan, h.exists_ hp, h.getF_partOwner hp]

theorem partOf (h : Quiet s t) (b : Nat) : t.partOf b = s.partOf b := by
  have hrow : ∀ p ∈ List.range 8, (t.exists_ p && (t.getF (F.partOwnerBanks p)).testBit b) =
      (s.exists_ p && (s.getF (F.partOwnerBanks p)).testBit b) := fun p hp => by
    rw [h.exists_ (List.mem_range.mp hp), h.getF_partOwner (List.mem_range.mp hp)]
  exact List.find?_congr hrow

theorem mayConfig (h : Quiet s t) (f b : Nat) : t.mayConfig f b = s.mayConfig f b := by
  unfold State.mayConfig
  rw [h.partOf b]
  cases hb : s.partOf b with
  | none => rfl
  | some p => simp only [h.owns (List.mem_range.mp (List.mem_of_find?_eq_some hb))]

end Quiet

/-! ### The writes of one command -/

theorem markLast_fst (c : Cmd) (l : List (Nat × Word)) : (markLast c l).map Prod.fst = l.map Prod.fst := by
  fun_induction markLast c l with
  | case1 => rfl
  | case2 => rfl
  | case3 o w r _ ih => rw [List.map_cons, ih, List.map_cons]

theorem markLast_ne_nil (c : Cmd) {l : List (Nat × Word)} (h : l ≠ []) : markLast c l ≠ [] := fun hnil =>
  h (List.map_eq_nil_iff.mp ((markLast_fst c l).symm.trans (List.map_eq_nil_iff.mpr hnil)))

/-- The last of the writes, and it alone, ends their command. -/
theorem markLast_getLast? (c : Cmd) {l : List (Nat × Word)} (h : l ≠ []) :
    ((markLast c l).getLast?.bind fun e => e.2.2) = some c := by
  fun_induction markLast c l with
  | case1 => exact absurd rfl h
  | case2 => rfl
  | case3 o w r hr ih =>
    rw [List.getLast?_cons_of_ne_nil (markLast_ne_nil c hr)]
    exact ih hr

/-! ### The checks -/

/-- The checks that a BANK_CONFIG passes (R327). -/
def State.bankConfigPasses (s : State) (c : Cmd) (bank : Nat) (flags : BitVec 8) (mask : BitVec 64)
    (image : List Word) : Prop :=
  bank ≤ 7 ∧ flags.toNat ≠ 0 ∧ flags.toNat < 4 ∧ s.mayConfig c.fn bank = true ∧
    (s.reducedService = false ∨ bank < 2) ∧ s.bankDisabled bank = false ∧ s.domainOff (10 + bank) = false ∧
    ∀ r ∈ bankRegs bank flags mask, r.rangeOk (image.getD ((r.off - (0x10000 + bank * 0x2000)) / 4) 0) = true

section
variable {c : Cmd} {bank : Nat} {flags : BitVec 8} {mask : BitVec 64} {image : List Word} {s t : State}

/-- What reports leave decides the checks. -/
theorem Quiet.bankConfigPasses (h : Quiet s t) :
    t.bankConfigPasses c bank flags mask image ↔ s.bankConfigPasses c bank flags mask image := by
  have hservice : t.reducedService = s.reducedService := by
    simp only [State.reducedService, h.mgmt]
  have hdisabled : t.bankDisabled bank = s.bankDisabled bank := by
    simp only [State.bankDisabled, h.getF F.pwrBankEnBankEn (by decide)]
  unfold State.bankConfigPasses
  rw [h.mayConfig, hservice, hdisabled]
  refine and_congr_right fun hb => ?_
  have hdomain : t.domainOff (10 + bank) = s.domainOff (10 + bank) := by
    simp only [State.domainOff, State.domain, h.getF (F.pwrStatState (10 + bank)) (reportOff_pwrStat (by omega))]
  rw [hdomain]

/-- A BANK_CONFIG that fails a check only completes. -/
theorem execBankConfig_fails (h : ¬ (takeParams c s).bankConfigPasses c bank flags mask image) :
    ∃ st r, st ∈ [stInvalidField, stNotOwner, stBringup, stDomainDown] ∧
      execBankConfig c bank flags mask image s = done s (finish c 0x03 st r 0 (takeParams c s)) := by
  unfold execBankConfig
  extract_lets s1 base ws
  split
  next => exact ⟨_, _, by simp, rfl⟩
  next hrange =>
  split
  next => exact ⟨_, _, by simp, rfl⟩
  next howner =>
  split
  next => exact ⟨_, _, by simp, rfl⟩
  next hservice =>
  split
  next => exact ⟨_, _, by simp, rfl⟩
  next hpower =>
  split
  next e he => exact ⟨_, _, by simp, rfl⟩
  next hfound =>
    have hword : ∀ r ∈ bankRegs bank flags mask, r.rangeOk (image.getD ((r.off - base) / 4) 0) = true := by
      simpa [ws] using hfound
    simp only [Bool.not_eq_false, not_or, not_and_or, not_lt, not_le, Bool.not_eq_true] at hrange howner hservice hpower
    exact absurd ⟨hrange.1, hrange.2.1, hrange.2.2, howner, hservice, hpower.1, hpower.2, hword⟩ h

/-- A BANK_CONFIG that passes its checks hands its words to slow access, or completes where it selects none. -/
theorem execBankConfig_passes (h : (takeParams c s).bankConfigPasses c bank flags mask image) :
    ∃ l : List (Nat × Word), l.map Prod.fst = (bankRegs bank flags mask).map Reg.off ∧
      execBankConfig c bank flags mask image s =
        if l = [] then done s (finish c 0x03 stOk 0 0 (takeParams c s))
        else done s (tryFetch c.fn c.pair { takeParams c s with
          slow := { (takeParams c s).slow with writes := (takeParams c s).slow.writes ++ markLast c l } }) := by
  obtain ⟨hb, h0, h4, howner, hservice, hdisabled, hdomain, hword⟩ := h
  unfold execBankConfig
  extract_lets s1 base ws
  have hfound : (ws.find? fun e => !e.1.rangeOk e.2) = none := by simpa [ws] using hword
  refine ⟨ws.map fun e => (e.1.off, s1.landing e.1 e.2), by simp [ws, Function.comp_def], ?_⟩
  have hservice' : ¬ (s1.reducedService = true ∧ 2 ≤ bank) := by
    rintro ⟨hr, h2⟩
    exact hservice.elim (fun hf => absurd hr (by rw [hf]; decide)) fun hlt => absurd h2 (Nat.not_le.mpr hlt)
  rw [if_neg (by omega), if_neg (by rw [howner]; decide), if_neg hservice', if_neg (by simp [s1, hdisabled, hdomain]),
    hfound]
  simp only [List.map_eq_nil_iff]
  rfl

end

/-- Settles O40: a BANK_CONFIG by whether it passes its checks, which the end of its parameter block's read leaves as
they were. -/
theorem bankConfigGoesThroughSlowAccess : Obligations.BankConfigGoesThroughSlowAccess := by
  intro c bank flags mask image s hc passes
  have hq : Quiet s (takeParams c s) := (Quiet.refl s).takeParams c
  have hiff : (takeParams c s).bankConfigPasses c bank flags mask image ↔ passes := hq.bankConfigPasses
  by_cases hp : passes
  · obtain ⟨l, hl, hx⟩ := execBankConfig_passes (hiff.mpr hp)
    have hnil : l = [] ↔ bankRegs bank flags mask = [] := by
      rw [← List.map_eq_nil_iff (f := Prod.fst), hl, List.map_eq_nil_iff]
    by_cases hnone : l = []
    · rw [if_pos hnone] at hx
      refine ⟨_, hx, fun _ => ⟨?_, fun h => absurd (hnil.mp hnone) h, fun _ => completed_done hc hq.out⟩,
        fun h => absurd hp h⟩
      rw [hnil.mp hnone]
      simp [hq.slow]
    · rw [if_neg hnone] at hx
      refine ⟨_, hx, fun _ => ⟨?_, fun _ => ?_, fun h => absurd (hnil.mpr h) hnone⟩, fun h => absurd hp h⟩
      · simp [hq.slow, markLast_fst, hl]
      · simp only [tryFetch_slow]
        rw [List.getLast?_append_of_ne_nil _ (markLast_ne_nil c hnone)]
        exact markLast_getLast? c hnone
  · obtain ⟨st, r, hst, hx⟩ := execBankConfig_fails fun h => hp (hiff.mp h)
    exact ⟨_, hx, fun h => absurd h hp, fun _ =>
      ⟨{ hq.finish c 0x03 st r 0 with pending := rfl }, st, r, hst, completed_done hc hq.out⟩⟩

end Sys2Proof.Machine
end

section
/-! Proofs: rings whose contexts no write of RC_CFG makes (DESCRIPTOR_FETCH_DONE; R315, R316, R349). -/

namespace Sys2Proof.Machine

/-- A field's value fits its width. -/
theorem getF_lt (s : State) (x : Fld) : s.getF x < 2 ^ x.width := Nat.mod_lt _ (Nat.two_pow_pos _)

/-- A command ring of 2^17 entries, which R349 refuses (SQ_SIZE 13), with its head at the last index of 17 bits, its
descriptors posted up to index 0, and its fetch in progress under tag 0. -/
def oversizedRing : State :=
  { regs := [((Reg.rcCfg 0 0).key, BitVec.ofNat 32 (13 * 2 ^ 16)), ((Reg.rcSqHead 0 0).key, 0x1FFFF)],
    fns := [(0, { pairs := [(0, { fetchTag := some 0 })] })] }

/-- The index after the head of the oversized ring needs 18 bits. -/
theorem idxNext_oversizedRing :
    idxNext (oversizedRing.sqSize 0 0) (oversizedRing.getF (F.rcSqHeadSqHead 0 0)) = 2 ^ 17 := by decide

/-- Refutes O48: where a descriptor is passed in the oversized ring, the statement asks of SQ_HEAD an index of 18 bits,
which its field cannot hold. Rings of the sizes that R349 takes have no such index. -/
theorem not_ringsRunAndFetch : ¬ Obligations.RingsRunAndFetch := by
  intro h
  obtain ⟨-, -, -, hfetch⟩ := h.2 0 0 0 [] oversizedRing
  obtain ⟨t, -, -, -, -, hpassed⟩ := hfetch (by decide) (by decide)
  obtain ⟨hhead, -⟩ := hpassed (by decide) (by decide) (by decide)
  have hlt : t.getF (F.rcSqHeadSqHead 0 0) < 2 ^ 17 := getF_lt t _
  exact absurd (hhead.trans idxNext_oversizedRing) (Nat.ne_of_lt hlt)

end Sys2Proof.Machine
end

section
/-! Proofs: the registers that events and logs write, one by one, and the tags that they leave (R362, R384, R407): what
`Quiet` does not tell apart. -/

namespace Sys2Proof.Machine

/-- `t` follows `s` without a write of a register but at the offsets `os`, and with the tags of every function as they
were. -/
structure WritesAt (os : List Nat) (s t : State) : Prop where
  regs : ∀ r : Reg, r.key % 0x100000 ∉ os → t.rd r = s.rd r
  tags : ∀ f, (t.fn f).tags = (s.fn f).tags

/-! The offsets at which reports write, and those of containment. -/

theorem evqStatus_key_mod (f : Nat) : (Reg.evqStatus f).key % 0x100000 = 0x200C := by
  simp only [Reg.key, Reg.space, Reg.off]
  omega

theorem epEvents_key_mod (f : Nat) : (Reg.epEvents f).key % 0x100000 = 0x401C := by
  simp only [Reg.key, Reg.space, Reg.off]
  omega

theorem fltStatus_key_mod (f : Nat) : (Reg.fltStatus f).key % 0x100000 = 0x4814 := by
  simp only [Reg.key, Reg.space, Reg.off]
  omega

theorem timeEvents_key_mod : Reg.timeEvents.key % 0x100000 = 0x8008 := by decide

theorem containStatus_key_mod (f : Nat) : (Reg.containStatus f).key % 0x100000 = 0x4000 := by
  simp only [Reg.key, Reg.space, Reg.off]
  omega

theorem containEpoch_key_mod (f : Nat) : (Reg.containEpoch f).key % 0x100000 = 0x4004 := by
  simp only [Reg.key, Reg.space, Reg.off]
  omega

theorem tags_setFn (s : State) {f : Nat} {x : Fn} (h : x.tags = (s.fn f).tags) (g : Nat) :
    ((setFn f x s).fn g).tags = (s.fn g).tags := by
  by_cases e : g = f
  · subst e; rw [fn_setFn_same, h]
  · rw [fn_setFn_ne s e]

namespace WritesAt

variable {os : List Nat} {s t u : State}

theorem refl (os : List Nat) (s : State) : WritesAt os s s := ⟨fun _ _ => rfl, fun _ => rfl⟩

theorem trans (h : WritesAt os s t) (k : WritesAt os t u) : WritesAt os s u :=
  ⟨fun r hr => (k.regs r hr).trans (h.regs r hr), fun f => (k.tags f).trans (h.tags f)⟩

/-- What changes neither registers nor functions. -/
theorem same (h : WritesAt os s t) (hr : u.regs = t.regs) (hf : u.fns = t.fns) : WritesAt os s u :=
  h.trans ⟨fun r _ => rd_congr hr r, fun f => by simp [State.fn, hf]⟩

theorem getF (h : WritesAt os s t) (x : Fld) (hx : x.reg.key % 0x100000 ∉ os) : t.getF x = s.getF x :=
  congrArg x.get (h.regs x.reg hx)

theorem flag (h : WritesAt os s t) (x : Fld) (hx : x.reg.key % 0x100000 ∉ os) : t.flag x = s.flag x :=
  flag_of_getF (h.getF x hx)

theorem setF (h : WritesAt os s t) {r : Reg} (hr : r.key % 0x100000 ∈ os) (lo w v : Nat) :
    WritesAt os s (setF ⟨r, lo, w⟩ v t) :=
  h.trans ⟨fun q hq => rd_setF_ne t ⟨r, lo, w⟩ q v fun e => hq (e.symm ▸ hr), fun _ => rfl⟩

theorem setFn (h : WritesAt os s t) (f : Nat) (x : Fn) (hx : x.tags = (t.fn f).tags := by rfl) :
    WritesAt os s (setFn f x t) :=
  h.trans ⟨fun _ _ => rd_congr rfl _, tags_setFn t hx⟩

theorem modFn (h : WritesAt os s t) (f : Nat) (g : Fn → Fn) (hg : ∀ x, (g x).tags = x.tags := by intro _; rfl) :
    WritesAt os s (modFn f g t) := h.setFn f _ (hg _)

theorem each {α : Type} (h : WritesAt os s t) (g : α → State → State)
    (hg : ∀ a u, WritesAt os s u → WritesAt os s (g a u)) (l : List α) : WritesAt os s (each g l t) := by
  induction l generalizing t with
  | nil => exact h
  | cons a r ih => exact ih (hg a t h)

theorem emit (h : WritesAt os s t) (o : Out) : WritesAt os s (emit o t) := h.same rfl rfl

theorem spend (h : WritesAt os s t) : WritesAt os s (spend t) := h.same rfl rfl

theorem bumpRaw (h : WritesAt os s t) (c n : Nat) : WritesAt os s (bumpRaw c n t) := h.same rfl rfl

theorem msixNow (h : WritesAt os s t) (f vec : Nat) : WritesAt os s (msixNow f vec t) := by
  simp only [Machine.msixNow]
  split
  · exact h.setFn f _
  · exact h.emit _

theorem msix (h : WritesAt os s t) (f vec : Nat) : WritesAt os s (msix f vec t) := by
  unfold Machine.msix
  split
  · exact h.modFn f _
  · exact h.msixNow f vec

theorem enqueue (h : WritesAt os s t) (hq : 0x200C ∈ os) (f code payload : Nat) :
    WritesAt os s (enqueue f code payload t) := by
  have hstatus : (Reg.evqStatus f).key % 0x100000 ∈ os := by rw [evqStatus_key_mod]; exact hq
  unfold Machine.enqueue
  extract_lets x n s1 s2
  have h1 : WritesAt os s s1 := h.setFn f _
  have h2 : WritesAt os s s2 := by
    show WritesAt os s (if _ then _ else s1)
    split
    · exact h1.msix f 0
    · exact h1
  split
  · exact ((h.setFn f _).setF hstatus _ _ _).bumpRaw _ _
  · split
    · exact (h2.setF hstatus _ _ _).msix f 0
    · exact h2

theorem saturated (h : WritesAt os s t) (hq : 0x200C ∈ os) (ht : 0x8008 ∈ os) (item : Nat) :
    WritesAt os s (saturated item t) :=
  (h.setF (r := .timeEvents) (by rw [timeEvents_key_mod]; exact ht) _ _ _).each _ (fun f _ hu => hu.enqueue hq f _ _) _

theorem post (h : WritesAt os s t) (hq : 0x200C ∈ os) (ht : 0x8008 ∈ os) (f code payload : Nat) :
    WritesAt os s (post f code payload t) := by
  unfold Machine.post
  extract_lets full s1
  have h1 : WritesAt os s s1 := h.enqueue hq f code payload
  split
  · exact h1.saturated hq ht _
  · exact h1

theorem postAll (h : WritesAt os s t) (hq : 0x200C ∈ os) (ht : 0x8008 ∈ os) (fs : List Nat) (code payload : Nat) :
    WritesAt os s (postAll fs code payload t) := h.each _ (fun f _ hu => hu.post hq ht f code payload) fs

theorem bump (h : WritesAt os s t) (hq : 0x200C ∈ os) (ht : 0x8008 ∈ os) (code n : Nat) :
    WritesAt os s (bump code n t) := by
  unfold Machine.bump
  extract_lets sat s1
  have h1 : WritesAt os s s1 := h.same rfl rfl
  split
  · exact h1.saturated hq ht code
  · exact h1

theorem logErr (h : WritesAt os s t) (hq : 0x200C ∈ os) (ht : 0x8008 ∈ os) (he : 0x401C ∈ os)
    (f code tag source detail : Nat) : WritesAt os s (logErr f code tag source detail t) := by
  have hevents : (Reg.epEvents f).key % 0x100000 ∈ os := by rw [epEvents_key_mod]; exact he
  unfold Machine.logErr
  extract_lets x n s1
  have h1 : WritesAt os s s1 := h.setFn f _
  split
  · exact (h.bump hq ht _ _).setF hevents _ _ _
  · split
    · exact (h1.setF hevents _ _ _).post hq ht _ _ _
    · exact h1

theorem limited (h : WritesAt os s t) (key period : Nat) (g : State → State)
    (hg : ∀ u, WritesAt os s u → WritesAt os s (g u)) : WritesAt os s (limited key period g t) := by
  simp only [Machine.limited]
  split
  · exact hg _ (h.same rfl rfl)
  · exact h

theorem fltPush (h : WritesAt os s t) (hq : 0x200C ∈ os) (ht : 0x8008 ∈ os) (hf : 0x4814 ∈ os)
    (f code index detail suppressed : Nat) : WritesAt os s (fltPush f code index detail suppressed t) := by
  have hstatus : (Reg.fltStatus f).key % 0x100000 ∈ os := by rw [fltStatus_key_mod]; exact hf
  unfold Machine.fltPush
  extract_lets log n a s1
  have h1 : WritesAt os s s1 := h.same rfl rfl
  split
  · refine WritesAt.setF ?_ hstatus _ _ _
    exact h.same rfl rfl
  · split
    · exact (h1.setF hstatus _ _ _).post hq ht _ _ _
    · exact h1

end WritesAt

/-! ### What a post leaves -/

/-- A post writes EVQ_STATUS and TIME_EVENTS. -/
theorem writesAt_post (s : State) (f code payload : Nat) : WritesAt [0x200C, 0x8008] s (post f code payload s) :=
  (WritesAt.refl _ s).post (by decide) (by decide) f code payload

theorem writesAt_postAll (s : State) (fs : List Nat) (code payload : Nat) :
    WritesAt [0x200C, 0x8008] s (postAll fs code payload s) :=
  (WritesAt.refl _ s).postAll (by decide) (by decide) fs code payload

/-- An entry of the error log writes EP_EVENTS beside. -/
theorem writesAt_logErr (s : State) (f code tag source detail : Nat) :
    WritesAt [0x200C, 0x401C, 0x8008] s (logErr f code tag source detail s) :=
  (WritesAt.refl _ s).logErr (by decide) (by decide) (by decide) f code tag source detail

/-- A post leaves the bits of EP_EVENTS. -/
theorem flag_post_epEvents (s : State) (g f code payload lo : Nat) :
    (post g code payload s).flag ⟨.epEvents f, lo, 1⟩ = s.flag ⟨.epEvents f, lo, 1⟩ :=
  (writesAt_post s g code payload).flag _ (by rw [epEvents_key_mod]; decide)

/-! ### What reports leave of a function -/

/-- The registers of containment are none that reports write. -/
theorem reportOff_containStatus (f : Nat) : reportOff ((Reg.containStatus f).key % 0x100000) = false := by
  rw [containStatus_key_mod]
  rfl

theorem reportOff_containEpoch (f : Nat) : reportOff ((Reg.containEpoch f).key % 0x100000) = false := by
  rw [containEpoch_key_mod]
  rfl

namespace Quiet

variable {s t : State}

theorem containEventDue (q : Quiet s t) (f : Nat) : (t.fn f).containEventDue = (s.fn f).containEventDue := by
  have h := congrArg Fn.containEventDue (q.fns f); simpa [Fn.core] using h

theorem unmasked (q : Quiet s t) (f : Nat) : (t.fn f).unmasked = (s.fn f).unmasked := by
  have h := congrArg Fn.unmasked (q.fns f); simpa [Fn.core] using h

theorem fnMask (q : Quiet s t) (f : Nat) : (t.fn f).fnMask = (s.fn f).fnMask := by
  have h := congrArg Fn.fnMask (q.fns f); simpa [Fn.core] using h

theorem bmeOn (q : Quiet s t) (f : Nat) : t.bmeOn f = s.bmeOn f := by rw [State.bmeOn, q.bme, q.d3, ← State.bmeOn]

theorem contained (q : Quiet s t) (f : Nat) : t.contained f = s.contained f := q.flag _ (reportOff_containStatus f)

end Quiet

end Sys2Proof.Machine
end

section
/-! Proofs: accesses of BAR0 that pop a queue or come in containment (EVQ_POP, EP_ERR_POP, FLT_POP, REGISTER_WRITE; R364,
R369, R384, R407, R489), and the state after reset. -/

namespace Sys2Proof.Machine

variable (s : State)

/-! ### Pops (R384, R407, R489, R500) -/

/-- A read of a register that stands in no power domain is executed (R364). -/
theorem hostRead_acts {f off : Nat} {r : Reg} (hb : s.barOpen f = true) (hrec : s.recovery = false)
    (hr : barReg f off = some r) (hd : r.powerDomain = none) (g : State → State) : hostRead f off g s = g s := by
  simp [hostRead, hb, hrec, hr, hd]

/-- A BAR0 request that no relock of the system PLL holds is carried out (R40). -/
theorem bar0_open (h : s.clk.sysHeld = false) (c : Instr) (g : State → State) : bar0 c g s = done s (g s) := by
  simp [bar0, h]

/-- The registers of a function stand in no power domain. -/
theorem powerDomain_of_space {r : Reg} (h : r.space ≠ 256) : r.powerDomain = none := if_pos h

/-- The event queue and the endpoint block are in the BAR0 of a VF, too (R539). -/
theorem barReg_endpoint (f : Nat) {off : Nat} (h : 0x2000 ≤ off) (h' : off < 0x4800) :
    barReg f off = Reg.ofOff f off := by
  unfold barReg
  split
  · rfl
  · exact if_pos (.inr ⟨h, h'⟩)

theorem hostRead_evqPop (f : FnId) (hb : s.barOpen f = true) (hrec : s.recovery = false) (g : State → State) :
    hostRead f 0x2000 g s = g s :=
  hostRead_acts s hb hrec (r := .evqPopLo f) (barReg_endpoint f (by decide) (by decide))
    (powerDomain_of_space (Nat.ne_of_lt f.isLt)) g

theorem hostRead_epErrPop (f : FnId) (hb : s.barOpen f = true) (hrec : s.recovery = false) (g : State → State) :
    hostRead f 0x4010 g s = g s :=
  hostRead_acts s hb hrec (r := .epErrPopLo f) (barReg_endpoint f (by decide) (by decide))
    (powerDomain_of_space (Nat.ne_of_lt f.isLt)) g

/-- The first function of a port is its PF. -/
theorem isPf_port (port : PortId) : isPf (port.val * 128) = true := by
  simp [isPf]

theorem hostRead_fltPop (port : PortId) (hb : s.barOpen (port.val * 128) = true) (hrec : s.recovery = false)
    (g : State → State) : hostRead (port.val * 128) 0x4800 g s = g s :=
  hostRead_acts s hb hrec (r := .fltPopLo (port.val * 128)) (barReg_pf (isPf_port port) _)
    (powerDomain_of_space (show port.val * 128 ≠ 256 by omega)) g

/-- Settles O11: the read of each pop register is executed, and takes the front of its list. -/
theorem popsReturnTheOldestEntry : Obligations.PopsReturnTheOldestEntry := by
  refine ⟨fun f wide s hclk hbar hrec => ?_, fun f wide s hclk hbar hrec => ?_, fun port wide s hclk hbar hrec => ?_⟩
  · refine ⟨_, (bar0_open s hclk _ _).trans (congrArg (done s) (hostRead_evqPop s f hbar hrec _)), ?_, rfl, ?_⟩
    · exact (congrArg Fn.evq (fn_setFn_same s f _)).trans List.drop_one
    · exact congrArg Fn.evqHold (fn_setFn_same s f _)
  · refine ⟨_, (bar0_open s hclk _ _).trans (congrArg (done s) (hostRead_epErrPop s f hbar hrec _)), ?_, rfl, ?_⟩
    · exact (congrArg Fn.err (fn_setFn_same s f _)).trans List.drop_one
    · exact congrArg Fn.errHold (fn_setFn_same s f _)
  · refine ⟨_, (bar0_open s hclk _ _).trans (congrArg (done s) (hostRead_fltPop s port hbar hrec _)), ?_, rfl, ?_⟩
    · exact (spGet_spSet_same ..).trans List.drop_one
    · exact spGet_spSet_same ..

/-! ### A write in containment (R369) -/

theorem hostWrite_contained {f off : Nat} (hb : s.barOpen f = true) (hrec : s.recovery = false)
    (hc : s.contained f = true) (hr : (barReg f off).isSome = true) (g : State → State) :
    hostWrite f off g s = containedWrite f 0x0C false off s := by
  have hsome : (barReg f off).isNone = false := by rw [Option.isNone_eq_false_iff]; exact hr
  simp [hostWrite, hb, hrec, hc, hsome]

/-- In containment a word written to any register but CONTAIN_RELEASE is dropped. -/
theorem exec_registerWrite_contained {f : FnId} {off : Nat} (v : DWord) (hclk : s.clk.sysHeld = false)
    (hb : s.barOpen f = true) (hrec : s.recovery = false) (hc : s.contained f = true) (ho : off % 4 = 0)
    (hne : off ≠ 0x4008) (hr : (barReg f off).isSome = true) :
    exec (.registerWrite f false off .w32 v) s = done s (containedWrite f 0x0C false off s) := by
  have hword : bar0Write f off .w32 v s = containedWrite f 0x0C false off s := by
    simp only [bar0Write, ho, if_true, bar0Word, hne, false_and, if_false]
    exact hostWrite_contained s hb hrec hc hr _
  exact (bar0_open s hclk _ _).trans (congrArg (done s) hword)

theorem containedWrite_quiet (f code : Nat) (bar2 : Bool) (off : Nat) : Quiet s (containedWrite f code bar2 off s) :=
  (Quiet.refl s).limited _ _ _ fun _ hu => hu.logErr ..

theorem writesAt_containedWrite (f code : Nat) (bar2 : Bool) (off : Nat) :
    WritesAt [0x200C, 0x401C, 0x8008] s (containedWrite f code bar2 off s) :=
  (WritesAt.refl _ s).limited _ _ _ fun _ hu => hu.logErr (by decide) (by decide) (by decide) ..

/-- Settles O10: what is dropped is logged, at most. -/
theorem containmentDropsWrites : Obligations.ContainmentDropsWrites := by
  intro f off v s hclk hb hrec hc ho hne hr
  have hq := containedWrite_quiet s f 0x0C false off
  exact ⟨_, exec_registerWrite_contained s v hclk hb hrec hc ho hne hr, hq.live, hq.slow,
    fun q hk => (writesAt_containedWrite s f 0x0C false off).regs q (by simpa using hk)⟩

/-! ### Reset (R82, R197, R365, R369, R466) -/

/-- A register that is not listed holds its reset word. -/
theorem rd_reset (r : Reg) : State.reset.rd r = r.reset := rfl

/-- Settles O4: after reset no register is listed, and the fields named read what their register tables give. -/
theorem resetHoldsTheResetValues : Obligations.ResetHoldsTheResetValues := by
  refine ⟨rfl, by decide, fun f => ?_, by decide, fun n => ?_, fun f => ?_, by decide⟩
  · show (F.epCtoCto 0).get (Reg.epCto 0).reset = 1600
    decide
  · show (F.trigoutCfgWidth 0).get (Reg.trigoutCfg 0).reset = 16
    decide
  · show ((F.containStatusContained 0).get (Reg.containStatus 0).reset == 1) = false
    decide

end Sys2Proof.Machine
end

section
/-! Proofs: failed reads, bad requests, containment and its release (COMPLETION_TIMEOUT, UNEXPECTED_COMPLETION,
TAG_QUARANTINE_END, COMPLETION_ERROR, POISONED_REQUEST, MALFORMED_REQUEST, ATS_FAULT, ATS_INVALIDATION, EP_CONTAINED,
CONTAIN_RELEASE, CONTAIN_RELEASE_DONE; R358, R364, R366 to R371). -/

namespace Sys2Proof.Machine

variable (s : State)

/-! ### A function is frozen (R372) -/

theorem rewind_fns (k f n : Nat) : (rewind k f n s).fns = s.fns := by
  induction k generalizing s with
  | zero => rfl
  | succ k ih => exact ih _

theorem rd_rewind {r : Reg} {f n : Nat} (h : r.key ≠ (Reg.rcSqHead f n).key) (k : Nat) :
    (rewind k f n s).rd r = s.rd r := by
  induction k generalizing s with
  | zero => rfl
  | succ k ih => exact (ih _).trans (rd_setF_ne s (F.rcSqHeadSqHead f n) r _ h)

/-- Freezing a pair changes of its function the pair alone. -/
theorem fn_freezePair {β : Type} (π : Fn → β) (hπ : ∀ x ps, π { x with pairs := ps } = π x) (f n g : Nat) :
    π ((freezePair f n s).fn g) = π (s.fn g) := by
  unfold freezePair
  extract_lets x k started last y
  have hfn : (rewind k f n (setPair f n y s)).fn g = (setPair f n y s).fn g := by
    simp only [State.fn, rewind_fns]
  rw [hfn, setPair]
  by_cases e : g = f
  · subst e
    rw [fn_modFn_same, hπ]
  · rw [modFn, fn_setFn_ne s e]

/-- What a function holds beside its pairs stays when it is frozen. -/
theorem fn_freezeFn {β : Type} (π : Fn → β) (hπ : ∀ x ps, π { x with pairs := ps } = π x) (f g : Nat) :
    π ((freezeFn f s).fn g) = π (s.fn g) :=
  each_proj s (fun u => π (u.fn g)) _ (fun n u => fn_freezePair u π hπ f n g) _

/-- Descriptors that a pair has fetched and not used, and the tag of its fetch. -/
def Pair.fetches (x : Pair) : List Buf × Option Nat := (x.fetched, x.fetchTag)

theorem pair_rewind (k f n g m : Nat) : (rewind k f n s).pair g m = s.pair g m := by
  simp only [State.pair, State.fn, rewind_fns]

/-- A frozen function has nothing fetched, and no fetch in progress (R372). -/
theorem fetches_freezeFn (f : Nat) {n : Nat} (hn : n < 8) : ((freezeFn f s).pair f n).fetches = ([], none) := by
  refine each_at s (fun u => (u.pair f n).fetches) _ (fun _ => True) n (fun _ => ([], none)) (fun _ _ _ => trivial)
    (fun u _ => ?_) (fun m u hm => ?_) _ (List.nodup_range) (List.mem_range.mpr hn) trivial
  · show ((freezePair f n u).pair f n).fetches = _
    unfold freezePair
    extract_lets x k started last y
    rw [pair_rewind, pair_setPair_same]
    rfl
  · show ((freezePair f m u).pair f n).fetches = (u.pair f n).fetches
    unfold freezePair
    extract_lets x k started last y
    rw [pair_rewind, pair_setPair_ne _ (.inr hm.symm)]

theorem rd_freezePair {r : Reg} {f n : Nat} (h : r.key ≠ (Reg.rcSqHead f n).key) :
    (freezePair f n s).rd r = s.rd r := by
  unfold freezePair
  extract_lets x k started last y
  exact rd_rewind (setPair f n y s) h k

/-- Freezing writes the submission heads alone. -/
theorem rd_freezeFn {r : Reg} {f : Nat} (h : ∀ n, r.key ≠ (Reg.rcSqHead f n).key) : (freezeFn f s).rd r = s.rd r :=
  each_proj s (State.rd · r) _ (fun n u => rd_freezePair u (h n)) _

theorem containStatus_key_ne_rcSqHead (f n : Nat) : (Reg.containStatus f).key ≠ (Reg.rcSqHead f n).key := by
  simp only [Reg.key, Reg.space, Reg.off]
  omega

theorem containEpoch_key_ne_rcSqHead (f n : Nat) : (Reg.containEpoch f).key ≠ (Reg.rcSqHead f n).key := by
  simp only [Reg.key, Reg.space, Reg.off]
  omega

theorem containStatus_key_ne_containEpoch (f : Nat) : (Reg.containStatus f).key ≠ (Reg.containEpoch f).key := by
  simp only [Reg.key, Reg.space, Reg.off]
  omega

/-! ### Containment (R368 to R370) -/

/-- The registers of a function's containment. -/
def State.containWords (s : State) (f : Nat) : Word × Word := (s.rd (.containStatus f), s.rd (.containEpoch f))

theorem Quiet.containWords {s t : State} (q : Quiet s t) (f : Nat) : t.containWords f = s.containWords f :=
  congrArg₂ Prod.mk (q.regs _ (reportOff_containStatus f)) (q.regs _ (reportOff_containEpoch f))

/-- The registers of containment of a frozen function with CONTAINED and CAUSE set and the next EPOCH. -/
def showContained (f code : Nat) (s : State) : State :=
  setF (F.containEpochEpoch f) (s.getF (F.containEpochEpoch f) + 1)
    (setF (F.containStatusCause f) code (setF (F.containStatusContained f) 1 s))

theorem epoch_setF (f v : Nat) : (setF (F.containEpochEpoch f) v s).getF (F.containEpochEpoch f) = v % 65536 :=
  getF_setF_same s (F.containEpochEpoch f) v (Nat.le_of_ble_eq_true rfl)

theorem getF_epoch_showCause (f code : Nat) :
    (setF (F.containStatusCause f) code (setF (F.containStatusContained f) 1 s)).getF (F.containEpochEpoch f) =
      s.getF (F.containEpochEpoch f) := by
  rw [getF_setF_key _ (containStatus_key_ne_containEpoch f).symm,
    getF_setF_key _ (containStatus_key_ne_containEpoch f).symm]

theorem getF_modFn (f : Nat) (g : Fn → Fn) (x : Fld) : (modFn f g s).getF x = s.getF x := getF_congr rfl x

theorem contain_of_contained {f : Nat} (h : s.contained f = true) (code : Nat) : contain f code s = s := if_pos h

theorem contain_eq {f : Nat} (h : s.contained f = false) (code : Nat) : contain f code s =
    modFn f (fun x => { x with containEventDue := true }) (showContained f code (freezeFn f s)) := by
  simp only [contain, h, showContained, getF_epoch_showCause]
  rfl

/-- A function that enters containment shows it, its cause and the next EPOCH; EP_CONTAINED falls due (R369, R370). -/
theorem contain_shows {f code : Nat} (h : s.contained f = false) (hcode : code < 256) :
    (contain f code s).contained f = true ∧ (contain f code s).getF (F.containStatusCause f) = code ∧
      (contain f code s).getF (F.containEpochEpoch f) = (s.getF (F.containEpochEpoch f) + 1) % 65536 ∧
      ((contain f code s).fn f).containEventDue = true := by
  have hfrozen : (freezeFn f s).getF (F.containEpochEpoch f) = s.getF (F.containEpochEpoch f) :=
    congrArg (F.containEpochEpoch f).get (rd_freezeFn s (containEpoch_key_ne_rcSqHead f))
  rw [contain_eq s h]
  refine ⟨?_, ?_, ?_, ?_⟩
  · rw [State.contained, flag_eq_true, getF_modFn, showContained, getF_setF_key _ (containStatus_key_ne_containEpoch f),
      getF_setF_apart _ _ (by decide) (by decide), getF_setF_bits _ _ (by decide) (by decide)]
  · rw [getF_modFn, showContained, getF_setF_key _ (containStatus_key_ne_containEpoch f), getF_setF_bits _ _ (by decide) hcode]
  · rw [getF_modFn, showContained, epoch_setF, hfrozen]
  · exact congrArg Fn.containEventDue (fn_modFn_same _ f _)

theorem contained_congr {s t : State} {f : Nat} (h : t.containWords f = s.containWords f) :
    t.contained f = s.contained f :=
  flag_of_getF (congrArg (F.containStatusContained f).get (congrArg Prod.fst h))

/-- A command that contains a function of a state `u` whose containment is that of `s`, and else reports. -/
theorem entersContainment {u : State} {i : Instr} {f code : Nat} (hcode : code < 256) (hc : s.contained f = false)
    (hw : u.containWords f = s.containWords f) (hi : ∃ t, exec i s = done s t ∧ Quiet (contain f code u) t) :
    EntersContainment i s f code := by
  obtain ⟨t, hexec, hq⟩ := hi
  obtain ⟨hin, hcause, hepoch, hdue⟩ := contain_shows u ((contained_congr hw).trans hc) hcode
  have hwas : u.getF (F.containEpochEpoch f) = s.getF (F.containEpochEpoch f) :=
    congrArg (F.containEpochEpoch f).get (congrArg Prod.snd hw)
  refine ⟨{ t with pending := s.pending }, hexec, ?_, ?_, ?_, ?_⟩
  · exact (hq.contained f).trans hin
  · exact (hq.getF (F.containStatusCause f) (reportOff_containStatus f)).trans hcause
  · exact (hq.getF (F.containEpochEpoch f) (reportOff_containEpoch f)).trans (hepoch.trans (by rw [hwas]))
  · exact (hq.containEventDue f).trans hdue

/-- In containment already, the same command leaves CONTAINED and EPOCH as they are. -/
theorem staysContained {u : State} {i : Instr} {f code : Nat} (hc : s.contained f = true)
    (hw : u.containWords f = s.containWords f) (hi : ∃ t, exec i s = done s t ∧ Quiet (contain f code u) t) :
    ∃ t, exec i s = .next t ∧ t.contained f = true ∧ t.rd (.containEpoch f) = s.rd (.containEpoch f) := by
  obtain ⟨t, hexec, hq⟩ := hi
  rw [contain_of_contained u ((contained_congr hw).trans hc)] at hq
  have hwords : t.containWords f = s.containWords f := (hq.containWords f).trans hw
  exact ⟨{ t with pending := s.pending }, hexec, (contained_congr hwords).trans hc, congrArg Prod.snd hwords⟩

/-! ### Reads that fail (R366, R367) -/

/-- A failed read of a mailbox block touches no register. -/
theorem failedRead_regs (f : Nat) (x : Tag) : (failedRead f x s).regs = s.regs := by
  unfold failedRead dropPost
  split
  · split
    · split <;> rfl
    · rfl
  · rfl

theorem containWords_congr {s t : State} (h : t.regs = s.regs) (f : Nat) : t.containWords f = s.containWords f :=
  congrArg₂ Prod.mk (rd_congr h _) (rd_congr h _)

theorem containWords_failedRead (f g : Nat) (x : Tag) : (failedRead g x s).containWords f = s.containWords f :=
  containWords_congr (failedRead_regs s g x) f

/-- The tag of a read that timed out is quarantined (R366). -/
def quarantine (f k : Nat) (s : State) : State :=
  modFn f (fun x => { x with tags := x.tags.map fun u => if u.num = k then { u with quarantined := true } else u }) s

/-- The state in which a timed-out read contains its function. -/
def timedOut (f k : Nat) (x : Tag) (s : State) : State :=
  failedRead f x (logErr f 0x05 k x.source x.detail (emit (.aer f 0x05) (quarantine f k s)))

theorem execCompletionTimeout_out {f : FnId} {k : Nat} {x : Tag} (h : s.outTag f k = some x) :
    execCompletionTimeout f k s = done s (serveReads (contain f 0x05 (timedOut f k x s))) := by
  unfold execCompletionTimeout
  rw [h]
  rfl

theorem containWords_timedOut (f k : Nat) (x : Tag) : (timedOut f k x s).containWords f = s.containWords f := by
  have hq : Quiet s (logErr f 0x05 k x.source x.detail (emit (.aer f 0x05) (quarantine f k s))) :=
    (((Quiet.refl s).modFn f _).emit _).logErr ..
  exact (containWords_failedRead _ f f x).trans (hq.containWords f)

theorem execCompletionTimeout_contains {f : FnId} {k : Nat} {x : Tag} (h : s.outTag f k = some x) :
    ∃ t, exec (.completionTimeout f k) s = done s t ∧ Quiet (contain f 0x05 (timedOut f k x s)) t :=
  ⟨_, execCompletionTimeout_out s h, (Quiet.refl _).serveReads⟩

/-- The error log's code of a failed completion (R367). -/
def cplErrorCode : CplError → Nat
  | .ur => 0x06
  | .ca => 0x07
  | .poisoned => 0x08

/-- The state in which a read that failed contains its function. -/
def readFailed (f k code : Nat) (x : Tag) (s : State) : State :=
  failedRead f x (logErr f code k x.source x.detail (dropTag f k s))

theorem containWords_readFailed (f k code : Nat) (x : Tag) : (readFailed f k code x s).containWords f = s.containWords f := by
  have hq : Quiet s (logErr f code k x.source x.detail (dropTag f k s)) := ((Quiet.refl s).dropTag f k).logErr ..
  exact (containWords_failedRead _ f f x).trans (hq.containWords f)

theorem execCompletionError_contains {f : FnId} {k : Nat} {x : Tag} (h : s.outTag f k = some x)
    (hb : s.bmeOn f = true) (e : CplError) : ∃ t, exec (.completionError f k e) s = done s t ∧
      Quiet (contain f (cplErrorCode e) (readFailed f k (cplErrorCode e) x s)) t := by
  refine ⟨serveReads (contain f (cplErrorCode e) (readFailed f k (cplErrorCode e) x s)), ?_, (Quiet.refl _).serveReads⟩
  show execCompletionError f k e s = _
  unfold execCompletionError
  rw [h]
  simp only [hb, Bool.true_eq_false, if_false]
  cases e <;> rfl

theorem execCompletionError_off {f : FnId} {k : Nat} {x : Tag} (h : s.outTag f k = some x)
    (hb : s.bmeOn f = false) (e : CplError) : execCompletionError f k e s = done s (endTag f k s) := by
  unfold execCompletionError
  rw [h]
  exact if_pos hb

/-- Where no such read is outstanding, nothing has failed. -/
theorem execCompletionTimeout_none {f : FnId} {k : Nat} (h : s.outTag f k = none) :
    execCompletionTimeout f k s = .next s := by
  unfold execCompletionTimeout
  rw [h]
  rfl

theorem execCompletionError_none {f : FnId} {k : Nat} (h : s.outTag f k = none) (e : CplError) :
    execCompletionError f k e s = .next s := by
  unfold execCompletionError
  rw [h]
  rfl

/-! ### Bad requests and refused translations (R358, R364, R368) -/

theorem execPoisonedRequest_contains {f : FnId} (bar2 : Bool) (off : Nat) (hb : s.barOpen f = true)
    (hrec : s.recovery = false) : execPoisonedRequest f bar2 off s =
      done s (contain f 0x03 (logErr f 0x03 0 0 (barDetail bar2 off) (emit (.aer f 0x03) s))) := by
  simp [execPoisonedRequest, hb, hrec]

theorem execPoisonedRequest_recovery {f : FnId} (bar2 : Bool) (off : Nat) (hb : s.barOpen f = true)
    (hrec : s.recovery = true) : execPoisonedRequest f bar2 off s = .next s := by
  simp [execPoisonedRequest, hb, hrec]

theorem execPoisonedRequest_closed {f : FnId} (bar2 : Bool) (off : Nat) (hb : s.barOpen f = false) :
    execPoisonedRequest f bar2 off s = done s (urWrite f bar2 off s) := if_pos hb

/-- The function that a malformed request contains: the one decoded, or the port's PF. -/
theorem execMalformedRequest_eq (port : PortId) {g : Option FnId} {f : FnId}
    (hf : f.val = (g.map Fin.val).getD (port.val * 128)) : execMalformedRequest port g s =
      if s.present f then done s (contain f 0x04 (logErr f 0x04 0 0 0 (emit (.aer f 0x04) s))) else done s s := by
  cases g with
  | none => simp only [execMalformedRequest, hf, Option.map_none, Option.getD_none]
  | some g => simp only [execMalformedRequest, hf, Option.map_some, Option.getD_some]

/-- The state in which a refused translation contains its function. -/
def atsFailed (f k : Nat) (s : State) : State :=
  logErr f 0x0A k 4 0 (dropTag f k (match s.outTag f k with | some t => failedRead f t s | none => s))

theorem containWords_atsFailed (f k : Nat) : (atsFailed f k s).containWords f = s.containWords f := by
  refine (((Quiet.refl _).dropTag f k).logErr f 0x0A k 4 0).containWords f |>.trans ?_
  split
  · exact containWords_failedRead s f f _
  · rfl

theorem execAtsFault_contains (f : FnId) (k : Nat) :
    ∃ t, exec (.atsFault f k) s = done s t ∧ Quiet (contain f 0x0A (atsFailed f k s)) t :=
  ⟨_, rfl, (Quiet.refl _).serveReads⟩

/-! ### Late and unexpected completions (R366, R376) -/

theorem exec_unexpectedCompletion_none {f : FnId} {k : Nat} (h : ((s.fn f).tags.find? fun t => t.num == k) = none) :
    exec (.unexpectedCompletion f k) s =
      done s (unexpectedCpl f k (s.freeN % 16) ((spend s).freeN % 2 ^ 28) (spend (spend s))) := by
  show execUnexpectedCompletion f k s = _
  unfold execUnexpectedCompletion
  rw [h]

theorem exec_unexpectedCompletion_some {f : FnId} {k : Nat} {x : Tag}
    (h : ((s.fn f).tags.find? fun t => t.num == k) = some x) : exec (.unexpectedCompletion f k) s =
      if x.quarantined = false then done s s
      else if x.silent then done s (endTag f k s)
      else done s (unexpectedCpl f k x.source x.detail (endTag f k s)) := by
  show execUnexpectedCompletion f k s = _
  unfold execUnexpectedCompletion
  rw [h]

/-- A discarded completion is shown, logged and reported through AER; the tags stay (R366). -/
theorem unexpectedCpl_shows (f k source detail : Nat) :
    (unexpectedCpl f k source detail s).flag (F.epEventsUnexpectedCpl f) = true ∧
      .aer f 0x09 ∈ (unexpectedCpl f k source detail s).out ∧
      ((unexpectedCpl f k source detail s).fn f).tags = (s.fn f).tags := by
  have hlog : Quiet (emit (.aer f 0x09) s) (unexpectedCpl f k source detail s) :=
    (((Quiet.refl _).logErr ..).setF _ _ (Quiet.epEvents_report ..)).post ..
  refine ⟨?_, hlog.out.subset List.mem_cons_self, ?_⟩
  · rw [unexpectedCpl, flag_post_epEvents]
    exact flag_setF_one _ (.epEvents f) (by decide)
  · exact ((writesAt_post _ f 0x1703 f).tags f).trans ((writesAt_logErr (emit (.aer f 0x09) s) f 0x09 k source detail).tags f)

theorem execTagQuarantineEnd_held {f : FnId} {k : Nat} (h : ∃ x ∈ (s.fn f).tags, x.num = k ∧ x.quarantined = true) :
    execTagQuarantineEnd f k s = done s (endTag f k s) := by
  obtain ⟨x, hx, hnum, hquar⟩ := h
  exact if_pos (List.any_eq_true.mpr ⟨x, hx, by simp [hnum, hquar]⟩)

theorem execTagQuarantineEnd_free {f : FnId} {k : Nat} (h : ∀ x ∈ (s.fn f).tags, x.num = k → x.quarantined = false) :
    execTagQuarantineEnd f k s = .next s := by
  refine if_neg fun hany => ?_
  obtain ⟨x, hx, htag⟩ := List.any_eq_true.mp hany
  obtain ⟨hnum, hquar⟩ := (Bool.and_eq_true _ _).mp htag
  rw [h x hx (beq_iff_eq.mp hnum)] at hquar
  exact absurd hquar (by decide)

/-- Where no request waits, the end of a request frees its tag and does nothing else. -/
theorem endTag_of_no_wait {f k : Nat} (h : s.readWait = []) : endTag f k s = dropTag f k s := if_pos h

/-- Settles O49: each failure contains its function in a state that has its containment as it was, and reports beside. -/
theorem failuresContainTheirFunction : Obligations.FailuresContainTheirFunction := by
  refine ⟨⟨fun f k x s hc ht => ⟨?_, fun hb => ?_, fun hb e => ?_⟩, fun f k x s hc ht => ?_,
      fun f k s ht => ⟨execCompletionTimeout_none s ht, execCompletionError_none s ht⟩,
      fun f bar2 off s => ⟨fun hc hb hrec => ?_, fun hb => ?_, fun hb hrec => ?_⟩,
      fun port g f s hf => ⟨fun hc hp => ?_, fun hp => ?_⟩,
      fun f k s => ⟨fun hc => ?_, fun hc => ?_, ?_⟩⟩,
    fun f k s hnone => ?_, fun f k x s hsome => ⟨fun hq => ?_, fun hq hsil => ?_, fun hq hsil => ?_⟩,
    fun f k s => ⟨execTagQuarantineEnd_held s, execTagQuarantineEnd_free s⟩, fun f k s hw => ?_⟩
  · exact entersContainment s (by decide) hc (containWords_timedOut s f k x) (execCompletionTimeout_contains s ht)
  · have hfails := fun e => entersContainment s (by cases e <;> decide) hc
      (containWords_readFailed s f k (cplErrorCode e) x) (execCompletionError_contains s ht hb e)
    exact ⟨hfails .ur, hfails .ca, hfails .poisoned⟩
  · exact execCompletionError_off s ht hb e
  · exact staysContained s hc (containWords_timedOut s f k x) (execCompletionTimeout_contains s ht)
  · exact entersContainment s (by decide) hc (Quiet.containWords (((Quiet.refl s).emit _).logErr ..) f)
      ⟨_, execPoisonedRequest_contains s bar2 off hb hrec, Quiet.refl _⟩
  · have hq : Quiet s (urWrite f bar2 off s) := ((Quiet.refl s).logErr ..).emit _
    exact ⟨_, execPoisonedRequest_closed s bar2 off hb, rfl, quiet_of_done rfl hq rfl⟩
  · exact execPoisonedRequest_recovery s bar2 off hb hrec
  · exact entersContainment s (by decide) hc (Quiet.containWords (((Quiet.refl s).emit _).logErr ..) f)
      ⟨_, (execMalformedRequest_eq s port hf).trans (if_pos hp), Quiet.refl _⟩
  · exact (execMalformedRequest_eq s port hf).trans (if_neg (by simp [hp]))
  · exact entersContainment s (by decide) hc (containWords_atsFailed s f k) (execAtsFault_contains s f k)
  · exact staysContained s hc (containWords_atsFailed s f k) (execAtsFault_contains s f k)
  · exact ⟨_, rfl, rfl, rfl, rfl⟩
  · obtain ⟨hflag, haer, htags⟩ := unexpectedCpl_shows (spend (spend s)) f k (s.freeN % 16) ((spend s).freeN % 2 ^ 28)
    exact ⟨_, exec_unexpectedCompletion_none s hnone, hflag, haer, htags⟩
  · exact (exec_unexpectedCompletion_some s hsome).trans (if_pos hq)
  · rw [exec_unexpectedCompletion_some s hsome, hq, hsil]
    rfl
  · obtain ⟨hflag, haer, htags⟩ := unexpectedCpl_shows (endTag f k s) f k x.source x.detail
    have hexec : exec (.unexpectedCompletion f k) s = done s (unexpectedCpl f k x.source x.detail (endTag f k s)) := by
      rw [exec_unexpectedCompletion_some s hsome, hq, hsil]
      rfl
    exact ⟨_, hexec, hflag, haer, htags⟩
  · rw [endTag_of_no_wait s hw, dropTag, fn_modFn_same]

/-! ### EP_CONTAINED (R370) -/

/-- EP_CONTAINED for a VF goes to its PF, too. -/
def tellPf (f payload : Nat) (s : State) : State := if isPf f then s else post (portPf f) 0x1700 payload s

/-- EP_CONTAINED is shown and no longer due. -/
def showReport (f : Nat) (s : State) : State :=
  setF (F.epEventsContained f) 1 (modFn f (fun x => { x with containEventDue := false }) s)

/-- The payload of EP_CONTAINED: the function and CAUSE. -/
def containPayload (f : Nat) (s : State) : Nat := f + (showReport f s).getF (F.containStatusCause f) * 2 ^ 16

/-- EP_CONTAINED is queued; the pending vectors are as before, since its message is sent on its own. -/
def reportContained (f : Nat) (s : State) : State :=
  modFn f (fun x => { x with pendVec := ((showReport f s).fn f).pendVec })
    (post f 0x1700 (containPayload f s) (showReport f s))

theorem containEvent_due {f : Nat} (h : (s.fn f).containEventDue = true) :
    containEvent f s = tellPf f (containPayload f s) (msixNow f 0 (reportContained f s)) := by
  unfold containEvent
  rw [if_pos h]
  rfl

theorem containEvent_idle {f : Nat} (h : (s.fn f).containEventDue = false) : containEvent f s = s := by
  simp [containEvent, h]

theorem tellPf_quiet (f payload : Nat) : Quiet s (tellPf f payload s) := by
  unfold tellPf
  split
  · exact Quiet.refl s
  · exact (Quiet.refl s).post ..

theorem writesAt_tellPf (f payload : Nat) : WritesAt [0x200C, 0x8008] s (tellPf f payload s) := by
  unfold tellPf
  split
  · exact WritesAt.refl _ s
  · exact writesAt_post s ..

/-- A message that no mask holds back is sent. -/
theorem msixNow_sends {f vec : Nat} (hm : (s.fn f).fnMask = false) (hu : (s.fn f).unmasked.contains vec = true)
    (hb : s.bmeOn f = true) : msixNow f vec s = emit (.msix f vec) s := by
  simp only [msixNow, hm, hu, hb, Bool.false_eq_true, Bool.true_eq_false, or_self, if_false]

theorem reportContained_quiet (f : Nat) :
    Quiet (modFn f (fun x => { x with containEventDue := false }) s) (reportContained f s) :=
  Quiet.modFn (((Quiet.refl _).setF (F.epEventsContained f) 1 (Quiet.epEvents_report ..)).post ..) f
    (fun x => { x with pendVec := ((showReport f s).fn f).pendVec })

theorem flag_reportContained (f : Nat) : (reportContained f s).flag (F.epEventsContained f) = true := by
  show (post f _ _ _).flag (F.epEventsContained f) = true
  rw [flag_post_epEvents]
  exact flag_setF_one _ (.epEvents f) (by decide)

/-- EP_CONTAINED is reported once, with a message on vector 0 where that may be sent (R370). -/
theorem containEvent_shows {f : Nat} (h : (s.fn f).containEventDue = true) :
    ((containEvent f s).fn f).containEventDue = false ∧ (containEvent f s).flag (F.epEventsContained f) = true ∧
      ((s.fn f).fnMask = false → (s.fn f).unmasked.contains 0 = true → s.bmeOn f = true →
        .msix f 0 ∈ (containEvent f s).out) := by
  have hrep := reportContained_quiet s f
  have hmsg : Quiet (reportContained f s) (msixNow f 0 (reportContained f s)) := (Quiet.refl _).msixNow f 0
  have hpf := tellPf_quiet (msixNow f 0 (reportContained f s)) f (containPayload f s)
  rw [containEvent_due s h]
  refine ⟨?_, ?_, fun hm hu hb => ?_⟩
  · rw [hpf.containEventDue, hmsg.containEventDue, hrep.containEventDue, fn_modFn_same]
  · rw [(writesAt_tellPf _ f _).flag _ (by rw [epEvents_key_mod]; decide), flag_congr (msixNow_regs _ f 0)]
    exact flag_reportContained s f
  · have hm' : ((reportContained f s).fn f).fnMask = false := by rw [hrep.fnMask, fn_modFn_same]; exact hm
    have hu' : ((reportContained f s).fn f).unmasked.contains 0 = true := by
      rw [hrep.unmasked, fn_modFn_same]; exact hu
    have hb' : (reportContained f s).bmeOn f = true := by
      rw [hrep.bmeOn, State.bmeOn, fn_modFn_same]; exact hb
    refine hpf.out.subset ?_
    rw [msixNow_sends _ hm' hu' hb']
    exact List.mem_cons_self

/-- The report of containment leaves its registers and the tags. -/
theorem containEvent_leaves (f : Nat) : (containEvent f s).containWords f = s.containWords f ∧
    ((containEvent f s).fn f).tags = (s.fn f).tags := by
  cases h : (s.fn f).containEventDue with
  | false => rw [containEvent_idle s h]; exact ⟨rfl, rfl⟩
  | true =>
    have hshow : WritesAt [0x200C, 0x401C, 0x8008] s (showReport f s) :=
      ((WritesAt.refl _ s).modFn f _).setF (by rw [epEvents_key_mod]; decide) _ _ _
    have hrep : WritesAt [0x200C, 0x401C, 0x8008] s (reportContained f s) :=
      (hshow.post (by decide) (by decide) ..).modFn f _
    have hall : WritesAt [0x200C, 0x401C, 0x8008] s (containEvent f s) := by
      rw [containEvent_due s h, tellPf]
      split
      · exact hrep.msixNow f 0
      · exact (hrep.msixNow f 0).post (by decide) (by decide) _ _ _
    refine ⟨congrArg₂ Prod.mk (hall.regs _ ?_) (hall.regs _ ?_), hall.tags f⟩
    · rw [containStatus_key_mod]; decide
    · rw [containEpoch_key_mod]; decide

/-! ### CONTAIN_RELEASE and its end (R371, R372) -/

theorem execContainRelease_open {f : FnId} (v : Word) (hclk : s.clk.sysHeld = false) (hb : s.barOpen f = true) :
    execContainRelease f v s = done s (if s.recovery then s else containRelease f v s) := by
  rw [execContainRelease, bar0_open s hclk, if_pos hb]

/-- The present EPOCH written in containment: the release is pending. -/
theorem containRelease_present {f : Nat} {v : Word} (hc : s.contained f = true)
    (hv : v.toNat % 65536 = s.getF (F.containEpochEpoch f)) :
    containRelease f v s = setF (F.containStatusReleasePending f) 1 s := by
  simp [containRelease, hc, hv]

/-- Another EPOCH written in containment: logged, and reported as stale. -/
theorem containRelease_stale {f : Nat} {v : Word} (hc : s.contained f = true)
    (hv : v.toNat % 65536 ≠ s.getF (F.containEpochEpoch f)) : containRelease f v s =
      post f 0x1702 f (setF (F.epEventsStaleRelease f) 1 (logErr f 0x0D 0 0 (barDetail false 0x4008) s)) := by
  simp [containRelease, hc, hv]

theorem containRelease_idle {f : Nat} (hc : s.contained f = false) (v : Word) : containRelease f v s = s := if_pos hc

theorem containRelease_shows {f : Nat} (v : Word) (hc : s.contained f = true) :
    (containRelease f v s).contained f = true ∧
      (v.toNat % 65536 = s.getF (F.containEpochEpoch f) →
        (containRelease f v s).flag (F.containStatusReleasePending f) = true) ∧
      (v.toNat % 65536 ≠ s.getF (F.containEpochEpoch f) →
        (containRelease f v s).flag (F.epEventsStaleRelease f) = true ∧
        (containRelease f v s).getF (F.containStatusReleasePending f) = s.getF (F.containStatusReleasePending f)) := by
  by_cases hv : v.toNat % 65536 = s.getF (F.containEpochEpoch f)
  · rw [containRelease_present s hc hv]
    refine ⟨?_, fun _ => flag_setF_one s (.containStatus f) (by decide), fun hne => absurd hv hne⟩
    exact (flag_of_getF (getF_setF_apart s (.containStatus f) (by decide) (by decide))).trans hc
  · rw [containRelease_stale s hc hv]
    have hq : Quiet s (post f 0x1702 f (setF (F.epEventsStaleRelease f) 1 (logErr f 0x0D 0 0 (barDetail false 0x4008) s))) :=
      (((Quiet.refl s).logErr ..).setF _ _ (Quiet.epEvents_report ..)).post ..
    refine ⟨(hq.contained f).trans hc, fun he => absurd he hv, fun _ =>
      ⟨?_, hq.getF (F.containStatusReleasePending f) (reportOff_containStatus f)⟩⟩
    rw [flag_post_epEvents]
    exact flag_setF_one _ (.epEvents f) (by decide)

/-- Containment has ended, and this is reported; the function is yet to resume. -/
def released (f : Nat) (s : State) : State :=
  postAll (if isPf f then [f] else [f, portPf f]) 0x1701 f
    (setF (F.containStatusContained f) 0 (setF (F.containStatusReleasePending f) 0 (containEvent f s)))

theorem released_shows {f : Nat} (h : (s.fn f).tags = []) : (released f s).contained f = false ∧
    (released f s).flag (F.containStatusReleasePending f) = false ∧ ((released f s).fn f).tags = [] := by
  have hpost := (Quiet.refl (setF (F.containStatusContained f) 0
    (setF (F.containStatusReleasePending f) 0 (containEvent f s)))).postAll (if isPf f then [f] else [f, portPf f]) 0x1701 f
  obtain ⟨-, htags⟩ := containEvent_leaves s f
  refine ⟨(hpost.contained f).trans ?_, (hpost.flag (F.containStatusReleasePending f) (reportOff_containStatus f)).trans ?_, ?_⟩
  · exact flag_setF_zero _ (.containStatus f) (by decide)
  · refine (flag_of_getF (getF_setF_apart _ (.containStatus f) (by decide) (by decide))).trans ?_
    exact flag_setF_zero _ (.containStatus f) (by decide)
  · exact ((writesAt_postAll _ _ _ _).tags f).trans (htags.trans h)

theorem execContainReleaseDone_due {f : FnId} (h : s.contained f = true ∧
    s.flag (F.containStatusReleasePending f) = true ∧ (s.fn f).tags = []) :
    execContainReleaseDone f s = done s (resume f (released f s)) := by
  obtain ⟨hc, hp, ht⟩ := h
  exact if_pos (by simp [hc, hp, ht])

theorem execContainReleaseDone_idle {f : FnId} (h : ¬ (s.contained f = true ∧
    s.flag (F.containStatusReleasePending f) = true ∧ (s.fn f).tags = [])) : execContainReleaseDone f s = .next s :=
  if_neg (by simpa [and_assoc] using h)

/-- Settles O50: the report by whether it is due, the write of CONTAIN_RELEASE by its EPOCH, the release by its three
conditions. -/
theorem containmentIsReportedAndReleased : Obligations.ContainmentIsReportedAndReleased := by
  refine ⟨fun f s h => ?_, fun f s h => ?_, fun f v s hclk => ⟨fun hb hrec hc => ?_, fun hb hno => ?_⟩, fun f s => ?_⟩
  · obtain ⟨hdue, hflag, hmsg⟩ := containEvent_shows s h
    exact ⟨_, rfl, hdue, hflag, hmsg⟩
  · exact congrArg (done s) (containEvent_idle s h)
  · obtain ⟨hstill, hpresent, hstale⟩ := containRelease_shows s v hc
    refine ⟨_, (execContainRelease_open s v hclk hb).trans (congrArg (done s) ?_), hstill, hpresent, hstale⟩
    simp [hrec]
  · refine (execContainRelease_open s v hclk hb).trans (congrArg (done s) ?_)
    rcases hno with hrec | hc
    · exact if_pos hrec
    · rw [containRelease_idle s hc, ite_self]
  · intro due
    refine ⟨fun h => ?_, execContainReleaseDone_idle s⟩
    obtain ⟨hout, hpend, htags⟩ := released_shows s h.2.2
    exact ⟨_, execContainReleaseDone_due s h, hout, hpend, htags⟩

end Sys2Proof.Machine
end

section
/-! Proofs: the enables, power states and resets of a function (BME_SET, BME_CLEAR, MEMORY_SPACE_ENABLE_WRITE,
MSIX_VECTOR_UNMASK, DEVCTL2_CTO_WRITE, D3HOT_ENTRY, D0_RETURN, FLR, VF_ENABLE_CLEAR; R361, R364, R365, R374 to R378,
R382). -/

namespace Sys2Proof.Machine

variable (s : State)

/-! ### Bus Master Enable, Memory Space Enable, D3hot (R364, R374, R378) -/

theorem execBmeClear_on {f : FnId} (hans : s.cfgAnswers = true) (hb : (s.fn f).bme = true) :
    execBmeClear f s = done s (freezeFn f (modFn f (fun x => { x with bme := false }) s)) :=
  if_pos (by simp [hans, hb])

theorem execBmeClear_idle {f : FnId} (h : s.cfgAnswers = false ∨ (s.fn f).bme = false) :
    execBmeClear f s = .next s :=
  if_neg (by rcases h with h | h <;> simp [h])

theorem execBmeSet_off {f : FnId} (hans : s.cfgAnswers = true) (hp : s.present f = true) (hb : (s.fn f).bme = false) :
    execBmeSet f s = done s (portReady (f.val / 128) (resume f (modFn f (fun x => { x with bme := true }) s))) :=
  if_pos (by simp [hans, hp, hb])

theorem execBmeSet_idle {f : FnId} (h : s.cfgAnswers = false ∨ s.present f = false ∨ (s.fn f).bme = true) :
    execBmeSet f s = .next s :=
  if_neg (by rcases h with h | h | h <;> simp [h])

theorem execMemorySpaceEnableWrite_acts {f : FnId} (on : Bool) (hans : s.cfgAnswers = true) (hp : s.present f = true) :
    execMemorySpaceEnableWrite f on s = done s (portReady (f.val / 128) (modFn f (fun x => { x with mse := on }) s)) :=
  if_pos (by simp [hans, hp])

theorem execMemorySpaceEnableWrite_idle {f : FnId} (on : Bool) (h : s.cfgAnswers = false ∨ s.present f = false) :
    execMemorySpaceEnableWrite f on s = .next s :=
  if_neg (by rcases h with h | h <;> simp [h])

theorem execD3hotEntry_acts {f : FnId} (hans : s.cfgAnswers = true) (hp : s.present f = true) (hd : (s.fn f).d3 = false) :
    execD3hotEntry f s = done s (lowPower (freezeFn f (modFn f (fun x => { x with d3 := true }) s))) :=
  if_pos (by simp [hans, hp, hd])

theorem execD3hotEntry_idle {f : FnId} (h : s.cfgAnswers = false ∨ s.present f = false ∨ (s.fn f).d3 = true) :
    execD3hotEntry f s = .next s :=
  if_neg (by rcases h with h | h | h <;> simp [h])

theorem execD0Return_acts {f : FnId} (hans : s.cfgAnswers = true) (hd : (s.fn f).d3 = true) :
    execD0Return f s = done s (resume f (lowPower (modFn f (fun x => { x with d3 := false }) s))) :=
  if_pos (by simp [hans, hd])

theorem execD0Return_idle {f : FnId} (h : s.cfgAnswers = false ∨ (s.fn f).d3 = false) : execD0Return f s = .next s :=
  if_neg (by rcases h with h | h <;> simp [h])

/-- A function that is frozen after a change `g` of it: what `g` made of it stays, its tags too, and nothing is
fetched. -/
theorem freezeFn_modFn_shows {β : Type} (π : Fn → β) (hπ : ∀ x ps, π { x with pairs := ps } = π x) (f : Nat)
    (g : Fn → Fn) : π ((freezeFn f (modFn f g s)).fn f) = π (g (s.fn f)) := by
  rw [fn_freezeFn _ π hπ, fn_modFn_same]

theorem freezeFn_fetches (f : Nat) {n : Nat} (hn : n < 8) :
    ((freezeFn f s).pair f n).fetched = [] ∧ ((freezeFn f s).pair f n).fetchTag = none := by
  have h := fetches_freezeFn s f hn
  rwa [Pair.fetches, Prod.mk.injEq] at h

theorem execBmeClear_shows {f : FnId} (hans : s.cfgAnswers = true) (hb : (s.fn f).bme = true) :
    ∃ t, execBmeClear f s = .next t ∧ (t.fn f).bme = false ∧ (t.fn f).tags = (s.fn f).tags ∧
      ∀ n, n < 8 → (t.pair f n).fetched = [] ∧ (t.pair f n).fetchTag = none := by
  have hexec := execBmeClear_on s hans hb
  have hbme := freezeFn_modFn_shows s Fn.bme (fun _ _ => rfl) f fun x => { x with bme := false }
  have htags := freezeFn_modFn_shows s Fn.tags (fun _ _ => rfl) f fun x => { x with bme := false }
  have hfetch := fun n (hn : n < 8) => freezeFn_fetches (modFn f (fun x => { x with bme := false }) s) f hn
  generalize freezeFn f (modFn f (fun x => { x with bme := false }) s) = u at hexec hbme htags hfetch
  exact ⟨_, hexec, hbme, htags, hfetch⟩

theorem execD3hotEntry_shows {f : FnId} (hans : s.cfgAnswers = true) (hp : s.present f = true)
    (hd : (s.fn f).d3 = false) : ∃ u, execD3hotEntry f s = .next { lowPower u with pending := s.pending } ∧
      (u.fn f).d3 = true ∧ (u.fn f).tags = (s.fn f).tags ∧ ∀ n, n < 8 → (u.pair f n).fetched = [] :=
  ⟨_, execD3hotEntry_acts s hans hp hd, freezeFn_modFn_shows s Fn.d3 (fun _ _ => rfl) f _,
    freezeFn_modFn_shows s Fn.tags (fun _ _ => rfl) f _, fun _ hn => (freezeFn_fetches _ f hn).1⟩

/-- Port reduced service ends between reports. -/
theorem portReady_cases (port : Nat) : portReady port s = s ∨ ∃ l, Quiet
    (setF (F.epLinkStatusPortReady (port * 128)) 1 { s with mgmt := { s.mgmt with portLow := l } }) (portReady port s) := by
  unfold portReady
  extract_lets f s1
  split
  · exact .inr ⟨_, (Quiet.refl _).post ..⟩
  · exact .inl rfl

theorem portReady_core (port g : Nat) : ((portReady port s).fn g).core = (s.fn g).core := by
  obtain h | ⟨l, hq⟩ := portReady_cases s port
  · rw [h]
  · exact hq.fns g

theorem portReady_mse (port g : Nat) : ((portReady port s).fn g).mse = (s.fn g).mse := by
  have h := congrArg Fn.mse (portReady_core s port g); simpa [Fn.core] using h

theorem portReady_bme (port g : Nat) : ((portReady port s).fn g).bme = (s.fn g).bme := by
  have h := congrArg Fn.bme (portReady_core s port g); simpa [Fn.core] using h

theorem execMemorySpaceEnableWrite_shows {f : FnId} (on : Bool) (hans : s.cfgAnswers = true)
    (hp : s.present f = true) : ∃ t, execMemorySpaceEnableWrite f on s = .next t ∧ (t.fn f).mse = on ∧
      (t.fn f).bme = (s.fn f).bme := by
  have hexec := execMemorySpaceEnableWrite_acts s on hans hp
  have hmse := portReady_mse (modFn f (fun x => { x with mse := on }) s) (f.val / 128) f
  have hbme := portReady_bme (modFn f (fun x => { x with mse := on }) s) (f.val / 128) f
  rw [fn_modFn_same] at hmse hbme
  generalize portReady (f.val / 128) (modFn f (fun x => { x with mse := on }) s) = u at hexec hmse hbme
  exact ⟨_, hexec, hmse, hbme⟩

/-! ### MSI-X (R361) -/

/-- A vector is unmasked. -/
def Fn.unmask (v : Nat) (x : Fn) : Fn :=
  { x with unmasked := if x.unmasked.contains v then x.unmasked else x.unmasked ++ [v] }

theorem mem_unmask (v : Nat) (x : Fn) : v ∈ (x.unmask v).unmasked := by
  unfold Fn.unmask
  split
  next h => exact List.contains_iff_mem.mp h
  next h => simp

theorem unmask_keeps {v w : Nat} {x : Fn} (h : w ∈ x.unmasked) : w ∈ (x.unmask v).unmasked := by
  unfold Fn.unmask
  split
  · exact h
  · exact List.mem_append_left _ h

/-- Sending what is pending leaves the masks. -/
theorem sendPending_masks (f : Nat) : ((sendPending f s).fn f).unmasked = (s.fn f).unmasked ∧
    ((sendPending f s).fn f).fnMask = (s.fn f).fnMask :=
  ⟨((Quiet.refl s).sendPending f).unmasked f, ((Quiet.refl s).sendPending f).fnMask f⟩

theorem execMsixVectorUnmask_some (f : FnId) (v : Fin 256) :
    execMsixVectorUnmask f (some v) s = done s (sendPending f (modFn f (Fn.unmask v) s)) := rfl

theorem execMsixVectorUnmask_none (f : FnId) :
    execMsixVectorUnmask f none s = done s (sendPending f (modFn f (fun x => { x with fnMask := false }) s)) := rfl

/-! ### Completion Timeout Value (R365) -/

/-- The time in units of 10 µs that EP_CTO holds after a write of Completion Timeout Value. -/
def State.ctoAfter (s : State) (f v : Nat) : Nat :=
  match v with
  | 0 => 1600 | 1 => 10 | 2 => 1000 | 5 => 5500 | 6 => 21000 | 9 => 90000 | 10 => 350000 | 13 => 1300000 | 14 => 6400000
  | _ => s.getF (F.epCtoCto f)

theorem execDevctl2CtoWrite_eq (f : FnId) (v : Fin 16) : execDevctl2CtoWrite f v s =
    if s.cfgAnswers then done s (setF (F.epCtoCto f) (s.ctoAfter f v) s) else done s s := rfl

theorem ctoAfter_table {f v n : Nat} (h : (v, n) ∈ [(0, 1600), (1, 10), (2, 1000), (5, 5500), (6, 21000), (9, 90000),
    (10, 350000), (13, 1300000), (14, 6400000)]) : s.ctoAfter f v = n := by
  simp only [List.mem_cons, Prod.mk.injEq, List.not_mem_nil, or_false] at h
  rcases h with ⟨rfl, rfl⟩ | ⟨rfl, rfl⟩ | ⟨rfl, rfl⟩ | ⟨rfl, rfl⟩ | ⟨rfl, rfl⟩ | ⟨rfl, rfl⟩ | ⟨rfl, rfl⟩ | ⟨rfl, rfl⟩ |
    ⟨rfl, rfl⟩ <;> rfl

theorem ctoAfter_reserved {f v : Nat} (h : v ∈ [3, 4, 7, 8, 11, 12, 15]) :
    s.ctoAfter f v = s.getF (F.epCtoCto f) := by
  simp only [List.mem_cons, List.not_mem_nil, or_false] at h
  rcases h with rfl | rfl | rfl | rfl | rfl | rfl | rfl <;> rfl

/-- The times of the table fit the field. -/
theorem cto_lt {v n : Nat} (h : (v, n) ∈ [(0, 1600), (1, 10), (2, 1000), (5, 5500), (6, 21000), (9, 90000),
    (10, 350000), (13, 1300000), (14, 6400000)]) : n < 2 ^ 23 := by
  simp only [List.mem_cons, Prod.mk.injEq, List.not_mem_nil, or_false] at h
  omega

/-- A field stored at its own value leaves the word. -/
theorem put_get_self (x : Fld) (w : Word) (h : x.lo + x.width ≤ 32) : x.put (x.get w) w = w := by
  refine BitVec.eq_of_getLsbD_eq fun i hi => ?_
  rw [put_getLsbD x _ w i h]
  split
  next hin =>
    obtain ⟨hlo, hhi⟩ := hin
    rw [get_testBit, Nat.add_sub_cancel' hlo]
    simp only [Bool.and_eq_right_iff_imp, decide_eq_true_eq]
    omega
  next => rfl

theorem rd_setF_self (x : Fld) (h : x.lo + x.width ≤ 32) : (setF x (s.getF x) s).rd x.reg = s.rd x.reg := by
  rw [setF, rd_wr_same, State.getF, put_get_self x _ h]

theorem execDevctl2CtoWrite_shows (f : FnId) (v : Fin 16) (hans : s.cfgAnswers = true) :
    ∃ t, execDevctl2CtoWrite f v s = .next t ∧
      (∀ n, (v.val, n) ∈ [(0, 1600), (1, 10), (2, 1000), (5, 5500), (6, 21000), (9, 90000), (10, 350000),
        (13, 1300000), (14, 6400000)] → t.getF (F.epCtoCto f) = n) ∧
      (v.val ∈ [3, 4, 7, 8, 11, 12, 15] → t.rd (.epCto f) = s.rd (.epCto f)) ∧
      ∀ r : Reg, r.key ≠ (Reg.epCto f).key → t.rd r = s.rd r := by
  refine ⟨_, (execDevctl2CtoWrite_eq s f v).trans (if_pos hans), fun n hn => ?_, fun hv => ?_, fun r hr => ?_⟩
  · refine (getF_setF_bits s (.epCto f) (by decide) ?_).trans (ctoAfter_table s hn)
    rw [ctoAfter_table s hn]
    exact cto_lt hn
  · show (setF (F.epCtoCto f) (s.ctoAfter f v) s).rd (.epCto f) = _
    rw [ctoAfter_reserved s hv]
    exact rd_setF_self s (F.epCtoCto f) (Nat.le_of_ble_eq_true rfl)
  · exact rd_setF_ne s (F.epCtoCto f) r _ hr

/-! ### What precedes the reset of a function keeps its tags (R237, R240, R375, R420) -/

theorem tags_modFn (f : Nat) (h : Fn → Fn) (hh : ∀ x, (h x).tags = x.tags) (g : Nat) :
    ((modFn f h s).fn g).tags = (s.fn g).tags := tags_setFn s (hh _) g

theorem tags_modPair (f n : Nat) (h : Pair → Pair) (g : Nat) : ((modPair f n h s).fn g).tags = (s.fn g).tags :=
  tags_modFn s f (fun q => { q with pairs := spSet {} n (h (s.pair f n)) q.pairs }) (fun _ => rfl) g

theorem tags_unbind (id g : Nat) : ((unbind id s).fn g).tags = (s.fn g).tags := by
  unfold unbind
  split
  · rfl
  · extract_lets p s1
    show (s1.fn g).tags = (s.fn g).tags
    exact tags_modPair s _ _ _ g

theorem tags_clearPair (f n g : Nat) : ((clearPair f n s).fn g).tags = (s.fn g).tags := by
  unfold clearPair
  extract_lets x s1 s2
  have h1 : s1.fns = s.fns := each_proj s State.fns (fun r : ReadBack => unpin r.part r.pages) (fun _ _ => rfl) _
  have h2 : s2.fns = s1.fns := by
    refine each_proj s1 State.fns _ (fun c u => ?_) _
    show (match c.unpins with | some (p, pages) => unpin p pages u | none => u).fns = u.fns
    split <;> rfl
  have h : (s2.fn g).tags = (s.fn g).tags := by simp only [State.fn, h2, h1]
  split
  · split
    · exact (tags_unbind s2 _ g).trans h
    · exact h
  · exact h

theorem tags_orphanPart (p g : Nat) : ((orphanPart p s).fn g).tags = (s.fn g).tags := by
  unfold orphanPart
  extract_lets s1 s2 s3
  have h1 : s1.fns = s.fns := by
    show (match (s.part p).ownerPair with | some id => _ | none => s).fns = s.fns
    split <;> rfl
  have h3 : (s3.fn g).tags = (s.fn g).tags := by
    show (s1.fn g).tags = _
    simp only [State.fn, h1]
  exact ((writesAt_postAll s3 _ 0x1303 p).tags g).trans h3

/-- A channel without the posts of a function: those untaken go, those taken get no reply (R420). -/
def Chan.without (f : Nat) (x : Chan) : Chan :=
  { untaken := x.untaken.filter fun p => !(p.fn == f),
    taken := x.taken.map fun p => if p.fn == f then { p with mute := true } else p }

/-- A function's posts on a channel are cleared. -/
def clearChan (f c : Nat) (s : State) : State := setChan c ((s.chan c).without f) s

/-- A function's latch and acknowledge record of a channel are at reset. -/
def clearRecord (f c : Nat) (s : State) : State :=
  each resetReg [.mbxPtrLo f c, .mbxPtrHi f c, .mbxAck f c, .mbxAckState f c] s

/-- The registers of a function's host mailbox are at reset. -/
def clearHostMailbox (f : Nat) (s : State) : State :=
  each resetReg [.mbxHostBaseLo f, .mbxHostBaseHi f, .mbxHostCfg f, .mbxHostAck f, .mbxHostStatus f] s

/-- A function without notices and posts to be made again. -/
def Fn.noMail (x : Fn) : Fn := { x with notices := [], noticeLost := false, reposts := [] }

/-- The mailboxes of a function are cleared. -/
def mailboxCleared (f : Nat) (s : State) : State :=
  modFn f Fn.noMail (clearHostMailbox f (each (clearRecord f) (List.range 16) (each (clearChan f) (List.range 16) s)))

theorem flrMailbox_eq (f : Nat) : flrMailbox f s = each readBlock (List.range 16) (mailboxCleared f s) := rfl

theorem clearHostMailbox_fns (f : Nat) : (clearHostMailbox f s).fns = s.fns :=
  each_proj s State.fns resetReg (fun _ _ => rfl) _
theorem clearHostMailbox_chans (f : Nat) : (clearHostMailbox f s).chans = s.chans :=
  each_proj s State.chans resetReg (fun _ _ => rfl) _
theorem clearRecord_fns (f c : Nat) : (clearRecord f c s).fns = s.fns :=
  each_proj s State.fns resetReg (fun _ _ => rfl) _
theorem clearRecord_chans (f c : Nat) : (clearRecord f c s).chans = s.chans :=
  each_proj s State.chans resetReg (fun _ _ => rfl) _

/-- Clearing a mailbox writes registers and channels, and of the functions what they hold of it. -/
theorem tags_mailboxCleared (f : Nat) : ((mailboxCleared f s).fn f).tags = (s.fn f).tags := by
  have hfns : (clearHostMailbox f (each (clearRecord f) (List.range 16) (each (clearChan f) (List.range 16) s))).fns =
      s.fns := by
    rw [clearHostMailbox_fns, each_proj _ State.fns _ (fun c u => clearRecord_fns u f c)]
    exact each_proj s State.fns _ (fun c u => setChan_fns u c ((u.chan c).without f)) _
  rw [mailboxCleared, tags_modFn _ f Fn.noMail (fun _ => rfl), State.fn, hfns, ← State.fn]

theorem chan_mailboxCleared (f : Nat) {c : Nat} (hc : c < 16) :
    (mailboxCleared f s).chan c = (s.chan c).without f := by
  have hchans : (mailboxCleared f s).chans = (each (clearChan f) (List.range 16) s).chans := by
    rw [mailboxCleared, modFn_chans, clearHostMailbox_chans]
    exact each_proj _ State.chans _ (fun c u => clearRecord_chans u f c) _
  rw [State.chan, hchans, ← State.chan]
  exact each_at s (State.chan · c) (clearChan f) (fun _ => True) c (Chan.without f) (fun _ _ _ => trivial)
    (fun u _ => chan_setChan_same u c _) (fun b u hb => chan_setChan_ne u hb.symm _) _ List.nodup_range
    (List.mem_range.mpr hc) trivial

/-- The function has no post that waits on a channel below 16. -/
def State.noPost (s : State) (f : Nat) (l : List Nat) : Prop := ∀ c ∈ l, ∀ p, (s.chan c).untaken = some p → p.fn ≠ f

theorem noPost_mailboxCleared (f : Nat) : (mailboxCleared f s).noPost f (List.range 16) := by
  intro c hc p hp
  rw [chan_mailboxCleared s f (List.mem_range.mp hc)] at hp
  obtain ⟨-, hne⟩ := Option.filter_eq_some_iff.mp hp
  simpa using hne

theorem fn_readBlock {f c : Nat} (h : ∀ p, (s.chan c).untaken = some p → p.fn ≠ f) :
    (readBlock c s).fn f = s.fn f := by
  unfold readBlock
  split
  next p hp =>
    split
    · split
      · exact fn_setFn_ne s (h p hp).symm _
      · unfold awaitRead
        split <;> rfl
    · rfl
  next => rfl

/-- The blocks of others are read without the function. -/
theorem fn_each_readBlock {f : Nat} (l : List Nat) (h : s.noPost f l) : (each readBlock l s).fn f = s.fn f := by
  induction l generalizing s with
  | nil => rfl
  | cons c r ih =>
    have hrest : (readBlock c s).noPost f r := fun d hd p hp => by
      rw [State.chan, ((Quiet.refl s).readBlock c).chans] at hp
      exact h d (List.mem_cons_of_mem c hd) p hp
    exact (ih _ hrest).trans (fn_readBlock s (h c List.mem_cons_self))

theorem tags_flrMailbox (f : Nat) : ((flrMailbox f s).fn f).tags = (s.fn f).tags := by
  rw [flrMailbox_eq, fn_each_readBlock _ _ (noPost_mailboxCleared s f), tags_mailboxCleared]

/-! ### FLR (R375 to R377) -/

/-- What a function holds elsewhere is given up before it is reset. -/
def givenUp (f : Nat) (s : State) : State :=
  flrMailbox f (each orphanPart ((List.range 8).filter fun p => s.owns f p)
    (forgetCmds f (each (fun n => clearPair f n) (List.range 8) s)))

/-- What an FLR leaves of a function: its tags, quarantined and silent, and its PME bits. -/
def Fn.reset (x : Fn) : Fn :=
  { nextTag := x.nextTag, pmeStatus := x.pmeStatus, pmeEn := x.pmeEn,
    tags := x.tags.map fun t => { t with quarantined := true, silent := true } }

/-- The registers that an FLR of function `f` resets, by function and offset. -/
def flrResets (f g o : Nat) : Bool :=
  g == f && ((decide (0x2000 ≤ o) && decide (o < 0x4800) && o != 0x4024)
    || (decide (0x60000 ≤ o) && decide (o < 0x60200)))

/-- The function and its registers at reset. -/
def flrCleared (f : Nat) (s : State) : State := dropRegs (flrResets f) (setFn f (s.fn f).reset s)

theorem flrOne_eq (f : Nat) : flrOne f s = serveReads (settleAll (flrCleared f (givenUp f s))) := rfl

theorem fn_forgetCmds (f g : Nat) : (forgetCmds f s).fn g = s.fn g := rfl

theorem tags_givenUp (f : Nat) : ((givenUp f s).fn f).tags = (s.fn f).tags := by
  rw [givenUp, tags_flrMailbox, each_proj _ (fun u => (u.fn f).tags) _ (fun p u => tags_orphanPart u p f),
    fn_forgetCmds]
  exact each_proj s (fun u => (u.fn f).tags) _ (fun n u => tags_clearPair u f n f) _

theorem fn_flrCleared (f : Nat) : (flrCleared f s).fn f = (s.fn f).reset := fn_setFn_same s f _

/-- A key that no entry has reads as the default. -/
theorem spGet_of_absent {α : Type} (d : α) (k : Nat) : ∀ m : Sp α, (∀ e ∈ m, e.1 ≠ k) → spGet d k m = d
  | [], _ => rfl
  | e :: r, h => by
    rw [spGet, if_neg (h e List.mem_cons_self)]
    exact spGet_of_absent d k r fun x hx => h x (List.mem_cons_of_mem e hx)

/-- A register that is dropped holds its reset word. -/
theorem rd_dropRegs {c : Nat → Nat → Bool} {r : Reg} (h : c (r.key / 0x100000) (r.key % 0x100000) = true) :
    (dropRegs c s).rd r = r.reset := by
  refine spGet_of_absent _ _ _ fun e he hk => ?_
  have hkeep := (List.mem_filter.mp he).2
  rw [hk, h] at hkeep
  exact absurd hkeep (by decide)

theorem execFlr_acts {f : FnId} (hans : s.cfgAnswers = true) (hp : s.present f = true) : execFlr f s =
    done s (lowPower (if isPf f then flrVfs (f.val / 128) (flrOne f s) else flrVf f s)) := by
  unfold execFlr
  rw [if_neg (by simp [hans, hp])]
  split <;> rfl

theorem execFlr_idle {f : FnId} (h : s.cfgAnswers = false ∨ s.present f = false) : execFlr f s = .next s :=
  if_pos h.symm

/-- Settles O51: each command by the conditions of its own; an FLR by the state that it makes before what waited goes
on. -/
theorem functionsAreEnabledAndReset : Obligations.FunctionsAreEnabledAndReset := by
  refine ⟨⟨fun f s => ⟨fun hans hb => ?_, execBmeClear_idle s⟩, fun f s => ⟨fun hans hp hb => ?_, execBmeSet_idle s⟩,
      fun f on s => ⟨fun hans hp => ?_, execMemorySpaceEnableWrite_idle s on⟩, fun f s => ⟨fun v => ?_, ?_⟩,
      fun f v s => ⟨execDevctl2CtoWrite_shows s f v, fun hans => ?_⟩,
      fun f s => ⟨fun hans hp hd => ?_, execD3hotEntry_idle s, fun hans hd => ?_, execD0Return_idle s⟩⟩,
    fun f s hans hp => execFlr_acts s hans hp, fun f s h => execFlr_idle s h, fun f s => ?_,
    fun port s => ⟨fun hans => ?_, fun hans => ?_⟩⟩
  · exact execBmeClear_shows s hans hb
  · exact ⟨_, execBmeSet_off s hans hp hb, congrArg Fn.bme (fn_modFn_same s f _), rfl⟩
  · exact execMemorySpaceEnableWrite_shows s on hans hp
  · have hmask := (sendPending_masks (modFn f (Fn.unmask v) s) f).1
    rw [fn_modFn_same] at hmask
    exact ⟨_, execMsixVectorUnmask_some s f v, hmask.symm ▸ mem_unmask v _, fun w hw => hmask.symm ▸ unmask_keeps hw⟩
  · obtain ⟨hvecs, hmask⟩ := sendPending_masks (modFn f (fun x => { x with fnMask := false }) s) f
    rw [fn_modFn_same] at hvecs hmask
    exact ⟨_, execMsixVectorUnmask_none s f, hmask, hvecs⟩
  · exact (execDevctl2CtoWrite_eq s f v).trans (if_neg (by simp [hans]))
  · exact execD3hotEntry_shows s hans hp hd
  · exact ⟨_, execD0Return_acts s hans hd, congrArg Fn.d3 (fn_modFn_same s f _), rfl⟩
  · have hfn : (flrCleared f (givenUp f s)).fn f = ((givenUp f s).fn f).reset := fn_flrCleared _ f
    refine ⟨flrCleared f (givenUp f s), flrOne_eq s f, rfl, congrArg Fn.mse hfn, congrArg Fn.bme hfn,
      congrArg Fn.d3 hfn, congrArg Fn.evq hfn, congrArg Fn.err hfn, congrArg Fn.pairs hfn, ?_, fun r hspace hoff => ?_⟩
    · rw [hfn, Fn.reset, tags_givenUp, List.map_map]
      rfl
    · refine rd_dropRegs _ ?_
      simpa [flrResets, hspace, and_assoc] using hoff
  · exact if_pos hans
  · exact if_neg (by simp [hans])

end Sys2Proof.Machine
end

section
/-! Proofs: links, ports and wakes (PORT_LINK_UP, PORT_LINK_DOWN, LINK_RECOVERY, ASPM_L1_ENTRY, WAKE_TRIGIN_EDGE; R354,
R363, R379 to R382, R488). -/

namespace Sys2Proof.Machine

variable (s : State)

/-! ### PORT_LINK_UP (R354, R363, R382) -/

/-- EP_LINK_STATUS shows speed and width of the link. -/
def showLink (f speed width : Nat) (s : State) : State :=
  setF (F.epLinkStatusSpeed f) speed (setF (F.epLinkStatusWidth f) width (setF (F.epLinkStatusL0pWidth f) width s))

/-- The tags of a port have their width from now on. -/
def holdTags (port : Nat) (tags : TagWidth) (s : State) : State :=
  { s with mgmt := { s.mgmt with tagWidth := spSet .bits14 port tags s.mgmt.tagWidth } }

/-- EP_LINK_STATUS shows whether the link is in Flit Mode, and whether it is degraded. -/
def showMode (f : Nat) (flit low : Bool) (s : State) : State :=
  setF (F.epLinkStatusFlit f) (bit flit) (setF (F.epLinkStatusDegraded f) (bit low) s)

/-- A degraded link is reported. -/
def reportDegraded (f : Nat) (low : Bool) (s : State) : State :=
  if low then post f 0x1705 f (setF (F.epEventsLinkDegraded f) 1 s) else s

/-- In full service a port comes up in port reduced service (R382). -/
def enterPortLow (port : Nat) (s : State) : State :=
  if s.mgmt.eclosed then
    setF (F.epLinkStatusPortReady (port * 128)) 0 { s with mgmt := { s.mgmt with
      portLow := if s.mgmt.portLow.contains port then s.mgmt.portLow else s.mgmt.portLow ++ [port] } }
  else s

/-- Whether a link is below the full speed or the full width of its port. -/
def State.linkLow (s : State) (speed : Fin 8) (width : Nat) : Bool :=
  decide (speed.val < 6) || decide (width < if s.mgmt.dualPort then 8 else 16)

/-- The link is up and shown. -/
def linkShown (port speed width : Nat) (tags : TagWidth) (low : Bool) (s : State) : State :=
  showMode (port * 128) (tags == .bits14) low (holdTags port tags (showLink (port * 128) speed width s))

theorem execPortLinkUp_absent {port : PortId} (speed : Fin 8) (width : Nat) (tags : TagWidth)
    (h : s.present (port.val * 128) = false) : execPortLinkUp port speed width tags s = .next s := if_pos h

theorem execPortLinkUp_present {port : PortId} (speed : Fin 8) (width : Nat) (tags : TagWidth)
    (h : s.present (port.val * 128) = true) : execPortLinkUp port speed width tags s =
      done s (portReady port (enterPortLow port (reportDegraded (port.val * 128) (s.linkLow speed width)
        (linkShown port speed width tags (s.linkLow speed width) s)))) :=
  if_neg (by simp [h])

theorem epLinkStatus_key_mod (f : Nat) : (Reg.epLinkStatus f).key % 0x100000 = 0x4024 := by
  simp only [Reg.key, Reg.space, Reg.off]
  omega

theorem reportOff_epLinkStatus (f : Nat) : reportOff ((Reg.epLinkStatus f).key % 0x100000) = false := by
  rw [epLinkStatus_key_mod]
  rfl

theorem reportDegraded_quiet (f : Nat) (low : Bool) : Quiet s (reportDegraded f low s) := by
  unfold reportDegraded
  split
  · exact ((Quiet.refl s).setF _ _ (Quiet.epEvents_report ..)).post ..
  · exact Quiet.refl s

/-- Port reduced service shows in PORT_READY of EP_LINK_STATUS alone, and leaves the width of the tags. -/
theorem enterPortLow_leaves (port : Nat) {lo w : Nat} (h : lo + w ≤ 29) :
    (enterPortLow port s).getF ⟨.epLinkStatus (port * 128), lo, w⟩ = s.getF ⟨.epLinkStatus (port * 128), lo, w⟩ ∧
      (enterPortLow port s).mgmt.tagWidth = s.mgmt.tagWidth := by
  unfold enterPortLow
  split
  · exact ⟨getF_setF_apart _ (.epLinkStatus (port * 128)) (by decide) (.inl h), rfl⟩
  · exact ⟨rfl, rfl⟩

theorem portReady_leaves (port : Nat) {lo w : Nat} (h : lo + w ≤ 29) :
    (portReady port s).getF ⟨.epLinkStatus (port * 128), lo, w⟩ = s.getF ⟨.epLinkStatus (port * 128), lo, w⟩ ∧
      (portReady port s).mgmt.tagWidth = s.mgmt.tagWidth := by
  obtain he | ⟨l, hq⟩ := portReady_cases s port
  · rw [he]
    exact ⟨rfl, rfl⟩
  · refine ⟨(hq.getF ⟨.epLinkStatus (port * 128), lo, w⟩ (reportOff_epLinkStatus _)).trans ?_,
      (congrArg Mgmt.tagWidth hq.mgmt).trans rfl⟩
    exact getF_setF_apart _ (.epLinkStatus (port * 128)) (by decide) (.inl h)

/-- A link that is up is seen in EP_LINK_STATUS as it was shown first. -/
theorem linkUp_leaves (port f : Nat) (low : Bool) {lo w : Nat} (h : lo + w ≤ 29) :
    (portReady port (enterPortLow port (reportDegraded f low s))).getF ⟨.epLinkStatus (port * 128), lo, w⟩ =
        s.getF ⟨.epLinkStatus (port * 128), lo, w⟩ ∧
      (portReady port (enterPortLow port (reportDegraded f low s))).mgmt.tagWidth = s.mgmt.tagWidth := by
  obtain ⟨hready, hreadyTags⟩ := portReady_leaves (enterPortLow port (reportDegraded f low s)) port h
  obtain ⟨hlow, hlowTags⟩ := enterPortLow_leaves (reportDegraded f low s) port h
  have hq := reportDegraded_quiet s f low
  have hshown := hq.getF ⟨.epLinkStatus (port * 128), lo, w⟩ (reportOff_epLinkStatus _)
  exact ⟨hready.trans (hlow.trans hshown),
    hreadyTags.trans (hlowTags.trans (congrArg Mgmt.tagWidth hq.mgmt))⟩

theorem getF_holdTags (port : Nat) (tags : TagWidth) (x : Fld) : (holdTags port tags s).getF x = s.getF x :=
  getF_congr rfl x

/-- Fields below FLIT are not those of the mode. -/
theorem getF_linkShown (port speed width : Nat) (tags : TagWidth) (low : Bool) {lo w : Nat} (h : lo + w ≤ 27) :
    (linkShown port speed width tags low s).getF ⟨.epLinkStatus (port * 128), lo, w⟩ =
      (showLink (port * 128) speed width s).getF ⟨.epLinkStatus (port * 128), lo, w⟩ := by
  rw [linkShown, showMode, getF_setF_apart _ _ (by decide) (.inl h), getF_setF_apart _ _ (by decide) (.inl (by omega)),
    getF_holdTags]

theorem linkShown_shows (port speed width : Nat) (tags : TagWidth) (low : Bool) (hs : speed < 8) (hw : width ≤ 16) :
    (linkShown port speed width tags low s).getF (F.epLinkStatusSpeed (port * 128)) = speed ∧
      (linkShown port speed width tags low s).getF (F.epLinkStatusWidth (port * 128)) = width ∧
      (linkShown port speed width tags low s).flag (F.epLinkStatusFlit (port * 128)) = (tags == .bits14) ∧
      (linkShown port speed width tags low s).flag (F.epLinkStatusDegraded (port * 128)) = low ∧
      (linkShown port speed width tags low s).tagWidth port = tags := by
  refine ⟨?_, ?_, ?_, ?_, spGet_spSet_same ..⟩
  · rw [getF_linkShown _ _ _ _ _ _ (by decide), showLink]
    exact getF_setF_bits _ (.epLinkStatus (port * 128)) (by decide) hs
  · rw [getF_linkShown _ _ _ _ _ _ (by decide), showLink, getF_setF_apart _ _ (by decide) (by decide)]
    exact getF_setF_bits _ (.epLinkStatus (port * 128)) (by decide) (by omega)
  · exact flag_setF_bit _ (F.epLinkStatusFlit (port * 128)) _ (Nat.le_of_ble_eq_true rfl) rfl
  · refine (flag_of_getF (getF_setF_apart _ (.epLinkStatus (port * 128)) (by decide) (by decide))).trans ?_
    exact flag_setF_bit _ (F.epLinkStatusDegraded (port * 128)) _ (Nat.le_of_ble_eq_true rfl) rfl

theorem execPortLinkUp_shows {port : PortId} (speed : Fin 8) {width : Nat} (tags : TagWidth) (hw : width ≤ 16)
    (h : s.present (port.val * 128) = true) : ∃ t, execPortLinkUp port speed width tags s = .next t ∧
      t.tagWidth port = tags ∧ t.getF (F.epLinkStatusSpeed (port.val * 128)) = speed ∧
      t.getF (F.epLinkStatusWidth (port.val * 128)) = width ∧
      t.flag (F.epLinkStatusFlit (port.val * 128)) = (tags == .bits14) ∧
      t.flag (F.epLinkStatusDegraded (port.val * 128)) = s.linkLow speed width := by
  have hexec := execPortLinkUp_present s speed width tags h
  obtain ⟨hspeed, hwidth, hflit, hdegraded, htags⟩ :=
    linkShown_shows s port speed width tags (s.linkLow speed width) speed.isLt hw
  generalize linkShown port speed width tags (s.linkLow speed width) s = u at hexec hspeed hwidth hflit hdegraded htags
  have hleaves := fun {lo w : Nat} (hb : lo + w ≤ 29) =>
    linkUp_leaves u port (port.val * 128) (s.linkLow speed width) hb
  generalize portReady port (enterPortLow port (reportDegraded (port.val * 128) (s.linkLow speed width) u)) = v
    at hexec hleaves
  refine ⟨_, hexec, ?_, (hleaves (by decide)).1.trans hspeed, (hleaves (by decide)).1.trans hwidth,
    (flag_of_getF (hleaves (by decide)).1).trans hflit, (flag_of_getF (hleaves (by decide)).1).trans hdegraded⟩
  exact (congrArg (spGet TagWidth.bits14 port.val) (hleaves (lo := 0) (w := 0) (by decide)).2).trans htags

/-! ### The low-power mode writes no EP_LINK_STATUS (R378) -/

theorem rd_setDomain {r : Reg} (h : reportOff (r.key % 0x100000) = false) (d st : Nat)
    (hk : r.key ≠ (Reg.pwrStat d).key) : (setDomain d st s).rd r = s.rd r := by
  obtain ⟨he, -⟩ | ⟨u, hu, hq⟩ := setDomain_eq s d st
  · rw [he]
  · rw [hq.regs r h, rd_setF_ne u (F.pwrStatState d) r st hk, hu.regs r h]

theorem rd_wake {r : Reg} (h : reportOff (r.key % 0x100000) = false) (d : Nat) (hk : r.key ≠ (Reg.pwrStat d).key) :
    (wake d s).rd r = s.rd r := by
  unfold wake
  split
  · exact rd_setDomain s h d 0 hk
  · rfl

theorem rd_event {r : Reg} (b : Fld) (code payload : Nat) (h : reportOff (r.key % 0x100000) = false)
    (hb : r.key ≠ b.reg.key) : (event b code payload s).rd r = s.rd r :=
  (rd_postPfs _ r code payload h).trans (rd_setF_ne s b r 1 hb)

/-- The low-power mode is entered or left in PWR_MODE, PWR_STAT of the memory's domains and PWR_EVENTS. -/
theorem rd_lowPower {r : Reg} (h : reportOff (r.key % 0x100000) = false) (hmode : r.key ≠ Reg.pwrMode.key)
    (hstat : ∀ d, d < 31 → r.key ≠ (Reg.pwrStat d).key) (hevents : r.key ≠ Reg.pwrEvents.key) :
    (lowPower s).rd r = s.rd r := by
  unfold lowPower
  extract_lets fs on m s1 s2 s3
  have h2 : s2.rd r = s.rd r := rd_setF_ne s1 F.pwrModeMode r _ hmode
  have h3 : s3.rd r = s2.rd r := by
    show (if on then _ else _ : State).rd r = s2.rd r
    split
    · refine each_keeps s2 (State.rd · r) _ _ fun d hd u => ?_
      have hlt : d < 31 := by
        simp only [List.mem_cons, List.not_mem_nil, or_false] at hd
        omega
      split
      · rfl
      · exact rd_setDomain u h d 2 (hstat d hlt)
    · exact (rd_wake _ h 22 (hstat 22 (by decide))).trans (rd_wake s2 h 21 (hstat 21 (by decide)))
  split
  · rfl
  · exact (rd_event s3 F.pwrEventsLowPower _ _ h hevents).trans (h3.trans h2)

theorem epLinkStatus_key_ne_pwrStat (f : Nat) {d : Nat} (hd : d < 31) : (Reg.epLinkStatus f).key ≠ (Reg.pwrStat d).key := by
  simp only [Reg.key, Reg.space, Reg.off]
  omega

/-! ### PORT_LINK_DOWN (R381) -/

theorem rd_resetReg_same (r : Reg) : (resetReg r s).rd r = r.reset := rd_wr_same s r r.reset

/-- A port that has been reset shows no link. -/
theorem epLinkStatus_portReset (port : PortId) :
    (portReset port s).rd (.epLinkStatus (port.val * 128)) = (Reg.epLinkStatus (port.val * 128)).reset := by
  unfold portReset
  extract_lets s1 m s2
  have hmode : (Reg.epLinkStatus (port.val * 128)).key ≠ Reg.pwrMode.key := by
    simp only [Reg.key, Reg.space, Reg.off]
    omega
  have hevents : (Reg.epLinkStatus (port.val * 128)).key ≠ Reg.pwrEvents.key := by
    simp only [Reg.key, Reg.space, Reg.off]
    omega
  rw [rd_lowPower _ (reportOff_epLinkStatus _) hmode (fun d hd => epLinkStatus_key_ne_pwrStat _ hd) hevents]
  exact rd_resetReg_same s2 _

/-- The link of a port is lost while the device is up. -/
def State.linkLost (s : State) (port : Nat) : Prop :=
  s.present (port * 128) = true ∧ s.mgmt.perst = false ∧ s.mgmt.rails = true

theorem execPortLinkDown_dual {port : PortId} (h : s.linkLost port) (hd : s.mgmt.dualPort = true) :
    execPortLinkDown port s = done s (post ((1 - port.val) * 128) 0x1706 (port.val * 128) (portReset port s)) := by
  obtain ⟨hp, hperst, hrails⟩ := h
  simp only [execPortLinkDown, hp, hperst, hrails, hd, Bool.true_eq_false, Bool.false_eq_true, or_self, if_false]

theorem execPortLinkDown_single {port : PortId} (h : s.linkLost port) (hd : s.mgmt.dualPort = false) :
    execPortLinkDown port s = done s (hotReset s) := by
  obtain ⟨hp, hperst, hrails⟩ := h
  simp only [execPortLinkDown, hp, hperst, hrails, hd, Bool.true_eq_false, Bool.false_eq_true, or_self, if_false, if_true]

theorem execPortLinkDown_idle {port : PortId} (h : ¬ s.linkLost port) : execPortLinkDown port s = .next s := by
  refine if_pos ?_
  simp only [State.linkLost, not_and_or, Bool.not_eq_true, Bool.not_eq_false] at h
  exact h

/-! ### LINK_RECOVERY and ASPM_L1_ENTRY (R380, R488) -/

/-- A recovery of the link is counted, whether its entry of the fault log is suppressed or not. -/
theorem count_logFault (index detail : Nat) : (logFault 0x10 index detail s).getF (F.fltCountCount 0x10) =
    min 0xFFFFFFFF (s.getF (F.fltCountCount 0x10) + 1) := by
  have hcount := getF_setF_bits s (.fltCount 0x10) (lo := 0) (w := 32) (by decide)
    (show min 0xFFFFFFFF (s.getF (F.fltCountCount 0x10) + 1) < 2 ^ 32 by omega)
  unfold logFault
  extract_lets u key seen v
  have hu : u.getF (F.fltCountCount 0x10) = min 0xFFFFFFFF (s.getF (F.fltCountCount 0x10) + 1) := hcount
  have hv : WritesAt [0x200C, 0x8008, 0x4814] u v := (WritesAt.refl _ u).same rfl rfl
  split
  · exact hu
  · refine WritesAt.getF (hv.each _ (fun f _ hw => ?_) _) (F.fltCountCount 0x10) (by decide) |>.trans hu
    exact hw.fltPush (by decide) (by decide) (by decide) ..

theorem execLinkRecovery_present {port : PortId} (h : s.present (port.val * 128) = true) :
    execLinkRecovery port s = done s (logFault 0x10 port (s.getF (F.epLinkStatusSpeed (port.val * 128))) s) := if_pos h

theorem execLinkRecovery_absent {port : PortId} (h : s.present (port.val * 128) = false) :
    execLinkRecovery port s = .next s := if_neg (by simp [h])

theorem execAspmL1Entry_quietPort {port : PortId} (h : s.portBusy port = false) :
    execAspmL1Entry port s = done s (emit (.aspmL1 port) s) := if_neg (by simp [h])

/-! ### WAKE_TRIGIN_EDGE (R379) -/

/-- A PF is wake-enabled for an edge of a trigger input. -/
def State.wakes (s : State) (n : Fin 4) (rising : Bool) (f : Nat) : Bool :=
  (s.getF (F.epWakeCfgWakeTrigin f)).testBit n && (s.getF (F.epWakeCfgWakeEdge f)).testBit n == !rising

theorem any_wakes (n : Fin 4) (rising : Bool) : s.pfs.any (s.wakes n rising) = true ↔
    ∃ f ∈ s.pfs, (s.getF (F.epWakeCfgWakeTrigin f)).testBit n = true ∧
      (s.getF (F.epWakeCfgWakeEdge f)).testBit n = !rising := by
  simp only [List.any_eq_true, State.wakes, Bool.and_eq_true, beq_iff_eq]

/-- A PF in D3hot notes its PME, and sends it where that is enabled. -/
def sendPme (f : Nat) (s : State) : State :=
  if (s.fn f).d3 then
    let s := modFn f (fun x => { x with pmeStatus := true }) s
    if (s.fn f).pmeEn then emit (.pme (f / 128)) s else s
  else s

theorem execWakeTriginEdge_eq (n : Fin 4) (rising : Bool) : execWakeTriginEdge n rising s =
    if (s.pfs.any (s.wakes n rising)) = false then done s s
    else if s.mgmt.d3cold then
      if s.mgmt.wakePin then done s s
      else done s (emit (.wake true) { s with mgmt := { s.mgmt with wakePin := true } })
    else done s (each sendPme s.pfs s) := rfl

/-- What a PME leaves in its function. -/
def Fn.notePme (x : Fn) : Fn := if x.d3 then { x with pmeStatus := true } else x

theorem fn_sendPme (f : Nat) : (sendPme f s).fn f = (s.fn f).notePme := by
  unfold sendPme Fn.notePme
  split
  · extract_lets s1
    have h : s1.fn f = { s.fn f with pmeStatus := true } := fn_modFn_same s f _
    split
    · exact h
    · exact h
  · rfl

theorem fn_sendPme_ne {f g : Nat} (h : g ≠ f) : (sendPme f s).fn g = s.fn g := by
  unfold sendPme
  split
  · extract_lets s1
    have h1 : s1.fn g = s.fn g := fn_setFn_ne s h _
    split
    · exact h1
    · exact h1
  · rfl

theorem sendPme_regs (f : Nat) : (sendPme f s).regs = s.regs := by
  unfold sendPme
  split
  · extract_lets s1
    split <;> rfl
  · rfl

theorem sendPme_out (f : Nat) : s.out <:+ (sendPme f s).out := by
  unfold sendPme
  split
  · extract_lets s1
    split
    · exact List.suffix_cons _ _
    · exact List.suffix_rfl
  · exact List.suffix_rfl

theorem pme_mem_sendPme {f : Nat} (hd : (s.fn f).d3 = true) (he : (s.fn f).pmeEn = true) :
    .pme (f / 128) ∈ (sendPme f s).out := by
  unfold sendPme
  rw [if_pos hd]
  extract_lets s1
  have h1 : (s1.fn f).pmeEn = true := (congrArg Fn.pmeEn (fn_modFn_same s f _)).trans he
  rw [if_pos h1]
  exact List.mem_cons_self

/-- D3hot and PME_En are as before a PME. -/
theorem sendPme_states (f g : Nat) : ((sendPme f s).fn g).d3 = (s.fn g).d3 ∧
    ((sendPme f s).fn g).pmeEn = (s.fn g).pmeEn := by
  by_cases h : g = f
  · subst h
    rw [fn_sendPme, Fn.notePme]
    split <;> exact ⟨rfl, rfl⟩
  · rw [fn_sendPme_ne s h]
    exact ⟨rfl, rfl⟩

theorem each_sendPme_out (l : List Nat) : s.out <:+ (each sendPme l s).out := by
  induction l generalizing s with
  | nil => exact List.suffix_rfl
  | cons f r ih => exact (sendPme_out s f).trans (ih _)

theorem pme_mem_each {f : Nat} {l : List Nat} (hf : f ∈ l) (hd : (s.fn f).d3 = true) (he : (s.fn f).pmeEn = true) :
    .pme (f / 128) ∈ (each sendPme l s).out := by
  induction l generalizing s with
  | nil => exact absurd hf List.not_mem_nil
  | cons g r ih =>
    by_cases h : f = g
    · subst h
      exact (each_sendPme_out _ r).subset (pme_mem_sendPme s hd he)
    · obtain ⟨hd', he'⟩ := sendPme_states s g f
      exact ih _ ((List.mem_cons.mp hf).resolve_left h) (hd'.trans hd) (he'.trans he)

theorem pfs_nodup : s.pfs.Nodup := by
  unfold State.pfs
  split <;> decide

theorem fn_each_sendPme {f : Nat} (hf : f ∈ s.pfs) : (each sendPme s.pfs s).fn f = (s.fn f).notePme :=
  each_at s (State.fn · f) sendPme (fun _ => True) f Fn.notePme (fun _ _ _ => trivial) (fun u _ => fn_sendPme u f)
    (fun _ u hb => fn_sendPme_ne u hb.symm) _ (pfs_nodup s) hf trivial

/-- Settles O52: each command by what its port or the supply allows; the link by the fields of EP_LINK_STATUS. -/
theorem linksGoUpAndDown : Obligations.LinksGoUpAndDown := by
  refine ⟨fun port speed width tags s hw => ⟨fun hp => execPortLinkUp_shows s speed tags hw hp,
      execPortLinkUp_absent s speed width tags⟩,
    fun port s => ⟨fun h hd => ⟨epLinkStatus_portReset s port, execPortLinkDown_dual s h hd⟩,
      execPortLinkDown_single s, execPortLinkDown_idle s⟩,
    fun port s => ⟨fun hp => ⟨_, execLinkRecovery_present s hp, count_logFault s _ _⟩, execLinkRecovery_absent s⟩,
    fun port s => ⟨fun h => ⟨_, execAspmL1Entry_quietPort s h, rfl, rfl⟩, fun h => if_pos h⟩, fun n rising s => ?_⟩
  intro wakes
  have hwakes : s.pfs.any (s.wakes n rising) = true ↔ wakes := any_wakes s n rising
  have hexec := execWakeTriginEdge_eq s n rising
  refine ⟨fun hw hcold hpin => ?_, fun hw hcold => ?_, fun hno => ?_⟩
  · rw [hwakes.mpr hw, hcold, hpin] at hexec
    exact ⟨_, hexec, rfl, rfl⟩
  · rw [hwakes.mpr hw, hcold] at hexec
    refine ⟨_, hexec, each_proj s State.regs _ (fun f u => sendPme_regs u f) _, fun f hf => ⟨fun hd => ⟨?_, fun he => ?_⟩,
      fun hd => ?_⟩⟩
    · exact (congrArg Fn.pmeStatus (fn_each_sendPme s hf)).trans (by rw [Fn.notePme, if_pos hd])
    · exact pme_mem_each s hf hd he
    · exact (fn_each_sendPme s hf).trans (by simp [Fn.notePme, hd])
  · refine hexec.trans ?_
    by_cases hw : wakes
    · obtain ⟨hcold, hpin⟩ := hno.resolve_left (not_not.mpr hw)
      rw [hwakes.mpr hw, hcold, hpin]
      rfl
    · exact if_pos (Bool.eq_false_iff.mpr fun h => hw (hwakes.mp h))

end Sys2Proof.Machine
end

section
/-! Proofs: every command completes, and the queue drains in order (R392). -/

namespace Sys2Proof.Machine

/-- An outcome is a next state in which the commands wait that wait in `s`. -/
def Completes (s : State) (o : Host.Outcome State Fault Refusal) : Prop := ∃ t, o = .next t ∧ t.pending = s.pending

namespace Completes

variable {s : State}

/-- Every command that goes on ends in `done`, which keeps the queue. -/
theorem done (t : State) : Completes s (done s t) := ⟨_, rfl, rfl⟩

theorem ite {c : Prop} {i : Decidable c} {a b : Host.Outcome State Fault Refusal} (ha : Completes s a)
    (hb : Completes s b) : Completes s (if c then a else b) := by
  split
  · exact ha
  · exact hb

/-- The commands are grouped by what stands between them and `done`: nothing, a request of a port, one guard, two or
three, or a case distinction over what the state holds. -/
theorem exec (i : Instr) (s : State) : Completes s (exec i s) := by
  cases i with
  | evqPop | secondBoundary | sysPllLockLoss | sysPllRelockDone | relockFailed | relock | trimWrite | refSelWrite
  | soFire | setReq | ppsEnWrite | calStart | softReset | timeoutExpiry | skewExpiry | patternLongerExpiry
  | xfStateWrite | firstSampleFixed | rearmIntervalEnd | memRetireCmd | mirrorRebuildDone | queryFunction
  | powerPinRelease | powerPinOn | powerForbidOff | dbSqTail | dbCqHead | ringEnable | ringDisable | epErrPop
  | atsFault | atsInvalidation | epContained | containRelease | d3coldEntry | snapRead | snapReadClear | snapLoad
  | slowDataWrite | slowDataRead | slowWriteLanded | mbxDoorbell | mbxHostEnable | mbxHostAck | fwUpdate
  | epochAdvance | keyRevoke | secInfo | getInfo | telemetryRead | domainWake | pwrBankEnWrite | cfgPatrol | fltPop
  | fltPinCauseClear | faultTest | clearCounts | smbusReadByte | msixVectorUnmask | vauxLoss => exact .done _
  | registerWrite | frameStart | spllLockDeclared | relockComplete | relockRetryTimeout | syncInEdge | ppsIntervalEnd
  | triginEdge | calExtTimeout | bankFault | softResetDone | bankResume | sequencerSample | earlyThrottleChange
  | modTimeExpiry | orphanTimeout | rebalanceTick | scrubPass | pcRetireDetect | remapDone | tagQuarantineEnd
  | malformedRequest | containReleaseDone | bmeClear | bmeSet | devctl2CtoWrite | vfEnableClear | d3hotEntry
  | d0Return | portLinkUp | linkRecovery | voteScrub | slowWindowWrite | recoveryImageObject | perstAssert | hotReset
  | certAreaReadDone | reducedServiceDeclared | fireflyRestart | telemetrySample | domainPowerOff | domainPowerOn
  | vauxPowerOn | mainRailsValid | railFault | memorySpaceEnableWrite | aspmL1Entry | hbmPhyRetrain =>
    exact .ite (.done _) (.done _)
  | blockBoundary | channelCrossing | timeSet | queryPartition | poisonedRequest | flr | portLinkDown
  | recoveryImageEnd | perstRelease | hbmTrainingDone | eclosion | scarabWatchdogExpiry | railFaultRestart
  | refReturnComplete | getVersion | getCapabilities | negotiateAlgorithms | getDigests | getCertificate | challenge
  | getMeasurements | spdmUnsupportedRequest =>
    exact .ite (.done _) (.ite (.done _) (.done _))
  | refclkLost | ktcFrame | domainIdleTimeout => exact .ite (.done _) (.ite (.done _) (.ite (.done _) (.done _)))
  | wakeTriginEdge => exact .ite (.done _) (.ite (.ite (.done _) (.done _)) (.done _))
  | refclkQualified | refFreqAutoMeasure | lockFiltPinTest | spllLockLoss | syncRestart | syncOutPulse | ppsEdge
  | stclkEdge | calStepDone | autoThresholdDone | detectorEvent | tmrExpiry | fillComplete | continuousSegmentEnd
  | earlyShipWrite | segmentDeliveryWrite | segmentDeliveryDone | captureResume | descriptorFetchDone
  | partitionCreate | partitionDestroy | bankConfig | detectorLoad | sequencerLoad | arm | disarm | forceTrigger
  | subscribe | partitionClaim | unsubscribe | grantIssue | grantRevoke | grantRevokeAll | readBackSegment
  | readBackRange | calibrate | policySet | queryCounter | completionTimeout | unexpectedCompletion | completionError
  | snapshotCaptureDone | mbxTake | mbxDone | noticeWrite | bootImageVerified | scarabRestarted | thermGate
  | thermWarn | thermStop | thermTrip =>
    simp only [Machine.exec, execRefclkQualified, execRefFreqAutoMeasure, execLockFiltPinTest, execSpllLockLoss,
      execSyncRestart, execSyncOutPulse, execPpsEdge, execStclkEdge, execCalStepDone, execAutoThresholdDone,
      execDetectorEvent, execTmrExpiry, execFillComplete, execContinuousSegmentEnd, execEarlyShipWrite,
      execSegmentDeliveryWrite, execSegmentDeliveryDone, execCaptureResume, execDescriptorFetchDone,
      execPartitionCreate, execPartitionDestroy, execBankConfig, execDetectorLoad, execSequencerLoad, execArm,
      execDisarm, execForceTrigger, execSubscribe, execPartitionClaim, execUnsubscribe, execGrantIssue,
      execGrantRevoke, execGrantRevokeAll, execReadBackSegment, execReadBackRange, execCalibrate, execPolicySet,
      execQueryCounter, execCompletionTimeout, execUnexpectedCompletion, execCompletionError, execSnapshotCaptureDone,
      execMbxTake, execMbxDone, execNoticeWrite, execBootImageVerified, execScarabRestarted, execThermGate,
      execThermWarn, execThermStop, execThermTrip]
    (repeat' split) <;> exact .done _

end Completes

/-- Settles O1: a step is defined so. -/
theorem stepRunsTheFrontCommand : Obligations.StepRunsTheFrontCommand :=
  ⟨fun _ _ _ => rfl, fun s hs => by simp [step, hs]⟩

/-- Settles O2: every branch of every command ends in `done`. -/
theorem everyCommandCompletes : Obligations.EveryCommandCompletes := Completes.exec

/-- A step takes the command at the front of the queue, whatever that is, and goes on. -/
theorem step_drops_front (s : State) : ∃ t, step s = .next t ∧ t.pending = s.pending.tail := by
  unfold step
  split
  · next hs => exact ⟨s, rfl, by simp [hs]⟩
  · next c r hs =>
    obtain ⟨t, ht, hp⟩ := Completes.exec c { s with pending := r }
    exact ⟨t, ht, by simp [hs, hp]⟩

theorem run_drops (n : Nat) : ∀ s : State, ∃ t, State.run n s = some t ∧ t.pending = s.pending.drop n := by
  induction n with
  | zero => exact fun s => ⟨s, rfl, rfl⟩
  | succ n ih =>
    intro s
    obtain ⟨u, hu, hp⟩ := step_drops_front s
    obtain ⟨t, ht, hd⟩ := ih u
    exact ⟨t, by simp only [State.run, hu, ht], by rw [hd, hp, List.drop_tail]⟩

/-- Settles O3: a step drops the front of the queue, and `n` steps drop `n`, by induction on `n`. -/
theorem queueDrainsInOrder : Obligations.QueueDrainsInOrder := by
  refine ⟨fun s t h => ?_, fun s n _ => run_drops n s⟩
  obtain ⟨u, hu, hp⟩ := step_drops_front s
  rw [hu] at h
  obtain rfl := Host.Outcome.next.inj h
  exact hp

end Sys2Proof.Machine
end

section
/-! Proofs: writes of a VF to the registers of a partition, the slow-access unit and the snapshot window
(REGISTER_WRITE, SLOW_WINDOW_WRITE, SLOW_DATA_WRITE, SLOW_DATA_READ, SLOW_WRITE_LANDED, SNAP_READ, SNAP_READ_CLEAR, SNAP_LOAD,
SNAPSHOT_CAPTURE_DONE; R399 to R405, R539). -/

namespace Sys2Proof.Machine

variable (s : State)

/-! ### Writes of a VF (R539) -/

/-- Settles O9: such a word reaches no register. -/
theorem vfWritesNoPartition : Obligations.VfWritesNoPartition := by
  intro f off v r s hf ho hc hr hplace
  have hword : wordWrite f off (v.setWidth 32) s = s := by
    simp only [wordWrite, hr]
    refine if_pos ⟨hf, ?_⟩
    obtain hpart | hchan | ⟨hlo, hhi, hmod⟩ := hplace
    · exact .inl hpart
    · exact .inr (.inr hchan)
    · exact .inr (.inl ⟨hlo, hhi, hmod⟩)
  rw [exec_registerWrite_carriesOut s v ho hc, hword, done_self]

/-! ### What a plain write leaves -/

/-- A plain write changes the registers, the marks of staged fields and the count of free values. -/
theorem plainWrite_eq (r : Reg) (v : Word) :
    ∃ regs stamps free, plainWrite r v s = { s with regs := regs, stamps := stamps, free := free } := by
  have hkeep : ∃ regs free, keepWrite r v s = { s with regs := regs, free := free } := by
    unfold keepWrite
    dsimp only
    split
    · exact ⟨_, _, rfl⟩
    · exact ⟨_, _, rfl⟩
  obtain ⟨regs, free, hkeep⟩ := hkeep
  rw [plainWrite, hkeep, stage, markStaged]
  split
  · exact ⟨_, _, _, rfl⟩
  · exact ⟨_, _, _, rfl⟩

/-! ### The slow-access unit (R404, R405) -/

section
variable {s}

/-- A read that a write of the same register would follow is executed. -/
theorem hostRead_carriesOut {f off : Nat} (h : s.carriesOut f off = true) (g : State → State) :
    hostRead f off g s = g s := by
  simp only [State.carriesOut, Bool.and_eq_true, Bool.not_eq_true', Option.isNone_iff_eq_none] at h
  obtain ⟨⟨⟨⟨⟨hopen, hsome⟩, hrec⟩, -⟩, hdom⟩, -⟩ := h
  have hnone : (barReg f off).isNone = false := by simpa using hsome
  simp [hostRead, hopen, hnone, hrec, hdom]

theorem sysHeld_of_carriesOut {f off : Nat} (h : s.carriesOut f off = true) : s.clk.sysHeld = false := by
  simp only [State.carriesOut, Bool.and_eq_true, Bool.not_eq_true'] at h
  exact h.2

/-- The word that SLOW_ADDR names. -/
def slowWord (f : Nat) (s : State) : Word :=
  match barReg f (s.getF (F.slowAddrAddr f) * 4) with
  | some r => s.view r
  | none => 0

/-- The unit takes a write when it is idle. -/
def slowTaken (off : Nat) (v : Word) (s : State) : State :=
  { s with slow := { s.slow with writes := [(off, v, none)] } }

/-- A write outside the PHY windows joins the idle unit: a direct one in the mode DIRECT (R404). -/
theorem slowWrite_taken {f off : Nat} {direct : Bool} (v : Word) (hphy : off < 0x58000 ∨ 0x60000 ≤ off)
    (hmode : direct = true → s.flag (F.slowCtrlSlowAccessMode f) = false) (hidle : s.slow.writes = []) :
    slowWrite f direct off v s = (true, slowTaken off v s) := by
  have hin : ¬ (0x58000 ≤ off ∧ off < 0x60000) := by omega
  have hdrop : ¬ (direct && s.flag (F.slowCtrlSlowAccessMode f)) = true := by
    rw [Bool.and_eq_true]
    rintro ⟨hd, hflag⟩
    rw [hmode hd] at hflag
    exact Bool.false_ne_true hflag
  have hbusy : ¬ s.slowBusy = true := by simp [State.slowBusy, hidle]
  rw [slowWrite, if_neg hin, if_neg hdrop, if_neg hbusy]
  rfl

/-- With no write in flight, nothing lands. -/
theorem landWrite_idle (h : s.slow.writes = []) : landWrite s = s := by
  rw [landWrite, h]

theorem slowNext_slow (f : Nat) : (slowNext f s).slow = s.slow := by
  unfold slowNext
  dsimp only
  split <;> rfl

theorem slowNext_out (f : Nat) : (slowNext f s).out = s.out := by
  unfold slowNext
  dsimp only
  split <;> rfl

/-- The register that a landed write stores. -/
theorem landWrite_stores {off : Nat} {v : Word} {rest : List (Nat × Word × Option Cmd)} {r : Reg}
    (hq : s.slow.writes = (off, v, none) :: rest) (hr : Reg.ofOff 0 off = some r)
    (hon : r.powerDomain.filter s.domainOff = none) (hact : r.actsOnWrite = false) (hok : s.writeRefused r v = false) :
    landWrite s = plainWrite r v { s with slow := { s.slow with writes := rest } } := by
  have hon' : (r.powerDomain.filter
      ({ s with slow := { s.slow with writes := rest } } : State).domainOff).isSome = false :=
    congrArg Option.isSome hon
  have hok' : ({ s with slow := { s.slow with writes := rest } } : State).writeRefused r v = false := hok
  simp only [landWrite, hq, hr, hon', regWrite, hok', acceptWrite_plain _ _ v hact, Bool.false_eq_true, if_false]

end

/-- Settles O12: the idle unit takes what is written, and what lands is stored as any word. -/
theorem slowAccessesGoThroughTheUnit : Obligations.SlowAccessesGoThroughTheUnit := by
  refine ⟨fun f off v r s hf hslow ho hc hr hwin hphy hmode hidle => ?_, fun f v s hc hmode hon hphy hidle => ?_,
    fun f s hc hmode hidle hon => ?_, fun off v rest r s hq hr hon hact hok => ?_⟩
  · have hword : bar0Write f off .w32 (v.setWidth 64) s = slowTaken r.off v s := by
      have hv : (v.setWidth 64).setWidth 32 = v := by simp
      simp only [bar0Write, ho, hv, if_true, bar0Word_carriesOut s v hc]
      simp [wordWrite, hr, hf, hwin, slowWrite_taken v hphy (fun _ => hmode) hidle]
    refine ⟨_, (if_pos hslow).trans ((bar0_open s (sysHeld_of_carriesOut hc) _ _).trans (congrArg (done s) hword)), ?_⟩
    exact ⟨rfl, rfl⟩
  · have hdata : slowDataWrite f v s = slowNext f (slowTaken (s.getF (F.slowAddrAddr f) * 4) v s) := by
      have htaken := slowWrite_taken (f := f) v hphy (direct := false) (fun h => by cases h) hidle
      simp only [slowDataWrite, hmode, hon, htaken, Bool.true_eq_false, if_false, if_true]
    refine ⟨_, (bar0_acts hc _ _).trans (congrArg (done s) hdata), ?_⟩
    exact congrArg Slow.writes (slowNext_slow f)
  · have hdata : slowDataRead f s = slowNext f (emit (.readData f ((slowWord f s).setWidth 64)) s) := by
      simp only [slowDataRead, hmode, landWrite_idle hidle, hon, Bool.true_eq_false, if_false]
      rfl
    refine ⟨_, (bar0_open s (sysHeld_of_carriesOut hc) _ _).trans
      (congrArg (done s) ((hostRead_carriesOut hc _).trans hdata)), ?_⟩
    exact slowNext_out f
  · refine ⟨_, congrArg (done s) (landWrite_stores hq hr hon hact hok), ?_, fun i hi hrw => ?_⟩
    · obtain ⟨regs, stamps, free, h⟩ := plainWrite_eq { s with slow := { s.slow with writes := rest } } r v
      rw [h]
    · refine (stage_getLsbD _ r v hi).trans (if_pos hrw)

/-! ### The snapshot window (R399, R401) -/

/-- The word that a command of the snapshot window writes: its item and its action. -/
def snapWord (f : Nat) (action : Nat) (item : BitVec 16) (s : State) : Word :=
  (s.rd (.snapSelect f) &&& 0x3FFF0000) ||| BitVec.ofNat 32 (item.toNat + action * 2 ^ 30)

theorem snapWord_getLsbD (f : Nat) {action : Nat} (item : BitVec 16) {i : Nat} (hi : i < 16) :
    (snapWord f action item s).getLsbD i = item.getLsbD i := by
  have hmask : (0x3FFF0000 : Word).getLsbD i = false := by interval_cases i <;> rfl
  have hsum : (item.toNat + action * 2 ^ 30).testBit i = item.toNat.testBit i := by
    rw [show item.toNat + action * 2 ^ 30 = 2 ^ 30 * action + item.toNat by omega,
      Nat.testBit_two_pow_mul_add action (by omega), if_pos (by omega)]
  rw [snapWord, BitVec.getLsbD_or, BitVec.getLsbD_and, hmask, BitVec.getLsbD_ofNat, hsum]
  simp [show i < 32 by omega, BitVec.getLsbD]

theorem snapWord_item (f : Nat) {action : Nat} (item : BitVec 16) :
    bitsOf (snapWord f action item s).toNat 0 16 = item.toNat := by
  apply Nat.eq_of_testBit_eq
  intro i
  have hget := get_testBit (F.snapSelectItem f) (snapWord f action item s) i
  rw [Fld.get] at hget
  rw [hget]
  by_cases hi : i < 16
  · rw [Nat.zero_add, snapWord_getLsbD s f item hi]
    simp [hi, BitVec.getLsbD]
  · simp [hi, Nat.testBit_lt_two_pow (Nat.lt_of_lt_of_le item.isLt (Nat.pow_le_pow_right (by decide) (not_lt.mp hi)))]

theorem snapWord_action (f : Nat) {action : Nat} (ha : action < 4) (item : BitVec 16) :
    bitsOf (snapWord f action item s).toNat 30 2 = action := by
  apply Nat.eq_of_testBit_eq
  intro i
  have hget := get_testBit (F.snapSelectAction f) (snapWord f action item s) i
  rw [Fld.get] at hget
  rw [hget]
  by_cases hi : i < 2
  · have hmask : (0x3FFF0000 : Word).getLsbD (30 + i) = false := by interval_cases i <;> rfl
    change (decide (i < 2) && (snapWord f action item s).getLsbD (30 + i)) = _
    rw [snapWord, BitVec.getLsbD_or, BitVec.getLsbD_and, hmask, BitVec.getLsbD_ofNat,
      show item.toNat + action * 2 ^ 30 = 2 ^ 30 * action + item.toNat by omega,
      Nat.testBit_two_pow_mul_add action (by omega), if_neg (by omega)]
    simp [hi, show 30 + i < 32 by omega]
  · simp [hi, Nat.testBit_lt_two_pow (Nat.lt_of_lt_of_le ha (Nat.pow_le_pow_right (n := 2) (by decide) (not_lt.mp hi)))]

/-- The window after the write of SNAP_SELECT: the item named, BUSY set and SNAP_VALID clear. -/
def snapBegun (f : Nat) (v : Word) (s : State) : State :=
  setF (F.snapStatusBusy f) 1 (setF (F.snapStatusSnapValid f) 0 (plainWrite (.snapSelect f) v s))

@[simp] theorem loadItem_regs (code v : Nat) : (loadItem code v s).regs = s.regs := by
  unfold loadItem
  dsimp only
  split
  · split <;> rfl
  · rfl

/-- A counter that is no interval takes the value loaded (R98). -/
theorem ctr_loadItem {code v : Nat} (hint : intervalItem code = false) (hv : v < 2 ^ 48) :
    (loadItem code v s).ctr code = v := by
  have hload : loadItem code v s = loadCtr code v s := if_neg (by simp [hint])
  have hmax : ctrMax = 2 ^ 48 - 1 := rfl
  rw [hload, State.ctr, loadCtr, spGet_spSet_same, Nat.mod_eq_of_lt hv]
  omega

/-- Which codes name an item does not depend on the state (R402). -/
theorem item_isSome (t : State) (port code : Nat) : (t.item port code).isSome = (s.item port code).isSome := by
  simp only [State.item, apply_ite Option.isSome, Option.isSome_some, Option.isSome_none]

/-- The words taken of an item stand ready until the capture ends. -/
def snapTake (port result : Nat) (ws : List Word) (s : State) : State :=
  { s with snaps := spSet none port (some { result := result, words := ws }) s.snaps }

/-- The item named is taken, and the action that SNAP_SELECT names acts on it (R401). -/
def snapAct (port code action : Nat) (s : State) : State :=
  match s.item port code with
  | none => snapTake port 1 [0, 0, 0, 0] s
  | some ws =>
    let s := if code = 0x8100 ∨ code = 0x8101 then spend s else s
    if ((itemDomain code).filter s.domainOff).isSome then snapTake port 2 [0, 0, 0, 0] s
    else if action = 0 then snapTake port 0 ws s
    else if clearable code = false then snapTake port 3 ws s
    else
      let load := s.getF (F.snapLoadLoLoad (port * 128)) + s.getF (F.snapLoadHiLoad (port * 128)) * 2 ^ 32
      snapTake port 0 ws (loadItem code (if action = 2 then load else 0) s)

theorem snapSelect_eq (port : Nat) (v : Word) : snapSelect port v s =
    snapAct port (bitsOf v.toNat 0 16) (bitsOf v.toNat 30 2) (snapBegun (port * 128) v s) := rfl

/-- Whatever becomes of the item, a result stands ready, and no register changes. -/
theorem snapAct_takes (port code action : Nat) : ∃ r ws u, snapAct port code action s = snapTake port r ws u ∧
    u.regs = s.regs := by
  unfold snapAct
  split
  · exact ⟨_, _, s, rfl, rfl⟩
  · extract_lets s1 load
    have h1 : s1.regs = s.regs := by
      unfold s1
      split <;> rfl
    split
    · exact ⟨_, _, s1, rfl, h1⟩
    · split
      · exact ⟨_, _, s1, rfl, h1⟩
      · split
        · exact ⟨_, _, s1, rfl, h1⟩
        · exact ⟨_, _, _, rfl, (loadItem_regs ..).trans h1⟩

/-- READ_CLEAR and LOAD act on an item that may change and whose domain is on. -/
theorem ctr_snapAct {port code action : Nat} (hact : action ≠ 0) (hclear : clearable code = true)
    (hint : intervalItem code = false) (hitem : (s.item port code).isSome = true)
    (hon : ((itemDomain code).filter s.domainOff).isNone = true) :
    (snapAct port code action s).ctr code = if action = 2
      then s.getF (F.snapLoadLoLoad (port * 128)) + s.getF (F.snapLoadHiLoad (port * 128)) * 2 ^ 32
      else 0 := by
  obtain ⟨ws, hws⟩ := Option.isSome_iff_exists.mp hitem
  unfold snapAct
  rw [hws]
  extract_lets s1 load
  have h1 : s1.regs = s.regs := by
    unfold s1
    split <;> rfl
  have hload : load = s.getF (F.snapLoadLoLoad (port * 128)) + s.getF (F.snapLoadHiLoad (port * 128)) * 2 ^ 32 := by
    simp only [load, getF_congr h1]
  have hon1 : ¬ ((itemDomain code).filter s1.domainOff).isSome = true := by
    have hoff : s1.domainOff = s.domainOff := funext fun d => congrArg (· == 3) (getF_congr h1 (F.pwrStatState d))
    rw [hoff, Bool.not_eq_true, Option.isSome_eq_false_iff]
    exact hon
  have hlo : s.getF (F.snapLoadLoLoad (port * 128)) < 2 ^ 32 := Nat.mod_lt _ (Nat.two_pow_pos _)
  have hhi : s.getF (F.snapLoadHiLoad (port * 128)) < 2 ^ 16 := Nat.mod_lt _ (Nat.two_pow_pos _)
  dsimp only
  rw [if_neg hon1, if_neg hact, if_neg (by rw [hclear]; decide)]
  refine (ctr_loadItem s1 hint ?_).trans (by rw [hload])
  rw [hload]
  split <;> omega

/-! #### The three writes of SNAP_SELECT -/

/-- The bits of SNAP_SELECT.ITEM take the written word's. -/
theorem getF_snapSelectItem_plainWrite (f : Nat) (v : Word) :
    (plainWrite (.snapSelect f) v s).getF (F.snapSelectItem f) = bitsOf v.toNat 0 16 := by
  apply Nat.eq_of_testBit_eq
  intro i
  have hget := get_testBit (F.snapSelectItem f) v i
  rw [Fld.get] at hget
  rw [hget, State.getF, get_testBit]
  by_cases hi : i < 16
  · have hbits : ∀ j, j < 16 → ((Reg.snapSelect 0).bitsWith .rw).getLsbD j = true := by decide
    have hrw : ((Reg.snapSelect f).bitsWith .rw).getLsbD i = true := hbits i hi
    simp only [Nat.zero_add]
    rw [plainWrite, stage_getLsbD _ _ _ (by omega), if_pos hrw]
  · simp [hi]

theorem snapStatus_key_ne_snapSelect (f : Nat) : (Reg.snapSelect f).key ≠ (Reg.snapStatus f).key := by
  simp only [Reg.key, Reg.space, Reg.off]
  omega

/-- What the window shows once the write is made (R399). -/
theorem snapBegun_shows (f : Nat) (v : Word) :
    (snapBegun f v s).flag (F.snapStatusBusy f) = true ∧ (snapBegun f v s).flag (F.snapStatusSnapValid f) = false ∧
    (snapBegun f v s).getF (F.snapSelectItem f) = bitsOf v.toNat 0 16 := by
  have hk := snapStatus_key_ne_snapSelect f
  refine ⟨flag_setF_one _ _ (by simp), ?_, ?_⟩
  · rw [snapBegun, flag_of_getF (getF_setF_misses _ (F.snapStatusSnapValid f) (F.snapStatusBusy f) 1 (by simp)
      (.inr ⟨rfl, .inl (Nat.le_refl 1)⟩))]
    exact flag_setF_bit _ (F.snapStatusSnapValid f) false (by simp) rfl
  · rw [snapBegun, getF_setF_ne _ (F.snapStatusBusy f) (F.snapSelectItem f) 1 hk,
      getF_setF_ne _ (F.snapStatusSnapValid f) (F.snapSelectItem f) 0 hk]
    exact getF_snapSelectItem_plainWrite s f v

/-- The write of SNAP_SELECT leaves the registers of other keys. -/
theorem rd_snapBegun {f : Nat} {r : Reg} (v : Word) (hsel : r.key ≠ (Reg.snapSelect f).key)
    (hstat : r.key ≠ (Reg.snapStatus f).key) : (snapBegun f v s).rd r = s.rd r := by
  rw [snapBegun, rd_setF_ne _ (F.snapStatusBusy f) r 1 hstat, rd_setF_ne _ (F.snapStatusSnapValid f) r 0 hstat]
  exact (storesOnly_plainWrite s _ v).2 r hsel

/-- A command of the window by a PF, as an action on its item (R401). -/
def snapCommand (f : Nat) (action : Nat) (item : BitVec 16) (s : State) : State :=
  snapAct (f / 128) item.toNat action (snapBegun f (snapWord f action item s) s)

theorem snapWrite_eq {f : FnId} (hf : isPf f = true) (hc : s.carriesOut f 0x1000 = true) {action : Nat}
    (ha : action < 4) (item : BitVec 16) : snapWrite f action item s = snapCommand f action item s := by
  have hport : f.val / 128 * 128 = f.val := by
    have hmod : f.val % 128 = 0 := by simpa [isPf] using hf
    omega
  rw [snapWrite, hostWrite_acts hc]
  change snapSelect (f.val / 128) (snapWord f action item s) s = _
  rw [snapSelect_eq, snapWord_item, snapWord_action s f ha, hport]
  rfl

theorem execSnap_eq {f : FnId} (hf : isPf f = true) (hc : s.carriesOut f 0x1000 = true) (item : BitVec 16) :
    exec (.snapRead f item) s = done s (snapCommand f 0 item s) ∧
    exec (.snapReadClear f item) s = done s (snapCommand f 1 item s) ∧
    exec (.snapLoad f item) s = done s (snapCommand f 2 item s) := by
  have hopen := bar0_open s (sysHeld_of_carriesOut hc)
  exact ⟨(hopen ..).trans (congrArg (done s) (snapWrite_eq s hf hc (by decide) item)),
    (hopen ..).trans (congrArg (done s) (snapWrite_eq s hf hc (by decide) item)),
    (hopen ..).trans (congrArg (done s) (snapWrite_eq s hf hc (by decide) item))⟩

theorem snapCommand_shows (f action : Nat) (item : BitVec 16) :
    (snapCommand f action item s).flag (F.snapStatusBusy f) = true ∧
    (snapCommand f action item s).flag (F.snapStatusSnapValid f) = false ∧
    (snapCommand f action item s).getF (F.snapSelectItem f) = item.toNat ∧
    (spGet none (f / 128) (snapCommand f action item s).snaps).isSome = true := by
  obtain ⟨r, ws, u, htake, hregs⟩ :=
    snapAct_takes (snapBegun f (snapWord f action item s) s) (f / 128) item.toNat action
  obtain ⟨hbusy, hvalid, hitem⟩ := snapBegun_shows s f (snapWord f action item s)
  have hregs' : (snapCommand f action item s).regs = (snapBegun f (snapWord f action item s) s).regs := by
    rw [snapCommand, htake]
    exact hregs
  refine ⟨(flag_congr hregs' _).trans hbusy, (flag_congr hregs' _).trans hvalid,
    (getF_congr hregs' _).trans (hitem.trans (snapWord_item s f item)), ?_⟩
  rw [snapCommand, htake, snapTake, spGet_spSet_same]
  rfl

/-- READ_CLEAR brings a counter to 0, LOAD to the value of SNAP_LOAD (R401). -/
theorem ctr_snapCommand {f : FnId} (hf : isPf f = true) {action : Nat} {item : BitVec 16} (hact : action ≠ 0)
    (hclear : clearable item.toNat = true) (hint : intervalItem item.toNat = false)
    (hitem : (s.item (f.val / 128) item.toNat).isSome = true)
    (hon : ((itemDomain item.toNat).filter s.domainOff).isNone = true) :
    (snapCommand f action item s).ctr item.toNat = if action = 2
      then s.getF (F.snapLoadLoLoad f) + s.getF (F.snapLoadHiLoad f) * 2 ^ 32 else 0 := by
  have hport : f.val / 128 * 128 = f.val := by
    have hmod : f.val % 128 = 0 := by simpa [isPf] using hf
    omega
  have hlo := rd_snapBegun s (f := f) (r := .snapLoadLo f) (snapWord f action item s)
    (by simp only [Reg.key, Reg.space, Reg.off]; omega) (by simp only [Reg.key, Reg.space, Reg.off]; omega)
  have hhi := rd_snapBegun s (f := f) (r := .snapLoadHi f) (snapWord f action item s)
    (by simp only [Reg.key, Reg.space, Reg.off]; omega) (by simp only [Reg.key, Reg.space, Reg.off]; omega)
  have hoff : (snapBegun f (snapWord f action item s) s).domainOff = s.domainOff := funext fun d => by
    refine congrArg (fun w => (F.pwrStatState d).get w == 3) (rd_snapBegun s (r := .pwrStat d) _ ?_ ?_)
    · simp only [Reg.key, Reg.space, Reg.off]; have := f.isLt; omega
    · simp only [Reg.key, Reg.space, Reg.off]; have := f.isLt; omega
  rw [snapCommand, ctr_snapAct _ hact hclear hint ((item_isSome s _ _ _).trans hitem) (by rw [hoff]; exact hon), hport]
  simp only [State.getF, hlo, hhi]

/-! #### The end of a capture -/

section
variable {α : Type} (x : Nat → Fld) (v : α → Nat) (hkey : ∀ i j, i ≠ j → (x i).reg.key ≠ (x j).reg.key)
include hkey

/-- Fields written for the entries of a list from place `n` on leave those of places before. -/
theorem getF_each_zipIdx_lt {j n : Nat} (l : List α) (h : j < n) :
    (each (fun (e : α × Nat) => setF (x e.2) (v e.1)) (l.zipIdx n) s).getF (x j) = s.getF (x j) := by
  induction l generalizing s n with
  | nil => rfl
  | cons a r ih => exact (ih _ (by omega)).trans (getF_setF_ne s (x n) (x j) (v a) (hkey j n (by omega)))

/-- A field written for an entry of a list holds its value. -/
theorem getF_each_zipIdx (hfit : ∀ i, (x i).lo + (x i).width ≤ 32) {i n : Nat} (l : List α) (h : i < l.length) :
    (each (fun (e : α × Nat) => setF (x e.2) (v e.1)) (l.zipIdx n) s).getF (x (n + i)) =
      v l[i] % 2 ^ (x (n + i)).width := by
  induction l generalizing s n i with
  | nil => cases h
  | cons a r ih =>
    cases i with
    | zero =>
      exact (getF_each_zipIdx_lt _ x v hkey r (Nat.lt_succ_self n)).trans (getF_setF_same s (x n) (v a) (hfit n))
    | succ i =>
      rw [show n + (i + 1) = n + 1 + i by omega]
      exact ih _ (Nat.lt_of_succ_lt_succ h)

end

/-- Fields written for the entries of a list leave the registers of other keys. -/
theorem rd_each_zipIdx {α : Type} (x : Nat → Fld) (v : α → Nat) {r : Reg} (hkey : ∀ i, r.key ≠ (x i).reg.key)
    (l : List (α × Nat)) : (each (fun (e : α × Nat) => setF (x e.2) (v e.1)) l s).rd r = s.rd r :=
  each_proj s (fun u => u.rd r) (fun (e : α × Nat) => setF (x e.2) (v e.1))
    (fun e u => rd_setF_ne u (x e.2) r (v e.1) (hkey e.2)) l

theorem snapData_key_ne (f : Nat) {i j : Nat} (h : i ≠ j) : (Reg.snapData f i).key ≠ (Reg.snapData f j).key := by
  simp only [Reg.key, Reg.space, Reg.off]
  omega

/-- A register that is one field reads as that field. -/
theorem rd_eq_of_getF {r : Reg} {w : Word} (h : s.getF ⟨r, 0, 32⟩ = w.toNat) : s.rd r = w := by
  apply BitVec.eq_of_toNat_eq
  rw [← h]
  simp [State.getF, Fld.get, bitsOf, Nat.mod_eq_of_lt (s.rd r).isLt]

/-- The words of a capture stand in SNAP_DATA. -/
theorem rd_snapData_shown {f : Nat} {ws : List Word} (h : ws.length = 4) (k : Fin 4) :
    (each (fun e s => setF (F.snapDataData f e.2) e.1.toNat s) ws.zipIdx s).rd (.snapData f k) = ws.getD k 0 := by
  have hk : k.val < ws.length := by omega
  have hget := getF_each_zipIdx s (F.snapDataData f) BitVec.toNat (fun i j => snapData_key_ne f)
    (fun _ => Nat.le_refl 32) (n := 0) ws hk
  rw [Nat.zero_add, Nat.mod_eq_of_lt ws[k.val].isLt] at hget
  rw [rd_eq_of_getF _ hget, List.getD_eq_getElem ws 0 hk]

/-- The window after a capture: the words, the result, the count, SNAP_VALID (R399). -/
def snapShown (f : Nat) (x : Snap) (seq : Nat) (s : State) : State :=
  setF (F.snapStatusSnapValid f) 1 (setF (F.snapStatusBusy f) 0 (setF (F.snapStatusResult f) x.result
    (setF (F.snapStatusSnapSeq f) (seq + 1)
      (each (fun e s => setF (F.snapDataData f e.2) e.1.toNat s) x.words.zipIdx s))))

theorem execSnapshotCaptureDone_some {port : PortId} {x : Snap} (h : spGet none port.val s.snaps = some x) :
    execSnapshotCaptureDone port s =
      done s (snapShown (port.val * 128) x (s.getF (F.snapStatusSnapSeq (port.val * 128)))
        { s with snaps := spSet none port.val none s.snaps }) := by
  unfold execSnapshotCaptureDone
  rw [h]
  rfl

theorem snapShown_snaps (f : Nat) (x : Snap) (seq : Nat) : (snapShown f x seq s).snaps = s.snaps := by
  simp only [snapShown, setF_snaps]
  exact each_proj s State.snaps (fun (e : Word × Nat) s => setF (F.snapDataData f e.2) e.1.toNat s)
    (fun e u => setF_snaps u (F.snapDataData f e.2) e.1.toNat) _

theorem snapShown_shows (f : Nat) {x : Snap} (seq : Nat) (h : x.words.length = 4) :
    (snapShown f x seq s).flag (F.snapStatusBusy f) = false ∧
    (snapShown f x seq s).flag (F.snapStatusSnapValid f) = true ∧
    (snapShown f x seq s).getF (F.snapStatusSnapSeq f) = (seq + 1) % 65536 ∧
    ∀ k : Fin 4, (snapShown f x seq s).rd (.snapData f k) = x.words.getD k 0 := by
  refine ⟨?_, flag_setF_one _ _ (by simp), ?_, fun k => ?_⟩
  · rw [snapShown, flag_of_getF (getF_setF_misses _ (F.snapStatusBusy f) (F.snapStatusSnapValid f) 1 (by simp)
      (.inr ⟨rfl, .inr (Nat.le_refl 1)⟩))]
    exact flag_setF_zero _ _ (by simp)
  · rw [snapShown,
      getF_setF_misses _ (F.snapStatusSnapSeq f) (F.snapStatusSnapValid f) _ (by simp) (.inr ⟨rfl, by simp⟩),
      getF_setF_misses _ (F.snapStatusSnapSeq f) (F.snapStatusBusy f) _ (by simp) (.inr ⟨rfl, by simp⟩),
      getF_setF_misses _ (F.snapStatusSnapSeq f) (F.snapStatusResult f) _ (by simp) (.inr ⟨rfl, by simp⟩)]
    exact getF_setF_same _ (F.snapStatusSnapSeq f) (seq + 1) (Nat.le_refl 32)
  · have hne : (Reg.snapData f k).key ≠ (Reg.snapStatus f).key := by
      simp only [Reg.key, Reg.space, Reg.off]
      omega
    rw [snapShown, rd_setF_ne _ (F.snapStatusSnapValid f) _ _ hne, rd_setF_ne _ (F.snapStatusBusy f) _ _ hne,
      rd_setF_ne _ (F.snapStatusResult f) _ _ hne, rd_setF_ne _ (F.snapStatusSnapSeq f) _ _ hne, rd_snapData_shown _ h]

/-- Settles O13: SNAP_SELECT takes its item, and the end of the capture shows it. -/
theorem snapshotsRun : Obligations.SnapshotsRun := by
  refine ⟨fun f item s hf hc i hi => ?_, fun port x s hx hlen => ?_, fun f item s hf hc hclear hint hitem hon => ?_⟩
  · obtain ⟨hread, hclear, hload⟩ := execSnap_eq s hf hc item
    simp only [List.mem_cons, List.not_mem_nil, or_false] at hi
    obtain rfl | rfl | rfl := hi
    · exact ⟨_, hread, snapCommand_shows s f 0 item⟩
    · exact ⟨_, hclear, snapCommand_shows s f 1 item⟩
    · exact ⟨_, hload, snapCommand_shows s f 2 item⟩
  · obtain ⟨hbusy, hvalid, hseq, hdata⟩ := snapShown_shows { s with snaps := spSet none port.val none s.snaps }
      (port.val * 128) (s.getF (F.snapStatusSnapSeq (port.val * 128))) hlen
    have hsnaps := congrArg (spGet none port.val) (snapShown_snaps { s with snaps := spSet none port.val none s.snaps }
      (port.val * 128) x (s.getF (F.snapStatusSnapSeq (port.val * 128))))
    exact ⟨_, execSnapshotCaptureDone_some s hx, hbusy, hvalid,
      hsnaps.trans (spGet_spSet_same none port.val none s.snaps), hseq, hdata⟩
  · obtain ⟨-, hexec1, hexec2⟩ := execSnap_eq s hf hc item
    exact ⟨⟨_, hexec1, ctr_snapCommand s hf (by decide) hclear hint hitem hon⟩,
      ⟨_, hexec2, ctr_snapCommand s hf (by decide) hclear hint hitem hon⟩⟩

end Sys2Proof.Machine
end

section
/-! Proofs: the power domains (DOMAIN_IDLE_TIMEOUT, DOMAIN_WAKE, DOMAIN_POWER_OFF, DOMAIN_POWER_ON, PWR_BANK_EN_WRITE;
R463 to R466). -/

namespace Sys2Proof.Machine

variable (s : State)

/-! ### The local controllers (R463, R464) -/

theorem execDomainIdleTimeout_gates {d : DomId} (hp : s.pinned d = false) (h : s.domain d = 0 ∧ gates d = true) :
    execDomainIdleTimeout d s = done s (setDomain d 1 s) := by
  rw [execDomainIdleTimeout, if_neg (by simp [hp]), if_pos h]

theorem execDomainIdleTimeout_retains {d : DomId} (hp : s.pinned d = false)
    (h : s.domain d = 1 ∧ retains d = true ∧ s.flag (F.pwrCtlRetainEn d) = true) :
    execDomainIdleTimeout d s = done s (setDomain d 2 s) := by
  have hon : ¬ (s.domain d = 0 ∧ gates d = true) := by
    rintro ⟨h0, -⟩
    omega
  rw [execDomainIdleTimeout, if_neg (by simp [hp]), if_neg hon, if_pos h]

theorem execDomainIdleTimeout_idle {d : DomId} (h : s.pinned d = true ∨ (¬ (s.domain d = 0 ∧ gates d = true) ∧
    ¬ (s.domain d = 1 ∧ retains d = true ∧ s.flag (F.pwrCtlRetainEn d) = true))) :
    execDomainIdleTimeout d s = .next s := by
  unfold execDomainIdleTimeout
  by_cases hp : s.pinned d = true
  · exact if_pos hp
  · obtain ⟨hgate, hretain⟩ := h.resolve_left hp
    rw [if_neg hp, if_neg hgate, if_neg hretain, done_self]

theorem domain_wake {d : Nat} (hd : d < 32) : (wake d s).domain d = if s.domain d = 3 then 3 else 0 := by
  have hlt : s.domain d < 4 := getF_lt s (F.pwrStatState d)
  unfold wake
  split
  next h =>
    rw [domain_setDomain_same s hd (by decide), if_neg (by omega)]
  next h =>
    split <;> omega

theorem domain_powerOff {d : Nat} (hd : d < 32) : (powerOff d s).domain d = 3 := by
  unfold powerOff
  split
  next h => exact beq_iff_eq.mp h
  next => exact domain_setDomain_same _ hd (by decide)

/-- A domain that is off and may be on powers on (R463). -/
theorem domain_powerOn {d : Nat} (hd : d < 32) (hoff : s.domainOff d = true) (hmay : s.mayBeOn d = true) :
    (powerOn d s).domain d = 0 := by
  have hcs : (Reg.pwrStat d).key ≠ Reg.csStatus.key := by
    simp only [Reg.key, Reg.space, Reg.off]
    omega
  unfold powerOn
  rw [if_pos ⟨hoff, hmay⟩]
  extract_lets s1 s2
  have h1 : s1.domain d = 0 :=
    (getF_setF_misses _ (F.pwrStatState d) (F.pwrStatThermalOff d) 0 (by simp) (.inr ⟨rfl, .inl (by simp)⟩)).trans
      (domain_setDomain_same s hd (by decide))
  have h2 : s2.domain d = 0 := by
    unfold s2
    split <;> exact h1
  split
  · exact (getF_startRelock s2 false (F.pwrStatState d) (.inl hcs) (.inl hcs)).trans h2
  · exact h2

/-! ### The bank enables (R466) -/

theorem key_mod_of_off {r : Reg} (h : r.off < 0x100000) : r.key % 0x100000 = r.off := by
  rw [Reg.key]
  omega

/-- The reset of a range of registers leaves those at other offsets. -/
theorem rd_resetRange {keep : Reg → Word} {lo hi : Nat} {q : Reg} (hhi : hi ≤ 0x100000)
    (h : q.key % 0x100000 < lo ∨ hi ≤ q.key % 0x100000) : (resetRange keep lo hi s).rd q = s.rd q := by
  refine each_keeps s (State.rd · q) _ _ fun r hr u => rd_wr_ne u (fun he => ?_) _
  simp only [List.mem_eraseDups, State.listed, List.mem_filterMap, List.mem_filter, Bool.and_eq_true,
    decide_eq_true_eq] at hr
  obtain ⟨k, ⟨-, hlo, hlt⟩, hmap⟩ := hr
  have hoff := ofOff_off hmap
  rw [he, key_mod_of_off (by omega)] at h
  omega

theorem rd_loseCtrs (c : Nat → Bool) (q : Reg) : (loseCtrs c s).rd q = s.rd q := rfl

section
variable {s} {q : Reg} (hq : 0x28000 ≤ q.key % 0x100000)
include hq

/-- What a bank's digital part loses is its registers and those of its detectors (R123). -/
theorem rd_loseBank {b : Nat} (hb : b < 8) : (loseBank b s).rd q = s.rd q := by
  unfold loseBank
  extract_lets x s1 s2 s3 s4
  have h1 : s1.rd q = s.rd q := rd_resetRange s (by omega) (.inr (by omega))
  have h2 : s2.rd q = s1.rd q := rd_resetRange s1 (by omega) (.inr (by omega))
  have h3 : s3.rd q = s2.rd q := each_proj s2 (State.rd · q) (fun n => setDet n {}) (fun _ _ => rd_congr rfl q) _
  have h4 : s4.rd q = s3.rd q := rd_setBank s3 b _
  rw [rd_loseCtrs, h4, h3, h2, h1]

/-- A bank's domain that powers off changes its PWR_STAT, and no other register beyond the bank's. -/
theorem getF_powerOff_bank (hr : reportOff (q.key % 0x100000) = false) {d : Nat} (h2 : 2 ≤ d) (h17 : d < 18)
    (hk : q.key ≠ (Reg.pwrStat d).key) (lo w : Nat) : (powerOff d s).getF ⟨q, lo, w⟩ = s.getF ⟨q, lo, w⟩ := by
  unfold powerOff
  split
  · rfl
  · extract_lets s1
    have h1 : s1.getF ⟨q, lo, w⟩ = s.getF ⟨q, lo, w⟩ := by
      unfold s1
      split
      · exact congrArg (Fld.get ⟨q, lo, w⟩) (rd_loseBank hq (by omega))
      · simp only [show d ≠ 18 by omega, show d ≠ 19 by omega, show d ≠ 28 by omega, if_false]
    exact (getF_setDomain s1 (x := ⟨q, lo, w⟩) hr hk).trans h1

/-- The end of a bank's calibration is told in the bank's registers. -/
theorem getF_abortCal (hr : reportOff (q.key % 0x100000) = false) {b : Nat} (hb : b < 8) (reason lo w : Nat) :
    (abortCal b reason s).getF ⟨q, lo, w⟩ = s.getF ⟨q, lo, w⟩ := by
  have hfe : ∀ r : Reg, r.off < 0x28000 → q.key ≠ r.key := fun r hlt he => by
    rw [he, key_mod_of_off (by omega)] at hq
    omega
  have hne : ∀ (r : Reg) (u : State) (l w' v : Nat), r.off < 0x28000 →
      (setF ⟨r, l, w'⟩ v u).getF ⟨q, lo, w⟩ = u.getF ⟨q, lo, w⟩ :=
    fun r u l w' v h => getF_setF_ne u ⟨r, l, w'⟩ ⟨q, lo, w⟩ v (hfe r h)
  cases hrun : s.flag (F.feBankStatusCalRunning b) with
  | false => rw [abortCal_idle s reason hrun]
  | true =>
    rw [abortCal_running s reason hrun, getF_endCal _ _ _ _ ⟨q, lo, w⟩ _ hr,
      hne _ _ _ _ _ (by simp only [Reg.off]; omega),
      stopCal, hne _ _ _ _ _ (by simp only [Reg.off]; omega), hne _ _ _ _ _ (by simp only [Reg.off]; omega),
      hne _ _ _ _ _ (by simp only [Reg.off]; omega)]
    rfl

end

/-- What one entry of a list brings about, and every entry keeps, holds after the list. -/
theorem each_reaches {α : Type} (P : State → Prop) (g : α → State → State) {a : α} {l : List α} (hm : a ∈ l)
    (ha : ∀ u, P (g a u)) (hk : ∀ b ∈ l, ∀ u, P u → P (g b u)) : P (each g l s) := by
  suffices h : ∀ s, (P s ∨ a ∈ l) → P (each g l s) from h s (.inr hm)
  clear hm
  induction l with
  | nil => exact fun s h => h.resolve_right List.not_mem_nil
  | cons b r ih =>
    obtain ⟨hb, hr⟩ := List.forall_mem_cons.mp hk
    refine fun s h => ih hr (g b s) ?_
    obtain hs | hm := h
    · exact .inl (hb s hs)
    · obtain rfl | hm := List.mem_cons.mp hm
      · exact .inl (ha s)
      · exact .inr hm

/-- A bank that BANK_EN takes out of use: its calibration aborts, its two domains power off (R466). -/
def disableBank (b : Nat) (s : State) : State :=
  powerOff (10 + b) (powerOff (2 + b)
    (if s.flag (F.feBankStatusCalRunning b) then abortCal b (s.freeN % 256) (spend s) else s))

/-- The banks whose bits of a BANK_EN value are 0. -/
def disabledBanks (v : Nat) : List Nat := (List.range 8).filter fun b => !v.testBit b

theorem bankEnWrite_eq (v : Nat) : bankEnWrite v s =
    if (disabledBanks v).any fun b => (s.partOf b).isSome then powerRefused 0x70100 s
    else each disableBank (disabledBanks v) (setF F.pwrBankEnBankEn v s) := rfl

theorem mem_disabledBanks {v b : Nat} : b ∈ disabledBanks v ↔ b < 8 ∧ v.testBit b = false := by
  simp [disabledBanks]

/-- A bank that is taken out of use changes PWR_STAT of its two domains, and no other register beyond the bank's. -/
theorem getF_disableBank {q : Reg} (hq : 0x28000 ≤ q.key % 0x100000) (hr : reportOff (q.key % 0x100000) = false)
    {b : Nat} (hb : b < 8) (h2 : q.key ≠ (Reg.pwrStat (2 + b)).key) (h10 : q.key ≠ (Reg.pwrStat (10 + b)).key)
    (lo w : Nat) : (disableBank b s).getF ⟨q, lo, w⟩ = s.getF ⟨q, lo, w⟩ := by
  rw [disableBank, getF_powerOff_bank hq hr (by omega) (by omega) h10,
    getF_powerOff_bank hq hr (by omega) (by omega) h2]
  split
  · exact getF_abortCal (s := spend s) hq hr hb _ lo w
  · rfl

theorem pwrStat_key_mod {d : Nat} (hd : d < 32) : (Reg.pwrStat d).key % 0x100000 = 0x70000 + d * 4 := by
  rw [key_mod_of_off] <;> simp only [Reg.off]
  omega

/-- A bank's domain that is off stays off when a bank's domain powers off. -/
theorem domain_powerOff_off {d e : Nat} (hd : d < 32) (h2 : 2 ≤ e) (h17 : e < 18) (h : s.domain d = 3) :
    (powerOff e s).domain d = 3 := by
  by_cases hde : d = e
  · rw [hde]
    exact domain_powerOff s (by omega)
  · have hq := pwrStat_key_mod hd
    exact (getF_powerOff_bank (by omega) (reportOff_pwrStat hd) h2 h17 (pwrStat_key_ne hde) 0 2).trans h

/-- The domains of a disabled bank are off after the write, and stay off with the others (R466). -/
theorem disableBank_off {b : Nat} (hb : b < 8) : (disableBank b s).domain (2 + b) = 3 ∧
    (disableBank b s).domain (10 + b) = 3 :=
  ⟨domain_powerOff_off _ (by omega) (by omega) (by omega) (domain_powerOff _ (by omega)), domain_powerOff _ (by omega)⟩

theorem disableBank_keeps_off {b d : Nat} (hb : b < 8) (hd : d < 32) (h : s.domain d = 3) :
    (disableBank b s).domain d = 3 := by
  have hq := pwrStat_key_mod hd
  refine domain_powerOff_off _ hd (by omega) (by omega) (domain_powerOff_off _ hd (by omega) (by omega) ?_)
  split
  · exact (getF_abortCal (s := spend s) (by omega) (reportOff_pwrStat hd) hb _ 0 2).trans h
  · exact h

theorem bankEnWrite_accepted {v : Nat} (hv : v < 256) (h : ∀ b, b < 8 → v.testBit b = false → s.partOf b = none) :
    (bankEnWrite v s).getF F.pwrBankEnBankEn = v ∧
    ∀ b, b < 8 → v.testBit b = false →
      (bankEnWrite v s).domain (2 + b) = 3 ∧ (bankEnWrite v s).domain (10 + b) = 3 := by
  have hfree : ¬ ((disabledBanks v).any fun b => (s.partOf b).isSome) = true := by
    simp only [List.any_eq_true, not_exists, not_and]
    intro b hb
    obtain ⟨hlt, hbit⟩ := mem_disabledBanks.mp hb
    simp [h b hlt hbit]
  rw [bankEnWrite_eq, if_neg hfree]
  constructor
  · refine (each_keeps _ (fun u => u.getF F.pwrBankEnBankEn) disableBank _ fun b hb u => ?_).trans
      (getF_setF_bits s .pwrBankEn (by decide) hv)
    have hlt := (mem_disabledBanks.mp hb).1
    refine getF_disableBank u (by decide) (by decide) hlt ?_ ?_ 0 8
    · simp only [Reg.key, Reg.space, Reg.off]
      omega
    · simp only [Reg.key, Reg.space, Reg.off]
      omega
  · intro b hlt hbit
    refine each_reaches _ (fun u => u.domain (2 + b) = 3 ∧ u.domain (10 + b) = 3) disableBank
      (mem_disabledBanks.mpr ⟨hlt, hbit⟩) (fun u => disableBank_off u hlt) fun c hc u hu => ?_
    have hc8 := (mem_disabledBanks.mp hc).1
    exact ⟨disableBank_keeps_off u hc8 (by omega) hu.1, disableBank_keeps_off u hc8 (by omega) hu.2⟩

theorem bankEnWrite_refused {v b : Nat} (hb : b < 8) (hbit : v.testBit b = false) (hp : (s.partOf b).isSome = true) :
    (bankEnWrite v s).flag F.pwrEventsCfgRefused = true ∧
    (bankEnWrite v s).getF F.pwrBankEnBankEn = s.getF F.pwrBankEnBankEn := by
  have hany : ((disabledBanks v).any fun b => (s.partOf b).isSome) = true :=
    List.any_eq_true.mpr ⟨b, mem_disabledBanks.mpr ⟨hb, hbit⟩, hp⟩
  rw [bankEnWrite_eq, if_pos hany, powerRefused]
  exact ⟨(flag_of_getF (getF_event _ F.pwrEventsCfgRefused F.pwrEventsCfgRefused _ _ (by decide))).trans
      (flag_setF_one s .pwrEvents (by decide)),
    (getF_event _ F.pwrEventsCfgRefused F.pwrBankEnBankEn _ _ (by decide)).trans (getF_setF_ne s _ _ 1 (by decide))⟩

/-- The value written to PWR_BANK_EN. -/
theorem testBit_bankEn (v : Word) {b : Nat} (hb : b < 8) : (v.toNat % 256).testBit b = v.getLsbD b := by
  rw [show (256 : Nat) = 2 ^ 8 from rfl, Nat.testBit_mod_two_pow]
  simp [hb, BitVec.getLsbD]

/-- The banks of the partitions stand in other registers. -/
theorem partOf_keepWrite_bankEn (v : Word) : (keepWrite .pwrBankEn v s).partOf = s.partOf := by
  have hown : ∀ p lo w, (keepWrite .pwrBankEn v s).getF ⟨.partOwner p, lo, w⟩ = s.getF ⟨.partOwner p, lo, w⟩ :=
    fun p lo w => getF_keepWrite_ne s .pwrBankEn ⟨.partOwner p, lo, w⟩ v (by
      simp only [Reg.key, Reg.space, Reg.off]
      omega)
  funext b
  simp only [State.partOf, State.exists_, State.flag, hown]

/-- A domain that nothing wants on, that is on, or that may not be on, is left as it is. -/
theorem execDomainPowerOn_idle {d : DomId}
    (h : ¬ ((s.offCondition d = false ∨ d.val = 30 ∨ s.pinned d = true ∨ s.forbidden d = true) ∧
      s.domainOff d = true ∧ s.mayBeOn d = true)) : execDomainPowerOn d s = .next s := by
  unfold execDomainPowerOn
  split
  next hwant =>
    have hstay : ¬ (s.domainOff d = true ∧ s.mayBeOn d = true) := fun hon => h ⟨by simpa [Fin.ext_iff] using hwant, hon⟩
    rw [powerOn, if_neg hstay, done_self]
  next => exact done_self s

/-- Settles O59: a domain's state follows its controller, and BANK_EN. -/
theorem domainsFollowTheirControllers : Obligations.DomainsFollowTheirControllers := by
  refine ⟨fun d s => ⟨fun hp hg => ?_, fun hp hr => ?_, execDomainIdleTimeout_idle s⟩, fun d s => ?_,
    fun d s => ⟨fun hmay => ?_, fun hno => ?_⟩, fun d s => ⟨fun hmay => ?_, fun hno => ?_⟩, fun f v s hc => ?_⟩
  · exact ⟨_, execDomainIdleTimeout_gates s hp hg, domain_setDomain_same s (by omega) (by decide)⟩
  · exact ⟨_, execDomainIdleTimeout_retains s hp hr, domain_setDomain_same s (by omega) (by decide)⟩
  · exact ⟨_, rfl, domain_wake s (by omega)⟩
  · exact ⟨_, if_pos hmay, domain_powerOff s (by omega)⟩
  · exact if_neg hno
  · obtain ⟨hwant, hoff, hon⟩ := hmay
    refine ⟨_, if_pos ?_, domain_powerOn s (by omega) hoff hon⟩
    simpa [Fin.ext_iff] using hwant
  · exact execDomainPowerOn_idle s hno
  · have hexec : exec (.pwrBankEnWrite f v) s = done s (bankEnWrite (v.toNat % 256) (keepWrite .pwrBankEn v s)) :=
      bar0_acts hc _ _
    have hpart : (keepWrite .pwrBankEn v s).partOf = s.partOf := partOf_keepWrite_bankEn s v
    refine ⟨fun hno => ?_, fun htaken => ?_⟩
    · obtain ⟨hset, hdom⟩ := bankEnWrite_accepted (keepWrite .pwrBankEn v s) (v := v.toNat % 256) (by omega)
        fun b hb hbit => by
          rw [testBit_bankEn v hb] at hbit
          rw [hpart]
          exact Option.not_isSome_iff_eq_none.mp fun hp => hno ⟨b, hb, hbit, hp⟩
      refine ⟨_, hexec, hset, fun b hb hbit => ?_⟩
      obtain ⟨ha, hd⟩ := hdom b hb ((testBit_bankEn v hb).trans hbit)
      exact ⟨beq_iff_eq.mpr ha, beq_iff_eq.mpr hd⟩
    · obtain ⟨b, hb, hbit, hp⟩ := htaken
      obtain ⟨hflag, hkept⟩ := bankEnWrite_refused (keepWrite .pwrBankEn v s) hb ((testBit_bankEn v hb).trans hbit)
        (by rw [hpart]; exact hp)
      exact ⟨_, hexec, hflag, hkept.trans (getF_keepWrite s F.pwrBankEnBankEn v (by decide) (by decide))⟩

end Sys2Proof.Machine
end

section
/-! Proofs: the patrol of the configuration memories, FAULT# and its causes, the fault counts and the SMBus target
(CFG_PATROL, FLT_PIN_CAUSE_CLEAR, FAULT_TEST, CLEAR_COUNTS, SMBUS_READ_BYTE; R484, R493, R494, R501, R521). -/

namespace Sys2Proof.Machine

variable (s : State)

/-! ### What a fault counts (R489, R503) -/

theorem fltCount_key_mod {c : Nat} (hc : c < 0x13) : (Reg.fltCount c).key % 0x100000 = 0x4840 + c * 4 := by
  simp only [Reg.key, Reg.space, Reg.off]
  omega

/-- The offsets at which a fault is shown, without those of the counts. -/
abbrev faultOffs : List Nat := [0x200C, 0x8008, 0x4814, 0x4818]

theorem fltCount_not_faultOffs {c : Nat} (hc : c < 0x13) : (Reg.fltCount c).key % 0x100000 ∉ faultOffs := by
  rw [fltCount_key_mod hc]
  simp only [List.mem_cons, List.not_mem_nil, or_false, not_or]
  omega

/-- A fault is counted, whether its entry of the fault log is suppressed or not. -/
theorem fltCount_logFault {c : Nat} (hc : c < 0x13) (index detail : Nat) :
    (logFault c index detail s).getF (F.fltCountCount c) = min 0xFFFFFFFF (s.getF (F.fltCountCount c) + 1) := by
  have hcount := getF_setF_bits s (.fltCount c) (lo := 0) (w := 32) (by decide)
    (show min 0xFFFFFFFF (s.getF (F.fltCountCount c) + 1) < 2 ^ 32 by omega)
  unfold logFault
  extract_lets u key seen v
  have hv : WritesAt faultOffs u v := (WritesAt.refl _ u).same rfl rfl
  split
  · exact hcount
  · refine (WritesAt.getF (hv.each _ (fun f _ hw => ?_) _) (F.fltCountCount c) (fltCount_not_faultOffs hc)).trans hcount
    exact hw.fltPush (by decide) (by decide) (by decide) ..

/-! ### FAULT# (R493, R494) -/

/-- FAULT# is low while an enabled cause is in force, or at FAULT_TEST. -/
def State.faultLow (s : State) : Bool := decide (s.pinCommon ≠ 0) || s.flag F.fltCtrlFaultTest

theorem faultPin_pinUpdate : (pinUpdate s).mgmt.faultPin = s.faultLow := by
  unfold pinUpdate
  extract_lets low m s1 s2
  have h2 : s2.mgmt = s1.mgmt :=
    each_mgmt s1 (fun f => setF (F.fltStatusFaultPin f) (if low then 1 else 0)) (fun _ _ => rfl) [0, 128]
  split
  next hsame => exact hsame.symm
  next =>
    simp only [ite_mgmt, postPfs_mgmt, spend_mgmt, h2, ite_self]
    rfl

theorem writesAt_pinUpdate : WritesAt faultOffs s (pinUpdate s) := by
  unfold pinUpdate
  extract_lets low m s1 s2
  have h2 : WritesAt faultOffs s s2 := ((WritesAt.refl _ s).same (u := s1) rfl rfl).each _
    (fun f _ hu => hu.setF (r := .fltStatus f) (by rw [fltStatus_key_mod]; decide) _ _ _) _
  clear_value s2
  split
  · exact WritesAt.refl _ s
  · split
    · split
      · exact h2.spend.postAll (by decide) (by decide) ..
      · exact h2.postAll (by decide) (by decide) ..
    · exact h2.postAll (by decide) (by decide) ..

theorem writesAt_setCause (n : Nat) : WritesAt faultOffs s (setCause n s) :=
  ((WritesAt.refl _ s).setF (r := .fltPinCause) (by decide) n 1 1).trans (writesAt_pinUpdate _)

/-- A cause of FAULT# touches neither the detectors nor the sequencers. -/
theorem setCause_units (n : Nat) : (setCause n s).dets = s.dets ∧ (setCause n s).seqs = s.seqs := by
  obtain ⟨m, hq⟩ := pinUpdate_quiet (setF ⟨.fltPinCause, n, 1⟩ 1 s)
  exact ⟨hq.dets, hq.seqs⟩

/-! ### CFG_PATROL (R484) -/

/-- An uncorrectable word is counted and sets cause 5; what it disables is done before. -/
theorem cfgUe_reports (mem off : Nat) (part : Option Nat) :
    (cfgUe mem off part s).dets = s.dets ∧ (cfgUe mem off part s).seqs = s.seqs ∧
    ((cfgUe mem off part s).getF F.fltPinCauseCause).testBit 5 = true ∧
    (cfgUe mem off part s).getF (F.fltCountCount 3) = min 0xFFFFFFFF (s.getF (F.fltCountCount 3) + 1) := by
  have hreports : ∃ u v p, u.regs = s.regs ∧ u.dets = s.dets ∧ u.seqs = s.seqs ∧
      WritesAt faultOffs (logFault 3 mem p u) v ∧ Quiet (logFault 3 mem p u) v ∧
      cfgUe mem off part s = setCause 5 v := by
    cases part with
    | some p =>
      exact ⟨s, _, p, rfl, rfl, rfl, (WritesAt.refl _ _).postAll (by decide) (by decide) ..,
        (Quiet.refl _).postPart .., rfl⟩
    | none =>
      exact ⟨spend s, _, _, rfl, rfl, rfl, (WritesAt.refl _ _).postAll (by decide) (by decide) ..,
        (Quiet.refl _).postPfs .., rfl⟩
  obtain ⟨u, v, p, hregs, hdets, hseqs, hwrites, hquiet, hcfg⟩ := hreports
  have hq : Quiet u v := ((Quiet.refl u).logFault 3 mem p (by decide)).trans hquiet
  obtain ⟨hcdets, hcseqs⟩ := setCause_units v 5
  rw [hcfg]
  refine ⟨hcdets.trans (hq.dets.trans hdets), hcseqs.trans (hq.seqs.trans hseqs), ?_, ?_⟩
  · rw [fltPinCause_setCause v (by decide), Nat.testBit_or, Nat.testBit_two_pow_self, Bool.or_true]
  · rw [(writesAt_setCause v 5).getF (F.fltCountCount 3) (by decide), hwrites.getF (F.fltCountCount 3) (by decide),
      fltCount_logFault u (by decide), getF_congr hregs]

/-- A correctable word is counted and changes nothing else of the detectors and sequencers. -/
theorem logFault_ce (mem : Nat) : (logFault 2 mem 0 s).dets = s.dets ∧ (logFault 2 mem 0 s).seqs = s.seqs ∧
    (logFault 2 mem 0 s).getF (F.fltCountCount 2) = min 0xFFFFFFFF (s.getF (F.fltCountCount 2) + 1) :=
  have hq := (Quiet.refl s).logFault 2 mem 0 (by decide)
  ⟨hq.dets, hq.seqs, fltCount_logFault s (by decide) mem 0⟩

theorem killDet_regs (n : Nat) : (killDet n s).regs = s.regs := modDet_regs s n _

theorem killDet_ue (n : Nat) : ((killDet n s).det n).ue = true := by
  simp [killDet, modDet]

/-- What an uncorrectable word at offset `k` of a sequencer disables (R484). -/
theorem killSeq_disables (p k : Nat) :
    (k < 0x200 → ((killSeq p k s).seq p).stopped = true) ∧
    (0x200 ≤ k → k < 0x1000 → ∀ j, j < 4 → 4 * ((k - 0x200) / 0x10) + j ∈ ((killSeq p k s).seq p).deadBranches) ∧
    (0x1000 ≤ k → (k - 0x1000) / 0x40 ∈ ((killSeq p k s).seq p).deadBranches) := by
  refine ⟨fun hk => ?_, fun hlo hhi j hj => ?_, fun hk => ?_⟩
  · rw [killSeq, if_neg (by omega), if_neg (by omega)]
    simp [modSeq]
  · rw [killSeq, if_neg (by omega), if_pos hlo]
    simp only [modSeq, seq_setSeq_same, List.mem_append, List.mem_cons, List.not_mem_nil]
    omega
  · rw [killSeq, if_pos hk]
    simp [modSeq]

/-- The three memories of the patrol, each with its domain: a detector's, a gate protection's, a sequencer's. -/
theorem cfgUpset_detector {off : Nat} (hw : configWord off = true) (hlo : 0x20000 ≤ off) (hhi : off < 0x28000) :
    (cfgUpset off true s = if s.domainOff (10 + (off - 0x20000) / 0x1000) then s
      else cfgUe 0 (off % 0x100) (s.partOf ((off - 0x20000) / 0x100 / 16)) (killDet ((off - 0x20000) / 0x100) s)) ∧
    cfgUpset off false s = if s.domainOff (10 + (off - 0x20000) / 0x1000) then s else logFault 2 0 0 s := by
  have hdom : (off - 0x20000) / 0x100 / 16 = (off - 0x20000) / 0x1000 := Nat.div_div_eq_div_mul ..
  simp only [cfgUpset, hw, hlo, hhi, hdom, and_self, Bool.true_eq_false, Bool.false_eq_true, if_true, if_false]

theorem cfgUpset_protection {off : Nat} (hw : configWord off = true) (hlo : 0x28000 ≤ off) (hhi : off < 0x28800) :
    (∃ part, cfgUpset off true s = if s.domainOff 18 then s
      else cfgUe 1 (off % 0x100) part (killDet (128 + (off - 0x28000) / 0x100) s)) ∧
    cfgUpset off false s = if s.domainOff 18 then s else logFault 2 1 0 s := by
  have hdet : ¬ off < 0x28000 := by omega
  simp only [cfgUpset, hw, hlo, hhi, hdet, and_self, and_false, Bool.true_eq_false, Bool.false_eq_true, if_true,
    if_false]
  exact ⟨⟨_, rfl⟩, trivial⟩

theorem cfgUpset_sequencer {off : Nat} (hw : configWord off = true) (hlo : 0x30000 ≤ off) (hhi : off < 0x40000) :
    (cfgUpset off true s = if s.domainOff 18 then s
      else cfgUe 2 (off % 0x2000) (some ((off - 0x30000) / 0x2000))
        (killSeq ((off - 0x30000) / 0x2000) (off % 0x2000) s)) ∧
    cfgUpset off false s = if s.domainOff 18 then s else logFault 2 2 0 s := by
  have hdet : ¬ off < 0x28000 := by omega
  have hprot : ¬ off < 0x28800 := by omega
  simp only [cfgUpset, hw, hlo, hhi, hdet, hprot, and_self, and_false, Bool.true_eq_false, Bool.false_eq_true, if_true,
    if_false]

theorem killSeq_regs (p k : Nat) : (killSeq p k s).regs = s.regs := by
  unfold killSeq
  dsimp only
  split
  · rfl
  · split <;> rfl

/-- What an upset word of a domain does: an uncorrectable one from `k` on, the state with what it disables. -/
theorem upset_outcome {d mem off : Nat} {part : Option Nat} {k t u : State} (hk : k.regs = s.regs)
    (ht : t = if s.domainOff d then s else cfgUe mem off part k)
    (hu : u = if s.domainOff d then s else logFault 2 mem 0 s) :
    (s.domainOff d = true → t = s ∧ u = s) ∧
    (s.domainOff d = false → (t.getF F.fltPinCauseCause).testBit 5 = true ∧
      t.getF (F.fltCountCount 3) = min 0xFFFFFFFF (s.getF (F.fltCountCount 3) + 1) ∧
      t.dets = k.dets ∧ t.seqs = k.seqs ∧ u.dets = s.dets ∧ u.seqs = s.seqs ∧
      u.getF (F.fltCountCount 2) = min 0xFFFFFFFF (s.getF (F.fltCountCount 2) + 1)) := by
  refine ⟨fun hoff => ⟨ht.trans (if_pos hoff), hu.trans (if_pos hoff)⟩, fun hon => ?_⟩
  have hnot : ¬ s.domainOff d = true := by simp [hon]
  obtain ⟨hdets, hseqs, hcause, hcount⟩ := cfgUe_reports k mem off part
  obtain ⟨hudets, huseqs, hucount⟩ := logFault_ce s mem
  rw [ht.trans (if_neg hnot), hu.trans (if_neg hnot)]
  exact ⟨hcause, hcount.trans (by rw [getF_congr hk]), hdets, hseqs, hudets, huseqs, hucount⟩

/-! ### FLT_PIN_CAUSE_CLEAR, FAULT_TEST and CLEAR_COUNTS -/

/-- The conditions of the held causes stand in other registers than FLT_PIN_CAUSE. -/
theorem heldCauses_plainWrite (v : Word) : (plainWrite .fltPinCause v s).heldCauses = s.heldCauses := by
  have hrd : ∀ r : Reg, r.key ≠ Reg.fltPinCause.key → (plainWrite .fltPinCause v s).rd r = s.rd r :=
    (storesOnly_plainWrite s .fltPinCause v).2
  have hpart : (plainWrite .fltPinCause v s).partOf = s.partOf := funext <| partOf_of_rd fun p => hrd _ (by
    simp only [Reg.key, Reg.space, Reg.off]
    omega)
  obtain ⟨regs, stamps, free, heq⟩ := plainWrite_eq s .fltPinCause v
  have hbank : (plainWrite .fltPinCause v s).bank = s.bank := by rw [heq]; rfl
  simp only [State.heldCauses, State.flag, State.getF, hpart, hbank, hrd .csStatus (by decide),
    hrd .mgmtStatus (by decide), hrd .secStatus (by decide)]

/-- Causes written 1 clear, and those whose condition lasts are in force again (R494). -/
theorem cause_pinCauseWrite (v : Word) {k : Nat} (hk : k < 6) :
    ((pinCauseWrite v s).getF F.fltPinCauseCause).testBit k =
      (((s.getF F.fltPinCauseCause).testBit k && !v.getLsbD k) || s.heldCauses.testBit k) := by
  have hbits : ∀ i, i < 6 → (Reg.fltPinCause.bitsWith .kp).getLsbD i = false ∧
      (Reg.fltPinCause.bitsWith .rw).getLsbD i = false ∧ (Reg.fltPinCause.bitsWith .w1c).getLsbD i = true := by decide
  obtain ⟨hkp, hrw, hw1c⟩ := hbits k hk
  obtain ⟨m, hq⟩ := pinUpdate_quiet (wr .fltPinCause ((plainWrite .fltPinCause v s).rd .fltPinCause |||
    BitVec.ofNat 32 (plainWrite .fltPinCause v s).heldCauses) (plainWrite .fltPinCause v s))
  have hpin : (pinCauseWrite v s).rd .fltPinCause = (plainWrite .fltPinCause v s).rd .fltPinCause |||
      BitVec.ofNat 32 (plainWrite .fltPinCause v s).heldCauses :=
    (hq.regs .fltPinCause (by decide)).trans (rd_wr_same ..)
  simp only [State.getF, get_testBit, hpin, Nat.zero_add]
  rw [BitVec.getLsbD_or, plainWrite_getLsbD s _ v (by omega) hkp, heldCauses_plainWrite,
    BitVec.getLsbD_ofNat, hrw, hw1c]
  simp only [hk, show k < 32 by omega, decide_true, Bool.true_and, Bool.false_eq_true, if_false]
  cases v.getLsbD k <;> simp

theorem faultTest_pin (on : Bool) :
    (pinUpdate (setF F.fltCtrlFaultTest (bit on) s)).flag F.fltCtrlFaultTest = on ∧
    (pinUpdate (setF F.fltCtrlFaultTest (bit on) s)).mgmt.faultPin = (decide (s.pinCommon ≠ 0) || on) := by
  have hset : (setF F.fltCtrlFaultTest (bit on) s).flag F.fltCtrlFaultTest = on := flag_setF_bit s _ on (by decide) rfl
  have hcommon : (setF F.fltCtrlFaultTest (bit on) s).pinCommon = s.pinCommon := by
    simp only [State.pinCommon, getF_setF_ne s F.fltCtrlFaultTest F.fltPinCauseCause (bit on) (by decide),
      getF_setF_ne s F.fltCtrlFaultTest F.fltPinMaskMask (bit on) (by decide)]
  exact ⟨((writesAt_pinUpdate _).flag F.fltCtrlFaultTest (by decide)).trans hset,
    (faultPin_pinUpdate _).trans (by rw [State.faultLow, hcommon, hset])⟩

theorem fltCount_clearCounts {c : Nat} (h1 : 1 ≤ c) (h18 : c ≤ 18) : (clearCounts s).getF (F.fltCountCount c) = 0 := by
  refine each_reaches s (fun u => u.getF (F.fltCountCount c) = 0) (fun c => setF (F.fltCountCount (c + 1)) 0)
    (a := c - 1) (List.mem_range.mpr (by omega)) (fun u => ?_) fun b hb u hu => ?_
  · rw [show c - 1 + 1 = c by omega]
    exact getF_setF_bits u (.fltCount c) (by decide) (by decide)
  · by_cases hbc : b + 1 = c
    · rw [hbc]
      exact getF_setF_bits u (.fltCount c) (by decide) (by decide)
    · have hb18 := List.mem_range.mp hb
      refine (getF_setF_ne u (F.fltCountCount (b + 1)) (F.fltCountCount c) 0 ?_).trans hu
      simp only [Reg.key, Reg.space, Reg.off]
      omega

theorem execFltPinCauseClear_carried {f : FnId} (v : Word) (hc : s.carriesOut f 0x4818 = true) :
    execFltPinCauseClear f v s = done s (pinCauseWrite v s) := bar0_acts hc (.fltPinCauseClear f v) _

theorem execFaultTest_carried {f : FnId} (on : Bool) (hc : s.carriesOut f 0x4820 = true) :
    execFaultTest f on s = done s (pinUpdate (setF F.fltCtrlFaultTest (bit on) s)) :=
  bar0_acts hc (.faultTest f on) fun u => pinUpdate (setF F.fltCtrlFaultTest (bit on) u)

theorem execClearCounts_carried {f : FnId} (hc : s.carriesOut f 0x4820 = true) :
    execClearCounts f s = done s (clearCounts s) := bar0_acts hc (.clearCounts f) _

/-! ### SMBUS_READ_BYTE (R521) -/

/-- The byte that the SMBus target answers. -/
def State.smbusByte (s : State) (code : Byte) : Option Byte :=
  let down := s.mgmt.scarabDown || s.mgmt.d3cold
  match code.toNat with
  | 0 => some (if down then 0xFF else BitVec.ofNat 8 (wholeDegrees (s.getF F.thermStatusDieTemp)))
  | 1 => some (if down then 0xFF else BitVec.ofNat 8 (s.getF F.thermStatusSteps))
  | 2 => some (BitVec.ofNat 8 (s.getF F.fltPinCauseCause))
  | 3 => some (if down then 0xFF else BitVec.ofNat 8 (s.getF F.secStatusSecState + s.getF F.pwrModeMode * 4))
  | _ => none

theorem execSmbusReadByte_eq (code : Byte) :
    execSmbusReadByte code s = done s (emit (.smbus (s.smbusByte code)) s) := rfl

theorem smbusByte_none {code : Byte} (h : 4 ≤ code.toNat) : s.smbusByte code = none := by
  obtain ⟨n, hn⟩ := Nat.exists_eq_add_of_le' h
  rw [State.smbusByte, hn]
  rfl

/-- While Scarab is down, all but FAULT# reads as ones. -/
theorem smbusByte_down {code : Byte} (hfault : code ≠ 2) (hcode : code.toNat < 4)
    (hdown : s.mgmt.scarabDown = true ∨ s.mgmt.d3cold = true) : s.smbusByte code = some 0xFF := by
  have hd : (s.mgmt.scarabDown || s.mgmt.d3cold) = true := by simpa using hdown
  have h2 : code.toNat ≠ 2 := fun h => hfault (BitVec.eq_of_toNat_eq h)
  obtain h0 | h1 | h3 : code.toNat = 0 ∨ code.toNat = 1 ∨ code.toNat = 3 := by omega
  · rw [State.smbusByte, h0, hd]
    rfl
  · rw [State.smbusByte, h1, hd]
    rfl
  · rw [State.smbusByte, h3, hd]
    rfl

/-- While Scarab is up, each code answers its register. -/
theorem smbusByte_up (hscarab : s.mgmt.scarabDown = false) (hcold : s.mgmt.d3cold = false) :
    s.smbusByte 0 = some (BitVec.ofNat 8 (wholeDegrees (s.getF F.thermStatusDieTemp))) ∧
    s.smbusByte 1 = some (BitVec.ofNat 8 (s.getF F.thermStatusSteps)) ∧
    s.smbusByte 3 = some (BitVec.ofNat 8 (s.getF F.secStatusSecState + s.getF F.pwrModeMode * 4)) := by
  have hup : ¬ (s.mgmt.scarabDown || s.mgmt.d3cold) = true := by simp [hscarab, hcold]
  exact ⟨congrArg some (if_neg hup), congrArg some (if_neg hup), congrArg some (if_neg hup)⟩

/-- Settles O60: each upset word acts in its memory, and FAULT#, the counts and SMBus follow the registers. -/
theorem faultsAreRecorded : Obligations.FaultsAreRecorded := by
  refine ⟨fun l s => rfl, fun off s hw hmem => ?_, fun f v s hc => ?_, fun f on s hc => ?_, fun f s hc => ?_,
    fun code s => ?_⟩
  · obtain hdet | hprot | ⟨hlo, hhi⟩ : (0x20000 ≤ off ∧ off < 0x28000) ∨ (0x28000 ≤ off ∧ off < 0x28800) ∨
        (0x30000 ≤ off ∧ off < 0x40000) := by omega
    · obtain ⟨hlo, hhi⟩ := hdet
      obtain ⟨ht, hu⟩ := cfgUpset_detector s hw hlo hhi
      obtain ⟨hoff, hon⟩ := upset_outcome s (killDet_regs s _) ht hu
      simp only [if_pos hhi]
      refine ⟨hoff, fun h => ?_⟩
      obtain ⟨hcause, hcount, hdets, -, hu⟩ := hon h
      refine ⟨hcause, hcount, fun _ => ?_, fun h' => absurd hhi (by omega), fun h' => absurd hhi (by omega), hu⟩
      rw [State.det, hdets]
      exact killDet_ue s _
    · obtain ⟨hlo, hhi⟩ := hprot
      obtain ⟨⟨part, ht⟩, hu⟩ := cfgUpset_protection s hw hlo hhi
      obtain ⟨hoff, hon⟩ := upset_outcome s (killDet_regs s _) ht hu
      simp only [if_neg (show ¬ off < 0x28000 by omega)]
      refine ⟨hoff, fun h => ?_⟩
      obtain ⟨hcause, hcount, hdets, -, hu⟩ := hon h
      refine ⟨hcause, hcount, fun h' => absurd hlo (by omega), fun _ _ => ?_, fun h' => absurd hhi (by omega), hu⟩
      rw [State.det, hdets]
      exact killDet_ue s _
    · obtain ⟨ht, hu⟩ := cfgUpset_sequencer s hw hlo hhi
      obtain ⟨hoff, hon⟩ := upset_outcome s (killSeq_regs s _ _) ht hu
      simp only [if_neg (show ¬ off < 0x28000 by omega)]
      refine ⟨hoff, fun h => ?_⟩
      obtain ⟨hcause, hcount, -, hseqs, hu⟩ := hon h
      refine ⟨hcause, hcount, fun h' => absurd hlo (by omega), fun _ h' => absurd hlo (by omega), fun _ => ?_, hu⟩
      rw [State.seq, hseqs]
      exact killSeq_disables s _ _
  · exact ⟨_, execFltPinCauseClear_carried s v hc, fun k hk => cause_pinCauseWrite s v hk⟩
  · exact ⟨_, execFaultTest_carried s on hc, faultTest_pin s on⟩
  · have hexec := execClearCounts_carried s hc
    have hzero : ∀ c, 1 ≤ c → c ≤ 18 → (clearCounts s).getF (F.fltCountCount c) = 0 := fun c => fltCount_clearCounts s
    generalize clearCounts s = u at hexec hzero
    exact ⟨_, hexec, hzero⟩
  · refine ⟨_, s.smbusByte code, execSmbusReadByte_eq s code, rfl, rfl,
      smbusByte_none s, ?_, smbusByte_down s, fun hscarab hcold => ?_⟩
    · rintro rfl
      rfl
    · obtain ⟨h0, h1, h3⟩ := smbusByte_up s hscarab hcold
      refine ⟨?_, ?_, ?_⟩ <;> rintro rfl
      exacts [h0, h1, h3]

end Sys2Proof.Machine
end

section
/-! Proofs: the messages to Firefly and to Scarab (FW_UPDATE, EPOCH_ADVANCE, KEY_REVOKE, SEC_INFO, GET_INFO,
TELEMETRY_READ; R413, R414, R441, R456). -/

namespace Sys2Proof.Machine

variable (s : State)

/-! ### Notices (R421 to R423) -/

/-- A notice changes what its function holds, and reports (R423). -/
theorem notify_quiet (f : Nat) (n : Notice) : ∃ x, Quiet (setFn f x s) (notify f n s) := by
  unfold notify
  dsimp only
  split
  · exact ⟨_, ((Quiet.refl _).bump _ _).limited _ _ _ fun _ hu => hu.post _ _ _⟩
  · exact ⟨_, Quiet.refl _⟩

theorem notifyAll_mgmt (n : Notice) : (notifyAll n s).mgmt = s.mgmt :=
  each_mgmt s (fun f => notify f n) (fun f u => by
    obtain ⟨x, hq⟩ := notify_quiet u f n
    exact hq.mgmt) _

/-! ### The answer to a message (R414) -/

/-- A message that the receiver does not hold is not answered. -/
theorem answerMsg_idle {f c type : Nat} (h : ¬ s.holdsMessage f c type) (g : State → State × Nat × List Byte) :
    answerMsg f c type g s = s := by
  unfold answerMsg
  split
  next p hp =>
    refine if_neg fun hheld => h ⟨p, hp, ?_⟩
    exact hheld
  next => rfl

/-- A message that is held is answered, and `g` acts. -/
theorem answerMsg_held {f c type : Nat} (h : s.holdsMessage f c type) (g : State → State × Nat × List Byte) :
    Answered (answerMsg f c type g s) c (g s).2.1 (g s).2.2 ∧ (answerMsg f c type g s).mgmt = (g s).1.mgmt := by
  obtain ⟨p, hp, hmsg⟩ := h
  have heq : answerMsg f c type g s = modChan c (fun x => { x with taken := some { p with
      status := (g s).2.1, reply := (g s).2.2, answered := true } }) (g s).1 := by
    unfold answerMsg
    rw [hp]
    exact if_pos hmsg
  rw [heq]
  refine ⟨⟨{ p with status := (g s).2.1, reply := (g s).2.2, answered := true }, ?_, rfl, rfl, rfl⟩, rfl⟩
  rw [modChan, chan_setChan_same]

/-! ### FW_UPDATE, EPOCH_ADVANCE and KEY_REVOKE (R440, R441) -/

/-- The image joins the copy that did not boot. -/
theorem stageImage_mgmt (i : ImageCopy) : (stageImage i s).mgmt =
    if s.getF F.secStatusSource = 1 then { s.mgmt with flashA := some i } else { s.mgmt with flashB := some i } := by
  unfold stageImage
  simp only [notifyAll_mgmt, postPfs_mgmt]
  by_cases hsrc : s.getF F.secStatusSource = 1
  · simp [hsrc]
  · simp [hsrc]

theorem stageImage_flash (i : ImageCopy) : (if s.getF F.secStatusSource = 1 then (stageImage i s).mgmt.flashA
    else (stageImage i s).mgmt.flashB) = some i := by
  rw [stageImage_mgmt]
  split <;> rfl

/-- The fuses blow up to the running image's epoch, never down. -/
theorem fusedEpoch_advanceEpoch : (advanceEpoch s).mgmt.fusedEpoch =
    max s.mgmt.fusedEpoch (min 256 ((s.mgmt.running.map ImageCopy.epoch).getD 0)) := by
  unfold advanceEpoch
  dsimp only
  split
  next hlt =>
    rw [Nat.max_eq_right (Nat.le_of_lt hlt), event, postPfs_mgmt, setF_mgmt, showStraps_mgmt]
  next hge => exact (Nat.max_eq_left (Nat.le_of_not_lt hge)).symm

/-- A revoked slot joins those revoked. -/
theorem getLsbD_revoked (m : BitVec 4) (slot : Nat) {k : Nat} (hk : k < 4) :
    (m ||| BitVec.ofNat 4 (2 ^ slot)).getLsbD k = (m.getLsbD k || decide (k = slot)) := by
  rw [BitVec.getLsbD_or, BitVec.getLsbD_ofNat, Nat.testBit_two_pow]
  simp [hk, eq_comm]

/-- What Firefly does and answers at FW_UPDATE. -/
def fwUpdateReply (f : Nat) (img : ImageCopy) (s : State) : State × Nat × List Byte :=
  if isPf f = false then (s, stNotOwner, [])
  else if s.imageCheck false img = 0 then (stageImage img s, stOk, [])
  else (s, imageStatus (s.imageCheck false img), [])

/-- An image of a PF that passes is staged; another is not. -/
theorem fwUpdateReply_passes {f : Nat} {img : ImageCopy} (hpf : isPf f = true) (hok : s.imageCheck false img = 0) :
    fwUpdateReply f img s = (stageImage img s, imageStatus (s.imageCheck false img), []) := by
  simp [fwUpdateReply, hpf, hok, imageStatus]

theorem fwUpdateReply_fails {f : Nat} {img : ImageCopy} (hno : isPf f = false ∨ s.imageCheck false img ≠ 0) :
    fwUpdateReply f img s = (s, if isPf f then imageStatus (s.imageCheck false img) else stNotOwner, []) := by
  cases hpf : isPf f with
  | false => simp [fwUpdateReply, hpf]
  | true =>
    have hbad : s.imageCheck false img ≠ 0 := by simpa [hpf] using hno
    simp [fwUpdateReply, hpf, hbad]

/-- A slot may be revoked: it is one of four, and not the one that booted the running image (R440). -/
def State.mayRevoke (s : State) (slot : Nat) : Bool := decide (slot < 4) && decide (slot ≠ s.getF F.secStatusKeySlot)

/-- The slot joins those revoked. -/
def revokeSlot (slot : Nat) (s : State) : State :=
  showStraps { s with mgmt := { s.mgmt with revoked := s.mgmt.revoked ||| BitVec.ofNat 4 (2 ^ slot) } }

/-- What Firefly does and answers at KEY_REVOKE. -/
def keyRevokeReply (f slot : Nat) (s : State) : State × Nat × List Byte :=
  if isPf f = false then (s, stNotOwner, [])
  else if 4 ≤ slot ∨ slot = s.getF F.secStatusKeySlot then (s, stInvalidField, [])
  else (revokeSlot slot s, stOk, [])

theorem keyRevokeReply_eq (f slot : Nat) : keyRevokeReply f slot s =
    (if isPf f && s.mayRevoke slot then revokeSlot slot s else s,
      if isPf f then (if s.mayRevoke slot then stOk else stInvalidField) else stNotOwner, []) := by
  cases hpf : isPf f with
  | false => simp [keyRevokeReply, hpf]
  | true =>
    by_cases hbad : 4 ≤ slot ∨ slot = s.getF F.secStatusKeySlot
    · have hmay : s.mayRevoke slot = false := by
        simp only [State.mayRevoke, Bool.and_eq_false_iff, decide_eq_false_iff_not]
        omega
      simp [keyRevokeReply, hpf, hbad, hmay]
    · have hmay : s.mayRevoke slot = true := by
        simp only [State.mayRevoke, Bool.and_eq_true, decide_eq_true_eq]
        omega
      simp [keyRevokeReply, hpf, hbad, hmay]

theorem revoked_keyRevokeReply (f slot : Nat) {k : Nat} (hk : k < 4) :
    (keyRevokeReply f slot s).1.mgmt.revoked.getLsbD k =
      (s.mgmt.revoked.getLsbD k || (isPf f && s.mayRevoke slot && decide (k = slot))) := by
  rw [keyRevokeReply_eq]
  cases isPf f && s.mayRevoke slot
  · simp
  · exact getLsbD_revoked s.mgmt.revoked slot hk

/-- What Firefly does and answers at EPOCH_ADVANCE. -/
def epochAdvanceReply (f : Nat) (s : State) : State × Nat × List Byte :=
  (if isPf f then advanceEpoch s else s, if isPf f then stOk else stNotOwner, [])

theorem fusedEpoch_epochAdvanceReply (f : Nat) : (epochAdvanceReply f s).1.mgmt.fusedEpoch =
    if isPf f then max s.mgmt.fusedEpoch (min 256 ((s.mgmt.running.map ImageCopy.epoch).getD 0))
    else s.mgmt.fusedEpoch := by
  rw [← fusedEpoch_advanceEpoch]
  unfold epochAdvanceReply
  split <;> rfl

/-! The three commands for a message that changes what Firefly keeps. -/

theorem execFwUpdate_eq (f : FnId) (c : MbxId) (img : ImageCopy) :
    execFwUpdate f c img s = done s (answerMsg f c 0x100 (fwUpdateReply f img) s) := rfl

theorem execEpochAdvance_eq (f : FnId) (c : MbxId) :
    execEpochAdvance f c s = done s (answerMsg f c 0x101 (epochAdvanceReply f) s) := by
  refine congrArg (fun g => done s (answerMsg f c 0x101 g s)) (funext fun u => ?_)
  unfold epochAdvanceReply
  split <;> rfl

theorem execKeyRevoke_eq (f : FnId) (c : MbxId) (slot : Byte) :
    execKeyRevoke f c slot s = done s (answerMsg f c 0x102 (keyRevokeReply f slot.toNat) s) := rfl

/-! ### The bytes of a reply (R413) -/

theorem length_leBytes (n v : Nat) : (leBytes n v).length = n := by
  induction n generalizing v with
  | zero => rfl
  | succ n ih => simp [leBytes, ih]

theorem leNat_leBytes (n v : Nat) : leNat (leBytes n v) = v % 256 ^ n := by
  induction n generalizing v with
  | zero => simp [leBytes, leNat, Nat.mod_one]
  | succ n ih =>
    rw [leBytes, leNat, ih, BitVec.toNat_ofNat, Nat.pow_succ' (m := 256), Nat.mod_mul]

/-- A number written behind `a` bytes is read there. -/
theorem leAt_append {a : List Byte} {lo : Nat} (h : a.length = lo) (n v : Nat) (b : List Byte) :
    leAt (a ++ (leBytes n v ++ b)) lo n = v % 256 ^ n := by
  rw [leAt, List.drop_left' h, List.take_left' (length_leBytes n v), leNat_leBytes]

/-- The words of a payload are read one after the other. -/
theorem words_split {ws : List Nat} {k : Nat} (h : k < ws.length) : ∃ a b : List Byte,
    ws.flatMap (leBytes 4) = a ++ (leBytes 4 ws[k] ++ b) ∧ a.length = 4 * k := by
  induction ws generalizing k with
  | nil => cases h
  | cons w ws ih =>
    cases k with
    | zero => exact ⟨[], ws.flatMap (leBytes 4), rfl, rfl⟩
    | succ k =>
      obtain ⟨a, b, hsplit, hlen⟩ := ih (Nat.lt_of_succ_lt_succ h)
      refine ⟨leBytes 4 w ++ a, b, ?_, ?_⟩
      · rw [List.flatMap_cons, hsplit, List.append_assoc]
        rfl
      · rw [List.length_append, length_leBytes, hlen]
        omega

theorem length_words (ws : List Nat) : (ws.flatMap (leBytes 4)).length = 4 * ws.length := by
  simp [List.length_flatMap, length_leBytes, Nat.mul_comm]

/-- A reply block holds whole units of 64 bytes: its type, and the words of its payload from byte 24 on. -/
theorem replyBlock_length (type : Nat) (ws : List Nat) :
    (replyBlock type ws).length = (24 + 4 * ws.length + 63) / 64 * 64 := by
  simp only [replyBlock, List.length_append, length_leBytes, List.length_replicate, length_words]
  omega

theorem replyBlock_type (type : Nat) (ws : List Nat) : leAt (replyBlock type ws) 4 2 = type % 65536 := by
  simp only [replyBlock, List.append_assoc]
  exact leAt_append (length_leBytes 4 _) 2 type _

theorem replyBlock_word (type : Nat) {ws : List Nat} {k : Nat} (h : k < ws.length) :
    leAt (replyBlock type ws) (24 + 4 * k) 4 = ws[k] % 2 ^ 32 := by
  obtain ⟨a, b, hsplit, hlen⟩ := words_split h
  simp only [replyBlock, hsplit, List.append_assoc]
  rw [← List.append_assoc, ← List.append_assoc, ← List.append_assoc]
  refine leAt_append ?_ 4 ws[k] _
  simp only [List.length_append, length_leBytes, List.length_replicate, hlen]

/-- A command for a message that is not held changes nothing. -/
theorem done_answerMsg_idle {f c type : Nat} (h : ¬ s.holdsMessage f c type) (g : State → State × Nat × List Byte) :
    done s (answerMsg f c type g s) = .next s := by
  rw [answerMsg_idle s h, done_self]

/-- Settles O54: each message that is held is answered by its rule, and one that is not held by nothing. -/
theorem fireflyAnswersItsMessages : Obligations.FireflyAnswersItsMessages := by
  refine ⟨fun f c img slot s => ?_, fun f c img s h => ?_, fun f c s h => ?_, fun f c slot s h => ?_, fun f c s h => ?_⟩
  · exact ⟨fun h => done_answerMsg_idle s h _, fun h => done_answerMsg_idle s h _, fun h => done_answerMsg_idle s h _,
      fun h => done_answerMsg_idle s h _⟩
  · obtain ⟨hans, hmgmt⟩ := answerMsg_held s h (fwUpdateReply f img)
    by_cases hpass : isPf f = true ∧ s.imageCheck false img = 0
    · obtain ⟨hpf, hok⟩ := hpass
      rw [fwUpdateReply_passes s hpf hok] at hans hmgmt
      refine ⟨_, execFwUpdate_eq s f c img, by rwa [if_pos hpf], fun _ _ => ?_, fun hno => ?_⟩
      · rw [show _ = (stageImage img s).mgmt from hmgmt]
        exact stageImage_flash s img
      · simp [hpf, hok] at hno
    · have hno : isPf f = false ∨ s.imageCheck false img ≠ 0 := by
        rcases Bool.eq_false_or_eq_true (isPf f) with hpf | hpf
        · exact .inr fun hok => hpass ⟨hpf, hok⟩
        · exact .inl hpf
      rw [fwUpdateReply_fails s hno] at hans hmgmt
      exact ⟨_, execFwUpdate_eq s f c img, hans, fun hpf hok => absurd ⟨hpf, hok⟩ hpass, fun _ => hmgmt⟩
  · obtain ⟨hans, hmgmt⟩ := answerMsg_held s h (epochAdvanceReply f)
    exact ⟨_, execEpochAdvance_eq s f c, hans,
      (congrArg Mgmt.fusedEpoch hmgmt).trans (fusedEpoch_epochAdvanceReply s f)⟩
  · obtain ⟨hans, hmgmt⟩ := answerMsg_held s h (keyRevokeReply f slot.toNat)
    have hkeep := fun k hk => (congrArg (fun m => m.revoked.getLsbD k) hmgmt).trans
      (revoked_keyRevokeReply s f slot.toNat (k := k) hk)
    rw [keyRevokeReply_eq] at hans
    exact ⟨_, execKeyRevoke_eq s f c slot, hans, hkeep⟩
  · exact ⟨_, rfl, (answerMsg_held s h _).1⟩

/-- The words of the reply to TELEMETRY_READ: every TEL register, temperatures first. -/
def State.telWords (s : State) : List Nat :=
  (List.range 13).map (fun k => (s.rd (.telTemp k)).toNat) ++ (List.range 8).map fun k => (s.rd (.telVolt k)).toNat

theorem length_telWords : s.telWords.length = 21 := by simp [State.telWords]

theorem telWords_temp {k : Nat} (h : k < 13) :
    s.telWords[k]'(by rw [length_telWords]; omega) = (s.rd (.telTemp k)).toNat := by
  simp [State.telWords, List.getElem_append_left, h]

theorem telWords_volt {k : Nat} (h : k < 8) :
    s.telWords[13 + k]'(by rw [length_telWords]; omega) = (s.rd (.telVolt k)).toNat := by
  simp [State.telWords, List.getElem_append_right]

/-- Settles O55: a held message is answered with the registers that its reply names. -/
theorem scarabAnswersItsMessages : Obligations.ScarabAnswersItsMessages := by
  refine ⟨fun f c s => ⟨fun h => done_answerMsg_idle s h _, fun h => done_answerMsg_idle s h _⟩,
    fun f c s h => ⟨_, rfl, (answerMsg_held s h _).1⟩, fun f c s h => ?_⟩
  have hans := (answerMsg_held s h fun s => (s, stOk, replyBlock 2 s.telWords)).1
  have hlen := length_telWords s
  refine ⟨_, replyBlock 2 s.telWords, rfl, hans, ?_, replyBlock_type .., fun k hk => ?_, fun k hk => ?_⟩
  · rw [replyBlock_length, hlen]
  · rw [replyBlock_word 2 (by omega), telWords_temp s hk, Nat.mod_eq_of_lt (BitVec.isLt _)]
  · rw [show 76 + 4 * k = 24 + 4 * (13 + k) by omega, replyBlock_word 2 (by omega), telWords_volt s hk,
      Nat.mod_eq_of_lt (BitVec.isLt _)]

end Sys2Proof.Machine
end

section
/-! Proofs: attestation over DOE and the image transfer in recovery (GET_VERSION to SPDM_UNSUPPORTED_REQUEST,
RECOVERY_IMAGE_OBJECT, RECOVERY_IMAGE_END; R438, R442 to R446). -/

namespace Sys2Proof.Machine

variable (s : State)

/-! ### A request arrives (R443, R444) -/

/-- The state in which a request is answered: it is counted, and Firefly is on. -/
def spdmArrived (s : State) : State := bump 0x9006 1 (powerOn 27 (wake 27 s))

/-- What the answers to requests depend on is the same in two states. -/
structure SameIdentity (s t : State) : Prop where
  mgmt : t.mgmt = s.mgmt
  boot : t.rd .bootStatus = s.rd .bootStatus
  sec : t.rd .secStatus = s.rd .secStatus
  version : t.rd .fwVersion = s.rd .fwVersion

theorem powerOn_firefly : powerOn 27 s = s ∨ powerOn 27 s = setF (F.pwrStatThermalOff 27) 0 (setDomain 27 0 s) := by
  unfold powerOn
  split
  · exact .inr rfl
  · exact .inl rfl

theorem rd_powerOn_firefly {r : Reg} (h : reportOff (r.key % 0x100000) = false) (hk : r.key ≠ (Reg.pwrStat 27).key) :
    (powerOn 27 s).rd r = s.rd r := by
  obtain he | he := powerOn_firefly s
  · rw [he]
  · rw [he, rd_setF_ne _ (F.pwrStatThermalOff 27) r 0 hk, rd_setDomain s h 27 0 hk]

theorem rd_spdmArrived {r : Reg} (h : reportOff (r.key % 0x100000) = false) (hk : r.key ≠ (Reg.pwrStat 27).key) :
    (spdmArrived s).rd r = s.rd r := by
  rw [spdmArrived, ((Quiet.refl _).bump 0x9006 1).regs r h, rd_powerOn_firefly _ h hk, rd_wake s h 27 hk]

theorem mgmt_spdmArrived : (spdmArrived s).mgmt = s.mgmt := by
  have hwake : (wake 27 s).mgmt = s.mgmt := by
    unfold wake
    split
    · exact setDomain_mgmt s 27 0
    · rfl
  rw [spdmArrived, ((Quiet.refl _).bump 0x9006 1).mgmt]
  obtain he | he := powerOn_firefly (wake 27 s)
  · rw [he, hwake]
  · rw [he, setF_mgmt, setDomain_mgmt, hwake]

theorem sameIdentity_spdmArrived : SameIdentity s (spdmArrived s) :=
  ⟨mgmt_spdmArrived s, rd_spdmArrived s (by decide) (by decide), rd_spdmArrived s (by decide) (by decide),
    rd_spdmArrived s (by decide) (by decide)⟩

namespace SameIdentity

variable {s} {t : State} (h : SameIdentity s t)
include h

theorem recovery : t.recovery = s.recovery := by simp only [State.recovery, State.getF, h.boot]

theorem certsOk : t.certsOk = s.certsOk := by simp only [State.certsOk, State.flag, State.getF, h.recovery, h.boot]

theorem chain : t.chain = s.chain := by rw [State.chain, State.chain, h.version]

theorem blocks : t.blocks = s.blocks := by
  simp only [State.blocks, State.getF, h.mgmt, h.version, h.sec, h.certsOk]

end SameIdentity

/-! ### The response (R444) -/

section
variable {s} {i : Instr} {port : PortId} {g : State → State} (hi : exec i s = spdmRequest port g s)
include hi

/-- A request that is answered has the response that `g` gives. -/
theorem responds_of_answersSpdm {code : Byte} {data : List Byte} (h : s.answersSpdm port = true)
    (hg : ∀ t, SameIdentity s t → (g t).out.head? = some (.doe port code data)) : Responds i s port code data := by
  simp only [State.answersSpdm, Bool.and_eq_true, Bool.or_eq_true] at h
  obtain ⟨⟨hpresent, hcfg⟩, hread⟩ := h
  have hno : ¬ (s.present (port.val * 128) = false ∨ s.cfgAnswers = false) := by simp [hpresent, hcfg]
  have hbusy : ¬ (s.recovery = false ∧ s.mgmt.certsRead = false) := by
    rintro ⟨hrec, hcerts⟩
    simp [hrec, hcerts] at hread
  refine ⟨_, hi.trans ((if_neg hno).trans (if_neg hbusy)), ?_⟩
  exact hg _ (sameIdentity_spdmArrived s)

/-- Until the certificate area is read, the response is ERROR with Busy. -/
theorem responds_busy (hpresent : s.present (port.val * 128) = true) (hcfg : s.cfgAnswers = true)
    (hrec : s.recovery = false) (hcerts : s.mgmt.certsRead = false) : Responds i s port 0x7F [0x03] := by
  have hno : ¬ (s.present (port.val * 128) = false ∨ s.cfgAnswers = false) := by simp [hpresent, hcfg]
  exact ⟨_, hi.trans ((if_neg hno).trans (if_pos ⟨hrec, hcerts⟩)), rfl⟩

/-- A request on an absent port, or before configuration requests are answered, has none. -/
theorem exec_unanswered (h : s.present (port.val * 128) = false ∨ s.cfgAnswers = false) : exec i s = .next s :=
  hi.trans ((if_pos h).trans (done_self s))

end

/-! ### The answers that depend on the state or on operands (R438, R444, R445) -/

/-- The answer to NEGOTIATE_ALGORITHMS. -/
def negotiateReply (port : Nat) (ed sha : Bool) (s : State) : State :=
  if ed && sha then spdm port 0x63 (leBytes 4 4 ++ leBytes 4 0x400 ++ leBytes 4 2) s else spdmError port 0x01 s

theorem execNegotiateAlgorithms_eq (port : PortId) (ed sha : Bool) :
    exec (.negotiateAlgorithms port ed sha) s = spdmRequest port (negotiateReply port ed sha) s := rfl

/-- The answer to GET_DIGESTS. -/
def digestsReply (port : Nat) (s : State) : State :=
  if s.certsOk then spdm port 0x01 (1#8 :: Config.sha384 s.chain) s else spdm port 0x01 [0#8] s

theorem execGetDigests_eq (port : PortId) : exec (.getDigests port) s = spdmRequest port (digestsReply port) s := rfl

/-- The answer to GET_CERTIFICATE. -/
def certificateReply (port : Nat) (slot : Fin 8) (offset length : Nat) (s : State) : State :=
  let rest := s.chain.drop offset
  let part := rest.take length
  if s.certsOk = false then spdmError port 0x05 s
  else if slot.val ≠ 0 ∨ rest = [] then spdmError port 0x01 s
  else spdm port 0x02 (leBytes 2 part.length ++ leBytes 2 (rest.length - part.length) ++ part) s

theorem execGetCertificate_eq (port : PortId) (slot : Fin 8) (offset length : Nat) :
    exec (.getCertificate port slot offset length) s =
      spdmRequest port (certificateReply port slot offset length) s := rfl

/-- The answer to CHALLENGE. -/
def challengeReply (port : Nat) (slot : Fin 8) (nonce : List Byte) (s : State) : State :=
  if s.certsOk = false then spdmError port 0x05 s
  else if slot.val ≠ 0 then spdmError port 0x01 s
  else spdm port 0x03 (Config.sha384 s.chain ++ Config.edSign (nonce ++ Config.sha384 s.chain)) s

theorem execChallenge_eq (port : PortId) (slot : Fin 8) (nonce : List Byte) :
    exec (.challenge port slot nonce) s = spdmRequest port (challengeReply port slot nonce) s := rfl

/-! ### GET_MEASUREMENTS (R438, R446) -/

/-- The blocks of an index. -/
def State.blocksOf (s : State) (index : Nat) : List (Nat × List Byte) := s.blocks.filter fun e => e.1 == index

/-- The content of the answer to GET_MEASUREMENTS, without its signature. -/
def State.measured (s : State) (index : Nat) (signed : Bool) (nonce : List Byte) : List Byte :=
  if index = 0 then leBytes 1 s.blocks.length
  else if index = 0xFF then
    if signed then blockBytes (s.blocks.filter fun e => decide (e.1 < 0xF0)) ++
        block 0xF0 (Config.mldsaSign (Config.sha384 (nonce ++ blockBytes s.blocks))) ++
        blockBytes (s.blocks.filter fun e => decide (0xF0 < e.1))
    else blockBytes s.blocks
  else blockBytes (s.blocksOf index)

/-- The answer to GET_MEASUREMENTS. -/
def measurementsReply (port index : Nat) (signed : Bool) (nonce : List Byte) (s : State) : State :=
  if signed && !s.certsOk then spdmError port 0x05 s
  else if index ≠ 0 ∧ index ≠ 0xFF ∧ s.blocksOf index = [] then spdmError port 0x01 s
  else spdm port 0x60 (s.measured index signed nonce ++
    if signed then Config.edSign (nonce ++ s.measured index signed nonce) else []) s

theorem execGetMeasurements_eq (port : PortId) (index : Fin 256) (signed : Bool) (nonce : List Byte) :
    exec (.getMeasurements port index signed nonce) s =
      spdmRequest port (measurementsReply port index signed nonce) s := rfl

section
variable {s} {t : State} (ht : SameIdentity s t) {port index : Nat} {signed : Bool} {nonce : List Byte}
include ht

theorem measured_of_same : t.measured index signed nonce = s.measured index signed nonce := by
  simp only [State.measured, State.blocksOf, ht.blocks]

/-- Without valid certificates no signed answer is given. -/
theorem measurementsReply_unsigned (hs : signed = true) (hc : s.certsOk = false) :
    measurementsReply port index signed nonce t = spdmError port 0x05 t :=
  if_pos (by simp [hs, ht.certsOk, hc])

theorem measurementsReply_none (hs : signed = false ∨ s.certsOk = true)
    (hnone : index ≠ 0 ∧ index ≠ 0xFF ∧ s.blocksOf index = []) :
    measurementsReply port index signed nonce t = spdmError port 0x01 t := by
  have hno : ¬ (signed && !t.certsOk) = true := by
    rw [ht.certsOk]
    rcases hs with hs | hs <;> simp [hs]
  exact (if_neg hno).trans (if_pos (by simpa only [State.blocksOf, ht.blocks] using hnone))

theorem measurementsReply_some (hs : signed = false ∨ s.certsOk = true)
    (hsome : ¬ (index ≠ 0 ∧ index ≠ 0xFF ∧ s.blocksOf index = [])) :
    measurementsReply port index signed nonce t = spdm port 0x60 (s.measured index signed nonce ++
      if signed then Config.edSign (nonce ++ s.measured index signed nonce) else []) t := by
  have hno : ¬ (signed && !t.certsOk) = true := by
    rw [ht.certsOk]
    rcases hs with hs | hs <;> simp [hs]
  rw [← measured_of_same ht]
  exact (if_neg hno).trans (if_neg (by simpa only [State.blocksOf, ht.blocks] using hsome))

end

/-! ### Recovery (R442) -/

theorem imageCheck_lt (host : Bool) (i : ImageCopy) : s.imageCheck host i < 2 ^ 4 := by
  have hsigned : s.signedCheck i < 2 ^ 4 := by
    unfold State.signedCheck
    grind
  have hdigest : digestCheck i < 2 ^ 4 := by
    unfold digestCheck
    split <;> decide
  have hheader := headerCheck_lt s i
  have hpayload := payloadCheck_lt i
  cases host
  · change (if s.headerCheck i ≠ 0 then s.headerCheck i else payloadCheck i) < 2 ^ 4
    split <;> assumption
  · change (if s.signedCheck i ≠ 0 then s.signedCheck i else digestCheck i) < 2 ^ 4
    split <;> assumption

/-- The check of the host's image is stored. -/
theorem failHost_set (c : Nat) (h : c < 2 ^ 4) : (setF F.bootStatusFailHost c s).getF F.bootStatusFailHost = c :=
  getF_setF_bits s .bootStatus (by decide) h

/-- The boot of an image leaves FAIL_HOST. -/
theorem failHost_bootImage (i : ImageCopy) (source : Nat) :
    (bootImage i source s).getF F.bootStatusFailHost = s.getF F.bootStatusFailHost := by
  unfold bootImage
  extract_lets m s1 s2 s3 s4
  have h4 : s4.getF F.bootStatusFailHost = s3.getF F.bootStatusFailHost := by
    simp only [s4]
    split
    · exact getF_setF_misses _ _ _ _ (by decide) (by decide)
    · rfl
  rw [getF_setF_misses _ _ _ _ (by decide) (by decide), getF_setF_misses _ _ _ _ (by decide) (by decide), h4,
    getF_setF_misses _ _ _ _ (by decide) (by decide), getF_setF_misses _ _ _ _ (by decide) (by decide),
    getF_setF_misses _ _ _ _ (by decide) (by decide), getF_setF_misses _ _ _ _ (by decide) (by decide),
    getF_setF_misses _ _ _ _ (by decide) (by decide)]
  rfl

theorem execRecoveryImageEnd_idle (img : ImageCopy) (h : s.recovery = false) : execRecoveryImageEnd img s = .next s :=
  (if_pos h).trans (done_self s)

theorem execRecoveryImageEnd_boots {img : ImageCopy} (h : s.recovery = true) (hok : s.imageCheck true img = 0) :
    execRecoveryImageEnd img s = done s (bootImage img 2 (setF F.bootStatusFailHost 0 s)) := by
  simp [execRecoveryImageEnd, h, hok]

/-- The device stays in recovery after an image that fails, and what was received is lost. -/
theorem execRecoveryImageEnd_fails {img : ImageCopy} (h : s.recovery = true) (hbad : s.imageCheck true img ≠ 0) :
    ∃ u, execRecoveryImageEnd img s = done s u ∧ u.regs = (setF F.bootStatusFailHost (s.imageCheck true img) s).regs ∧
      u.mgmt.received = [] := by
  have hrec : ¬ s.recovery = false := by simp [h]
  exact ⟨_, (if_neg hrec).trans (if_neg hbad), rfl, rfl⟩

/-- Every request is an SPDM request of its port. -/
theorem exec_spdmRequest {port : PortId} {ed sha : Bool} {slot : Fin 8} {offset length : Nat} {index : Fin 256}
    {signed : Bool} {code : Byte} {nonce : List Byte} {i : Instr}
    (hi : i ∈ [Instr.getVersion port, .getCapabilities port, .negotiateAlgorithms port ed sha, .getDigests port,
      .getCertificate port slot offset length, .challenge port slot nonce, .getMeasurements port index signed nonce,
      .spdmUnsupportedRequest port code]) : ∃ g, exec i s = spdmRequest port g s := by
  simp only [List.mem_cons, List.not_mem_nil, or_false] at hi
  obtain rfl | rfl | rfl | rfl | rfl | rfl | rfl | rfl := hi
  exacts [⟨_, rfl⟩, ⟨_, rfl⟩, ⟨_, execNegotiateAlgorithms_eq ..⟩, ⟨_, execGetDigests_eq ..⟩,
    ⟨_, execGetCertificate_eq ..⟩, ⟨_, execChallenge_eq ..⟩, ⟨_, execGetMeasurements_eq ..⟩, ⟨_, rfl⟩]

/-- Settles O56: each request has its response, and an image that passes boots. -/
theorem attestationAnswersAndRecoveryBoots : Obligations.AttestationAnswersAndRecoveryBoots := by
  refine ⟨fun port ed sha slot offset length nonce s h => ?_, fun port index signed nonce s h => ?_,
    fun port ed sha slot offset length index signed code nonce i s hi => ?_,
    fun offset data s => ⟨fun hrec hlen => ?_, fun hno => ?_⟩,
    fun img s => ⟨fun hrec hok => ?_, fun hrec hbad => ?_, fun hrec => execRecoveryImageEnd_idle s img hrec⟩⟩
  · have hnegotiate := execNegotiateAlgorithms_eq s port ed sha
    have hdigests := execGetDigests_eq s port
    have hcertificate := execGetCertificate_eq s port slot offset length
    have hchallenge := execChallenge_eq s port slot nonce
    refine ⟨responds_of_answersSpdm rfl h fun t ht => rfl, responds_of_answersSpdm rfl h fun t ht => rfl,
      responds_of_answersSpdm hnegotiate h fun t ht => ?_, responds_of_answersSpdm hdigests h fun t ht => ?_,
      fun hc => ⟨responds_of_answersSpdm hcertificate h fun t ht => ?_,
        responds_of_answersSpdm hchallenge h fun t ht => ?_⟩,
      fun hc => responds_of_answersSpdm hcertificate h fun t ht => ?_,
      fun hc hs => responds_of_answersSpdm hchallenge h fun t ht => ?_,
      fun hc hs => responds_of_answersSpdm hchallenge h fun t ht => ?_,
      fun code => responds_of_answersSpdm rfl h fun t ht => rfl⟩
    · unfold negotiateReply
      split <;> rfl
    · rw [digestsReply, ht.certsOk, ht.chain]
      split <;> rfl
    · rw [certificateReply, ht.certsOk, hc]
      rfl
    · rw [challengeReply, ht.certsOk, hc]
      rfl
    · rw [certificateReply, ht.certsOk, ht.chain, hc]
      rw [if_neg (by decide)]
      split <;> rfl
    · rw [challengeReply, ht.certsOk, hc, if_neg (by decide), if_pos hs]
      rfl
    · rw [challengeReply, ht.certsOk, ht.chain, hc, if_neg (by decide), if_neg (not_not.mpr hs)]
      rfl
  · have hi := execGetMeasurements_eq s port index signed nonce
    refine ⟨fun hs hc => responds_of_answersSpdm hi h fun t ht => ?_, fun hs => ⟨fun h0 => ?_, fun h0 hff hnone => ?_,
      fun h0 hff hsome => ?_, fun hff hsig => ?_, fun hff hsig => ?_⟩⟩
    · rw [measurementsReply_unsigned ht hs hc]
      rfl
    · refine responds_of_answersSpdm hi h fun t ht => ?_
      rw [measurementsReply_some ht hs fun hno => hno.1 h0, State.measured, if_pos h0]
      rfl
    · refine responds_of_answersSpdm hi h fun t ht => ?_
      rw [measurementsReply_none ht hs ⟨h0, hff, hnone⟩]
      rfl
    · refine responds_of_answersSpdm hi h fun t ht => ?_
      rw [measurementsReply_some ht hs fun hno => hsome hno.2.2, State.measured, if_neg h0, if_neg hff]
      rfl
    · refine responds_of_answersSpdm hi h fun t ht => ?_
      rw [measurementsReply_some ht hs fun hno => hno.2.1 hff, State.measured, if_neg (by omega), if_pos hff, hsig]
      simp [spdm, emit]
    · refine responds_of_answersSpdm hi h fun t ht => ?_
      rw [measurementsReply_some ht hs fun hno => hno.2.1 hff, State.measured, if_neg (by omega), if_pos hff, hsig]
      rfl
  · obtain ⟨g, hg⟩ := exec_spdmRequest s hi
    exact ⟨responds_busy hg, exec_unanswered hg⟩
  · exact ⟨_, if_pos ⟨hrec, hlen⟩, rfl, rfl⟩
  · refine (if_neg ?_).trans (done_self s)
    rintro ⟨hrec, hlen⟩
    rcases hno with hno | hno
    · simp [hrec] at hno
    · omega
  · obtain ⟨hrun, hphase, hsource⟩ := bootImage_shows (setF F.bootStatusFailHost 0 s) img (source := 2) (by decide)
    have hfail := (failHost_bootImage (setF F.bootStatusFailHost 0 s) img 2).trans (failHost_set s 0 (by decide))
    exact ⟨_, execRecoveryImageEnd_boots s hrec hok, hrun, hphase, hfail, hsource⟩
  · obtain ⟨u, hu, hregs, hreceived⟩ := execRecoveryImageEnd_fails s hrec hbad
    have hstays : (setF F.bootStatusFailHost (s.imageCheck true img) s).recovery = true := by
      rw [State.recovery, getF_setF_misses _ _ _ _ (by decide) (by decide)]
      exact hrec
    refine ⟨_, hu, ?_, hreceived, (getF_congr hregs _).trans (failHost_set s _ (imageCheck_lt s true img))⟩
    exact (congrArg (· == 3) (getF_congr hregs F.bootStatusPhase)).trans hstays

end Sys2Proof.Machine
end

section
/-! Proofs: mailbox channels, acknowledge records and host mailboxes (MBX_DOORBELL, MBX_TAKE, MBX_DONE, MBX_HOST_ENABLE,
NOTICE_WRITE, MBX_HOST_ACK; R412 to R417, R420 to R423). -/

namespace Sys2Proof.Machine

variable (s : State)

/-! ### The registers of the mailboxes -/

theorem reportOff_of_mailbox {o : Nat} (hlo : 0x3000 ≤ o) (hhi : o < 0x4000) : reportOff o = false := by
  simp only [reportOff, Bool.or_eq_false_iff, Bool.and_eq_false_iff, decide_eq_false_iff_not, beq_eq_false_iff_ne]
  omega

theorem mbxAckState_key_mod (f : Nat) {c : Nat} (hc : c < 16) :
    (Reg.mbxAckState f c).key % 0x100000 = 0x3010 + c * 0x20 := by
  simp only [Reg.key, Reg.space, Reg.off]
  omega

theorem mbxAck_key_mod (f : Nat) {c : Nat} (hc : c < 16) : (Reg.mbxAck f c).key % 0x100000 = 0x300C + c * 0x20 := by
  simp only [Reg.key, Reg.space, Reg.off]
  omega

theorem mbxChan_key_mod {c : Nat} (hc : c < 16) : (Reg.mbxChan c).key % 0x100000 = 0x3014 + c * 0x20 := by
  simp only [Reg.key, Reg.space, Reg.off]
  omega

theorem reportOff_mbxAckState (f : Nat) {c : Nat} (hc : c < 16) :
    reportOff ((Reg.mbxAckState f c).key % 0x100000) = false := by
  rw [mbxAckState_key_mod f hc]
  exact reportOff_of_mailbox (by omega) (by omega)

theorem reportOff_mbxAck (f : Nat) {c : Nat} (hc : c < 16) : reportOff ((Reg.mbxAck f c).key % 0x100000) = false := by
  rw [mbxAck_key_mod f hc]
  exact reportOff_of_mailbox (by omega) (by omega)

theorem reportOff_mbxChan {c : Nat} (hc : c < 16) : reportOff ((Reg.mbxChan c).key % 0x100000) = false := by
  rw [mbxChan_key_mod hc]
  exact reportOff_of_mailbox (by omega) (by omega)

/-! ### Acknowledge records (R415) -/

/-- What a function's acknowledge record for a channel shows. -/
structure ShowsRecord (f c state status : Nat) (t : State) : Prop where
  state : t.getF (F.mbxAckStateState f c) = state
  status : t.getF (F.mbxAckStatus f c) = status

/-- The record shows what is stored in it, and the sequence number in both its words. -/
theorem showsRecord_setRecord (f c : Nat) {state status : Nat} (hstate : state < 4) (hstatus : status < 65536)
    (seq : Nat) : ShowsRecord f c state status (setRecord f c state status seq s) := by
  have hkey : (Reg.mbxAck f c).key ≠ (Reg.mbxAckState f c).key := by
    simp only [Reg.key, Reg.space, Reg.off]
    omega
  unfold setRecord
  extract_lets u
  refine ⟨getF_setF_bits _ _ (by decide) hstate, ?_⟩
  rw [getF_setF_ne _ (F.mbxAckStateState f c) (F.mbxAckStatus f c) state hkey,
    getF_setF_ne _ (F.mbxAckStateSeq f c) (F.mbxAckStatus f c) seq hkey]
  exact getF_setF_bits _ _ (by decide) hstatus

theorem seq_setRecord (f c state status : Nat) {seq : Nat} (hseq : seq < 65536) :
    (setRecord f c state status seq s).getF (F.mbxAckSeq f c) = seq ∧
    (setRecord f c state status seq s).getF (F.mbxAckStateSeq f c) = seq := by
  have hkey : (Reg.mbxAck f c).key ≠ (Reg.mbxAckState f c).key := by
    simp only [Reg.key, Reg.space, Reg.off]
    omega
  unfold setRecord
  extract_lets u
  constructor
  · rw [getF_setF_ne _ (F.mbxAckStateState f c) (F.mbxAckSeq f c) state hkey,
      getF_setF_ne _ (F.mbxAckStateSeq f c) (F.mbxAckSeq f c) seq hkey,
      getF_setF_misses _ (F.mbxAckSeq f c) (F.mbxAckStatus f c) status (by simp) (.inr ⟨rfl, .inl (Nat.le_refl 16)⟩)]
    exact getF_setF_bits _ _ (by decide) hseq
  · rw [getF_setF_misses _ (F.mbxAckStateSeq f c) (F.mbxAckStateState f c) state (by simp)
      (.inr ⟨rfl, .inr (show 0 + 2 ≤ 16 by decide)⟩)]
    exact getF_setF_bits _ _ (by decide) hseq

/-- A record leaves the registers of other keys. -/
theorem rd_setRecord {r : Reg} {f c : Nat} (hack : r.key ≠ (Reg.mbxAck f c).key)
    (hstate : r.key ≠ (Reg.mbxAckState f c).key) (state status seq : Nat) :
    (setRecord f c state status seq s).rd r = s.rd r := by
  unfold setRecord
  extract_lets u
  rw [rd_setF_ne _ (F.mbxAckStateState f c) r state hstate, rd_setF_ne _ (F.mbxAckStateSeq f c) r seq hstate]
  exact (rd_setF_ne _ (F.mbxAckStatus f c) r status hack).trans (rd_setF_ne _ (F.mbxAckSeq f c) r seq hack)

@[simp] theorem setRecord_chans (f c state status seq : Nat) : (setRecord f c state status seq s).chans = s.chans := rfl

/-- MBX_CHAN stands beside the records. -/
theorem rd_mbxChan_setRecord (d f c state status seq : Nat) :
    (setRecord f c state status seq s).rd (.mbxChan d) = s.rd (.mbxChan d) := by
  refine rd_setRecord s ?_ ?_ state status seq
  · simp only [Reg.key, Reg.space, Reg.off]
    omega
  · simp only [Reg.key, Reg.space, Reg.off]
    omega

/-- The record follows a post unless its function has posted again. -/
theorem postRecord_alone {p : Post} {c : Nat} (h : ∀ q, (s.chan c).untaken = some q → q.fn ≠ p.fn)
    (state status : Nat) :
    postRecord p c state status s = setRecord p.fn c state status p.seq s := by
  unfold postRecord
  split
  next q hq => exact if_neg fun hsame => h q hq hsame.1
  next => rfl

@[simp] theorem postRecord_chans (p : Post) (c state status : Nat) :
    (postRecord p c state status s).chans = s.chans := by
  unfold postRecord
  repeat' split
  all_goals rfl

@[simp] theorem postRecord_out (p : Post) (c state status : Nat) : (postRecord p c state status s).out = s.out := by
  unfold postRecord
  repeat' split
  all_goals rfl

/-! ### The read of a message block (R412) -/

/-- A read of a message block stores in no register. -/
theorem readBlock_regs (c : Nat) : (readBlock c s).regs = s.regs := by
  unfold readBlock
  repeat' split
  · rfl
  · unfold awaitRead
    split <;> rfl
  · rfl
  · rfl

/-- A channel is what the mailboxes hold of it. -/
theorem chan_congr {s t : State} (h : t.chans = s.chans) (d : Nat) : t.chan d = s.chan d := by
  rw [State.chan, State.chan, h]

@[simp] theorem readBlock_chans (c d : Nat) : (readBlock c s).chan d = s.chan d :=
  chan_congr ((Quiet.refl s).readBlock c).chans d

theorem dropMbxTag_quiet (f c : Nat) : Quiet s (dropMbxTag f c s) := by
  unfold dropMbxTag
  split
  · exact (Quiet.refl s).endTag _ _
  · exact Quiet.refl s

/-! ### MBX_DOORBELL (R412, R416, R417) -/

/-- A post that waits gives way to the next one (R416). -/
def superseded (c : Nat) (s : State) : State :=
  match (s.chan c).untaken with
  | some q => post q.fn 0x1804 (c + q.seq * 2 ^ 16) (setRecord q.fn c 3 stSuperseded q.seq
      (bump (0x7001 + 4 * c) 1 (setF (F.mbxChanMbxCollision c) 1 (dropMbxTag q.fn c s))))
  | none => s

theorem joinPost_eq (c : Nat) (p : Post) : joinPost c p s = readBlock c (setRecord p.fn c 1 0 p.seq
    (modChan c (fun x => { x with untaken := some p }) (superseded c s))) := rfl

/-- The collision is shown. -/
theorem collision_superseded {c : Nat} (hc : c < 16) (h : (s.chan c).untaken ≠ none) :
    (superseded c s).flag (F.mbxChanMbxCollision c) = true := by
  obtain ⟨q, hq⟩ := Option.ne_none_iff_exists'.mp h
  have hrep := reportOff_mbxChan hc
  rw [superseded, hq]
  dsimp only
  have hrd : ∀ u : State, (post q.fn 0x1804 (c + q.seq * 2 ^ 16) (setRecord q.fn c 3 stSuperseded q.seq
      (bump (0x7001 + 4 * c) 1 u))).rd (.mbxChan c) = u.rd (.mbxChan c) := fun u => by
    rw [rd_post _ _ _ _ _ hrep, rd_mbxChan_setRecord, ((Quiet.refl u).bump _ _).regs _ hrep]
  refine (flag_of_getF (congrArg (F.mbxChanMbxCollision c).get (hrd _))).trans ?_
  exact flag_setF_one _ _ (by decide)

/-- The post waits, and its record reads PENDING. -/
theorem joinPost_waits {c : Nat} (hc : c < 16) (p : Post) (hseq : p.seq < 65536) :
    ((joinPost c p s).chan c).untaken = some p ∧ (joinPost c p s).getF (F.mbxAckStateState p.fn c) = 1 ∧
    (joinPost c p s).getF (F.mbxAckStateSeq p.fn c) = p.seq ∧
    ((s.chan c).untaken ≠ none → (joinPost c p s).flag (F.mbxChanMbxCollision c) = true) := by
  rw [joinPost_eq]
  generalize hu : modChan c (fun x => { x with untaken := some p }) (superseded c s) = u
  refine ⟨?_, ?_, ?_, fun h => ?_⟩
  · rw [readBlock_chans, State.chan, setRecord_chans, ← hu, modChan, ← State.chan, chan_setChan_same]
  · exact (getF_congr (readBlock_regs _ c) _).trans (showsRecord_setRecord u p.fn c (by decide) (by decide) p.seq).state
  · exact (getF_congr (readBlock_regs _ c) _).trans (seq_setRecord u p.fn c 1 0 hseq).2
  · rw [flag_congr (readBlock_regs _ c), State.flag, State.getF, rd_mbxChan_setRecord, ← hu]
    exact collision_superseded s hc h

/-- A doorbell finds its receiver up: the receiver is woken, and the post is counted. -/
def doorbellUp (c : Nat) (s : State) : State :=
  bump (0x7000 + 4 * c) 1 (if s.toFirefly c then powerOn 27 (wake 27 s) else s)

theorem fireflyOn_chans : (powerOn 27 (wake 27 s)).chans = s.chans := by
  have hset : ∀ u : State, (setDomain 27 0 u).chans = u.chans := fun u => by
    obtain ⟨he, -⟩ | ⟨v, hv, hq⟩ := setDomain_eq u 27 0
    · rw [he]
    · exact hq.chans.trans hv.chans
  have hwake : (wake 27 s).chans = s.chans := by
    unfold wake
    split
    · exact hset s
    · rfl
  obtain he | he := powerOn_firefly (wake 27 s)
  · rw [he, hwake]
  · rw [he, setF_chans, hset, hwake]

theorem chan_doorbellUp (c d : Nat) : (doorbellUp c s).chan d = s.chan d := by
  refine chan_congr ((bump_chans ..).trans ?_) d
  split
  · exact fireflyOn_chans s
  · rfl

theorem latch_fireflyOn (f : Nat) {c : Nat} (hc : c < 16) : (powerOn 27 (wake 27 s)).latch f c = s.latch f c := by
  have hrd : ∀ r : Reg, reportOff (r.key % 0x100000) = false → r.key ≠ (Reg.pwrStat 27).key →
      (powerOn 27 (wake 27 s)).rd r = s.rd r := fun r h hk => (rd_powerOn_firefly _ h hk).trans (rd_wake s h 27 hk)
  have hlo : (Reg.mbxPtrLo f c).key % 0x100000 = 0x3000 + c * 0x20 := by
    simp only [Reg.key, Reg.space, Reg.off]
    omega
  have hhi : (Reg.mbxPtrHi f c).key % 0x100000 = 0x3004 + c * 0x20 := by
    simp only [Reg.key, Reg.space, Reg.off]
    omega
  have hstat : (Reg.pwrStat 27).key % 0x100000 = 0x7006C := by decide
  rw [State.latch, State.latch, hrd (.mbxPtrLo f c) (by rw [hlo]; exact reportOff_of_mailbox (by omega) (by omega))
      (fun h => by rw [h, hstat] at hlo; omega),
    hrd (.mbxPtrHi f c) (by rw [hhi]; exact reportOff_of_mailbox (by omega) (by omega))
      (fun h => by rw [h, hstat] at hhi; omega)]

theorem doorbell_up {f c : Nat} (hc : c < 16) (seq : Nat) (h : s.chanDown c = false) :
    doorbell f c seq s = joinPost c { fn := f, ptr := s.latch f c, seq := seq } (doorbellUp c s) := by
  unfold doorbell doorbellUp
  rw [if_neg (by simp [h])]
  extract_lets u
  have hlatch : u.latch f c = s.latch f c := by
    simp only [u]
    split
    · exact latch_fireflyOn s f hc
    · rfl
  rw [hlatch]

/-- A doorbell whose receiver is down is done at once (R417). -/
theorem doorbell_down {f c seq : Nat} (hc : c < 16) (hseq : seq < 65536) (h : s.chanDown c = true) :
    ShowsRecord f c 3 stDomainDown (doorbell f c seq s) ∧ (doorbell f c seq s).getF (F.mbxAckSeq f c) = seq ∧
    (doorbell f c seq s).chan c = s.chan c := by
  obtain ⟨w, payload, hdone⟩ : ∃ w payload, doorbell f c seq s =
      post f 0x1805 payload (setRecord f c 3 stDomainDown seq (wr (.regDownLog f) w s)) := ⟨_, _, if_pos h⟩
  rw [hdone]
  have hshows := showsRecord_setRecord (wr (.regDownLog f) w s) f c (state := 3) (status := stDomainDown) (by decide)
    (by decide) seq
  have hack := reportOff_mbxAck f hc
  have hstate := reportOff_mbxAckState f hc
  have hseq' := (seq_setRecord (wr (.regDownLog f) w s) f c 3 stDomainDown hseq).1
  have hchan : (setRecord f c 3 stDomainDown seq (wr (.regDownLog f) w s)).chan c = s.chan c := rfl
  generalize setRecord f c 3 stDomainDown seq (wr (.regDownLog f) w s) = v at *
  exact ⟨⟨(getF_post v (F.mbxAckStateState f c) f _ _ hstate).trans hshows.state,
      (getF_post v (F.mbxAckStatus f c) f _ _ hack).trans hshows.status⟩,
    (getF_post v (F.mbxAckSeq f c) f _ _ hack).trans hseq', (chan_congr (post_chans v f _ _) c).trans hchan⟩

/-! ### MBX_TAKE (R414) -/

/-- The post with what its message block says. -/
def readPost (p : Post) (firefly : Bool) (block : List Byte) : Post :=
  { p with
    type := if p.ptr == 0 then 0 else leAt block 4 2, replyAddr := if p.ptr == 0 then 0 else leAt block 8 8,
    replyMax := if p.ptr == 0 then 0 else leAt block 16 4, status := blockStatus firefly p.ptr block }

theorem execMbxTake_none {c : MbxId} (block : List Byte) (h : (s.chan c).untaken = none) :
    execMbxTake c block s = .next s := by
  unfold execMbxTake
  rw [h]
  exact done_self s

/-- The receiver may take the post: it has none, it is up, and the block is being read where there is one. -/
def State.mayTake (s : State) (c : Nat) (p : Post) : Prop :=
  (s.chan c).taken = none ∧ s.chanDown c = false ∧ (p.ptr = 0 ∨ (s.mbxTag p.fn c).isSome = true)

section
variable {s} {c : MbxId} {p : Post} (hp : (s.chan c).untaken = some p) (block : List Byte)
include hp

theorem execMbxTake_frozen (h : s.dmaOn p.fn = false) : execMbxTake c block s = done s (dropMbxTag p.fn c s) := by
  unfold execMbxTake
  rw [hp]
  exact if_pos h

theorem execMbxTake_waits (hon : s.dmaOn p.fn = true) (h : ¬ s.mayTake c p) : execMbxTake c block s = .next s := by
  have hwait : ((s.chan c).taken.isSome || s.chanDown c || (p.ptr != 0 && (s.mbxTag p.fn c).isNone)) = true := by
    simp only [State.mayTake, not_and_or, not_or] at h
    simp only [Bool.or_eq_true, Bool.and_eq_true, bne_iff_ne, Option.isNone_iff_eq_none]
    rcases h with h | h | ⟨hptr, htag⟩
    · exact .inl (.inl (Option.isSome_iff_ne_none.mpr h))
    · exact .inl (.inr (by simpa using h))
    · exact .inr ⟨hptr, by simpa using htag⟩
  unfold execMbxTake
  rw [hp]
  exact (if_neg (by simp [hon])).trans ((if_pos hwait).trans (done_self s))

theorem execMbxTake_takes (hon : s.dmaOn p.fn = true) (h : s.mayTake c p) :
    execMbxTake c block s = done s (postRecord (readPost p (s.toFirefly c) block) c 2 0
      (setChan c { untaken := none, taken := some (readPost p (s.toFirefly c) block) } (dropMbxTag p.fn c s))) := by
  obtain ⟨htaken, hup, htag⟩ := h
  have hgo : ¬ ((s.chan c).taken.isSome || s.chanDown c || (p.ptr != 0 && (s.mbxTag p.fn c).isNone)) = true := by
    rw [htaken, hup]
    rcases htag with htag | htag
    · simp [htag]
    · simp [Option.isSome_iff_ne_none.mp htag]
  unfold execMbxTake
  rw [hp]
  exact (if_neg (by simp [hon])).trans (if_neg hgo)

end

/-- The post is taken, and its record reads TAKEN. -/
theorem taken_shows (c : Nat) (q : Post) :
    let t := postRecord q c 2 0 (setChan c { untaken := none, taken := some q } s)
    t.chan c = { untaken := none, taken := some q } ∧ t.getF (F.mbxAckStateState q.fn c) = 2 := by
  have hrec := postRecord_alone (setChan c { untaken := none, taken := some q } s) (p := q) (c := c)
    (fun q' hq' => by simp at hq') 2 0
  dsimp only
  rw [hrec]
  exact ⟨(chan_congr (setRecord_chans ..) c).trans (chan_setChan_same s c _),
    (showsRecord_setRecord _ q.fn c (by decide) (by decide) q.seq).state⟩

/-! ### MBX_DONE (R414, R420) -/

/-- A post has a reply to write. -/
abbrev Post.wants (p : Post) : Prop := p.replyAddr ≠ 0 ∧ p.reply ≠ [] ∧ p.mute = false

/-- The status that its record shows: a reply that does not fit is cut. -/
def Post.doneStatus (p : Post) : Nat :=
  if p.wants ∧ decide (p.replyMax < p.reply.length) = true ∧ p.status = stOk then stPartial else p.status

/-- The reply is written, and the channel's receiver is free. -/
def replied (c : Nat) (p : Post) (s : State) : State :=
  modChan c (fun x => { x with taken := none })
    (if p.wants then emit (.hostWrite p.fn p.replyAddr (p.reply.take p.replyMax) false) s else s)

theorem execMbxDone_none {c : MbxId} (h : (s.chan c).taken = none) : execMbxDone c s = .next s := by
  unfold execMbxDone
  rw [h]
  exact done_self s

section
variable {s} {c : MbxId} {p : Post} (hp : (s.chan c).taken = some p)
include hp

theorem execMbxDone_held (h : s.chanDown c = true ∨ (p.wants ∧ s.dmaOn p.fn = false)) :
    execMbxDone c s = .next s := by
  unfold execMbxDone
  rw [hp]
  exact (if_pos h).trans (done_self s)

theorem execMbxDone_sends (h : ¬ (s.chanDown c = true ∨ (p.wants ∧ s.dmaOn p.fn = false))) :
    execMbxDone c s = done s (readBlock c
      (if p.mute then replied c p s else postRecord p c 3 p.doneStatus (replied c p s))) := by
  unfold execMbxDone
  rw [hp]
  exact if_neg h

end

theorem replied_regs (c : Nat) (p : Post) : (replied c p s).regs = s.regs := by
  unfold replied
  split <;> rfl

theorem chan_replied (c : Nat) (p : Post) :
    (replied c p s).chan c = { untaken := (s.chan c).untaken, taken := none } := by
  unfold replied
  rw [modChan, chan_setChan_same]
  split <;> rfl

theorem doneStatus_lt {p : Post} (h : p.status < 65536) : p.doneStatus < 65536 := by
  unfold Post.doneStatus
  split
  · decide
  · exact h

/-- After the answer: the reply has left, the channel is free, and the record reads DONE. -/
theorem answered_shows (c : Nat) (p : Post) :
    let t := readBlock c (if p.mute then replied c p s else postRecord p c 3 p.doneStatus (replied c p s))
    t.chan c = { untaken := (s.chan c).untaken, taken := none } ∧
    (p.wants → .hostWrite p.fn p.replyAddr (p.reply.take p.replyMax) false ∈ t.out) ∧
    (p.mute = false → p.status < 65536 → (∀ q, (s.chan c).untaken = some q → q.fn ≠ p.fn) →
      ShowsRecord p.fn c 3 p.doneStatus t) ∧
    (p.mute = true → t.regs = s.regs) := by
  intro t
  have hchan : (if p.mute then replied c p s else postRecord p c 3 p.doneStatus (replied c p s)).chan c =
      (replied c p s).chan c := by
    split
    · rfl
    · exact chan_congr (postRecord_chans ..) c
  have hout : (if p.mute then replied c p s else postRecord p c 3 p.doneStatus (replied c p s)).out =
      (replied c p s).out := by
    split
    · rfl
    · exact postRecord_out ..
  refine ⟨(readBlock_chans ..).trans (hchan.trans (chan_replied s c p)), fun hwants => ?_, fun hmute hst halone => ?_,
    fun hmute => ?_⟩
  · refine ((Quiet.refl _).readBlock c).out.subset ?_
    rw [hout, replied, if_pos hwants]
    exact List.mem_cons_self
  · have halone' : ∀ q, ((replied c p s).chan c).untaken = some q → q.fn ≠ p.fn := by
      rw [chan_replied]
      exact halone
    have hshows := showsRecord_setRecord (replied c p s) p.fn c (state := 3) (by decide) (doneStatus_lt hst) p.seq
    have ht : t.regs = (setRecord p.fn c 3 p.doneStatus p.seq (replied c p s)).regs := by
      rw [← postRecord_alone _ halone']
      refine (readBlock_regs _ c).trans (congrArg State.regs (if_neg (by simp [hmute])))
    exact ⟨(getF_congr ht _).trans hshows.state, (getF_congr ht _).trans hshows.status⟩
  · refine (readBlock_regs _ c).trans ?_
    rw [if_pos hmute]
    exact replied_regs s c p

theorem doneStatus_whole {p : Post} (h : ¬ p.wants ∨ p.reply.length ≤ p.replyMax) : p.doneStatus = p.status := by
  refine if_neg fun ⟨hwants, hcut, _⟩ => ?_
  have hlt := of_decide_eq_true hcut
  exact h.elim (fun hno => hno hwants) fun hle => absurd hle (by omega)

theorem doneStatus_cut {p : Post} (hwants : p.wants) (hcut : p.replyMax < p.reply.length) (hst : p.status = stOk) :
    p.doneStatus = stPartial := if_pos ⟨hwants, decide_eq_true hcut, hst⟩

/-! ### MBX_HOST_ENABLE (R421) -/

/-- A field of RW bits that a word is stored into takes the word's. -/
theorem getF_wr_merged (x : Fld) (v : Word) (h : x.lo + x.width ≤ 32)
    (hrw : ∀ i < x.width, (x.reg.bitsWith .rw).getLsbD (x.lo + i) = true) :
    (wr x.reg (s.merged x.reg v) s).getF x = x.get v := by
  apply Nat.eq_of_testBit_eq
  intro i
  rw [State.getF, get_testBit, get_testBit, rd_wr_same]
  by_cases hi : i < x.width
  · have hbit : (s.merged x.reg v).getLsbD (x.lo + i) = v.getLsbD (x.lo + i) :=
      (masked_getLsbD _ v (x.reg.bitsWith .rw) (by omega)).trans (if_pos (hrw i hi))
    rw [hbit]
  · simp [hi]

/-- What a write breaks: SIZE and VEC stand while EN is 1, and have ranges. -/
def State.hostRefused (s : State) (f : Nat) (v : Word) : Prop :=
  (s.flag (F.mbxHostCfgEn f) = true ∧ ¬ (bitsOf v.toNat 8 8 = s.getF (F.mbxHostCfgVec f) ∧
    bitsOf v.toNat 16 4 = s.getF (F.mbxHostCfgSize f))) ∨ 4 < bitsOf v.toNat 16 4 ∨
    (if isPf f then 256 else 32) ≤ bitsOf v.toNat 8 8

theorem hostEnable_refused {f : Nat} {v : Word} (h : s.hostRefused f v) :
    (hostEnable f v s).rd (.mbxHostCfg f) = s.rd (.mbxHostCfg f) := by
  have hmod : (Reg.mbxHostCfg f).key % 0x100000 = 0x3208 := by
    simp only [Reg.key, Reg.space, Reg.off]
    omega
  have hrep : reportOff ((Reg.mbxHostCfg f).key % 0x100000) = false := by
    rw [hmod]
    decide
  have hkey : (Reg.mbxHostCfg f).key ≠ (Reg.regEvents f).key := by
    simp only [Reg.key, Reg.space, Reg.off]
    omega
  rw [hostEnable]
  refine (congrArg (fun u : State => u.rd (.mbxHostCfg f)) (if_pos h)).trans ?_
  rw [cfgRefused, rd_post _ _ _ _ _ hrep]
  split
  · exact rd_setF_ne s (F.regEventsCfgRefused f) (.mbxHostCfg f) 1 hkey
  · rfl

/-- The host mailbox with a word stored in MBX_HOST_CFG. -/
def hostCfgStored (f : Nat) (v : Word) (s : State) : State :=
  wr (.mbxHostCfg f) ((keepWrite (.mbxHostCfg f) v s).merged (.mbxHostCfg f) v) (keepWrite (.mbxHostCfg f) v s)

theorem hostEnable_accepted {f : Nat} {v : Word} (h : ¬ s.hostRefused f v) : hostEnable f v s =
    if s.flag (F.mbxHostCfgEn f) = false ∧ v.getLsbD 31 = true
    then setF (F.mbxHostStatusLastSeq f) 0 (setF (F.mbxHostAckAckSeq f) 0 (hostCfgStored f v s))
    else hostCfgStored f v s := if_neg h

theorem hostCfgStored_shows (f : Nat) (v : Word) :
    (hostCfgStored f v s).flag (F.mbxHostCfgEn f) = v.getLsbD 31 ∧
    (hostCfgStored f v s).getF (F.mbxHostCfgSize f) = bitsOf v.toNat 16 4 := by
  have hen : ∀ i, i < 1 → ((Reg.mbxHostCfg f).bitsWith .rw).getLsbD (31 + i) = true :=
    (by decide : ∀ i, i < 1 → ((Reg.mbxHostCfg 0).bitsWith .rw).getLsbD (31 + i) = true)
  have hsize : ∀ i, i < 4 → ((Reg.mbxHostCfg f).bitsWith .rw).getLsbD (16 + i) = true :=
    (by decide : ∀ i, i < 4 → ((Reg.mbxHostCfg 0).bitsWith .rw).getLsbD (16 + i) = true)
  refine ⟨?_, getF_wr_merged _ (F.mbxHostCfgSize f) v (Nat.le_of_ble_eq_true rfl) hsize⟩
  rw [State.flag, hostCfgStored, getF_wr_merged _ (F.mbxHostCfgEn f) v (Nat.le_of_ble_eq_true rfl) hen]
  have hbit := get_testBit (F.mbxHostCfgEn f) v 0
  have hlt : (F.mbxHostCfgEn f).get v < 2 := Nat.mod_lt _ Nat.two_pos
  rw [Nat.testBit_zero] at hbit
  rw [Nat.mod_eq_of_lt hlt] at hbit
  exact hbit

theorem mbxHost_keys (f : Nat) : (Reg.mbxHostCfg f).key ≠ (Reg.mbxHostStatus f).key ∧
    (Reg.mbxHostCfg f).key ≠ (Reg.mbxHostAck f).key ∧ (Reg.mbxHostAck f).key ≠ (Reg.mbxHostStatus f).key := by
  simp only [Reg.key, Reg.space, Reg.off]
  omega

/-- A rise of EN starts SEQ anew (R421). -/
theorem seqsAnew_shows (f : Nat) (u : State) :
    let t := setF (F.mbxHostStatusLastSeq f) 0 (setF (F.mbxHostAckAckSeq f) 0 u)
    t.rd (.mbxHostCfg f) = u.rd (.mbxHostCfg f) ∧ t.getF (F.mbxHostStatusLastSeq f) = 0 ∧
    t.getF (F.mbxHostAckAckSeq f) = 0 := by
  obtain ⟨hstat, hack, hboth⟩ := mbxHost_keys f
  intro t
  refine ⟨?_, getF_setF_bits _ _ (by decide) (by decide), ?_⟩
  · exact (rd_setF_ne _ (F.mbxHostStatusLastSeq f) _ 0 hstat).trans (rd_setF_ne u (F.mbxHostAckAckSeq f) _ 0 hack)
  · exact (getF_setF_ne _ (F.mbxHostStatusLastSeq f) (F.mbxHostAckAckSeq f) 0 hboth).trans
      (getF_setF_bits u _ (by decide) (by decide))

theorem hostEnable_shows {f : Nat} {v : Word} (h : ¬ s.hostRefused f v) :
    (hostEnable f v s).flag (F.mbxHostCfgEn f) = v.getLsbD 31 ∧
    (hostEnable f v s).getF (F.mbxHostCfgSize f) = bitsOf v.toNat 16 4 ∧
    (s.flag (F.mbxHostCfgEn f) = false → v.getLsbD 31 = true →
      (hostEnable f v s).getF (F.mbxHostStatusLastSeq f) = 0 ∧ (hostEnable f v s).getF (F.mbxHostAckAckSeq f) = 0) := by
  obtain ⟨hen, hsize⟩ := hostCfgStored_shows s f v
  rw [hostEnable_accepted s h]
  generalize hostCfgStored f v s = u at *
  split
  next hrise =>
    obtain ⟨hcfg, hlast, hack⟩ := seqsAnew_shows f u
    exact ⟨(congrArg (fun w => (F.mbxHostCfgEn f).get w == 1) hcfg).trans hen,
      (congrArg (F.mbxHostCfgSize f).get hcfg).trans hsize, fun _ _ => ⟨hlast, hack⟩⟩
  next hno => exact ⟨hen, hsize, fun hoff hon => absurd ⟨hoff, hon⟩ hno⟩

/-! ### NOTICE_WRITE and MBX_HOST_ACK (R421 to R423) -/

/-- A notice may be written: the mailbox is enabled, its function may send, and a slot is free. -/
def State.mayNotice (s : State) (f : Nat) : Prop :=
  s.flag (F.mbxHostCfgEn f) = true ∧ s.dmaOn f = true ∧
    (s.getF (F.mbxHostStatusLastSeq f) + 65536 - s.getF (F.mbxHostAckAckSeq f)) % 65536 <
      16 * 2 ^ s.getF (F.mbxHostCfgSize f)

theorem execNoticeWrite_idle {f : FnId} (h : (s.fn f).notices = [] ∨ ¬ s.mayNotice f) :
    execNoticeWrite f s = .next s := by
  unfold execNoticeWrite
  extract_lets x last size ack
  split
  next => exact done_self s
  next n r hn =>
    have hno : ¬ s.mayNotice f := h.resolve_left fun hnil => by simp [x, hnil] at hn
    refine (if_neg fun hmay => hno ?_).trans (done_self s)
    simpa [State.mayNotice, last, size, ack, and_assoc] using hmay

/-- The oldest notice leaves, and MBX_HOST_STATUS counts it. -/
theorem execNoticeWrite_writes {f : FnId} {n : Notice} {r : List Notice} (hn : (s.fn f).notices = n :: r)
    (hmay : s.mayNotice f) : ∃ u vec, execNoticeWrite f s =
      done s (msix f vec (setF (F.mbxHostStatusLastSeq f) ((s.getF (F.mbxHostStatusLastSeq f) + 1) % 65536) u)) ∧
      (u.fn f).notices = r := by
  have hgo : (s.flag (F.mbxHostCfgEn f) && s.dmaOn f && decide ((s.getF (F.mbxHostStatusLastSeq f) + 65536 -
      s.getF (F.mbxHostAckAckSeq f)) % 65536 < 16 * 2 ^ s.getF (F.mbxHostCfgSize f))) = true := by
    simpa [State.mayNotice, and_assoc] using hmay
  unfold execNoticeWrite
  dsimp only
  rw [hn]
  refine ⟨_, _, if_pos hgo, ?_⟩
  exact congrArg Fn.notices (fn_setFn_same s f _)

theorem noticed_shows (f : Nat) (vec : Nat) {seq : Nat} (hseq : seq < 65536) :
    let t := msix f vec (setF (F.mbxHostStatusLastSeq f) seq s)
    (t.fn f).notices = (s.fn f).notices ∧ t.getF (F.mbxHostStatusLastSeq f) = seq := by
  intro t
  have hq : Quiet (setF (F.mbxHostStatusLastSeq f) seq s) t := (Quiet.refl _).msix f vec
  have hmod : (Reg.mbxHostStatus f).key % 0x100000 = 0x3210 := by
    simp only [Reg.key, Reg.space, Reg.off]
    omega
  have hcore : (t.fn f).core.notices = (s.fn f).core.notices := congrArg Fn.notices (hq.fns f)
  refine ⟨hcore, (hq.getF (F.mbxHostStatusLastSeq f) ?_).trans
    (getF_setF_bits _ _ (by decide) hseq)⟩
  rw [hmod]
  decide

/-- ACK_SEQ takes a number between the present one and the last written (R423). -/
theorem ackSeq_hostAck (f : Nat) {v : Nat} (hv : v < 65536) : (hostAck f v s).getF (F.mbxHostAckAckSeq f) =
    if 1 ≤ (v + 65536 - s.getF (F.mbxHostAckAckSeq f)) % 65536 ∧
      (v + 65536 - s.getF (F.mbxHostAckAckSeq f)) % 65536 ≤
        (s.getF (F.mbxHostStatusLastSeq f) + 65536 - s.getF (F.mbxHostAckAckSeq f)) % 65536
    then v else s.getF (F.mbxHostAckAckSeq f) := by
  have hmod : (Reg.mbxHostAck f).key % 0x100000 = 0x320C := by
    simp only [Reg.key, Reg.space, Reg.off]
    omega
  unfold hostAck
  extract_lets ack d
  split
  next => exact getF_setF_bits s _ (by decide) hv
  next =>
    refine getF_post s (F.mbxHostAckAckSeq f) f _ _ ?_
    rw [hmod]
    decide

/-- Settles O53: each command of a mailbox by whether it has something to act on, and by the branch that it takes. -/
theorem mailboxesCarryPosts : Obligations.MailboxesCarryPosts := by
  refine ⟨fun f c seq s hc => ?_, fun c block s h => execMbxTake_none s block h, fun c block p s hp => ?_,
    fun c s h => execMbxDone_none s h, fun c p s hp => ?_, fun f v s hc => ?_, fun f s => ?_, fun f v s hc => ?_⟩
  · have hexec : execMbxDoorbell f c seq s = done s (doorbell f c seq.toNat s) := bar0_acts hc (.mbxDoorbell f c seq) _
    refine ⟨_, hexec, fun hdown => ?_, fun hup => ?_⟩
    · obtain ⟨hshows, hseq, hchan⟩ := doorbell_down s (f := f) c.isLt seq.isLt hdown
      exact ⟨hshows.state, hshows.status, hseq, hchan⟩
    · rw [doorbell_up s c.isLt seq.toNat hup]
      obtain ⟨hwaits, hstate, hseq, hcoll⟩ := joinPost_waits (doorbellUp c s) c.isLt
        { fn := f, ptr := s.latch f c, seq := seq.toNat } seq.isLt
      rw [chan_doorbellUp] at hcoll
      exact ⟨hwaits, hstate, hseq, hcoll⟩
  · refine ⟨fun h => execMbxTake_frozen hp block h, fun hon h => execMbxTake_waits hp block hon h, fun hon h => ?_⟩
    obtain ⟨hchan, hstate⟩ := taken_shows (dropMbxTag p.fn c s) c (readPost p (s.toFirefly c) block)
    refine ⟨_, readPost p (s.toFirefly c) block, execMbxTake_takes hp block hon h, hchan, rfl, rfl, ?_, ?_, rfl, hstate⟩
    · simp [readPost]
    · simp [readPost]
  · refine ⟨fun h => execMbxDone_held hp h, fun h => ?_⟩
    obtain ⟨hchan, hout, hrec, hmute⟩ := answered_shows s c p
    refine ⟨_, execMbxDone_sends hp h, hchan, hout, fun hm hst halone => ?_, hmute⟩
    have hshows := hrec hm hst halone
    exact ⟨hshows.state, fun hwhole => hshows.status.trans (doneStatus_whole hwhole),
      fun hwants hcut hok => hshows.status.trans (doneStatus_cut hwants hcut hok)⟩
  · have hexec : execMbxHostEnable f v s = done s (hostEnable f v s) := bar0_acts hc (.mbxHostEnable f v) _
    exact ⟨_, hexec, hostEnable_refused s, hostEnable_shows s⟩
  · refine ⟨execNoticeWrite_idle s, fun n r hn hmay => ?_⟩
    obtain ⟨u, vec, hexec, hnotices⟩ := execNoticeWrite_writes s hn hmay
    obtain ⟨hkept, hlast⟩ := noticed_shows u f vec
      (seq := (s.getF (F.mbxHostStatusLastSeq f) + 1) % 65536) (Nat.mod_lt _ (by decide))
    exact ⟨_, hexec, hkept.trans hnotices, hlast⟩
  · have hexec : execMbxHostAck f v s = done s (hostAck f v.toNat s) := bar0_acts hc (.mbxHostAck f v) _
    exact ⟨_, hexec, ackSeq_hostAck s f v.isLt⟩

end Sys2Proof.Machine
end

section
/-! Proofs: the restarts of the cores, telemetry and the thermal steps (SCARAB_WATCHDOG_EXPIRY, SCARAB_RESTARTED,
FIREFLY_RESTART, TELEMETRY_SAMPLE, THERM_GATE, THERM_WARN, THERM_STOP, THERM_TRIP; R419, R451 to R454). -/

namespace Sys2Proof.Machine

variable (s : State)

/-! ### What packing leaves of a partition (R301, R485) -/

/-- What says whether a partition stores, and why not: its armed interval, the stops that wait, its interruption. -/
def Part.stops (x : Part) : Option Label × List (Nat × Nat) × List Gap := (x.begun, x.stopDue, x.gaps)

/-- The stops of a partition. -/
def State.stops (s : State) (q : Nat) : Option Label × List (Nat × Nat) × List Gap := (s.part q).stops

theorem stops_takePage (page : Nat) (x : Part) : (takePage page x).stops = x.stops := by
  unfold takePage
  split
  · rfl
  · split <;> rfl

theorem stops_takePages (k page : Nat) (x : Part) : (takePages k page x).stops = x.stops := by
  induction k generalizing page x with
  | zero => rfl
  | succ k ih => exact (ih ..).trans (stops_takePage page x)

theorem stops_append_part (x : Part) (r : Rec) : (x.append r).stops = x.stops :=
  stops_takePages (pageOf (x.writePos + r.bytes - 1) + 1 - pageOf x.writePos) (pageOf x.writePos) x

section
variable (q : Nat)

theorem stops_modPart {g : Part → Part} (h : ∀ x, (g x).stops = x.stops) (p : Nat) :
    (modPart p g s).stops q = s.stops q := by
  by_cases hq : q = p
  · rw [hq, State.stops, part_modPart_same, h, State.stops]
  · rw [State.stops, part_modPart_ne s hq, State.stops]

theorem Quiet.stops {s t : State} (h : Quiet s t) : t.stops q = s.stops q := by
  have hcore : (t.part q).core.stops = (s.part q).core.stops := congrArg Part.stops (h.parts q)
  exact hcore

@[simp] theorem stops_modBank (b : Nat) (g : Bank → Bank) : (modBank b g s).stops q = s.stops q := rfl
@[simp] theorem stops_setBank (b : Nat) (x : Bank) : (setBank b x s).stops q = s.stops q := rfl

@[simp] theorem stops_ite (c : Prop) [Decidable c] (t u : State) :
    (if c then t else u).stops q = if c then t.stops q else u.stops q := apply_ite (State.stops · q) c t u

@[simp] theorem stops_each {α : Type} (g : α → State → State) (h : ∀ a u, (g a u).stops q = u.stops q) (l : List α) :
    (each g l s).stops q = s.stops q := each_proj s (State.stops · q) g h l

@[simp] theorem stops_append (p : Nat) (r : Rec) : (append p r s).stops q = s.stops q :=
  stops_modPart s q (g := fun x => x.append (s.fenced p x.writePos r)) (fun x => stops_append_part x _) p
@[simp] theorem stops_appendAll (p : Nat) (rs : List Rec) : (appendAll p rs s).stops q = s.stops q := by
  simp [appendAll]
@[simp] theorem stops_bump (code n : Nat) : (bump code n s).stops q = s.stops q := ((Quiet.refl s).bump code n).stops q
@[simp] theorem stops_appendBank (p b : Nat) (r : Rec) : (appendBank p b r s).stops q = s.stops q := by
  simp [appendBank]
@[simp] theorem stops_writeDue (p b : Nat) (forced : Bool) : (writeDue p b forced s).stops q = s.stops q := by
  simp [writeDue, ite_apply]
@[simp] theorem stops_writeStoreModes (p : Nat) : (writeStoreModes p s).stops q = s.stops q := by
  rw [writeStoreModes, stops_appendAll]
  exact stops_modPart s q (g := fun x => { x with storeModes := [] }) (fun _ => rfl) p
@[simp] theorem stops_writeBankGaps (p b : Nat) (resume : Option Label) :
    (writeBankGaps p b resume s).stops q = s.stops q := by
  simp [writeBankGaps]
@[simp] theorem stops_crossTo (b : Nat) (t : Label) : (crossTo b t s).stops q = s.stops q := by simp [crossTo]

@[simp] theorem stops_flushRun (p b : Nat) (k : Bool) : (flushRun p b k s).stops q = s.stops q := by
  unfold flushRun
  extract_lets s1 x s2
  split <;> simp [s1, s2]

@[simp] theorem stops_openRecords (p b : Nat) (t : Label) : (openRecords p b t s).stops q = s.stops q := by
  simp [openRecords, writeFrame]
@[simp] theorem stops_flushState (p b : Nat) (k : Bool) : (flushState p b k s).stops q = s.stops q := by
  simp [flushState]
@[simp] theorem stops_joinRun (p b : Nat) (e : StateSample) : (joinRun p b e s).stops q = s.stops q := by
  simp [joinRun]

@[simp] theorem stops_packSample (p b : Nat) (e : StateSample) : (packSample p b e s).stops q = s.stops q := by
  unfold packSample
  extract_lets s1 s2 s3 now
  have h1 : s1.stops q = s.stops q := by simp [s1]
  have h2 : s2.stops q = s.stops q := by
    simp only [s2]
    split <;> simp [h1]
  simp [s3, h1, h2]

@[simp] theorem stops_packState (p b : Nat) (upto : Label) (force k : Bool) :
    (packState p b upto force k s).stops q = s.stops q := by
  simp [packState]

end

/-! ### A stop at the next block boundary (R301, R453) -/

theorem mem_addPiece (reason detail : Nat) (t : Label) (gs : List Gap) :
    (addPiece reason detail t gs).any (fun g => g.reason == reason) = true := by
  unfold addPiece
  split
  next g hg =>
    have hmem : g ∈ gs := List.mem_of_getLast? hg
    split
    next hr => exact List.any_eq_true.mpr ⟨g, hmem, beq_iff_eq.mpr hr⟩
    next => simp
  next => simp

/-- A partition has been told to stop for a cause: the stop waits, or it is a piece of the interruption. -/
def State.toldToStop (s : State) (reason p : Nat) : Prop :=
  (s.part p).stopDue.any (fun d => d.1 == reason) = true ∨ (s.part p).gaps.any (fun g => g.reason == reason) = true

theorem toldToStop_congr {s t : State} {reason p : Nat} (h : t.stops p = s.stops p) :
    t.toldToStop reason p ↔ s.toldToStop reason p := by
  have hdue : (t.part p).stopDue = (s.part p).stopDue := congrArg (fun x => x.2.1) h
  have hgaps : (t.part p).gaps = (s.part p).gaps := congrArg (fun x => x.2.2) h
  rw [State.toldToStop, State.toldToStop, hdue, hgaps]

/-- Storing of a partition stops: a piece joins its interruption, and nothing else of it changes. -/
theorem stopStoring_piece (p reason detail : Nat) (t : Label) : ∃ u : State, (∀ q, u.stops q = s.stops q) ∧
    ∃ from_, stopStoring p reason detail t s =
      modPart p (fun x => { x with gaps := addPiece reason detail from_ x.gaps, storing := false }) u := by
  unfold stopStoring
  extract_lets first s1 s2 s3 from_ s4
  have h1 : ∀ q, s1.stops q = s.stops q := fun q => by simp [s1]
  have h2 : ∀ q, s2.stops q = s.stops q := fun q => by
    simp only [s2]
    split <;> simp [h1]
  have h3 : ∀ q, s3.stops q = s.stops q := fun q =>
    (each_proj s2 (State.stops · q) (fun b => modBank b fun x => { x with gaps := addPiece reason detail t x.gaps })
      (fun _ _ => rfl) _).trans (h2 q)
  have h4 : ∀ q, s4.stops q = s.stops q := fun q => by
    simp only [s4]
    split
    · rw [stops_each _ _ _ fun b u => by split <;> rfl]
      exact h3 q
    · exact h3 q
  exact ⟨s4, h4, from_, rfl⟩

theorem stopAtBlock_tells (p reason detail : Nat) : (stopAtBlock p reason detail s).toldToStop reason p := by
  unfold stopAtBlock
  split
  · obtain ⟨u, -, from_, he⟩ := stopStoring_piece s p reason detail (s.nextBlock p (s.now - 1))
    rw [he, State.toldToStop, part_modPart_same]
    exact .inr (mem_addPiece ..)
  · rw [State.toldToStop, part_modPart_same]
    split
    next h => exact .inl h
    next => simp

theorem stops_stopAtBlock_ne {p q : Nat} (h : q ≠ p) (reason detail : Nat) :
    (stopAtBlock p reason detail s).stops q = s.stops q := by
  unfold stopAtBlock
  split
  · obtain ⟨u, hu, from_, he⟩ := stopStoring_piece s p reason detail (s.nextBlock p (s.now - 1))
    rw [he, ← hu, State.stops, part_modPart_ne u h, State.stops]
  · rw [State.stops, part_modPart_ne s h, State.stops]

theorem begun_stopAtBlock (p reason detail q : Nat) :
    ((stopAtBlock p reason detail s).part q).begun = (s.part q).begun := by
  by_cases hq : q = p
  · subst hq
    unfold stopAtBlock
    split
    · obtain ⟨u, hu, from_, he⟩ := stopStoring_piece s q reason detail (s.nextBlock q (s.now - 1))
      rw [he, part_modPart_same]
      exact congrArg Prod.fst (hu q)
    · rw [part_modPart_same]
      split <;> rfl
  · exact congrArg Prod.fst (stops_stopAtBlock_ne s hq reason detail)

/-- Every partition whose armed interval has begun is told to stop. -/
theorem each_stopAtBlock_tells (reason detail : Nat) :
    let t := each (fun p => stopAtBlock p reason detail) s.begunParts s
    t.begunParts = s.begunParts ∧ ∀ p ∈ s.begunParts, t.toldToStop reason p := by
  intro t
  have hbegun : ∀ q, (t.part q).begun = (s.part q).begun := fun q =>
    each_proj s (fun u => (u.part q).begun) _ (fun p u => begun_stopAtBlock u p reason detail q) _
  refine ⟨by simp only [State.begunParts, hbegun], fun p hp => ?_⟩
  refine each_reaches s (State.toldToStop · reason p) (fun p => stopAtBlock p reason detail) hp
    (fun u => stopAtBlock_tells u p reason detail) fun b _ u hu => ?_
  by_cases hb : p = b
  · rw [hb]
    exact stopAtBlock_tells u b reason detail
  · exact (toldToStop_congr (stops_stopAtBlock_ne u hb reason detail)).mpr hu

/-! ### Posts that a reset of their receiver clears (R419) -/

/-- A fetch of descriptors stores in no register. -/
theorem tryFetch_regs (f n : Nat) : (tryFetch f n s).regs = s.regs := by
  unfold tryFetch
  repeat' split
  · rfl
  · unfold awaitRead
    split <;> rfl
  · rfl

theorem serveReads_regs : (serveReads s).regs = s.regs := by
  unfold serveReads
  split
  · rfl
  · refine each_proj { s with readWait := [] } State.regs _ (fun f u => ?_) _
    exact (each_proj _ State.regs readBlock (fun c v => readBlock_regs v c) _).trans
      (each_proj u State.regs (fun n => tryFetch f n) (fun n v => tryFetch_regs v f n) _)

theorem dropMbxTag_regs (f c : Nat) : (dropMbxTag f c s).regs = s.regs := by
  unfold dropMbxTag
  split
  · exact serveReads_regs _
  · rfl

theorem rd_postRecord {r : Reg} {c : Nat} (hack : ∀ f, r.key ≠ (Reg.mbxAck f c).key)
    (hstate : ∀ f, r.key ≠ (Reg.mbxAckState f c).key) (p : Post) (state status : Nat) :
    (postRecord p c state status s).rd r = s.rd r := by
  unfold postRecord
  repeat' split
  · rfl
  · exact rd_setRecord s (hack _) (hstate _) ..
  · exact rd_setRecord s (hack _) (hstate _) ..

/-- A register beside the acknowledge records of a channel, the event queues and the counter status. -/
structure Reg.beside (r : Reg) (c : Nat) : Prop where
  reports : r.key % 0x100000 ∉ [0x200C, 0x8008]
  ack : ∀ f, r.key ≠ (Reg.mbxAck f c).key
  state : ∀ f, r.key ≠ (Reg.mbxAckState f c).key

theorem Reg.beside_of_key_mod {r : Reg} {c : Nat} (hc : c < 16) (hq : r.key % 0x100000 ∉ [0x200C, 0x8008])
    (h : r.key % 0x100000 < 0x3000 ∨ 0x4000 ≤ r.key % 0x100000) : r.beside c :=
  ⟨hq, fun f he => by have := mbxAck_key_mod f hc; rw [← he] at this; omega,
    fun f he => by have := mbxAckState_key_mod f hc; rw [← he] at this; omega⟩

theorem mbxChan_beside {d : Nat} (hd : d < 16) (c : Nat) : (Reg.mbxChan d).beside c := by
  refine ⟨?_, fun f => ?_, fun f => ?_⟩
  · rw [mbxChan_key_mod hd]
    simp only [List.mem_cons, List.not_mem_nil, or_false, not_or]
    omega
  · simp only [Reg.key, Reg.space, Reg.off]
    omega
  · simp only [Reg.key, Reg.space, Reg.off]
    omega

theorem rd_losePost {r : Reg} {c : Nat} (h : r.beside c) (p : Post) : (losePost c p s).rd r = s.rd r := by
  unfold losePost
  split
  · rfl
  · extract_lets u
    have hu : u.rd r = s.rd r := by
      refine (((WritesAt.refl [0x200C, 0x8008] _).bump (by decide) (by decide) _ _).regs r h.reports).trans ?_
      exact (rd_postRecord _ h.ack h.state p 3 stResetLost).trans (rd_congr (dropMbxTag_regs s p.fn c) r)
    exact ((writesAt_post u p.fn _ _).regs r h.reports).trans hu

theorem losePost_keeps (c : Nat) (p : Post) : (losePost c p s).chans = s.chans ∧ (losePost c p s).mgmt = s.mgmt := by
  have hdrop := dropMbxTag_quiet s p.fn c
  have hrec : (postRecord p c 3 stResetLost (dropMbxTag p.fn c s)).mgmt = (dropMbxTag p.fn c s).mgmt := by
    unfold postRecord
    repeat' split
    all_goals rfl
  unfold losePost
  split
  · exact ⟨rfl, rfl⟩
  · extract_lets u
    have hq : Quiet (postRecord p c 3 stResetLost (dropMbxTag p.fn c s)) (post p.fn 0x1806 (c + p.seq * 2 ^ 16) u) :=
      ((Quiet.refl _).bump _ _).post _ _ _
    exact ⟨hq.chans.trans ((postRecord_chans ..).trans hdrop.chans), hq.mgmt.trans (hrec.trans hdrop.mgmt)⟩

/-- The posts of one channel are cleared where its receiver is reset. -/
def loseChan (firefly : Bool) (c : Nat) (s : State) : State :=
  if s.toFirefly c != firefly then s
  else setChan c {} (each (losePost c) ((s.chan c).taken.toList ++ (s.chan c).untaken.toList) s)

theorem losePosts_eq (firefly : Bool) : losePosts firefly s = each (loseChan firefly) (List.range 16) s := rfl

theorem rd_loseChan {r : Reg} {c : Nat} (h : r.beside c) (firefly : Bool) : (loseChan firefly c s).rd r = s.rd r := by
  unfold loseChan
  split
  · rfl
  · exact each_proj s (State.rd · r) (losePost c) (fun p u => rd_losePost u h p) _

theorem loseChan_mgmt (firefly : Bool) (c : Nat) : (loseChan firefly c s).mgmt = s.mgmt := by
  unfold loseChan
  split
  · rfl
  · exact each_mgmt s (losePost c) (fun p u => (losePost_keeps u c p).2) _

theorem chan_loseChan_ne {c d : Nat} (h : d ≠ c) (firefly : Bool) : (loseChan firefly c s).chan d = s.chan d := by
  unfold loseChan
  split
  · rfl
  · rw [chan_setChan_ne _ h]
    exact chan_congr (each_proj s State.chans (losePost c) (fun p u => (losePost_keeps u c p).1) _) d

theorem chan_loseChan_same (firefly : Bool) (c : Nat) :
    (loseChan firefly c s).chan c = if s.toFirefly c = firefly then {} else s.chan c := by
  unfold loseChan
  by_cases h : s.toFirefly c = firefly
  · rw [if_neg (by simp [h]), if_pos h, chan_setChan_same]
  · rw [if_pos (by simpa using h), if_neg h]

theorem losePosts_mgmt (firefly : Bool) : (losePosts firefly s).mgmt = s.mgmt := by
  rw [losePosts_eq, each_mgmt s (loseChan firefly) (fun c u => loseChan_mgmt u firefly c)]

theorem rd_losePosts {r : Reg} (h : ∀ c, c < 16 → r.beside c) (firefly : Bool) : (losePosts firefly s).rd r = s.rd r := by
  rw [losePosts_eq]
  exact each_keeps s (State.rd · r) (loseChan firefly) _ fun c hc u => rd_loseChan u (h c (List.mem_range.mp hc)) firefly

/-- A channel of the receiver is empty, and another one is as it was. -/
theorem chan_losePosts {c : Nat} (hc : c < 16) (firefly : Bool) :
    (losePosts firefly s).chan c = if s.toFirefly c = firefly then {} else s.chan c := by
  rw [losePosts_eq]
  refine each_at s (State.chan · c) (loseChan firefly) (fun u => u.toFirefly c = s.toFirefly c) c
    (fun x => if s.toFirefly c = firefly then {} else x) (fun d u hu => ?_) (fun u hu => ?_)
    (fun d u hd => chan_loseChan_ne u hd.symm firefly) _ List.nodup_range (List.mem_range.mpr hc) rfl
  · refine Eq.trans ?_ hu
    exact congrArg (fun w => (F.mbxChanTarget c).get w == 1) (rd_loseChan u (mbxChan_beside hc d) firefly)
  · rw [chan_loseChan_same, hu]

/-! ### Notices and FAULT# -/

theorem notifyAll_rd {r : Reg} (h : reportOff (r.key % 0x100000) = false) (n : Notice) :
    (notifyAll n s).rd r = s.rd r :=
  each_proj s (State.rd · r) (fun f => notify f n) (fun f u => by
    obtain ⟨x, hq⟩ := notify_quiet u f n
    exact hq.regs r h) _

theorem notifyAll_waiting (n : Notice) : (notifyAll n s).waiting = s.waiting :=
  each_proj s State.waiting (fun f => notify f n) (fun f u => by
    obtain ⟨x, hq⟩ := notify_quiet u f n
    exact hq.waiting) _

/-- FAULT# is all that its causes change of management. -/
theorem pinUpdate_mgmt : ∃ pin, (pinUpdate s).mgmt = { s.mgmt with faultPin := pin } := by
  unfold pinUpdate
  extract_lets low m s1 s2
  have h2 : s2.mgmt = s1.mgmt :=
    each_mgmt s1 (fun f => setF (F.fltStatusFaultPin f) (if low then 1 else 0)) (fun _ _ => rfl) [0, 128]
  split
  next => exact ⟨s.mgmt.faultPin, rfl⟩
  next => exact ⟨low, by simp only [ite_mgmt, postPfs_mgmt, spend_mgmt, h2, ite_self, s1, m, emit_mgmt]⟩

theorem setCause_mgmt (n : Nat) : ∃ pin, (setCause n s).mgmt = { s.mgmt with faultPin := pin } := by
  obtain ⟨pin, h⟩ := pinUpdate_mgmt (setF ⟨.fltPinCause, n, 1⟩ 1 s)
  exact ⟨pin, h⟩

/-! ### SCARAB_WATCHDOG_EXPIRY (R419, R451, R452) -/

/-- The restarts of Scarab in the last 60 s. -/
def State.recentRestarts (s : State) : List Label :=
  s.mgmt.restartTimes.filter fun t => decide (s.elapsed < t + 60 * ticksPerSecond)

/-- Scarab goes down: a fourth restart within 60 s has no cause to start again. -/
def scarabStopped (cause : Nat) (s : State) : State :=
  losePosts false (logFault 0x0D 0 cause (setF F.mgmtStatusRunning 0 { s with mgmt := { s.mgmt with
    scarabDown := true, restartTimes := s.elapsed :: s.recentRestarts,
    restartCause := if decide (3 ≤ s.recentRestarts.length) then none else some cause } }))

/-- Scarab is held. -/
def scarabHalted (s : State) : State :=
  setCause 3 (logFault 0x0E 0 0 (event F.secEventsHalted 0x1902 0 (setF F.mgmtStatusHalted 1 s)))

theorem execScarabWatchdogExpiry_eq (cause : CoreFault) (h : s.mgmt.scarabDown = false) :
    execScarabWatchdogExpiry cause s = if decide (3 ≤ s.recentRestarts.length)
      then done s (scarabHalted (scarabStopped (CoreFault.code cause) s))
      else done s (scarabStopped (CoreFault.code cause) s) := if_neg (by simp [h])

theorem execScarabWatchdogExpiry_down (cause : CoreFault) (h : s.mgmt.scarabDown = true) :
    execScarabWatchdogExpiry cause s = .next s := (if_pos h).trans (done_self s)

theorem mgmtStatus_beside (c : Nat) (hc : c < 16) : Reg.mgmtStatus.beside c :=
  Reg.beside_of_key_mod hc (by decide) (by decide)

theorem scarabStopped_shows (cause : Nat) : (scarabStopped cause s).mgmt.scarabDown = true ∧
    (scarabStopped cause s).mgmt.restartCause = (if 3 ≤ s.recentRestarts.length then none else some cause) ∧
    (scarabStopped cause s).flag F.mgmtStatusRunning = false := by
  have hmgmt : (scarabStopped cause s).mgmt = { s.mgmt with
      scarabDown := true, restartTimes := s.elapsed :: s.recentRestarts,
      restartCause := if decide (3 ≤ s.recentRestarts.length) then none else some cause } := by
    rw [scarabStopped, losePosts_mgmt, logFault_mgmt _ _ _ _ (by decide), setF_mgmt]
  refine ⟨by rw [hmgmt], by simp [hmgmt], ?_⟩
  rw [scarabStopped, State.flag, State.getF, rd_losePosts _ mgmtStatus_beside,
    ((Quiet.refl _).logFault _ _ _ (by decide)).regs .mgmtStatus (by decide)]
  exact flag_setF_zero _ .mgmtStatus (by decide)

theorem scarabHalted_shows : (scarabHalted s).mgmt.scarabDown = s.mgmt.scarabDown ∧
    (scarabHalted s).mgmt.restartCause = s.mgmt.restartCause ∧
    (scarabHalted s).flag F.mgmtStatusRunning = s.flag F.mgmtStatusRunning ∧
    (scarabHalted s).flag F.mgmtStatusHalted = true ∧ ((scarabHalted s).getF F.fltPinCauseCause).testBit 3 = true := by
  unfold scarabHalted
  generalize hu : event F.secEventsHalted 0x1902 0 (setF F.mgmtStatusHalted 1 s) = u
  have hmgmt : u.mgmt = s.mgmt := by rw [← hu, event, postPfs_mgmt, setF_mgmt, setF_mgmt]
  have hrd : u.rd .mgmtStatus = (setF F.mgmtStatusHalted 1 s).rd .mgmtStatus := by
    rw [← hu, rd_event _ _ _ _ (by decide) (by decide)]
  have hlog : (logFault 0x0E 0 0 u).rd .mgmtStatus = u.rd .mgmtStatus :=
    ((Quiet.refl u).logFault _ _ _ (by decide)).regs .mgmtStatus (by decide)
  have hcause := rd_setCause (logFault 0x0E 0 0 u) (q := .mgmtStatus) (by decide) (by decide) 3
  obtain ⟨pin, hpin⟩ := setCause_mgmt (logFault 0x0E 0 0 u) 3
  rw [logFault_mgmt _ _ _ _ (by decide), hmgmt] at hpin
  refine ⟨by rw [hpin], by rw [hpin], ?_, ?_, ?_⟩
  · simp only [State.flag, State.getF, hcause, hlog, hrd]
    exact congrArg (· == 1) (getF_setF_misses s F.mgmtStatusRunning F.mgmtStatusHalted 1 (by decide) (by decide))
  · simp only [State.flag, State.getF, hcause, hlog, hrd]
    exact flag_setF_one s .mgmtStatus (by decide)
  · rw [fltPinCause_setCause _ (by decide), Nat.testBit_or, Nat.testBit_two_pow_self, Bool.or_true]

/-! ### SCARAB_RESTARTED (R282, R419, R451) -/

/-- Scarab runs again, and says so. -/
def scarabBack (c : Nat) (s : State) : State :=
  let n := min 65535 (s.getF F.mgmtStatusRestarts + 1)
  let t := each restartEval (List.range 8)
    { s with mgmt := { s.mgmt with scarabDown := false, restartCause := none }, waiting := [] }
  let t := bump 0x9000 1 (setF F.mgmtStatusRestarts n (setF F.mgmtStatusRunning 1 t))
  notifyAll { type := 3, payload := leBytes 2 n ++ leBytes 1 c }
    (targetUp false (event F.secEventsRestart 0x1901 (c + n * 2 ^ 16) t))

theorem execScarabRestarted_none (h : s.mgmt.restartCause = none) : execScarabRestarted s = .next s := by
  unfold execScarabRestarted
  rw [h]
  exact done_self s

theorem execScarabRestarted_some {c : Nat} (h : s.mgmt.restartCause = some c) : execScarabRestarted s =
    done s (each readBlock (List.range 16)
      (each runWaiting s.waiting (restartBringUp (followGate (scarabBack c s))))) := by
  unfold execScarabRestarted
  rw [h]
  rfl

theorem scarabBack_shows (c : Nat) : (scarabBack c s).mgmt.scarabDown = false ∧
    (scarabBack c s).mgmt.restartCause = none ∧ (scarabBack c s).waiting = [] ∧
    (scarabBack c s).getF F.mgmtStatusRestarts = min 65535 (s.getF F.mgmtStatusRestarts + 1) := by
  unfold scarabBack
  extract_lets n m t u
  have ht : t.mgmt.scarabDown = false ∧ t.mgmt.restartCause = none ∧ t.waiting = [] := by
    refine ⟨?_, ?_, ?_⟩
    · exact congrArg Mgmt.scarabDown (each_mgmt _ restartEval (fun _ _ => rfl) _)
    · exact congrArg Mgmt.restartCause (each_mgmt _ restartEval (fun _ _ => rfl) _)
    · exact each_proj _ State.waiting restartEval (fun _ _ => rfl) _
  have hu : Quiet (setF F.mgmtStatusRestarts n (setF F.mgmtStatusRunning 1 t)) u := (Quiet.refl _).bump _ _
  have humgmt : u.mgmt = t.mgmt := hu.mgmt
  have hwait : u.waiting = t.waiting := hu.waiting
  have hcount : u.getF F.mgmtStatusRestarts = n :=
    (hu.getF F.mgmtStatusRestarts (by decide)).trans (getF_setF_bits _ .mgmtStatus (by decide) (by omega))
  clear_value u
  generalize hv : targetUp false (event F.secEventsRestart 0x1901 (c + n * 2 ^ 16) u) = v
  have hq : Quiet (setF F.secEventsRestart 1 u) v := by
    rw [← hv]
    exact ((Quiet.refl _).postPfs _ _).postPfs _ _
  have hvmgmt : v.mgmt = t.mgmt := hq.mgmt.trans humgmt
  have hvcount : v.getF F.mgmtStatusRestarts = n := (hq.getF F.mgmtStatusRestarts (by decide)).trans
    ((getF_setF_ne u F.secEventsRestart F.mgmtStatusRestarts 1 (by decide)).trans hcount)
  refine ⟨?_, ?_, ?_, ?_⟩
  · rw [notifyAll_mgmt, hvmgmt, ht.1]
  · rw [notifyAll_mgmt, hvmgmt, ht.2.1]
  · rw [notifyAll_waiting, hq.waiting]
    exact hwait.trans ht.2.2
  · exact (congrArg F.mgmtStatusRestarts.get (notifyAll_rd v (by decide) _)).trans hvcount

/-! ### FIREFLY_RESTART (R419, R482) -/

/-- Firefly's boot ROM has restarted: its channels are empty, and accept posts. -/
def fireflyRestarted (cause : Nat) (s : State) : State := targetUp true (losePosts true (logFault 0x0F 0 cause s))

theorem fltCount_beside (c : Nat) (hc : c < 16) : (Reg.fltCount 0x0F).beside c :=
  Reg.beside_of_key_mod hc (by decide) (by decide)

theorem fltCount_fireflyRestarted (cause : Nat) : (fireflyRestarted cause s).getF (F.fltCountCount 0x0F) =
    min 0xFFFFFFFF (s.getF (F.fltCountCount 0x0F) + 1) := by
  rw [← fltCount_logFault s (c := 0x0F) (by decide) 0 cause]
  refine (WritesAt.getF ((WritesAt.refl [0x200C, 0x8008] _).postAll (by decide) (by decide) _ _ _)
    (F.fltCountCount 0x0F) (by decide)).trans ?_
  exact congrArg (F.fltCountCount 0x0F).get (rd_losePosts _ fltCount_beside true)

theorem chan_fireflyRestarted {c : Nat} (hc : c < 16) (cause : Nat) :
    (fireflyRestarted cause s).chan c = if s.toFirefly c = true then {} else s.chan c := by
  have hq := (Quiet.refl s).logFault 0x0F 0 cause (by decide)
  have hfire : (logFault 0x0F 0 cause s).toFirefly c = s.toFirefly c :=
    congrArg (fun w => (F.mbxChanTarget c).get w == 1) (hq.regs (.mbxChan c) (reportOff_mbxChan hc))
  rw [fireflyRestarted, targetUp, chan_congr (postPfs_chans _ _ _), chan_losePosts _ hc, hfire, chan_congr hq.chans]

theorem execFireflyRestart_shows (cause : CoreFault) :
    (s.mgmt.fireflyDown = false → execFireflyRestart cause s = done s (fireflyRestarted (CoreFault.code cause) s)) ∧
    (s.mgmt.fireflyDown = true → execFireflyRestart cause s = .next s) :=
  ⟨fun h => if_neg (by simp [h]), fun h => (if_pos h).trans (done_self s)⟩

/-! ### TELEMETRY_SAMPLE (R118, R454) -/

/-- A sample of the sensors, and of the rails. -/
def tempsStored (temps : List Int) (s : State) : State :=
  each (fun e => setF (F.telTempTemp e.2) (twos 16 e.1)) (temps.take 13).zipIdx s

def voltsStored (volts : List Nat) (s : State) : State :=
  each (fun e => setF (F.telVoltMv e.2) e.1) (volts.take 8).zipIdx s

/-- The die temperature and the drift of the banks follow a sample. -/
def sampleShown (s : State) : State :=
  each tempDrift (List.range 8) (setF F.thermStatusDieTemp (twos 16 s.dieTemp) s)

theorem execTelemetrySample_shows (temps : List Int) (volts : List Nat) :
    (s.domainOff 30 = false → execTelemetrySample temps volts s =
      done s (sampleShown (voltsStored volts (tempsStored temps s)))) ∧
    (s.domainOff 30 = true → execTelemetrySample temps volts s = .next s) :=
  ⟨fun h => if_neg (by simp [h]), fun h => (if_pos h).trans (done_self s)⟩

/-- A TEL register: no bank's register, and no report's. -/
structure Reg.telemetry (r : Reg) : Prop where
  reports : reportOff (r.key % 0x100000) = false
  lo : 0x10074000 ≤ r.key
  hi : r.key < 0x10078000

theorem telTemp_telemetry {k : Nat} (hk : k < 13) : (Reg.telTemp k).telemetry := by
  have hkey : (Reg.telTemp k).key = 0x10074000 + k * 4 := by
    simp only [Reg.key, Reg.space, Reg.off]
    omega
  refine ⟨?_, by omega, by omega⟩
  rw [hkey]
  simp only [reportOff, Bool.or_eq_false_iff, Bool.and_eq_false_iff, decide_eq_false_iff_not, beq_eq_false_iff_ne]
  omega

theorem telVolt_telemetry {k : Nat} (hk : k < 8) : (Reg.telVolt k).telemetry := by
  have hkey : (Reg.telVolt k).key = 0x10074040 + k * 4 := by
    simp only [Reg.key, Reg.space, Reg.off]
    omega
  refine ⟨?_, by omega, by omega⟩
  rw [hkey]
  simp only [reportOff, Bool.or_eq_false_iff, Bool.and_eq_false_iff, decide_eq_false_iff_not, beq_eq_false_iff_ne]
  omega

theorem rd_tempDrift {r : Reg} (h : r.telemetry) {b : Nat} (hb : b < 8) : (tempDrift b s).rd r = s.rd r := by
  have hstat : r.key ≠ (Reg.feBankStatus b).key := fun he => by
    have := h.lo
    rw [he] at this
    simp only [Reg.key, Reg.space, Reg.off] at this
    omega
  have hevent : r.key ≠ (Reg.feBankEvents b).key := fun he => by
    have := h.lo
    rw [he] at this
    simp only [Reg.key, Reg.space, Reg.off] at this
    omega
  unfold tempDrift
  split
  · rfl
  · extract_lets out was u
    have hu : u.rd r = s.rd r := rd_setF_ne s (F.feBankStatusTempDrift b) r _ hstat
    split
    · exact (((Quiet.refl _).postBank ..).regs r h.reports).trans
        ((rd_setF_ne u (F.feBankEventsTempDrift b) r 1 hevent).trans hu)
    · exact hu

theorem rd_sampleShown {r : Reg} (h : r.telemetry) : (sampleShown s).rd r = s.rd r := by
  have hkey : r.key ≠ Reg.thermStatus.key := fun he => by
    have := h.lo
    rw [he] at this
    exact absurd this (by decide)
  exact (each_keeps _ (State.rd · r) tempDrift _ fun b hb u => rd_tempDrift u h (List.mem_range.mp hb)).trans
    (rd_setF_ne s F.thermStatusDieTemp r _ hkey)

theorem twos_lt (n : Nat) (v : Int) : twos n v < 2 ^ n := by
  have hpos : (0 : Int) < (2 ^ n : Nat) := by exact_mod_cast Nat.two_pow_pos n
  have hlo := Int.emod_nonneg v hpos.ne'
  have hhi := Int.emod_lt_of_pos v hpos
  unfold twos
  omega

theorem telTemp_key_ne {i j : Nat} (h : i ≠ j) : (Reg.telTemp i).key ≠ (Reg.telTemp j).key := by
  simp only [Reg.key, Reg.space, Reg.off]
  omega

theorem telVolt_key_ne {i j : Nat} (h : i ≠ j) : (Reg.telVolt i).key ≠ (Reg.telVolt j).key := by
  simp only [Reg.key, Reg.space, Reg.off]
  omega

theorem telTemp_key_ne_telVolt {k : Nat} (hk : k < 13) (i : Nat) : (Reg.telTemp k).key ≠ (Reg.telVolt i).key := by
  simp only [Reg.key, Reg.space, Reg.off]
  omega

/-- Each sensor's register takes its sample. -/
theorem telTemp_sampled {temps : List Int} (volts : List Nat) {k : Nat} (h : k < temps.length) (hk : k < 13) :
    (sampleShown (voltsStored volts (tempsStored temps s))).getF (F.telTempTemp k) = twos 16 temps[k] := by
  have hlen : k < (temps.take 13).length := by
    rw [List.length_take]
    omega
  have hset := getF_each_zipIdx s F.telTempTemp (fun v : Int => twos 16 v) (fun i j => telTemp_key_ne)
    (fun _ => (by decide : 16 ≤ 32)) (n := 0) (temps.take 13) hlen
  rw [Nat.zero_add, List.getElem_take, Nat.mod_eq_of_lt (twos_lt 16 _)] at hset
  rw [State.getF, rd_sampleShown _ (telTemp_telemetry hk), voltsStored,
    rd_each_zipIdx _ F.telVoltMv (fun v => v) (telTemp_key_ne_telVolt hk)]
  exact hset

/-- Each rail's register takes its sample. -/
theorem telVolt_sampled (temps : List Int) {volts : List Nat} {k : Nat} (h : k < volts.length) (hk : k < 8) :
    (sampleShown (voltsStored volts (tempsStored temps s))).getF (F.telVoltMv k) = volts[k] % 65536 := by
  have hlen : k < (volts.take 8).length := by
    rw [List.length_take]
    omega
  have hset := getF_each_zipIdx (tempsStored temps s) F.telVoltMv (fun v : Nat => v) (fun i j => telVolt_key_ne)
    (fun _ => (by decide : 16 ≤ 32)) (n := 0) (volts.take 8) hlen
  rw [Nat.zero_add, List.getElem_take] at hset
  rw [State.getF, rd_sampleShown _ (telVolt_telemetry hk)]
  exact hset

/-! ### Thermal steps (R453, R455) -/

/-- The bits of STEPS after one step of four has risen or cleared. -/
theorem steps_bits : ∀ v < 16, ∀ k < 4, ∀ rise : Bool, v.testBit k = !rise →
    (if rise then v + 2 ^ k else v - 2 ^ k) < 16 ∧
    ∀ j < 4, (if rise then v + 2 ^ k else v - 2 ^ k).testBit j = if j = k then rise else v.testBit j := by
  decide

/-- A step that moves is in the other state. -/
theorem testBit_of_thermMove {k : Nat} {rises clears : Int} {b : Bool} (h : s.thermMove k rises clears = some b) :
    (s.getF F.thermStatusSteps).testBit k = !b := by
  unfold State.thermMove at h
  dsimp only at h
  split at h
  next hc =>
    cases h
    exact hc.1
  next =>
    split at h
    next hc =>
      cases h
      exact hc.1
    next => cases h

/-- What the report of a thermal step leaves: STEPS with its bit, and the rest of what it does is reports. -/
theorem steps_thermReport {k : Nat} (hk : k < 4) {rise : Bool} (h : (s.getF F.thermStatusSteps).testBit k = !rise)
    {j : Nat} (hj : j < 4) : ((thermReport k rise s).getF F.thermStatusSteps).testBit j =
      if j = k then rise else (s.getF F.thermStatusSteps).testBit j := by
  have hfit : s.getF F.thermStatusSteps < 16 := Nat.mod_lt _ (by decide)
  obtain ⟨hlt, hbits⟩ := steps_bits _ hfit k hk rise h
  rw [← hbits j hj]
  unfold thermReport
  extract_lets steps s1 s2 s3
  have h1 : s1.getF F.thermStatusSteps = if rise then steps + 2 ^ k else steps - 2 ^ k :=
    getF_setF_bits s .thermStatus (by decide) hlt
  have h2 : s2.getF F.thermStatusSteps = s1.getF F.thermStatusSteps := by
    simp only [s2]
    split
    · exact ((Quiet.refl s1).bump _ _).getF F.thermStatusSteps (by decide)
    · rfl
  have h3 : s3.getF F.thermStatusSteps = s2.getF F.thermStatusSteps :=
    (getF_event s2 F.secEventsTherm F.thermStatusSteps _ _ (by decide)).trans
      (getF_setF_ne s2 F.secEventsTherm F.thermStatusSteps 1 (by decide))
  have hall : s3.getF F.thermStatusSteps = if rise then steps + 2 ^ k else steps - 2 ^ k := h3.trans (h2.trans h1)
  clear_value s3
  split
  · rw [hall]
  · rw [State.getF, notifyAll_rd _ (by decide)]
    exact congrArg (Nat.testBit · j) hall

/-! #### GATE and WARN: Scarab acts them -/

section
variable {s}

/-- A step that Scarab acts stays while Scarab is down, or while nothing moves it. -/
theorem filter_thermMove_none {k : Nat} {rises clears : Int}
    (h : s.thermMove k rises clears = none ∨ s.mgmt.scarabDown = true) :
    ((s.thermMove k rises clears).filter fun _ => !s.mgmt.scarabDown) = none := by
  rcases h with h | h
  · rw [h, Option.filter_none]
  · simp [h]

theorem filter_thermMove_some {k : Nat} {rises clears : Int} {b : Bool} (h : s.thermMove k rises clears = some b)
    (hup : s.mgmt.scarabDown = false) :
    ((s.thermMove k rises clears).filter fun _ => !s.mgmt.scarabDown) = some b := by
  simp [h, hup]

theorem execThermWarn_moves {b : Bool} (h : s.thermMove 1 110 105 = some b) (hup : s.mgmt.scarabDown = false) :
    execThermWarn s = done s (thermReport 1 b s) := by
  unfold execThermWarn
  rw [filter_thermMove_some h hup]

theorem execThermWarn_stays (h : s.thermMove 1 110 105 = none ∨ s.mgmt.scarabDown = true) :
    execThermWarn s = .next s := by
  unfold execThermWarn
  rw [filter_thermMove_none h]
  exact done_self s

theorem execThermGate_rises (h : s.thermMove 0 100 95 = some true) (hup : s.mgmt.scarabDown = false) :
    execThermGate s = done s (followGate (bringUpAgain (thermReport 0 true s))) := by
  unfold execThermGate
  rw [filter_thermMove_some h hup]

theorem execThermGate_clears (h : s.thermMove 0 100 95 = some false) (hup : s.mgmt.scarabDown = false) :
    execThermGate s = done s (bringUp (followGate (thermReport 0 false s))) := by
  unfold execThermGate
  rw [filter_thermMove_some h hup]

theorem execThermGate_stays (h : s.thermMove 0 100 95 = none ∨ s.mgmt.scarabDown = true) :
    execThermGate s = .next s := by
  unfold execThermGate
  rw [filter_thermMove_none h]
  exact done_self s

/-! #### STOP -/

/-- At STOP every partition whose armed interval has begun is told to stop, and the fault is logged. -/
theorem execThermStop_rises (h : s.thermMove 2 118 113 = some true) : ∃ u hot deg,
    execThermStop s = done s (logFault 0x11 hot deg (each (fun p => stopAtBlock p 5 deg) u.begunParts u)) := by
  unfold execThermStop
  rw [h]
  exact ⟨_, _, _, rfl⟩

theorem execThermStop_clears (h : s.thermMove 2 118 113 = some false) :
    execThermStop s = done s (bringUp (stopInterval 0x9005 (thermReport 2 false s))) := by
  unfold execThermStop
  rw [h]

theorem execThermStop_stays (h : s.thermMove 2 118 113 = none) : execThermStop s = .next s := by
  unfold execThermStop
  rw [h]
  exact done_self s

end

/-- The fault that STOP logs leaves the stops of the partitions. -/
theorem stopped_shows (u : State) (hot deg : Nat) :
    let t := logFault 0x11 hot deg (each (fun p => stopAtBlock p 5 deg) u.begunParts u)
    ∀ p ∈ t.begunParts, t.toldToStop 5 p := by
  intro t p hp
  obtain ⟨hbegun, htold⟩ := each_stopAtBlock_tells u 5 deg
  have hq : Quiet (each (fun p => stopAtBlock p 5 deg) u.begunParts u) t := (Quiet.refl _).logFault _ _ _ (by decide)
  have hparts : t.begunParts = u.begunParts := by
    rw [← hbegun]
    refine List.filter_congr fun q _ => ?_
    exact congrArg (fun x => x.1.isSome) (hq.stops q)
  rw [hparts] at hp
  exact (toldToStop_congr (hq.stops p)).mpr (htold p hp)

/-! #### TRIP -/

/-- A trip outlasts the reset that follows it. -/
theorem deviceReset_tripped (kept : Bool) : (deviceReset 2 kept s).mgmt.tripped = s.mgmt.tripped := by
  unfold deviceReset
  extract_lets hot s1 s2 s3 running ps words valid m cicWas cic clk t1 t2 t3 t4 t5
  have hs2 : s2.mgmt = s.mgmt := each_mgmt s1 haltPart (fun p u => haltPart_mgmt u p) _
  have hm : m = s.mgmt := by
    simp only [m]
    rw [show s3 = s2 from if_neg (by decide), hs2]
  have h3 : t3.mgmt = t1.mgmt := by
    rw [setF_mgmt, domainsUp_mgmt, showStraps_mgmt, each_mgmt t1 releasePages (fun p u => releasePages_mgmt u p)]
  have h5 : t5.mgmt = t1.mgmt := by
    rw [setF_mgmt, setF_mgmt, setF_mgmt,
      each_mgmt t3 (fun b => setF (F.feCalStatusAbortReason b) 2) (fun b u => setF_mgmt u _ _), h3]
  have htripped : t1.mgmt.tripped = m.tripped := by simp only [t1]
  rw [setF_mgmt, setF_mgmt, h5, htripped, hm]

theorem railsOff_tripped : (railsOff s).mgmt.tripped = s.mgmt.tripped := rfl

theorem powerLost_tripped : (powerLost s).mgmt.tripped = s.mgmt.tripped := by
  obtain ⟨wake, last, he⟩ := powerLost_eq s
  rw [he, domainsOff_mgmt, railsOff_tripped, setF_mgmt, deviceReset_tripped]

/-- THTRIP# is asserted. -/
def tripState (s : State) : State :=
  let t := emit .thtrip (thermReport 3 true s)
  { t with mgmt := { t.mgmt with tripped := true } }

theorem execThermTrip_trips (h : s.thermMove 3 125 (-32768) = some true) :
    execThermTrip s = done s (powerLost (tripState s)) := by
  unfold execThermTrip
  rw [h]
  rfl

theorem execThermTrip_stays (h : s.thermMove 3 125 (-32768) ≠ some true) : execThermTrip s = .next s := by
  unfold execThermTrip
  split
  next htrue => exact absurd htrue h
  next => exact done_self s

theorem execThermTrip_shows (h : s.thermMove 3 125 (-32768) = some true) : ∃ t, execThermTrip s = .next t ∧
    t.mgmt.rails = false ∧ t.mgmt.tripped = true ∧ ∀ d, 2 ≤ d → d ≤ 30 → t.domain d = 3 := by
  have hexec := execThermTrip_trips s h
  obtain ⟨hrails, -, hoff⟩ := powerLost_shows (tripState s)
  have htripped := powerLost_tripped (tripState s)
  generalize powerLost (tripState s) = u at *
  exact ⟨_, hexec, hrails, htripped, hoff⟩

/-- Settles O58: a core by whether it is down, a sample by whether the ADC has power, a step by how it moves. -/
theorem coresRestartAndStepsFollowTheDie : Obligations.CoresRestartAndStepsFollowTheDie := by
  refine ⟨fun cause s => ⟨fun hup => ?_, fun hdown => execScarabWatchdogExpiry_down s cause hdown⟩, fun c s hc => ?_,
    fun s h => execScarabRestarted_none s h, fun cause s => ?_, fun temps volts s => ?_,
    fun s => ⟨fun b h hup => ?_, execThermWarn_stays⟩, fun s => ⟨fun h hup => ?_, fun h hup => ?_, execThermGate_stays⟩,
    fun s => ⟨fun h => ?_, fun h => ?_, execThermStop_stays⟩,
    fun s => ⟨execThermTrip_shows s, execThermTrip_stays s⟩⟩
  · have hexec := execScarabWatchdogExpiry_eq s cause hup
    obtain ⟨hdown, hcause, hrun⟩ := scarabStopped_shows s (CoreFault.code cause)
    by_cases hhalt : 3 ≤ s.recentRestarts.length
    · rw [if_pos (decide_eq_true hhalt)] at hexec
      rw [if_pos hhalt] at hcause
      obtain ⟨hdown', hcause', hrun', hhalted, hpin⟩ := scarabHalted_shows (scarabStopped (CoreFault.code cause) s)
      exact ⟨_, hexec, hdown'.trans hdown, hrun'.trans hrun, fun hlt => absurd hhalt (Nat.not_le.mpr hlt),
        fun _ => ⟨hcause'.trans hcause, hhalted, hpin⟩⟩
    · rw [if_neg (by simpa using hhalt)] at hexec
      rw [if_neg hhalt] at hcause
      exact ⟨_, hexec, hdown, hrun, fun _ => hcause, fun hge => absurd hge hhalt⟩
  · exact ⟨scarabBack c s, execScarabRestarted_some s hc, scarabBack_shows s c⟩
  · obtain ⟨hup, hdown⟩ := execFireflyRestart_shows s cause
    refine ⟨fun h => ⟨_, hup h, fltCount_fireflyRestarted s _, fun c hc => ?_⟩, hdown⟩
    have hchan := chan_fireflyRestarted s hc (CoreFault.code cause)
    refine ⟨fun hf => hchan.trans (if_pos hf), fun hf => hchan.trans (if_neg (by simp [hf]))⟩
  · obtain ⟨hon, hoff⟩ := execTelemetrySample_shows s temps volts
    exact ⟨fun h => ⟨_, hon h, fun k hlen hk => telTemp_sampled s volts hlen hk,
      fun k hlen hk => telVolt_sampled s temps hlen hk⟩, hoff⟩
  · have hbit := testBit_of_thermMove s h
    exact ⟨_, execThermWarn_moves h hup, steps_thermReport s (by decide) hbit (by decide),
      steps_thermReport s (k := 1) (j := 0) (by decide) hbit (by decide)⟩
  · exact ⟨thermReport 0 true s, execThermGate_rises h hup,
      steps_thermReport s (by decide) (testBit_of_thermMove s h) (by decide)⟩
  · exact ⟨thermReport 0 false s, execThermGate_clears h hup,
      steps_thermReport s (by decide) (testBit_of_thermMove s h) (by decide)⟩
  · obtain ⟨u, hot, deg, hexec⟩ := execThermStop_rises h
    have htold := stopped_shows u hot deg
    dsimp only at htold
    generalize logFault 0x11 hot deg (each (fun p => stopAtBlock p 5 deg) u.begunParts u) = t at *
    exact ⟨_, hexec, htold⟩
  · exact ⟨thermReport 2 false s, execThermStop_clears h,
      steps_thermReport s (by decide) (testBit_of_thermMove s h) (by decide)⟩

end Sys2Proof.Machine
end
